-- ==== Sys2Proof/Word.lean ====
section
/-! DEFINITION. The word and byte types (R2) and the plainest arithmetic on them. -/
namespace Sys2Proof

/-- A byte (R2). -/
abbrev Byte := BitVec 8

/-- A double: one slot of the register store, an effective address, a control register (R2). -/
abbrev Word := BitVec 64

/-- Bits hi = lo + w - 1 down to lo of a natural number (R3). -/
def fld (n lo w : Nat) : Nat := n / 2 ^ lo % 2 ^ w

/-- Bits of a word as a natural number (R3). -/
def Word.bits (v : Word) (lo w : Nat) : Nat := fld v.toNat lo w

/-- Bit k of a word (R3). -/
def Word.bit (v : Word) (k : Nat) : Bool := v.getLsbD k

/-- The word whose value is n modulo 2^64. -/
def word (n : Nat) : Word := BitVec.ofNat 64 n

/-- A Boolean as 0 or 1. -/
def b2n (b : Bool) : Nat := if b then 1 else 0

end Sys2Proof
end

