-- ==== Sys2Proof/Config.lean ====
section
/-! DEFINITION. What an implementation fixes and the spec does not state: fused values, the keys of the security
processor, and the free values. Nothing in Lean can evaluate any of them (log 2, log 5). -/
namespace Sys2Proof.Config

/-- The n-th free value a run uses, where the spec leaves a choice open (log 2). -/
opaque freeValue : Nat → Nat

/-- The slice of a die's L2 that a line is hashed to, and its set there, modulo their numbers (R50). -/
opaque l2Slice : Nat → Nat
opaque l2Set : Nat → Nat

/-- The fused boot level of a row of a die (R373). -/
opaque bootLevel : Nat → Nat → Nat

/-- The fused lowest divider, less 1, that a voltage level permits (R373). -/
opaque lowestDiv : Nat → Nat

/-- The fused weight of an event of a cluster of a die, in picojoules (R370). -/
opaque fuseWeight : Nat → Nat → Nat → BitVec 16

/-- The fused ceiling of a die, in watts (R371). -/
opaque dieCeiling : Nat → Nat

/-- The fused minimum security version (R404). -/
opaque minSvn : Nat

/-- The fused hash of the firmware key (R404). -/
opaque keyHash : BitVec 512

/-- The 64-byte device identifier (R405). -/
opaque deviceId : BitVec 512

/-- The fused device identity key: its RSA-4096 modulus and its private exponent (R405). -/
opaque attModulus : BitVec 4096
opaque attExponent : BitVec 4096

end Sys2Proof.Config
end

