-- ==== Sys2Proof/Machine/Sparse.lean ====
section
/-! DEFINITION. Sparse maps from numbers to values in ONE canonical form: keys strictly rising, and no entry
equal to the value an unlisted key reads as, so that equal maps are equal data. Memory, the register store,
window tables and every table of the machine that has many equal entries are held so. -/
namespace Sys2Proof.Machine

/-- A sparse map: rising keys, no entry equal to the default. -/
abbrev Sparse (α : Type) := List (Nat × α)

/-- The value at key k, d where k is unlisted. -/
def sget {α : Type} (d : α) : Sparse α → Nat → α
  | [], _ => d
  | (k', v) :: m, k => if k' = k then v else sget d m k

/-- Put an entry before the first listed key above k. -/
def sins {α : Type} : Sparse α → Nat → α → Sparse α
  | [], k, v => [(k, v)]
  | e :: m, k, v => if k < e.1 then (k, v) :: e :: m else e :: sins m k v

/-- Write v at key k, keeping the canonical form (writing the default removes the entry). -/
def sput {α : Type} [DecidableEq α] (d : α) (m : Sparse α) (k : Nat) (v : α) : Sparse α :=
  let m := m.filter (·.1 ≠ k)
  if v = d then m else sins m k v

/-- Every listed key is above b, keys strictly rise, and no entry equals the default. -/
def scanon {α : Type} [DecidableEq α] (d : α) : Nat → Sparse α → Bool
  | _, [] => true
  | b, (k, v) :: m => decide (b ≤ k) && decide (v ≠ d) && scanon d (k + 1) m

/-- Update the value at key k by f. -/
def supd {α : Type} [DecidableEq α] (d : α) (m : Sparse α) (k : Nat) (f : α → α) : Sparse α :=
  sput d m k (f (sget d m k))

end Sys2Proof.Machine
end

