-- ==== Sys2Proof/Syntax.lean ====
section
/-! DEFINITION. The instruction syntax of the FG-8: one constructor of `Instr` per row of
spec/opcode_table.json (512 rows: 432 encoded instructions and 80 events that hardware or another
agent performs). Register fields hold a name number (R18); what a well-formed field holds is said in
WellFormed.lean. -/
namespace Sys2Proof

/-- The element types of R28 (TY codes 0 to 14; code 15 is reserved). -/
inductive Ty where
  | f32 | i32 | n32 | bf16 | f16 | i16 | n16 | i8 | n8 | f64 | i64 | e4m3 | e5m2 | i4 | nq4
deriving DecidableEq, Repr

/-- The eight lane types of R199. -/
inductive LaneTy where
  | f32 | i32 | n32 | bf16 | f16 | i16 | i8 | f64
deriving DecidableEq, Repr

/-- The scopes of `fence`, `ld.acq`, `st.rel` and `iinv` (R28, R305). -/
inductive Scope where
  | core | cluster | die | dev | sys
deriving DecidableEq, Repr

/-- The scopes of atomics and reductions (R28, R254). -/
inductive AtScope where
  | blk | cls | dev | sys
deriving DecidableEq, Repr

/-- The registration modes of a phaser member (R323, R324). -/
inductive PhMode where
  | sw | so | wo
deriving DecidableEq, Repr

/-- The lane operations FN 0 to 15 of majors 0x22 to 0x29 (R27, R205). -/
inductive LaneOp where
  | add | sub | mul | mac | min | max | minp | maxp | and | or | xor | shl | shr | sra | clt | ceq
deriving DecidableEq, Repr

/-- The unary operations SUB 0 to 19 of major 0x2A (R27, R208). -/
inductive UnOp where
  | mov | neg | abs | not | rcp | rsqrt | sqrt | exp2 | log2 | tanh | sigm | rnd | clz | popc
  | sumr | maxr | minr | mxs | rev | cls
deriving DecidableEq, Repr

/-- The matrix commands OP 0 to 11 of major 0x30 (R27, R238). -/
inductive MatOp where
  | lease | rel | bload (a : Nat) | mac (d a : Nat) | rot | zero (d : Nat) | st (d a : Nat)
  | ld (d a : Nat) | acc (d a : Nat) | wait (a d : Nat) | claim (a d : Nat) | stat (a d : Nat)
deriving DecidableEq, Repr

/-- The issuing forms of the copy major (R104). -/
inductive CopyForm where
  | cpy | cpyFe | mcast | putsig | cpyPh
deriving DecidableEq, Repr

/-- The element size of a vector memory access (R216). -/
inductive VSize where
  | w | h | b | d
deriving DecidableEq, Repr

/-- The fields of a prefix (R21). -/
structure Pfx where
  cv : Bool := false
  c : Nat := 0
  z : Bool := false
  rm : Nat := 0
  pm : Nat := 0
  stl : Nat := 0
deriving DecidableEq, Repr

/-- The word a prefix may stand before (majors 0x22 to 0x2D and 0x30; R21), without its stall count.
First-fault loads, gathers and scatters are here too, since they are always prefixed (R216, R218). -/
inductive VOp where
  | lane (ty : LaneTy) (op : LaneOp) (d a b : Nat)
  | un (op : UnOp) (ty : LaneTy) (d a : Nat)
  | cvt (sty : Ty) (mode : Nat) (dty : Ty) (d a : Nat)
  | bcast (ty : LaneTy) (d a : Nat)
  | idx (ty : LaneTy) (d a : Nat)
  | pred (ty : LaneTy) (d a : Nat)
  | ext (dbl : Bool) (d a k : Nat)
  | ins (dbl : Bool) (d a k : Nat)
  | ld (sz : VSize) (d a b : Nat)
  | st (sz : VSize) (d a b : Nat)
  | ldff (byte : Bool) (d a b : Nat)
  | ldg (d a b : Nat)
  | sts (d a b : Nat)
  | ldt (half : Bool) (d a b : Nat)
  | swap (d : Nat)
  | mat (op : MatOp)
deriving DecidableEq, Repr

/-- One instruction of a `vtrip` body (R222): a vector or matrix word with its prefix, or a copy form. -/
inductive BodyOp where
  | v (p : Pfx) (op : VOp)
  | copy (f : CopyForm) (d a b : Nat)
deriving DecidableEq, Repr

/-- The record a sampled memory request leaves (R392): issuing PC, effective address, the ticks queued
at hops 0 to 11, its window. -/
structure MemSample where
  pc : Word
  ea : Word
  hops : List Nat
  win : Nat
deriving DecidableEq, Repr

/-- An access that arrives at this package's fabric endpoint (R397): from which endpoint, the offset, the
size in bytes, and what it does. -/
inductive FabricOp where
  | read
  | write (data : List Byte)
  | atomic (op : Nat) (dbl : Bool) (b e : Word)
  | reduce (rop : Nat) (b : Word)
deriving DecidableEq, Repr

/-- A fabric request (R397). -/
structure FabricReq where
  src : Nat
  off : Nat
  size : Nat
  op : FabricOp
deriving DecidableEq, Repr

/-- The instructions and events of the FG-8, one constructor per row of spec/opcode_table.json. `stl` is
the stall count of R18; `d`, `a`, `b`, `l`, `src`, `v`, `x` are name numbers. -/
inductive Instr where
  /-- `ADD` (R147). -/
  | add (d : Nat) (a : Nat) (b : Nat) (stl : Nat)
  /-- `SUB` (R147). -/
  | sub (d : Nat) (a : Nat) (b : Nat) (stl : Nat)
  /-- `AND` (R147). -/
  | and (d : Nat) (a : Nat) (b : Nat) (stl : Nat)
  /-- `OR` (R147). -/
  | or (d : Nat) (a : Nat) (b : Nat) (stl : Nat)
  /-- `XOR` (R147). -/
  | xor (d : Nat) (a : Nat) (b : Nat) (stl : Nat)
  /-- `ANDN` (R147). -/
  | andn (d : Nat) (a : Nat) (b : Nat) (stl : Nat)
  /-- `SLL` (R147). -/
  | sll (d : Nat) (a : Nat) (b : Nat) (stl : Nat)
  /-- `SRL` (R147). -/
  | srl (d : Nat) (a : Nat) (b : Nat) (stl : Nat)
  /-- `SRA` (R147). -/
  | sra (d : Nat) (a : Nat) (b : Nat) (stl : Nat)
  /-- `SLT` (R147). -/
  | slt (d : Nat) (a : Nat) (b : Nat) (stl : Nat)
  /-- `SLTU` (R147). -/
  | sltu (d : Nat) (a : Nat) (b : Nat) (stl : Nat)
  /-- `SEQ` (R147). -/
  | seq (d : Nat) (a : Nat) (b : Nat) (stl : Nat)
  /-- `MIN` (R147). -/
  | min (d : Nat) (a : Nat) (b : Nat) (stl : Nat)
  /-- `MAX` (R147). -/
  | max (d : Nat) (a : Nat) (b : Nat) (stl : Nat)
  /-- `MINN` (R147). -/
  | minn (d : Nat) (a : Nat) (b : Nat) (stl : Nat)
  /-- `MAXN` (R147). -/
  | maxn (d : Nat) (a : Nat) (b : Nat) (stl : Nat)
  /-- `MUL` (R147). -/
  | mul (d : Nat) (a : Nat) (b : Nat) (stl : Nat)
  /-- `MULH` (R147). -/
  | mulh (d : Nat) (a : Nat) (b : Nat) (stl : Nat)
  /-- `MULHN` (R147). -/
  | mulhn (d : Nat) (a : Nat) (b : Nat) (stl : Nat)
  /-- `DIV` (R148). -/
  | div (d : Nat) (a : Nat) (b : Nat) (stl : Nat)
  /-- `DIVN` (R148). -/
  | divn (d : Nat) (a : Nat) (b : Nat) (stl : Nat)
  /-- `REM` (R148). -/
  | rem (d : Nat) (a : Nat) (b : Nat) (stl : Nat)
  /-- `REMN` (R148). -/
  | remn (d : Nat) (a : Nat) (b : Nat) (stl : Nat)
  /-- `CLZ` (R147). -/
  | clz (d : Nat) (a : Nat) (stl : Nat)
  /-- `CTZ` (R147). -/
  | ctz (d : Nat) (a : Nat) (stl : Nat)
  /-- `POPC` (R147). -/
  | popc (d : Nat) (a : Nat) (stl : Nat)
  /-- `BSWAP` (R147). -/
  | bswap (d : Nat) (a : Nat) (stl : Nat)
  /-- `ROTL` (R147). -/
  | rotl (d : Nat) (a : Nat) (b : Nat) (stl : Nat)
  /-- `ROTR` (R147). -/
  | rotr (d : Nat) (a : Nat) (b : Nat) (stl : Nat)
  /-- `SEXTW` (R147). -/
  | sextw (d : Nat) (a : Nat) (stl : Nat)
  /-- `ZEXTW` (R147). -/
  | zextw (d : Nat) (a : Nat) (stl : Nat)
  /-- `ADDI` (R149). -/
  | addi (d : Nat) (a : Nat) (imm : BitVec 10) (stl : Nat)
  /-- `ANDI` (R149). -/
  | andi (d : Nat) (a : Nat) (imm : BitVec 10) (stl : Nat)
  /-- `ORI` (R149). -/
  | ori (d : Nat) (a : Nat) (imm : BitVec 10) (stl : Nat)
  /-- `XORI` (R149). -/
  | xori (d : Nat) (a : Nat) (imm : BitVec 10) (stl : Nat)
  /-- `SLTI` (R149). -/
  | slti (d : Nat) (a : Nat) (imm : BitVec 10) (stl : Nat)
  /-- `SLTNI` (R149). -/
  | sltni (d : Nat) (a : Nat) (imm : BitVec 10) (stl : Nat)
  /-- `SLLI` (R150). -/
  | slli (d : Nat) (a : Nat) (amt : BitVec 6) (stl : Nat)
  /-- `SRLI` (R150). -/
  | srli (d : Nat) (a : Nat) (amt : BitVec 6) (stl : Nat)
  /-- `SRAI` (R150). -/
  | srai (d : Nat) (a : Nat) (amt : BitVec 6) (stl : Nat)
  /-- `ROTLI` (R150). -/
  | rotli (d : Nat) (a : Nat) (amt : BitVec 6) (stl : Nat)
  /-- `LUI` (R151). -/
  | lui (d : Nat) (imm : BitVec 16) (stl : Nat)
  /-- `LMID` (R151). -/
  | lmid (d : Nat) (imm : BitVec 16) (stl : Nat)
  /-- `LTOP` (R151). -/
  | ltop (d : Nat) (imm : BitVec 16) (stl : Nat)
  /-- `FADD_F64` (R154). -/
  | faddF64 (d : Nat) (a : Nat) (b : Nat) (stl : Nat)
  /-- `FSUB_F64` (R154). -/
  | fsubF64 (d : Nat) (a : Nat) (b : Nat) (stl : Nat)
  /-- `FMUL_F64` (R154). -/
  | fmulF64 (d : Nat) (a : Nat) (b : Nat) (stl : Nat)
  /-- `FDIV_F64` (R154). -/
  | fdivF64 (d : Nat) (a : Nat) (b : Nat) (stl : Nat)
  /-- `FSQRT_F64` (R154). -/
  | fsqrtF64 (d : Nat) (a : Nat) (stl : Nat)
  /-- `FMIN_F64` (R155). -/
  | fminF64 (d : Nat) (a : Nat) (b : Nat) (stl : Nat)
  /-- `FMAX_F64` (R155). -/
  | fmaxF64 (d : Nat) (a : Nat) (b : Nat) (stl : Nat)
  /-- `FMAC_F64` (R154). -/
  | fmacF64 (d : Nat) (a : Nat) (b : Nat) (stl : Nat)
  /-- `FLT_F64` (R156). -/
  | fltF64 (d : Nat) (a : Nat) (b : Nat) (stl : Nat)
  /-- `FLE_F64` (R156). -/
  | fleF64 (d : Nat) (a : Nat) (b : Nat) (stl : Nat)
  /-- `FEQ_F64` (R156). -/
  | feqF64 (d : Nat) (a : Nat) (b : Nat) (stl : Nat)
  /-- `FCLASS_F64` (R156). -/
  | fclassF64 (d : Nat) (a : Nat) (stl : Nat)
  /-- `FCVT_I64_F64` (R157). -/
  | fcvtI64F64 (d : Nat) (a : Nat) (stl : Nat)
  /-- `FCVT_N64_F64` (R157). -/
  | fcvtN64F64 (d : Nat) (a : Nat) (stl : Nat)
  /-- `FCVT_I32_F64` (R157). -/
  | fcvtI32F64 (d : Nat) (a : Nat) (stl : Nat)
  /-- `FCVT_N32_F64` (R157). -/
  | fcvtN32F64 (d : Nat) (a : Nat) (stl : Nat)
  /-- `FCVT_F64_I64` (R157). -/
  | fcvtF64I64 (d : Nat) (a : Nat) (stl : Nat)
  /-- `FCVT_F64_N64` (R157). -/
  | fcvtF64N64 (d : Nat) (a : Nat) (stl : Nat)
  /-- `FCVT_F64_I32` (R157). -/
  | fcvtF64I32 (d : Nat) (a : Nat) (stl : Nat)
  /-- `FCVT_F64_N32` (R157). -/
  | fcvtF64N32 (d : Nat) (a : Nat) (stl : Nat)
  /-- `FCVT_F64_F32` (R157). -/
  | fcvtF64F32 (d : Nat) (a : Nat) (stl : Nat)
  /-- `FMINP_F64` (R155). -/
  | fminpF64 (d : Nat) (a : Nat) (b : Nat) (stl : Nat)
  /-- `FMAXP_F64` (R155). -/
  | fmaxpF64 (d : Nat) (a : Nat) (b : Nat) (stl : Nat)
  /-- `FADD_F32` (R154). -/
  | faddF32 (d : Nat) (a : Nat) (b : Nat) (stl : Nat)
  /-- `FSUB_F32` (R154). -/
  | fsubF32 (d : Nat) (a : Nat) (b : Nat) (stl : Nat)
  /-- `FMUL_F32` (R154). -/
  | fmulF32 (d : Nat) (a : Nat) (b : Nat) (stl : Nat)
  /-- `FDIV_F32` (R154). -/
  | fdivF32 (d : Nat) (a : Nat) (b : Nat) (stl : Nat)
  /-- `FSQRT_F32` (R154). -/
  | fsqrtF32 (d : Nat) (a : Nat) (stl : Nat)
  /-- `FMIN_F32` (R155). -/
  | fminF32 (d : Nat) (a : Nat) (b : Nat) (stl : Nat)
  /-- `FMAX_F32` (R155). -/
  | fmaxF32 (d : Nat) (a : Nat) (b : Nat) (stl : Nat)
  /-- `FMAC_F32` (R154). -/
  | fmacF32 (d : Nat) (a : Nat) (b : Nat) (stl : Nat)
  /-- `FLT_F32` (R156). -/
  | fltF32 (d : Nat) (a : Nat) (b : Nat) (stl : Nat)
  /-- `FLE_F32` (R156). -/
  | fleF32 (d : Nat) (a : Nat) (b : Nat) (stl : Nat)
  /-- `FEQ_F32` (R156). -/
  | feqF32 (d : Nat) (a : Nat) (b : Nat) (stl : Nat)
  /-- `FCLASS_F32` (R156). -/
  | fclassF32 (d : Nat) (a : Nat) (stl : Nat)
  /-- `FCVT_I64_F32` (R157). -/
  | fcvtI64F32 (d : Nat) (a : Nat) (stl : Nat)
  /-- `FCVT_N64_F32` (R157). -/
  | fcvtN64F32 (d : Nat) (a : Nat) (stl : Nat)
  /-- `FCVT_I32_F32` (R157). -/
  | fcvtI32F32 (d : Nat) (a : Nat) (stl : Nat)
  /-- `FCVT_N32_F32` (R157). -/
  | fcvtN32F32 (d : Nat) (a : Nat) (stl : Nat)
  /-- `FCVT_F32_I64` (R157). -/
  | fcvtF32I64 (d : Nat) (a : Nat) (stl : Nat)
  /-- `FCVT_F32_N64` (R157). -/
  | fcvtF32N64 (d : Nat) (a : Nat) (stl : Nat)
  /-- `FCVT_F32_I32` (R157). -/
  | fcvtF32I32 (d : Nat) (a : Nat) (stl : Nat)
  /-- `FCVT_F32_N32` (R157). -/
  | fcvtF32N32 (d : Nat) (a : Nat) (stl : Nat)
  /-- `FCVT_F32_F64` (R157). -/
  | fcvtF32F64 (d : Nat) (a : Nat) (stl : Nat)
  /-- `FMINP_F32` (R155). -/
  | fminpF32 (d : Nat) (a : Nat) (b : Nat) (stl : Nat)
  /-- `FMAXP_F32` (R155). -/
  | fmaxpF32 (d : Nat) (a : Nat) (b : Nat) (stl : Nat)
  /-- `BEQZ` (R159). -/
  | beqz (a : Nat) (imm : BitVec 13) (stl : Nat)
  /-- `BNEZ` (R159). -/
  | bnez (a : Nat) (imm : BitVec 13) (stl : Nat)
  /-- `BLTZ` (R159). -/
  | bltz (a : Nat) (imm : BitVec 13) (stl : Nat)
  /-- `BGEZ` (R159). -/
  | bgez (a : Nat) (imm : BitVec 13) (stl : Nat)
  /-- `BLEZ` (R159). -/
  | blez (a : Nat) (imm : BitVec 13) (stl : Nat)
  /-- `BGTZ` (R159). -/
  | bgtz (a : Nat) (imm : BitVec 13) (stl : Nat)
  /-- `DBNZ` (R159). -/
  | dbnz (a : Nat) (imm : BitVec 13) (stl : Nat)
  /-- `J` (R159). -/
  | j (imm : BitVec 22) (stl : Nat)
  /-- `CALL` (R159). -/
  | call (imm : BitVec 22) (stl : Nat)
  /-- `JR` (R159). -/
  | jr (a : Nat) (stl : Nat)
  /-- `CALLR` (R159). -/
  | callr (a : Nat) (stl : Nat)
  /-- `LD_D` (R161). -/
  | ldD (d : Nat) (a : Nat) (imm : BitVec 10) (stl : Nat)
  /-- `LD_W` (R161). -/
  | ldW (d : Nat) (a : Nat) (imm : BitVec 10) (stl : Nat)
  /-- `LD_WN` (R161). -/
  | ldWn (d : Nat) (a : Nat) (imm : BitVec 10) (stl : Nat)
  /-- `LD_H` (R161). -/
  | ldH (d : Nat) (a : Nat) (imm : BitVec 10) (stl : Nat)
  /-- `LD_HN` (R161). -/
  | ldHn (d : Nat) (a : Nat) (imm : BitVec 10) (stl : Nat)
  /-- `LD_B` (R161). -/
  | ldB (d : Nat) (a : Nat) (imm : BitVec 10) (stl : Nat)
  /-- `LD_BN` (R161). -/
  | ldBn (d : Nat) (a : Nat) (imm : BitVec 10) (stl : Nat)
  /-- `ST_D` (R161). -/
  | stD (d : Nat) (a : Nat) (imm : BitVec 10) (stl : Nat)
  /-- `ST_W` (R161). -/
  | stW (d : Nat) (a : Nat) (imm : BitVec 10) (stl : Nat)
  /-- `ST_H` (R161). -/
  | stH (d : Nat) (a : Nat) (imm : BitVec 10) (stl : Nat)
  /-- `ST_B` (R161). -/
  | stB (d : Nat) (a : Nat) (imm : BitVec 10) (stl : Nat)
  /-- `CSRR` (R164). -/
  | csrr (csr : Nat) (d : Nat) (stl : Nat)
  /-- `CSRW` (R164). -/
  | csrw (csr : Nat) (x : Nat) (stl : Nat)
  /-- `CSRS` (R164). -/
  | csrs (csr : Nat) (x : Nat) (stl : Nat)
  /-- `CSRC` (R164). -/
  | csrc (csr : Nat) (x : Nat) (stl : Nat)
  /-- `TRAP` (R169). -/
  | trap (code : BitVec 6) (stl : Nat)
  /-- `RETT` (R138). -/
  | rett (stl : Nat)
  /-- `HALT` (R173). -/
  | halt (stl : Nat)
  /-- `SLEEP` (R172). -/
  | sleep (a : Nat) (stl : Nat)
  /-- `IBAR` (R171). -/
  | ibar (stl : Nat)
  /-- `IINV` (R170). -/
  | iinv (d : Nat) (a : Nat) (sc : Scope) (stl : Nat)
  /-- `BRK` (R169). -/
  | brk (code : BitVec 6) (stl : Nat)
  /-- `RESUME` (R174). -/
  | resume (d : Nat) (a : Nat) (stl : Nat)
  /-- `WSET` (R140). -/
  | wset (a : Nat) (idx : Nat) (stl : Nat)
  /-- `WGET` (R141). -/
  | wget (d : Nat) (idx : Nat) (stl : Nat)
  /-- `WSW` (R142). -/
  | wsw (idx : Nat) (stl : Nat)
  /-- `WSWJ` (R142). -/
  | wswj (idx : Nat) (stl : Nat)
  /-- `WSHR` (R143). -/
  | wshr (d : Nat) (a : Nat) (idx : Nat) (stl : Nat)
  /-- `WCLR` (R144). -/
  | wclr (idx : Nat) (stl : Nat)
  /-- `WARENA` (R145). -/
  | warena (d : Nat) (a : Nat) (stl : Nat)
  /-- `PREFIX` (R21). -/
  | pfx (p : Pfx) (v : VOp)
  /-- `VADD_F32` (R205). -/
  | vaddF32 (d : Nat) (a : Nat) (b : Nat) (stl : Nat)
  /-- `VSUB_F32` (R205). -/
  | vsubF32 (d : Nat) (a : Nat) (b : Nat) (stl : Nat)
  /-- `VMUL_F32` (R205). -/
  | vmulF32 (d : Nat) (a : Nat) (b : Nat) (stl : Nat)
  /-- `VMAC_F32` (R205). -/
  | vmacF32 (d : Nat) (a : Nat) (b : Nat) (stl : Nat)
  /-- `VMIN_F32` (R205). -/
  | vminF32 (d : Nat) (a : Nat) (b : Nat) (stl : Nat)
  /-- `VMAX_F32` (R205). -/
  | vmaxF32 (d : Nat) (a : Nat) (b : Nat) (stl : Nat)
  /-- `VMINP_F32` (R205). -/
  | vminpF32 (d : Nat) (a : Nat) (b : Nat) (stl : Nat)
  /-- `VMAXP_F32` (R205). -/
  | vmaxpF32 (d : Nat) (a : Nat) (b : Nat) (stl : Nat)
  /-- `VAND_F32` (R205). -/
  | vandF32 (d : Nat) (a : Nat) (b : Nat) (stl : Nat)
  /-- `VOR_F32` (R205). -/
  | vorF32 (d : Nat) (a : Nat) (b : Nat) (stl : Nat)
  /-- `VXOR_F32` (R205). -/
  | vxorF32 (d : Nat) (a : Nat) (b : Nat) (stl : Nat)
  /-- `VSHL_F32` (R205). -/
  | vshlF32 (d : Nat) (a : Nat) (b : Nat) (stl : Nat)
  /-- `VSHR_F32` (R205). -/
  | vshrF32 (d : Nat) (a : Nat) (b : Nat) (stl : Nat)
  /-- `VSRA_F32` (R205). -/
  | vsraF32 (d : Nat) (a : Nat) (b : Nat) (stl : Nat)
  /-- `VCLT_F32` (R205). -/
  | vcltF32 (d : Nat) (a : Nat) (b : Nat) (stl : Nat)
  /-- `VCEQ_F32` (R205). -/
  | vceqF32 (d : Nat) (a : Nat) (b : Nat) (stl : Nat)
  /-- `VADD_I32` (R205). -/
  | vaddI32 (d : Nat) (a : Nat) (b : Nat) (stl : Nat)
  /-- `VSUB_I32` (R205). -/
  | vsubI32 (d : Nat) (a : Nat) (b : Nat) (stl : Nat)
  /-- `VMUL_I32` (R205). -/
  | vmulI32 (d : Nat) (a : Nat) (b : Nat) (stl : Nat)
  /-- `VMAC_I32` (R205). -/
  | vmacI32 (d : Nat) (a : Nat) (b : Nat) (stl : Nat)
  /-- `VMIN_I32` (R205). -/
  | vminI32 (d : Nat) (a : Nat) (b : Nat) (stl : Nat)
  /-- `VMAX_I32` (R205). -/
  | vmaxI32 (d : Nat) (a : Nat) (b : Nat) (stl : Nat)
  /-- `VMINP_I32` (R205). -/
  | vminpI32 (d : Nat) (a : Nat) (b : Nat) (stl : Nat)
  /-- `VMAXP_I32` (R205). -/
  | vmaxpI32 (d : Nat) (a : Nat) (b : Nat) (stl : Nat)
  /-- `VAND_I32` (R205). -/
  | vandI32 (d : Nat) (a : Nat) (b : Nat) (stl : Nat)
  /-- `VOR_I32` (R205). -/
  | vorI32 (d : Nat) (a : Nat) (b : Nat) (stl : Nat)
  /-- `VXOR_I32` (R205). -/
  | vxorI32 (d : Nat) (a : Nat) (b : Nat) (stl : Nat)
  /-- `VSHL_I32` (R205). -/
  | vshlI32 (d : Nat) (a : Nat) (b : Nat) (stl : Nat)
  /-- `VSHR_I32` (R205). -/
  | vshrI32 (d : Nat) (a : Nat) (b : Nat) (stl : Nat)
  /-- `VSRA_I32` (R205). -/
  | vsraI32 (d : Nat) (a : Nat) (b : Nat) (stl : Nat)
  /-- `VCLT_I32` (R205). -/
  | vcltI32 (d : Nat) (a : Nat) (b : Nat) (stl : Nat)
  /-- `VCEQ_I32` (R205). -/
  | vceqI32 (d : Nat) (a : Nat) (b : Nat) (stl : Nat)
  /-- `VADD_N32` (R205). -/
  | vaddN32 (d : Nat) (a : Nat) (b : Nat) (stl : Nat)
  /-- `VSUB_N32` (R205). -/
  | vsubN32 (d : Nat) (a : Nat) (b : Nat) (stl : Nat)
  /-- `VMUL_N32` (R205). -/
  | vmulN32 (d : Nat) (a : Nat) (b : Nat) (stl : Nat)
  /-- `VMAC_N32` (R205). -/
  | vmacN32 (d : Nat) (a : Nat) (b : Nat) (stl : Nat)
  /-- `VMIN_N32` (R205). -/
  | vminN32 (d : Nat) (a : Nat) (b : Nat) (stl : Nat)
  /-- `VMAX_N32` (R205). -/
  | vmaxN32 (d : Nat) (a : Nat) (b : Nat) (stl : Nat)
  /-- `VMINP_N32` (R205). -/
  | vminpN32 (d : Nat) (a : Nat) (b : Nat) (stl : Nat)
  /-- `VMAXP_N32` (R205). -/
  | vmaxpN32 (d : Nat) (a : Nat) (b : Nat) (stl : Nat)
  /-- `VAND_N32` (R205). -/
  | vandN32 (d : Nat) (a : Nat) (b : Nat) (stl : Nat)
  /-- `VOR_N32` (R205). -/
  | vorN32 (d : Nat) (a : Nat) (b : Nat) (stl : Nat)
  /-- `VXOR_N32` (R205). -/
  | vxorN32 (d : Nat) (a : Nat) (b : Nat) (stl : Nat)
  /-- `VSHL_N32` (R205). -/
  | vshlN32 (d : Nat) (a : Nat) (b : Nat) (stl : Nat)
  /-- `VSHR_N32` (R205). -/
  | vshrN32 (d : Nat) (a : Nat) (b : Nat) (stl : Nat)
  /-- `VSRA_N32` (R205). -/
  | vsraN32 (d : Nat) (a : Nat) (b : Nat) (stl : Nat)
  /-- `VCLT_N32` (R205). -/
  | vcltN32 (d : Nat) (a : Nat) (b : Nat) (stl : Nat)
  /-- `VCEQ_N32` (R205). -/
  | vceqN32 (d : Nat) (a : Nat) (b : Nat) (stl : Nat)
  /-- `VADD_BF16` (R205). -/
  | vaddBf16 (d : Nat) (a : Nat) (b : Nat) (stl : Nat)
  /-- `VSUB_BF16` (R205). -/
  | vsubBf16 (d : Nat) (a : Nat) (b : Nat) (stl : Nat)
  /-- `VMUL_BF16` (R205). -/
  | vmulBf16 (d : Nat) (a : Nat) (b : Nat) (stl : Nat)
  /-- `VMAC_BF16` (R205). -/
  | vmacBf16 (d : Nat) (a : Nat) (b : Nat) (stl : Nat)
  /-- `VMIN_BF16` (R205). -/
  | vminBf16 (d : Nat) (a : Nat) (b : Nat) (stl : Nat)
  /-- `VMAX_BF16` (R205). -/
  | vmaxBf16 (d : Nat) (a : Nat) (b : Nat) (stl : Nat)
  /-- `VMINP_BF16` (R205). -/
  | vminpBf16 (d : Nat) (a : Nat) (b : Nat) (stl : Nat)
  /-- `VMAXP_BF16` (R205). -/
  | vmaxpBf16 (d : Nat) (a : Nat) (b : Nat) (stl : Nat)
  /-- `VAND_BF16` (R205). -/
  | vandBf16 (d : Nat) (a : Nat) (b : Nat) (stl : Nat)
  /-- `VOR_BF16` (R205). -/
  | vorBf16 (d : Nat) (a : Nat) (b : Nat) (stl : Nat)
  /-- `VXOR_BF16` (R205). -/
  | vxorBf16 (d : Nat) (a : Nat) (b : Nat) (stl : Nat)
  /-- `VSHL_BF16` (R205). -/
  | vshlBf16 (d : Nat) (a : Nat) (b : Nat) (stl : Nat)
  /-- `VSHR_BF16` (R205). -/
  | vshrBf16 (d : Nat) (a : Nat) (b : Nat) (stl : Nat)
  /-- `VSRA_BF16` (R205). -/
  | vsraBf16 (d : Nat) (a : Nat) (b : Nat) (stl : Nat)
  /-- `VCLT_BF16` (R205). -/
  | vcltBf16 (d : Nat) (a : Nat) (b : Nat) (stl : Nat)
  /-- `VCEQ_BF16` (R205). -/
  | vceqBf16 (d : Nat) (a : Nat) (b : Nat) (stl : Nat)
  /-- `VADD_F16` (R205). -/
  | vaddF16 (d : Nat) (a : Nat) (b : Nat) (stl : Nat)
  /-- `VSUB_F16` (R205). -/
  | vsubF16 (d : Nat) (a : Nat) (b : Nat) (stl : Nat)
  /-- `VMUL_F16` (R205). -/
  | vmulF16 (d : Nat) (a : Nat) (b : Nat) (stl : Nat)
  /-- `VMAC_F16` (R205). -/
  | vmacF16 (d : Nat) (a : Nat) (b : Nat) (stl : Nat)
  /-- `VMIN_F16` (R205). -/
  | vminF16 (d : Nat) (a : Nat) (b : Nat) (stl : Nat)
  /-- `VMAX_F16` (R205). -/
  | vmaxF16 (d : Nat) (a : Nat) (b : Nat) (stl : Nat)
  /-- `VMINP_F16` (R205). -/
  | vminpF16 (d : Nat) (a : Nat) (b : Nat) (stl : Nat)
  /-- `VMAXP_F16` (R205). -/
  | vmaxpF16 (d : Nat) (a : Nat) (b : Nat) (stl : Nat)
  /-- `VAND_F16` (R205). -/
  | vandF16 (d : Nat) (a : Nat) (b : Nat) (stl : Nat)
  /-- `VOR_F16` (R205). -/
  | vorF16 (d : Nat) (a : Nat) (b : Nat) (stl : Nat)
  /-- `VXOR_F16` (R205). -/
  | vxorF16 (d : Nat) (a : Nat) (b : Nat) (stl : Nat)
  /-- `VSHL_F16` (R205). -/
  | vshlF16 (d : Nat) (a : Nat) (b : Nat) (stl : Nat)
  /-- `VSHR_F16` (R205). -/
  | vshrF16 (d : Nat) (a : Nat) (b : Nat) (stl : Nat)
  /-- `VSRA_F16` (R205). -/
  | vsraF16 (d : Nat) (a : Nat) (b : Nat) (stl : Nat)
  /-- `VCLT_F16` (R205). -/
  | vcltF16 (d : Nat) (a : Nat) (b : Nat) (stl : Nat)
  /-- `VCEQ_F16` (R205). -/
  | vceqF16 (d : Nat) (a : Nat) (b : Nat) (stl : Nat)
  /-- `VADD_I16` (R205). -/
  | vaddI16 (d : Nat) (a : Nat) (b : Nat) (stl : Nat)
  /-- `VSUB_I16` (R205). -/
  | vsubI16 (d : Nat) (a : Nat) (b : Nat) (stl : Nat)
  /-- `VMUL_I16` (R205). -/
  | vmulI16 (d : Nat) (a : Nat) (b : Nat) (stl : Nat)
  /-- `VMAC_I16` (R205). -/
  | vmacI16 (d : Nat) (a : Nat) (b : Nat) (stl : Nat)
  /-- `VMIN_I16` (R205). -/
  | vminI16 (d : Nat) (a : Nat) (b : Nat) (stl : Nat)
  /-- `VMAX_I16` (R205). -/
  | vmaxI16 (d : Nat) (a : Nat) (b : Nat) (stl : Nat)
  /-- `VMINP_I16` (R205). -/
  | vminpI16 (d : Nat) (a : Nat) (b : Nat) (stl : Nat)
  /-- `VMAXP_I16` (R205). -/
  | vmaxpI16 (d : Nat) (a : Nat) (b : Nat) (stl : Nat)
  /-- `VAND_I16` (R205). -/
  | vandI16 (d : Nat) (a : Nat) (b : Nat) (stl : Nat)
  /-- `VOR_I16` (R205). -/
  | vorI16 (d : Nat) (a : Nat) (b : Nat) (stl : Nat)
  /-- `VXOR_I16` (R205). -/
  | vxorI16 (d : Nat) (a : Nat) (b : Nat) (stl : Nat)
  /-- `VSHL_I16` (R205). -/
  | vshlI16 (d : Nat) (a : Nat) (b : Nat) (stl : Nat)
  /-- `VSHR_I16` (R205). -/
  | vshrI16 (d : Nat) (a : Nat) (b : Nat) (stl : Nat)
  /-- `VSRA_I16` (R205). -/
  | vsraI16 (d : Nat) (a : Nat) (b : Nat) (stl : Nat)
  /-- `VCLT_I16` (R205). -/
  | vcltI16 (d : Nat) (a : Nat) (b : Nat) (stl : Nat)
  /-- `VCEQ_I16` (R205). -/
  | vceqI16 (d : Nat) (a : Nat) (b : Nat) (stl : Nat)
  /-- `VADD_I8` (R205). -/
  | vaddI8 (d : Nat) (a : Nat) (b : Nat) (stl : Nat)
  /-- `VSUB_I8` (R205). -/
  | vsubI8 (d : Nat) (a : Nat) (b : Nat) (stl : Nat)
  /-- `VMUL_I8` (R205). -/
  | vmulI8 (d : Nat) (a : Nat) (b : Nat) (stl : Nat)
  /-- `VMAC_I8` (R205). -/
  | vmacI8 (d : Nat) (a : Nat) (b : Nat) (stl : Nat)
  /-- `VMIN_I8` (R205). -/
  | vminI8 (d : Nat) (a : Nat) (b : Nat) (stl : Nat)
  /-- `VMAX_I8` (R205). -/
  | vmaxI8 (d : Nat) (a : Nat) (b : Nat) (stl : Nat)
  /-- `VMINP_I8` (R205). -/
  | vminpI8 (d : Nat) (a : Nat) (b : Nat) (stl : Nat)
  /-- `VMAXP_I8` (R205). -/
  | vmaxpI8 (d : Nat) (a : Nat) (b : Nat) (stl : Nat)
  /-- `VAND_I8` (R205). -/
  | vandI8 (d : Nat) (a : Nat) (b : Nat) (stl : Nat)
  /-- `VOR_I8` (R205). -/
  | vorI8 (d : Nat) (a : Nat) (b : Nat) (stl : Nat)
  /-- `VXOR_I8` (R205). -/
  | vxorI8 (d : Nat) (a : Nat) (b : Nat) (stl : Nat)
  /-- `VSHL_I8` (R205). -/
  | vshlI8 (d : Nat) (a : Nat) (b : Nat) (stl : Nat)
  /-- `VSHR_I8` (R205). -/
  | vshrI8 (d : Nat) (a : Nat) (b : Nat) (stl : Nat)
  /-- `VSRA_I8` (R205). -/
  | vsraI8 (d : Nat) (a : Nat) (b : Nat) (stl : Nat)
  /-- `VCLT_I8` (R205). -/
  | vcltI8 (d : Nat) (a : Nat) (b : Nat) (stl : Nat)
  /-- `VCEQ_I8` (R205). -/
  | vceqI8 (d : Nat) (a : Nat) (b : Nat) (stl : Nat)
  /-- `VADD_F64` (R205). -/
  | vaddF64 (d : Nat) (a : Nat) (b : Nat) (stl : Nat)
  /-- `VSUB_F64` (R205). -/
  | vsubF64 (d : Nat) (a : Nat) (b : Nat) (stl : Nat)
  /-- `VMUL_F64` (R205). -/
  | vmulF64 (d : Nat) (a : Nat) (b : Nat) (stl : Nat)
  /-- `VMAC_F64` (R205). -/
  | vmacF64 (d : Nat) (a : Nat) (b : Nat) (stl : Nat)
  /-- `VMIN_F64` (R205). -/
  | vminF64 (d : Nat) (a : Nat) (b : Nat) (stl : Nat)
  /-- `VMAX_F64` (R205). -/
  | vmaxF64 (d : Nat) (a : Nat) (b : Nat) (stl : Nat)
  /-- `VMINP_F64` (R205). -/
  | vminpF64 (d : Nat) (a : Nat) (b : Nat) (stl : Nat)
  /-- `VMAXP_F64` (R205). -/
  | vmaxpF64 (d : Nat) (a : Nat) (b : Nat) (stl : Nat)
  /-- `VAND_F64` (R205). -/
  | vandF64 (d : Nat) (a : Nat) (b : Nat) (stl : Nat)
  /-- `VOR_F64` (R205). -/
  | vorF64 (d : Nat) (a : Nat) (b : Nat) (stl : Nat)
  /-- `VXOR_F64` (R205). -/
  | vxorF64 (d : Nat) (a : Nat) (b : Nat) (stl : Nat)
  /-- `VSHL_F64` (R205). -/
  | vshlF64 (d : Nat) (a : Nat) (b : Nat) (stl : Nat)
  /-- `VSHR_F64` (R205). -/
  | vshrF64 (d : Nat) (a : Nat) (b : Nat) (stl : Nat)
  /-- `VSRA_F64` (R205). -/
  | vsraF64 (d : Nat) (a : Nat) (b : Nat) (stl : Nat)
  /-- `VCLT_F64` (R205). -/
  | vcltF64 (d : Nat) (a : Nat) (b : Nat) (stl : Nat)
  /-- `VCEQ_F64` (R205). -/
  | vceqF64 (d : Nat) (a : Nat) (b : Nat) (stl : Nat)
  /-- `VMOV` (R208). -/
  | vmov (ty : LaneTy) (d : Nat) (a : Nat) (stl : Nat)
  /-- `VNEG` (R208). -/
  | vneg (ty : LaneTy) (d : Nat) (a : Nat) (stl : Nat)
  /-- `VABS` (R208). -/
  | vabs (ty : LaneTy) (d : Nat) (a : Nat) (stl : Nat)
  /-- `VNOT` (R208). -/
  | vnot (ty : LaneTy) (d : Nat) (a : Nat) (stl : Nat)
  /-- `VRCP` (R209). -/
  | vrcp (ty : LaneTy) (d : Nat) (a : Nat) (stl : Nat)
  /-- `VRSQRT` (R209). -/
  | vrsqrt (ty : LaneTy) (d : Nat) (a : Nat) (stl : Nat)
  /-- `VSQRT` (R209). -/
  | vsqrt (ty : LaneTy) (d : Nat) (a : Nat) (stl : Nat)
  /-- `VEXP2` (R209). -/
  | vexp2 (ty : LaneTy) (d : Nat) (a : Nat) (stl : Nat)
  /-- `VLOG2` (R209). -/
  | vlog2 (ty : LaneTy) (d : Nat) (a : Nat) (stl : Nat)
  /-- `VTANH` (R209). -/
  | vtanh (ty : LaneTy) (d : Nat) (a : Nat) (stl : Nat)
  /-- `VSIGM` (R209). -/
  | vsigm (ty : LaneTy) (d : Nat) (a : Nat) (stl : Nat)
  /-- `VRND` (R209). -/
  | vrnd (ty : LaneTy) (d : Nat) (a : Nat) (stl : Nat)
  /-- `VCLZ` (R208). -/
  | vclz (ty : LaneTy) (d : Nat) (a : Nat) (stl : Nat)
  /-- `VPOPC` (R208). -/
  | vpopc (ty : LaneTy) (d : Nat) (a : Nat) (stl : Nat)
  /-- `VSUMR` (R210). -/
  | vsumr (ty : LaneTy) (d : Nat) (a : Nat) (stl : Nat)
  /-- `VMAXR` (R210). -/
  | vmaxr (ty : LaneTy) (d : Nat) (a : Nat) (stl : Nat)
  /-- `VMINR` (R210). -/
  | vminr (ty : LaneTy) (d : Nat) (a : Nat) (stl : Nat)
  /-- `VMXS` (R211). -/
  | vmxs (ty : LaneTy) (d : Nat) (a : Nat) (stl : Nat)
  /-- `VREV` (R208). -/
  | vrev (ty : LaneTy) (d : Nat) (a : Nat) (stl : Nat)
  /-- `VCLASS` (R208). -/
  | vclass (ty : LaneTy) (d : Nat) (a : Nat) (stl : Nat)
  /-- `VCVT` (R212). -/
  | vcvt (sty : Ty) (mode : Nat) (dty : Ty) (d : Nat) (a : Nat) (stl : Nat)
  /-- `VBCAST` (R215). -/
  | vbcast (ty : LaneTy) (d : Nat) (a : Nat) (stl : Nat)
  /-- `VEXT_W` (R215). -/
  | vextW (d : Nat) (a : Nat) (k : Nat) (stl : Nat)
  /-- `VEXT_D` (R215). -/
  | vextD (d : Nat) (a : Nat) (k : Nat) (stl : Nat)
  /-- `VINS_W` (R215). -/
  | vinsW (d : Nat) (a : Nat) (k : Nat) (stl : Nat)
  /-- `VINS_D` (R215). -/
  | vinsD (d : Nat) (a : Nat) (k : Nat) (stl : Nat)
  /-- `VPRED` (R215). -/
  | vpred (ty : LaneTy) (d : Nat) (a : Nat) (stl : Nat)
  /-- `VIDX` (R215). -/
  | vidx (ty : LaneTy) (d : Nat) (a : Nat) (stl : Nat)
  /-- `VLD_W` (R216). -/
  | vldW (d : Nat) (a : Nat) (b : Nat) (stl : Nat)
  /-- `VLD_H` (R216). -/
  | vldH (d : Nat) (a : Nat) (b : Nat) (stl : Nat)
  /-- `VLD_B` (R216). -/
  | vldB (d : Nat) (a : Nat) (b : Nat) (stl : Nat)
  /-- `VLD_D` (R216). -/
  | vldD (d : Nat) (a : Nat) (b : Nat) (stl : Nat)
  /-- `VST_W` (R216). -/
  | vstW (d : Nat) (a : Nat) (b : Nat) (stl : Nat)
  /-- `VST_H` (R216). -/
  | vstH (d : Nat) (a : Nat) (b : Nat) (stl : Nat)
  /-- `VST_B` (R216). -/
  | vstB (d : Nat) (a : Nat) (b : Nat) (stl : Nat)
  /-- `VST_D` (R216). -/
  | vstD (d : Nat) (a : Nat) (b : Nat) (stl : Nat)
  /-- `VLDFF_W` (R218). -/
  | vldffW (p : Pfx) (d : Nat) (a : Nat) (b : Nat)
  /-- `VLDFF_B` (R218). -/
  | vldffB (p : Pfx) (d : Nat) (a : Nat) (b : Nat)
  /-- `VLDG_W` (R216). -/
  | vldgW (p : Pfx) (d : Nat) (a : Nat) (b : Nat)
  /-- `VSTS_W` (R216). -/
  | vstsW (p : Pfx) (d : Nat) (a : Nat) (b : Nat)
  /-- `VLDT_W` (R219). -/
  | vldtW (d : Nat) (a : Nat) (b : Nat) (stl : Nat)
  /-- `VLDT_H` (R219). -/
  | vldtH (d : Nat) (a : Nat) (b : Nat) (stl : Nat)
  /-- `VSWAP` (R220). -/
  | vswap (d : Nat) (stl : Nat)
  /-- `VTRIP` (R224). -/
  | vtrip (a : Nat) (n1 : Nat) (mode : Nat) (ns : Nat) (bs : Nat) (stl : Nat)
  /-- `VADD_16` (R24). -/
  | vadd16 (int : Bool) (d : Nat) (b : Nat)
  /-- `VSUB_16` (R24). -/
  | vsub16 (int : Bool) (d : Nat) (b : Nat)
  /-- `VMUL_16` (R24). -/
  | vmul16 (int : Bool) (d : Nat) (b : Nat)
  /-- `VMIN_16` (R24). -/
  | vmin16 (int : Bool) (d : Nat) (b : Nat)
  /-- `VMAX_16` (R24). -/
  | vmax16 (int : Bool) (d : Nat) (b : Nat)
  /-- `VAND_16` (R24). -/
  | vand16 (int : Bool) (d : Nat) (b : Nat)
  /-- `VOR_16` (R24). -/
  | vor16 (int : Bool) (d : Nat) (b : Nat)
  /-- `VXOR_16` (R24). -/
  | vxor16 (int : Bool) (d : Nat) (b : Nat)
  /-- `VMOV_16` (R24). -/
  | vmov16 (int : Bool) (d : Nat) (b : Nat)
  /-- `VNEG_16` (R24). -/
  | vneg16 (int : Bool) (d : Nat) (b : Nat)
  /-- `VABS_16` (R24). -/
  | vabs16 (int : Bool) (d : Nat) (b : Nat)
  /-- `VSHL_16` (R24). -/
  | vshl16 (d : Nat) (b : Nat)
  /-- `VSRA_16` (R24). -/
  | vsra16 (d : Nat) (b : Nat)
  /-- `VCLT_16` (R24). -/
  | vclt16 (int : Bool) (d : Nat) (b : Nat)
  /-- `VCEQ_16` (R24). -/
  | vceq16 (int : Bool) (d : Nat) (b : Nat)
  /-- `VRCP_16` (R24). -/
  | vrcp16 (d : Nat) (b : Nat)
  /-- `VPOPC_16` (R24). -/
  | vpopc16 (d : Nat) (b : Nat)
  /-- `BRK16` (R25). -/
  | brk16
  /-- `VSTRM` (R121). -/
  | vstrm (d : Nat) (a : Nat) (v : Nat) (stl : Nat)
  /-- `VSUNB` (R124). -/
  | vsunb (d : Nat) (a : Nat) (stl : Nat)
  /-- `VSQ` (R123). -/
  | vsq (d : Nat) (a : Nat) (stl : Nat)
  /-- `MLEASE` (R241). -/
  | mlease (stl : Nat)
  /-- `MREL` (R241). -/
  | mrel (stl : Nat)
  /-- `MBLOAD` (R242). -/
  | mbload (a : Nat) (stl : Nat)
  /-- `MMAC` (R243). -/
  | mmac (d : Nat) (a : Nat) (stl : Nat)
  /-- `MROT` (R244). -/
  | mrot (stl : Nat)
  /-- `MZERO` (R245). -/
  | mzero (d : Nat) (stl : Nat)
  /-- `MST` (R246). -/
  | mst (d : Nat) (a : Nat) (stl : Nat)
  /-- `MLD` (R245). -/
  | mld (d : Nat) (a : Nat) (stl : Nat)
  /-- `MACC` (R247). -/
  | macc (d : Nat) (a : Nat) (stl : Nat)
  /-- `MWAIT` (R248). -/
  | mwait (d : Nat) (a : Nat) (stl : Nat)
  /-- `MCLAIM` (R249). -/
  | mclaim (d : Nat) (a : Nat) (stl : Nat)
  /-- `MSTAT` (R248). -/
  | mstat (d : Nat) (a : Nat) (stl : Nat)
  /-- `ATOM_ADD_BLK` (R260). -/
  | atomAddBlk (dbl : Bool) (d : Nat) (a : Nat) (b : Nat) (stl : Nat)
  /-- `ATOM_AND_BLK` (R260). -/
  | atomAndBlk (dbl : Bool) (d : Nat) (a : Nat) (b : Nat) (stl : Nat)
  /-- `ATOM_OR_BLK` (R260). -/
  | atomOrBlk (dbl : Bool) (d : Nat) (a : Nat) (b : Nat) (stl : Nat)
  /-- `ATOM_XOR_BLK` (R260). -/
  | atomXorBlk (dbl : Bool) (d : Nat) (a : Nat) (b : Nat) (stl : Nat)
  /-- `ATOM_MIN_BLK` (R260). -/
  | atomMinBlk (dbl : Bool) (d : Nat) (a : Nat) (b : Nat) (stl : Nat)
  /-- `ATOM_MAX_BLK` (R260). -/
  | atomMaxBlk (dbl : Bool) (d : Nat) (a : Nat) (b : Nat) (stl : Nat)
  /-- `ATOM_SWAP_BLK` (R260). -/
  | atomSwapBlk (dbl : Bool) (d : Nat) (a : Nat) (b : Nat) (stl : Nat)
  /-- `ATOM_CAS_BLK` (R260). -/
  | atomCasBlk (dbl : Bool) (d : Nat) (a : Nat) (b : Nat) (stl : Nat)
  /-- `ATOM_ADD_CLS` (R260). -/
  | atomAddCls (dbl : Bool) (d : Nat) (a : Nat) (b : Nat) (stl : Nat)
  /-- `ATOM_AND_CLS` (R260). -/
  | atomAndCls (dbl : Bool) (d : Nat) (a : Nat) (b : Nat) (stl : Nat)
  /-- `ATOM_OR_CLS` (R260). -/
  | atomOrCls (dbl : Bool) (d : Nat) (a : Nat) (b : Nat) (stl : Nat)
  /-- `ATOM_XOR_CLS` (R260). -/
  | atomXorCls (dbl : Bool) (d : Nat) (a : Nat) (b : Nat) (stl : Nat)
  /-- `ATOM_MIN_CLS` (R260). -/
  | atomMinCls (dbl : Bool) (d : Nat) (a : Nat) (b : Nat) (stl : Nat)
  /-- `ATOM_MAX_CLS` (R260). -/
  | atomMaxCls (dbl : Bool) (d : Nat) (a : Nat) (b : Nat) (stl : Nat)
  /-- `ATOM_SWAP_CLS` (R260). -/
  | atomSwapCls (dbl : Bool) (d : Nat) (a : Nat) (b : Nat) (stl : Nat)
  /-- `ATOM_CAS_CLS` (R260). -/
  | atomCasCls (dbl : Bool) (d : Nat) (a : Nat) (b : Nat) (stl : Nat)
  /-- `ATOM_ADD_DEV` (R260). -/
  | atomAddDev (dbl : Bool) (d : Nat) (a : Nat) (b : Nat) (stl : Nat)
  /-- `ATOM_AND_DEV` (R260). -/
  | atomAndDev (dbl : Bool) (d : Nat) (a : Nat) (b : Nat) (stl : Nat)
  /-- `ATOM_OR_DEV` (R260). -/
  | atomOrDev (dbl : Bool) (d : Nat) (a : Nat) (b : Nat) (stl : Nat)
  /-- `ATOM_XOR_DEV` (R260). -/
  | atomXorDev (dbl : Bool) (d : Nat) (a : Nat) (b : Nat) (stl : Nat)
  /-- `ATOM_MIN_DEV` (R260). -/
  | atomMinDev (dbl : Bool) (d : Nat) (a : Nat) (b : Nat) (stl : Nat)
  /-- `ATOM_MAX_DEV` (R260). -/
  | atomMaxDev (dbl : Bool) (d : Nat) (a : Nat) (b : Nat) (stl : Nat)
  /-- `ATOM_SWAP_DEV` (R260). -/
  | atomSwapDev (dbl : Bool) (d : Nat) (a : Nat) (b : Nat) (stl : Nat)
  /-- `ATOM_CAS_DEV` (R260). -/
  | atomCasDev (dbl : Bool) (d : Nat) (a : Nat) (b : Nat) (stl : Nat)
  /-- `ATOM_ADD_SYS` (R260). -/
  | atomAddSys (dbl : Bool) (d : Nat) (a : Nat) (b : Nat) (stl : Nat)
  /-- `ATOM_AND_SYS` (R260). -/
  | atomAndSys (dbl : Bool) (d : Nat) (a : Nat) (b : Nat) (stl : Nat)
  /-- `ATOM_OR_SYS` (R260). -/
  | atomOrSys (dbl : Bool) (d : Nat) (a : Nat) (b : Nat) (stl : Nat)
  /-- `ATOM_XOR_SYS` (R260). -/
  | atomXorSys (dbl : Bool) (d : Nat) (a : Nat) (b : Nat) (stl : Nat)
  /-- `ATOM_MIN_SYS` (R260). -/
  | atomMinSys (dbl : Bool) (d : Nat) (a : Nat) (b : Nat) (stl : Nat)
  /-- `ATOM_MAX_SYS` (R260). -/
  | atomMaxSys (dbl : Bool) (d : Nat) (a : Nat) (b : Nat) (stl : Nat)
  /-- `ATOM_SWAP_SYS` (R260). -/
  | atomSwapSys (dbl : Bool) (d : Nat) (a : Nat) (b : Nat) (stl : Nat)
  /-- `ATOM_CAS_SYS` (R260). -/
  | atomCasSys (dbl : Bool) (d : Nat) (a : Nat) (b : Nat) (stl : Nat)
  /-- `RED_ADD_W` (R262). -/
  | redAddW (a : Nat) (b : Nat) (sc : AtScope) (stl : Nat)
  /-- `RED_ADD_D` (R262). -/
  | redAddD (a : Nat) (b : Nat) (sc : AtScope) (stl : Nat)
  /-- `RED_AND_W` (R262). -/
  | redAndW (a : Nat) (b : Nat) (sc : AtScope) (stl : Nat)
  /-- `RED_AND_D` (R262). -/
  | redAndD (a : Nat) (b : Nat) (sc : AtScope) (stl : Nat)
  /-- `RED_OR_W` (R262). -/
  | redOrW (a : Nat) (b : Nat) (sc : AtScope) (stl : Nat)
  /-- `RED_OR_D` (R262). -/
  | redOrD (a : Nat) (b : Nat) (sc : AtScope) (stl : Nat)
  /-- `RED_XOR_W` (R262). -/
  | redXorW (a : Nat) (b : Nat) (sc : AtScope) (stl : Nat)
  /-- `RED_XOR_D` (R262). -/
  | redXorD (a : Nat) (b : Nat) (sc : AtScope) (stl : Nat)
  /-- `RED_MIN_W` (R262). -/
  | redMinW (a : Nat) (b : Nat) (sc : AtScope) (stl : Nat)
  /-- `RED_MIN_D` (R262). -/
  | redMinD (a : Nat) (b : Nat) (sc : AtScope) (stl : Nat)
  /-- `RED_MAX_W` (R262). -/
  | redMaxW (a : Nat) (b : Nat) (sc : AtScope) (stl : Nat)
  /-- `RED_MAX_D` (R262). -/
  | redMaxD (a : Nat) (b : Nat) (sc : AtScope) (stl : Nat)
  /-- `RED_FADD_F32` (R263). -/
  | redFaddF32 (a : Nat) (b : Nat) (sc : AtScope) (stl : Nat)
  /-- `RED_FADD_F64` (R263). -/
  | redFaddF64 (a : Nat) (b : Nat) (sc : AtScope) (stl : Nat)
  /-- `LD_SYNC` (R88). -/
  | ldSync (d : Nat) (a : Nat) (stl : Nat)
  /-- `TAKE` (R89). -/
  | take (d : Nat) (a : Nat) (stl : Nat)
  /-- `PUT` (R90). -/
  | put (d : Nat) (a : Nat) (src : Nat) (stl : Nat)
  /-- `FE_SET` (R93). -/
  | feSet (a : Nat) (l : Nat) (stl : Nat)
  /-- `FE_CLR` (R93). -/
  | feClr (a : Nat) (l : Nat) (stl : Nat)
  /-- `FE_Q` (R94). -/
  | feQ (d : Nat) (a : Nat) (stl : Nat)
  /-- `FE_WAIT` (R95). -/
  | feWait (a : Nat) (l : Nat) (stl : Nat)
  /-- `BCFG_C` (R82). -/
  | bcfgC (d : Nat) (a : Nat) (stl : Nat)
  /-- `BCFG_S` (R82). -/
  | bcfgS (d : Nat) (a : Nat) (stl : Nat)
  /-- `BCFG_F` (R82). -/
  | bcfgF (d : Nat) (a : Nat) (stl : Nat)
  /-- `BQ` (R84). -/
  | bq (d : Nat) (a : Nat) (stl : Nat)
  /-- `FPUSH` (R99). -/
  | fpush (d : Nat) (a : Nat) (src : Nat) (stl : Nat)
  /-- `FPOP` (R99). -/
  | fpop (d : Nat) (a : Nat) (stl : Nat)
  /-- `FQ` (R99). -/
  | fq (d : Nat) (a : Nat) (stl : Nat)
  /-- `CPY` (R105). -/
  | cpy (d : Nat) (a : Nat) (b : Nat) (stl : Nat)
  /-- `CPY_FE` (R107). -/
  | cpyFe (d : Nat) (a : Nat) (b : Nat) (stl : Nat)
  /-- `MCAST` (R107). -/
  | mcast (d : Nat) (a : Nat) (b : Nat) (stl : Nat)
  /-- `PUTSIG` (R107). -/
  | putsig (d : Nat) (a : Nat) (b : Nat) (stl : Nat)
  /-- `CPY_PH` (R107). -/
  | cpyPh (d : Nat) (a : Nat) (b : Nat) (stl : Nat)
  /-- `CPWAIT` (R111). -/
  | cpwait (d : Nat) (a : Nat) (stl : Nat)
  /-- `CPQ` (R112). -/
  | cpq (d : Nat) (a : Nat) (stl : Nat)
  /-- `CPCAN` (R113). -/
  | cpcan (d : Nat) (a : Nat) (b : Nat) (stl : Nat)
  /-- `MARK` (R68). -/
  | mark (a : Nat) (off : BitVec 6) (stl : Nat)
  /-- `TTARM` (R66). -/
  | ttarm (d : Nat) (a : Nat) (stl : Nat)
  /-- `TTQ` (R75). -/
  | ttq (d : Nat) (a : Nat) (stl : Nat)
  /-- `TTREPLAY` (R76). -/
  | ttreplay (d : Nat) (a : Nat) (stl : Nat)
  /-- `TTOFF` (R77). -/
  | ttoff (d : Nat) (stl : Nat)
  /-- `TDEF` (R291). -/
  | tdef (d : Nat) (a : Nat) (stl : Nat)
  /-- `TSPAWN` (R292). -/
  | tspawn (d : Nat) (a : Nat) (stl : Nat)
  /-- `TNEXT` (R293). -/
  | tnext (d : Nat) (a : Nat) (idx : Nat) (stl : Nat)
  /-- `TDONE` (R294). -/
  | tdone (idx : Nat) (stl : Nat)
  /-- `FREEZE` (R297). -/
  | freeze (d : Nat) (idx : Nat) (stl : Nat)
  /-- `TQUERY` (R296). -/
  | tquery (d : Nat) (a : Nat) (stl : Nat)
  /-- `TCLAIM` (R301). -/
  | tclaim (d : Nat) (a : Nat) (stl : Nat)
  /-- `TLAUNCH` (R303). -/
  | tlaunch (d : Nat) (a : Nat) (stl : Nat)
  /-- `TYIELD` (R295). -/
  | tyield (idx : Nat) (stl : Nat)
  /-- `FENCE` (R318). -/
  | fence (sc : Scope) (stl : Nat)
  /-- `LD_ACQ` (R319). -/
  | ldAcq (d : Nat) (a : Nat) (sc : Scope) (stl : Nat)
  /-- `ST_REL` (R319). -/
  | stRel (d : Nat) (a : Nat) (sc : Scope) (stl : Nat)
  /-- `ACQP_DEV` (R321). -/
  | acqpDev (d : Nat) (a : Nat) (b : Nat) (stl : Nat)
  /-- `ACQP_SYS` (R321). -/
  | acqpSys (d : Nat) (a : Nat) (b : Nat) (stl : Nat)
  /-- `PHNEW` (R325). -/
  | phnew (d : Nat) (a : Nat) (sc : Scope) (stl : Nat)
  /-- `PHFREE` (R325). -/
  | phfree (d : Nat) (a : Nat) (stl : Nat)
  /-- `PHREG` (R326). -/
  | phreg (d : Nat) (a : Nat) (md : PhMode) (stl : Nat)
  /-- `PHDROP` (R326). -/
  | phdrop (d : Nat) (a : Nat) (stl : Nat)
  /-- `PHSIG` (R327). -/
  | phsig (d : Nat) (a : Nat) (stl : Nat)
  /-- `PHWAIT` (R327). -/
  | phwait (d : Nat) (a : Nat) (stl : Nat)
  /-- `PHNEXT` (R327). -/
  | phnext (d : Nat) (a : Nat) (stl : Nat)
  /-- `PHQ` (R329). -/
  | phq (d : Nat) (a : Nat) (stl : Nat)
  /-- `ILLEGAL_ENCODING` (R31). -/
  | illegalEncoding (ibits : Nat) (len : Nat)
  /-- `RESULT_LANDS` (R132). -/
  | resultLands (core : Nat) (k : Nat)
  /-- `STORE_BUFFER_ENTRY_LEAVES` (R163). -/
  | storeBufferEntryLeaves (core : Nat)
  /-- `ATOMIC_PERFORMED` (R260). -/
  | atomicPerformed (core : Nat)
  /-- `REDUCTION_APPLIED` (R262). -/
  | reductionApplied (k : Nat)
  /-- `REDUCTION_AT_PORT` (R274). -/
  | reductionAtPort (core : Nat)
  /-- `COMBINING_ENTRY_EXPIRY` (R275). -/
  | combiningEntryExpiry (port : Nat) (k : Nat)
  /-- `PROMOTION_REQUEST` (R321). -/
  | promotionRequest (core : Nat)
  /-- `BANK_SWITCH_BEGIN` (R83). -/
  | bankSwitchBegin (die : Nat) (cl : Nat) (bank : Nat)
  /-- `BANK_SWITCH_END` (R82). -/
  | bankSwitchEnd (die : Nat) (cl : Nat) (bank : Nat)
  /-- `SECTOR_DONE` (R61). -/
  | sectorDone (die : Nat) (slot : Nat) (entry : Nat) (sector : Nat)
  /-- `ENTRY_FAULT` (R73). -/
  | entryFault (die : Nat) (slot : Nat) (entry : Nat)
  /-- `COPY_START` (R117). -/
  | copyStart (core : Nat)
  /-- `SEGMENT_DONE` (R107). -/
  | segmentDone (core : Nat) (ticket : Nat) (seg : Nat)
  /-- `COPY_FAULT` (R108). -/
  | copyFault (core : Nat) (ticket : Nat)
  /-- `STREAM_WORD_DELIVERY` (R121). -/
  | streamWordDelivery (core : Nat) (strm : Nat)
  /-- `VECTOR_BIND` (R228). -/
  | vectorBind (die : Nat) (cl : Nat)
  /-- `TRIP_ISSUE` (R224). -/
  | tripIssue (core : Nat)
  /-- `MATRIX_COMMAND_START` (R240). -/
  | matrixCommandStart (die : Nat) (cl : Nat)
  /-- `MATRIX_COMMAND_COMPLETE` (R240). -/
  | matrixCommandComplete (die : Nat) (cl : Nat)
  /-- `ROTATION_TILE_ARRIVAL` (R244). -/
  | rotationTileArrival (die : Nat) (cl : Nat)
  /-- `LEASE_IDLE_TIMEOUT` (R237). -/
  | leaseIdleTimeout (die : Nat) (cl : Nat)
  /-- `COUNTER_SATISFIED` (R287). -/
  | counterSatisfied (die : Nat) (k : Nat)
  /-- `TASK_OFFER` (R335). -/
  | taskOffer (die : Nat)
  /-- `TNEXT_TIMEOUT` (R293). -/
  | tnextTimeout (core : Nat)
  /-- `PLACEMENT_RANK` (R336). -/
  | placementRank (die : Nat)
  /-- `SETTLE` (R286). -/
  | settle (die : Nat)
  /-- `SETTLE_COMPLETE` (R286). -/
  | settleComplete (die : Nat) (k : Nat)
  /-- `MIGRATION_DECISION` (R337). -/
  | migrationDecision (lid : Nat)
  /-- `QUENCH_TICK` (R349). -/
  | quenchTick (vf : Nat)
  /-- `FLUSH_TOKEN` (R350). -/
  | flushToken (die : Nat) (vf : Nat)
  /-- `SPILL_DONE` (R358). -/
  | spillDone (core : Nat)
  /-- `SPILL_FAULT` (R358). -/
  | spillFault (core : Nat)
  /-- `CLUSTER_SPILL` (R360). -/
  | clusterSpill (die : Nat) (cl : Nat)
  /-- `QCTL_GO` (R348). -/
  | qctlGo (vf : Nat) (tick : Nat)
  /-- `CORECMD_CONTINUE_SPILL` (R361). -/
  | corecmdContinueSpill (core : Nat)
  /-- `CORECMD_RESTORE` (R362). -/
  | corecmdRestore (core : Nat) (vcore : Nat)
  /-- `CORECMD_RUN_IN_PLACE` (R359). -/
  | corecmdRunInPlace (core : Nat) (vcore : Nat)
  /-- `PACKET_HOLD_EXPIRY` (R363). -/
  | packetHoldExpiry (k : Nat)
  /-- `ORPHREL` (R364). -/
  | orphrel (die : Nat) (cl : Nat) (mask : BitVec 64)
  /-- `HALT_QUEUE_REMOVE` (R342). -/
  | haltQueueRemove (die : Nat) (vf : Nat)
  /-- `FAULT_QUEUE_REMOVE` (R344). -/
  | faultQueueRemove (die : Nat) (vf : Nat)
  /-- `ERROR_LOG_REMOVE` (R408). -/
  | errorLogRemove (die : Nat) (log : Nat)
  /-- `INVALIDATE_CMD` (R51). -/
  | invalidateCmd (die : Nat) (vf : Nat) (cmd : BitVec 64)
  /-- `INVALIDATE_COMPLETE` (R49). -/
  | invalidateComplete (die : Nat) (vf : Nat)
  /-- `COMMIT` (R52). -/
  | commit (die : Nat)
  /-- `OWNERSHIP_BITMAP_WRITE` (R52). -/
  | ownershipBitmapWrite (unit : Nat) (off : Nat) (val : BitVec 64)
  /-- `COREVF_WRITE` (R52). -/
  | corevfWrite (core : Nat) (vf : Nat)
  /-- `REMAP_WRITE` (R379). -/
  | remapWrite (v : Nat) (val : BitVec 64)
  /-- `SPARECTL` (R411). -/
  | sparectl (die : Nat) (val : BitVec 64)
  /-- `PACKAGE_BUDGET_WRITE` (R371). -/
  | packageBudgetWrite (val : BitVec 64)
  /-- `CORECLK_WRITE` (R373). -/
  | coreclkWrite (core : Nat) (val : BitVec 64)
  /-- `ROWV_WRITE` (R373). -/
  | rowvWrite (die : Nat) (row : Nat) (val : BitVec 64)
  /-- `HOP_ABORT` (R374). -/
  | hopAbort (core : Nat)
  /-- `HOP_RETRY` (R374). -/
  | hopRetry (core : Nat)
  /-- `ACTIVITY_WINDOW` (R369). -/
  | activityWindow (die : Nat) (cl : Nat)
  /-- `BUDGET_INTERVAL` (R371). -/
  | budgetInterval
  /-- `CLOCK_GATE` (R376). -/
  | clockGate (core : Nat)
  /-- `POWER_GATE` (R376). -/
  | powerGate (core : Nat)
  /-- `RESIDENCY_TIMER` (R377). -/
  | residencyTimer (core : Nat)
  /-- `SLEEP_DEADLINE` (R172). -/
  | sleepDeadline (core : Nat)
  /-- `WAKE_DOORBELL` (R401). -/
  | wakeDoorbell (core : Nat)
  /-- `COUNTER_CREDIT` (R382). -/
  | counterCredit (vcore : Nat) (vf : Nat) (ev : Nat) (n : Nat)
  /-- `PC_SAMPLE` (R391). -/
  | pcSample (core : Nat) (reason : Nat)
  /-- `MEMORY_SAMPLE` (R392). -/
  | memorySample (core : Nat) (req : MemSample)
  /-- `HOST_REQUEST_TAIL` (R400). -/
  | hostRequestTail (q : Nat) (tail : BitVec 32)
  /-- `HOST_REQUEST_TAKE` (R400). -/
  | hostRequestTake (core : Nat)
  /-- `FROUTE_WRITE` (R398). -/
  | frouteWrite (ep : Nat) (val : BitVec 64)
  /-- `FABRIC_REQUEST` (R397). -/
  | fabricRequest (req : FabricReq)
  /-- `FLIT_CRC_FAILURE` (R399). -/
  | flitCrcFailure (die : Nat) (fails : Nat)
  /-- `POWER_UP_RESET` (R402). -/
  | powerUpReset
  /-- `BOOTGO` (R406). -/
  | bootgo
  /-- `ATTGO` (R405). -/
  | attgo
  /-- `ATTESTATION_DONE` (R405). -/
  | attestationDone
  /-- `HBM4_SCRUB` (R409). -/
  | hbm4Scrub (word : Nat) (uncorrectable : Bool) (spare : Bool)
  /-- `REGISTER_WRITE` (R5). -/
  | registerWrite (unit : Nat) (off : Nat) (val : BitVec 64)
  /-- `SLEEP_END_WITHOUT_CAUSE` (R172). -/
  | sleepEndWithoutCause (core : Nat)
  /-- `WRITE_BACK_ACKNOWLEDGED` (R315). -/
  | writeBackAcknowledged (die : Nat) (line : Nat)
  /-- `ENDPOINT_STORE_APPLIED` (R313). -/
  | endpointStoreApplied (k : Nat)
  /-- `TRACE_RECORD_PERFORMED` (R388). -/
  | traceRecordPerformed (die : Nat) (vf : Nat)
deriving DecidableEq, Repr

end Sys2Proof
end

