-- ==== Sys2Proof/Machine/State.lean ====
section
/-! DEFINITION. The state of the FG-8 package as plain data: every piece of state the spec names, the state
after reset (R52, R79, R227, R230, R231, R234 to R237, R379, R403), and the reasons a step can stop. -/
namespace Sys2Proof.Machine

/-- Why a step stops with a fault. No instruction raises one: an event of the spec that is not enabled leaves
the state as it is. -/
inductive Fault where
  /-- Raised by `step` alone, when the agenda names a core the package does not have. Safe: nothing is executed. -/
  | noSuchCore
deriving DecidableEq, Repr

/-- Why an instruction has no meaning. -/
inductive Refusal where
  /-- Raised by `exec` for an instruction whose meaning is not written yet. Safe: the machine stops. -/
  | notModelled (mnemonic : String)
deriving DecidableEq, Repr

/-- A window-table entry: the descriptor of R125, its share mask (R128), the cycle before which its context
does not issue (R20), for a struck window its launch, task and team (R277, R293), and, for a billet, the core that froze it
(R298). -/
structure Win where
  base : Nat := 0
  size : Nat := 0
  voff : Nat := 0
  parent : Nat := 0
  v : Bool := false
  t : Bool := false
  s : Bool := false
  h : Bool := false
  share : BitVec 128 := 0
  ready : Nat := 0
  lid : Nat := 0
  task : Nat := 0
  team : Nat := 0
  froze : Nat := 0
deriving DecidableEq, Repr

/-- `cr.arena` (R131). -/
structure Arena where
  lo : Nat := 0
  hi : Nat := 0
  sliced : Bool := false
  side : Bool := false
deriving DecidableEq, Repr

/-- The trap registers (R136, R137, R167). -/
structure TrapRegs where
  tvec : Word := 0
  twin : Nat := 0
  tcause : Nat := 0
  tval : Word := 0
  tpc : Word := 0
  tfrom : Nat := 0
  tstat : Bool := false
deriving DecidableEq, Repr

/-- The floating-point control registers (R152). -/
structure FpRegs where
  frm : Nat := 1
  fflags : BitVec 6 := 0
  fenable : BitVec 6 := 0
deriving DecidableEq, Repr

/-- The matrix format and mode registers, the lease count and the vector weight (R227, R230, R231, R236), and the type
the core's own `mzero` and `mld` last gave each accumulator slot (R239). -/
structure MatRegs where
  fmta : BitVec 6 := 1
  fmtb : BitVec 6 := 1
  ofmt : Nat := 0
  aty : Nat := 0
  fe : Bool := false
  leaseN : Nat := 16
  vwt : Nat := 1
  own : Sparse (Option Nat) := []
deriving DecidableEq, Repr

/-- `cr.dom` and `cr.vcl` (R277, R278) without TEAM, which follows the current window. -/
structure Dom where
  launch : Nat := 0
  roam : Bool := false
  ldie : Nat := 0
  ncl : Nat := 0
  vcl : Nat := 0xFFFF
deriving DecidableEq, Repr

/-- `cr.mark` (R63). -/
structure MarkReg where
  armed : Bool := false
  slot : Nat := 0
  misses : Nat := 0
  mark : Nat := 0
deriving DecidableEq, Repr

/-- How a result waits to land (R134, R200): a fixed-latency result readable from a cycle on, a
variable-latency result in flight, or a vector result still in the core's vector queue with its cost. -/
inductive PendKind where
  | fixed (ready : Nat)
  | flight
  | queued (cost : Nat)
deriving DecidableEq, Repr

/-- A vector instruction that takes words of streams when the arbiter binds it (R122, R339): its word, the window it was
issued in, the names bound to streams, and the scalar operands, vector operands, rounding mode and scale format read at its
issue (R200). -/
structure Late where
  p : Pfx
  op : VOp
  win : Win
  streams : List (Nat × Nat)
  xs : List (Nat × Word)
  vs : List (Nat × BitVec 512)
  frm : Nat
  fmt : Nat
deriving DecidableEq, Repr

/-- A pending result: the absolute slots it writes (R132) and the flags it ORs into `cr.fflags` (R202). Where it is `late`,
values and flags stand for nothing yet; `chk` says that it is of fixed latency and was issued while `cr.sbchk.CHK` was 1, so
that the scoreboard tracks it (R133), and `reqs` is the number of requests beyond its cluster that it awaits (R49). -/
structure Pend where
  kind : PendKind
  writes : List (Nat × Word)
  flags : BitVec 6 := 0
  late : Option Late := none
  chk : Bool := false
  reqs : Nat := 0
deriving DecidableEq, Repr

/-- What a store-buffer entry does at its target (R163, R270). -/
inductive SbOp where
  | store (cells : List Host.Cell)
  | red (rop : Nat) (sc : AtScope) (b : Word)
deriving DecidableEq, Repr

/-- A store-buffer entry: path, model address of its first byte, size, VF, effective address, operation, and the mode
and window of its instruction, which counters filter by (R380). -/
structure SbEntry where
  path : Nat
  key : Nat
  size : Nat
  vf : Nat
  ea : Word
  op : SbOp
  sup : Bool
  win : Nat
deriving DecidableEq, Repr

/-- The five states of a ticket (R106). -/
inductive CmdState where
  | queued | running | done | faulted | cancelled
deriving DecidableEq, Repr

/-- A copy command that is queued, running or faulted (R105 to R109, R118): `sw` is the package's count of bank switches when
it began to run (R108, code 0x53), `wide` says that some of its bytes went off its die (R115), and `fseq` orders its fault
among the others (R346). -/
structure Cmd where
  ticket : Nat
  form : CopyForm
  pc : Word
  win : Nat
  vf : Nat
  asid : Nat
  vcore : Nat
  die : Nat
  cl : Nat
  lid : Nat
  sup : Bool
  src : BitVec 512
  dst : BitVec 512
  state : CmdState := .queued
  segs : List Nat := []
  sw : Nat := 0
  wide : Bool := false
  code : Nat := 0
  faddr : Word := 0
  fseq : Nat := 0
deriving DecidableEq, Repr

/-- A ticket that has ended (R106): its final state, progress and length. -/
structure Ended where
  ticket : Nat
  state : CmdState
  progress : Nat
  len : Nat
deriving DecidableEq, Repr

/-- A bound stream (R121 to R124). -/
structure Stream where
  name : Nat
  win : Nat
  recAddr : Word
  src : BitVec 512
  pc : Word
  vf : Nat
  asid : Nat
  sup : Bool
  given : Nat := 0
  taken : Nat := 0
  buf : List (BitVec 512) := []
  sw : Nat := 0
  faulted : Bool := false
  fseq : Nat := 0
deriving DecidableEq, Repr

/-- The trip buffer (R222 to R226): the `vtrip`'s PC, window-table index, window and mode, the groups of offsets whose
reads were resolved to an ancestor with the slot of their first offset, the parcels and instructions of the body with
their byte offsets from the `vtrip`, the strides, the scalar operands read at issue, the position, whether the trip
has stopped, with the order of its record (R346), and the address and length of the range its `macc` awaits (R247). -/
structure Trip where
  pc : Word
  widx : Nat
  win : Win
  sup : Bool
  shared : List (Nat × Nat)
  body : List BodyOp
  raw : List Nat
  offs : List Nat
  mode : Nat
  ns : Nat
  bs : Nat
  count : Nat
  scal : List (Nat × Word)
  iter : Nat := 0
  pos : Nat := 0
  stopped : Bool := false
  fseq : Nat := 0
  awaits : Option (Word × Nat) := none
deriving DecidableEq, Repr

/-- The waiting instructions of R376. -/
inductive WaitKind where
  | ldSync | take | feWait | fpop | macc | mark | cpwait | vsq | vswap | mlease | mwait | tnext | acqp
  | phsig | phwait | phnext
deriving DecidableEq, Repr

/-- The wait of a core: the instruction, its PC and window, the tick it began, the tick of the last HANG
report, the deadline of a `tnext`, and the address range awaited (R82, R293, R376, R377). -/
structure Wait where
  kind : WaitKind
  pc : Word
  win : Nat
  since : Nat
  report : Nat
  deadline : Nat := 0
  addr : Word := 0
  len : Nat := 0
deriving DecidableEq, Repr

/-- Whether a core issues (R33, R172, R173, R349). -/
inductive Run where
  | running
  | stopped
  | asleep (deadline : Option Nat)
  | quenched
deriving DecidableEq, Repr

/-- A line of the instruction cache: ASID, whether global, VA of the line, bytes (R170). -/
structure ILine where
  asid : Nat
  global : Bool
  va : Nat
  bytes : List Byte
deriving DecidableEq, Repr

/-- The capture of a stopped core and the progress of its spill (R349, R353, R358). `half` is 0 or 1 for the
captured arena half (0 in exclusive mode), `sliced` the mode; `groups` are the slot groups of the image, once the spill has chosen them
(R354). -/
structure Capture where
  vf : Nat
  vcore : Nat
  half : Nat
  sliced : Bool
  header : List Byte
  groups : Option (List Nat) := none
  spilling : Bool := true
  unsaved : Bool := false
  done : Nat := 0
deriving DecidableEq, Repr

/-- A staged arena half (R352, R361). -/
structure Staged where
  half : Nat
  vf : Nat
  vcore : Nat
  header : List Byte
deriving DecidableEq, Repr

/-- Clock, duty, gating and sampling of a core (R372 to R376, R390). From cycle `dutyAt` on the duty is `dutyNew`, before
it `duty`; `div` none stands for the fused reset value; `hop` holds the old divider of a hop and its tick, `pend` the divider
that waits to retry and its tick; `gate` is 0, 1 clock or 2 power; `sampAt` is the cycle at which the running period of PC
samples began. -/
structure Clk where
  duty : Nat := 16
  dutyNew : Nat := 16
  dutyAt : Nat := 0
  div : Option Nat := none
  off : Bool := false
  pend : Option (Nat × Nat) := none
  hop : Option (Nat × Nat) := none
  gate : Nat := 0
  idleSince : Nat := 0
  samp : Word := 0
  sampAt : Nat := 0
deriving DecidableEq, Repr

/-- The engines' side of a core: tickets, streams, the trip, vector exchange, timetable binding (R63, R106,
R121, R220, R224); `stops` are the windows whose stopped trip has left the trip buffer, with the order of its record (R226,
R346), `raised` the windows whose trip's `macc` has met an error response or failed work that it has not reported, with the
cause and value (R247), `wrapped` says that every ticket number has been issued (R106), and `mstFar` that an `mst` since the
last `mwait` went to another die's cluster (R250). -/
structure Engines where
  mark : MarkReg := {}
  nextTicket : Nat := 1
  wrapped : Bool := false
  cmds : List Cmd := []
  ended : List Ended := []
  streams : Sparse (Option Stream) := []
  trip : Option Trip := none
  stops : List (Nat × Nat) := []
  raised : List (Nat × Nat × Word) := []
  swapSent : Bool := false
  swapIn : List (List (BitVec 512)) := []
  copyFaults : Nat := 0
  mstFar : Bool := false
deriving DecidableEq, Repr

/-- Counters and watchpoints of a core (R380, R393), the instructions it has issued in the activity window (R369), the
requests it has sent beyond its cluster since the last that was sampled (R390), and the sampled ones, each with its PC,
effective address and window, whose records are not written yet (R392). -/
structure Obs where
  issues : Nat := 0
  reqs : Nat := 0
  sampled : List (Word × Word × Nat) := []
  pmc : Sparse (BitVec 48) := []
  pme : Sparse Word := []
  wpa : Sparse Word := []
  wpc : Sparse Word := []
deriving DecidableEq, Repr

/-- The quench and restore state of a core (R349 to R362); `vcore` is the virtual core number of the context that a
restore put there or beside it. -/
structure Ctx where
  vcore : Option Nat := none
  captures : List Capture := []
  staged : Option Staged := none
  cmdOp : Nat := 0
  cmdCode : Nat := 0
  cmdBusy : Bool := false
deriving DecidableEq, Repr

/-- An atomic accepted and not yet performed at its place (R260, R268): scope, path, model address, effective address,
size, operation, operand, expected value, the absolute slot its old value lands in (none for x0), and the mode and window
of its instruction (R380). -/
structure AtomFlight where
  sc : AtScope
  path : Nat
  key : Nat
  ea : Word
  size : Nat
  op : Nat
  b : Word
  e : Word
  vf : Nat
  slot : Option Nat
  sup : Bool
  win : Nat
deriving DecidableEq, Repr

/-- The memory side of a core: store buffer and how many of its entries precede the last acquire (R56), atomic in flight,
promotion log, freshness floors, instruction cache (R163, R309, R315, R170). -/
structure MemSide where
  sbuf : List SbEntry := []
  roPend : Nat := 0
  atom : Option AtomFlight := none
  plog : List (Nat × BitVec 32) := []
  lsn : BitVec 32 := 0
  floor : Nat := 0
  roFloor : Nat := 0
  icache : List ILine := []
deriving DecidableEq, Repr

/-- A core (R14, R125 to R137, R166, R403). `ibits` and `ilen` are the model's latch of the parcels of the
instruction being executed (R34); `held` says that it stands held at issue, and `seen` are the watchpoints that have recorded it already (R394). -/
structure Core where
  pc : Word := 0
  cur : Nat := 28
  sup : Bool := true
  run : Run := .stopped
  wins : Sparse Win := []
  arena : Arena := {}
  store : Sparse Word := []
  bad : List Nat := []
  pend : List Pend := []
  cycle : Nat := 0
  ready : Nat := 0
  ibits : BitVec 64 := 0
  ilen : Nat := 0
  wait : Option Wait := none
  held : Bool := false
  seen : List Nat := []
  feErr : Option Word := none
  trap : TrapRegs := {}
  fp : FpRegs := {}
  sbchk : Bool := false
  mat : MatRegs := {}
  vf : Nat := 0
  asid : Nat := 0
  dom : Dom := {}
  m : MemSide := {}
  eng : Engines := {}
  obs : Obs := {}
  clk : Clk := {}
  ctx : Ctx := {}
deriving DecidableEq, Repr

/-- What a die holds of a captured context beside its image (R118, R299, R351): its core, its struck windows, its live
commands, streams and trip, and whether it stood stopped. -/
structure Parked where
  vf : Nat
  vcore : Nat
  loc : Nat
  stopped : Bool
  wins : Sparse Win
  eng : Engines
  own : Sparse (Option Nat)
  dom : Dom
deriving DecidableEq, Repr

/-- A core after power-up or reset (R403). -/
def Core.reset : Core := { wins := [(28, { v := true, size := 64 })] }

/-- The three roles of a bank (R79). -/
inductive Role where
  | cache | scratch | fifo
deriving DecidableEq, Repr

/-- A deferred `take` or `fpop` (R89, R91, R99): core, window, granule of the cluster (none for `fpop`), byte
offset, absolute slot of the destination (none for x0). -/
structure Deferred where
  core : Nat
  win : Nat
  off : Nat
  slot : Option Nat
deriving DecidableEq, Repr

/-- A bank of cluster SRAM (R79 to R83, R91, R98); `left` is the package's count of switches when the bank last left
the scratchpad role (R82 step 3). -/
structure Bank where
  role : Role := .cache
  left : Nat := 0
  switching : Option Role := none
  queue : List Role := []
  deferred : List Deferred := []
  fifo : List Word := []
deriving DecidableEq, Repr

/-- An accumulator slot (R235); `elems` holds the 64 × 64 bit patterns, row-major, and `bad` says that its memory has an
uncorrectable error (R409). -/
structure Acc where
  aty : Nat := 3
  vf : Nat := 0
  vcore : Nat := 0
  win : Nat := 0
  orphan : Bool := false
  merr : Bool := false
  kerr : Bool := false
  sat : Bool := false
  nv : Bool := false
  ovf : Bool := false
  bad : Bool := false
  elems : Sparse Nat := []
deriving DecidableEq, Repr

/-- A matrix command accepted by the array (R232, R240): the issuer and the values of the format registers. -/
structure MCmd where
  op : MatOp
  ea : Word
  core : Nat
  vf : Nat
  vcore : Nat
  win : Nat
  lid : Nat
  fmta : BitVec 6
  fmtb : BitVec 6
  ofmt : Nat
  aty : Nat
  fe : Bool
  started : Bool := false
  sent : Bool := false
deriving DecidableEq, Repr

/-- The lease of a cluster's array (R236, R237): holder (position, window), commands left, last holder,
waiting requests (position, window), the tick of the holder's last command, moved on by its waits in `macc` and `mwait`, and
the tick at which it began the one it stands in. -/
structure Lease where
  holder : Option (Nat × Nat) := none
  left : Nat := 0
  last : Nat := 7
  reqs : List (Nat × Nat) := []
  lastCmd : Nat := 0
  paused : Option Nat := none
deriving DecidableEq, Repr

/-- The contents of a non-coherent (path-3) line of the cluster ways (R56): bytes, none where it is still to be filled,
the model's sequence number of its fill, and the tick at which they were read at their home (R310). -/
structure RoCopy where
  bytes : List Byte := []
  seq : Nat := 0
  tick : Nat := 0
deriving DecidableEq, Repr

/-- A line of a cluster's cache ways (R47, R80): the bank that is its way, VF, ASID, VA / 64, the leaf entry of its
translation with its level, and, for a path-3 line, its contents; a path-0 line is coherent with the die (R306) and holds
no contents of its own (log 6). -/
structure WayLine where
  bank : Nat
  vf : Nat
  asid : Nat
  line : Nat
  pte : Word
  level : Nat
  ro : Option RoCopy
deriving DecidableEq, Repr

/-- The spill of a cluster image (R360): the pieces of the image with their offsets, the bytes written, whether the
spill is going on, and whether a fault left it unsaved. -/
structure ClSpill where
  vf : Nat
  image : List (Nat × List Byte)
  done : Nat := 0
  spilling : Bool := true
  unsaved : Bool := false
deriving DecidableEq, Repr

/-- A cluster (R79, R85, R228, R234 to R237, R251, R369); `ways` are the lines of its cache ways, the most recently used
last (R80); `inForce` are the weights of the running window, which began at tick `winAt`, and `macBusy` the cycles that
events 16 to 19 have counted in it (R229, R369, R370). Of the cluster images of R360, `toSave` lists the VFs whose accepted
commands have still to run before theirs is saved (R251), `away` those whose image is saved and not restored, and `staged`
those that come back at their VF's next swap, each with the core that CORECMD named. -/
structure Cluster where
  banks : Sparse Bank := []
  full : Sparse Bool := []
  ways : List WayLine := []
  vptr : Nat := 0
  credit : Sparse Nat := []
  latchCur : Option (List Byte) := none
  latchIn : Option (Option (List Byte)) := none
  rot : Nat := 0
  accs : Sparse Acc := []
  array : List MCmd := []
  lease : Lease := {}
  lid : Nat := 0
  scrUsed : Nat := 0
  weights : Sparse (Option (BitVec 16)) := []
  inForce : Sparse (Option (BitVec 16)) := []
  winAt : Nat := 0
  estimate : BitVec 32 := 0
  energy : Nat := 0
  windows : Nat := 0
  macBusy : Sparse Nat := []
  spill : Option ClSpill := none
  toSave : List Nat := []
  away : List Nat := []
  staged : List (Nat × Nat × List Byte × List Byte × List Byte) := []
deriving DecidableEq, Repr

/-- The resources of a die a VF owns (R52). -/
structure Own where
  clusters : BitVec 32 := 0
  slices : BitVec 32 := 0
  pchan : BitVec 64 := 0
  tongs : BitVec 32 := 0
  exec : Bool := false
deriving DecidableEq, Repr

/-- A TLB entry (R47, R49, R51): VF, ASID, whether global, virtual page of 4 KiB, the leaf entry and its level. -/
structure TlbEntry where
  vf : Nat
  asid : Nat
  vpn : Nat
  pte : Word
  level : Nat
deriving DecidableEq, Repr

/-- The invalidate block of a VF (R51): its registers, and VA, LEN and CMD of the command that runs. -/
structure InvBlock where
  va : Word := 0
  len : Word := 0
  cmd : Word := 0
  run : Option (Word × Word × Word) := none
deriving DecidableEq, Repr

/-- A die's L2 copy of a line homed on another die (R50, R55, R310): line number, slice and way, bytes, which bytes are
dirty, tick of its fill. -/
structure L2Line where
  line : Nat
  slice : Nat
  way : Nat
  bytes : List Byte
  dirty : List Bool
  tick : Nat
deriving DecidableEq, Repr

/-- A line of a die's own memory that its L2 holds (R50): line number, slice and way. It is coherent with its home and holds
no contents of its own (log 6). -/
structure HomeLine where
  line : Nat
  slice : Nat
  way : Nat
deriving DecidableEq, Repr

/-- STATUS of a timetable entry (R59). -/
inductive EntStatus where
  | idle | started | complete | faulted | rejected
deriving DecidableEq, Repr

/-- A live timetable entry (R59, R73, R74): the 64 bytes read at `ttarm`, the records and request map read at
its start, the sectors done, the package's count of bank switches at its start or replay (R82), the `mark` that started
it. -/
structure TtEntry where
  raw : BitVec 512
  status : EntStatus := .idle
  sectors : List Nat := []
  sw : Nat := 0
  src : BitVec 512 := 0
  dst : BitVec 512 := 0
  req : List Byte := []
  markPc : Word := 0
  markWin : Nat := 0
  markVcore : Nat := 0
  code : Nat := 0
  faddr : Word := 0
  fseq : Nat := 0
deriving DecidableEq, Repr

/-- A controller slot holding an armed timetable (R64, R77): the mode of the context that armed it, and the virtual
core numbers of the cores bound to it. -/
structure TtSlot where
  header : Word
  asid : Nat
  vf : Nat
  sup : Bool
  lid : Nat
  entries : List TtEntry
  bound : List Nat
  releasing : Bool := false
deriving DecidableEq, Repr

/-- The states of a task (R296). -/
inductive TaskState where
  | waiting | ready | running | yielded | done
deriving DecidableEq, Repr

/-- A live task of a die's dependence table (R280 to R287, R334): its record, the home addresses of its bindings and those
they resolved to, the tasks and versions it waits for, its counter, and, once struck, its core and window, and the cluster
whose quota it takes. -/
structure Task where
  lid : Nat
  vf : Nat
  asid : Nat
  seq : Nat
  typ : Nat
  team : Nat
  pri : Nat
  rcd : BitVec 128
  homes : List Word
  binds : List Word
  deps : List Nat
  settles : List Nat
  counter : Option Word
  satisfied : Bool
  state : TaskState := .waiting
  readyTick : Nat := 0
  core : Nat := 0
  win : Nat := 0
  quotaCl : Nat := 0
deriving DecidableEq, Repr

/-- A version of a home tile (R285, R286), the die that watches its settle (R338), and the count of bank switches when its
settle started (R108). -/
structure Version where
  id : Nat
  lid : Nat
  vf : Nat
  asid : Nat
  home : Word
  size : Nat
  pool : Word
  writer : Nat
  before : List Nat
  watch : Nat
  settling : Bool := false
  settled : Bool := false
  faulted : Bool := false
  sw : Nat := 0
deriving DecidableEq, Repr

/-- A launch's scheduler state on a die (R292): spawns so far, the team numbers given, and per type its open team
and that team's size. -/
structure DieLaunch where
  spawned : Nat := 0
  teams : Nat := 0
  openTeams : Sparse (Nat × Nat) := []
deriving DecidableEq, Repr

/-- A phaser member (R323, R328). -/
structure Member where
  vcore : Nat
  win : Nat
  mode : PhMode
  l : BitVec 32
  given : Bool := false
  owed : Option Nat := none
deriving DecidableEq, Repr

/-- A phaser of the Hearth (R323). -/
structure Phaser where
  vf : Nat
  lid : Nat
  dev : Bool
  p : BitVec 32 := 0
  members : List Member := []
deriving DecidableEq, Repr

/-- A halt-queue entry: the message of R34 and the window's descriptor (R342). -/
structure HaltEntry where
  msg : BitVec 256
  desc : Word
deriving DecidableEq, Repr

/-- A halt queue (R342). -/
structure HaltQueue where
  entries : List HaltEntry := []
  lost : BitVec 32 := 0
deriving DecidableEq, Repr

/-- A fault queue of 192-byte records (R344, R345). -/
structure FaultQueue where
  records : List (BitVec 1536) := []
  lost : BitVec 32 := 0
deriving DecidableEq, Repr

/-- An entry of a die error log (R408). -/
structure ErrEntry where
  addr : Word
  time : Word
  vcore : Nat
  vf : Nat
  code : Nat
deriving DecidableEq, Repr

/-- A die error log (R408). -/
structure ErrLog where
  entries : List ErrEntry := []
  lost : BitVec 32 := 0
deriving DecidableEq, Repr

/-- A trace buffer (R384 to R388): its registers, the tick of its last record, records since the last full
timestamp, and records whose write is not yet performed. -/
structure TraceBuf where
  tbase : Word := 0
  tsize : BitVec 32 := 0
  put : Nat := 0
  get : BitVec 32 := 0
  dropped : BitVec 32 := 0
  ctl : BitVec 3 := 0
  lastTick : Nat := 0
  since : Nat := 0
  queue : List (BitVec 128) := []
deriving DecidableEq, Repr

/-- A die: translation unit, L2 copies, partitions, controller, scheduler, Hearth, queues, power (chapters 03, 04,
15, 17, 20, 22 to 24). -/
structure Die where
  troot : Sparse Word := []
  inv : Sparse InvBlock := []
  tlb : List TlbEntry := []
  l2 : List L2Line := []
  homeL2 : List HomeLine := []
  stagedL : Sparse Nat := []
  groupL : Sparse Nat := []
  commitRefused : Bool := false
  slices : Sparse (BitVec 32) := []
  own : Sparse Own := []
  ways : Sparse (BitVec 16) := []
  slots : Sparse (Option TtSlot) := []
  tasks : List Task := []
  versions : List Version := []
  nextVersion : Nat := 0
  sched : Sparse DieLaunch := []
  rank : List Nat := []
  phasers : Sparse (Option Phaser) := []
  hsup : Sparse Word := []
  haltQ : Sparse HaltQueue := []
  faultQ : Sparse FaultQueue := []
  errLog : Sparse ErrLog := []
  rowv : Sparse (Option Nat) := []
  headroom : Sparse Int := []
  share : Rat := 0
  trace : Sparse TraceBuf := []
  spares : Sparse (Option Nat) := []
  parked : List Parked := []
deriving DecidableEq, Repr

/-- A die after reset (R52): VF 0 owns everything; every other field holds nothing. -/
def Die.reset : Die :=
  { own := [(0, { clusters := BitVec.allOnes 32, slices := BitVec.allOnes 32, pchan := BitVec.allOnes 64,
                  tongs := BitVec.allOnes 32, exec := true })]
    ways := (List.range 32).map fun s => (s, BitVec.allOnes 16) }

/-- A combining entry of a fabric port (R274), with the core and effective address of the reduction that opened it. -/
structure Comb where
  vf : Nat
  pa : Nat
  rop : Nat
  val : Word
  opened : Nat
  core : Nat
  ea : Word
deriving DecidableEq, Repr

/-- A reduction accepted and not yet applied (R271): issuer, VF, path, model and effective address, operation. -/
structure RedFlight where
  core : Nat
  vf : Nat
  path : Nat
  key : Nat
  ea : Word
  rop : Nat
  b : Word
deriving DecidableEq, Repr

/-- A promotion request (R321): issuing core, target core, the model and effective address of the load, the snapshot of
the target's log, and whether the target has replied. -/
structure Promo where
  by_ : Nat
  target : Nat
  key : Nat
  ea : Word
  snap : Option (BitVec 32) := none
  replied : Bool := false
deriving DecidableEq, Repr

/-- A path-5 store on its way to its endpoint (R313). -/
structure FStore where
  core : Nat
  vf : Nat
  ea : Word
  cells : List Host.Cell
deriving DecidableEq, Repr

/-- A write-back of a die's copy that its home has not acknowledged yet (R315): its dirty bytes, and the others, which
may be written too (R257). -/
structure WBack where
  die : Nat
  line : Nat
  cells : List Host.Cell
  clean : List Host.Cell
deriving DecidableEq, Repr

/-- A launch (R291, R300 to R303). -/
structure Launch where
  lid : Nat
  vf : Nat
  roam : Bool
  colLo : Nat
  colHi : Nat
  rowLo : Nat
  rowHi : Nat
  pkgs : List Nat
  started : Bool := false
  asid : Nat := 0
  quota : Nat := 0
  tlo : Nat := 0
  thi : Nat := 0
  types : List (List (BitVec 512)) := []
deriving DecidableEq, Repr

/-- QTICK and QCTL of a VF (R348), and the dies whose flush token has not crossed yet (R350). -/
structure Quench where
  tick : Word := 0
  go : Bool := false
  status : Nat := 0
  dies : List Nat := []
deriving DecidableEq, Repr

/-- SBASE, SASID and LIVETAB of a VF (R357). -/
structure SaveRegs where
  sbase : Word := 0
  sasid : Nat := 0
  livetab : Word := 0
deriving DecidableEq, Repr

/-- VFPOL of a VF (R314). -/
structure VfPol where
  tenant : Bool := false
  clamped : Bool := false
deriving DecidableEq, Repr

/-- A remap-table entry (R379): valid, and the physical core as 512 × die + core of the die. -/
structure Remap where
  valid : Bool
  loc : Nat
deriving DecidableEq, Repr

/-- The fabric registers (R398): `route` holds the ports of the endpoints that are routed and `sel` the PORT fields as last
written; and the endpoints that refuse atomics and reductions (R267). -/
structure Fabric where
  sel : Sparse Nat := []
  refuses : List Nat := []
  endpt : Nat := 0
  hostep : Nat := 0
  lock : Bool := false
  rateLock : Bool := false
  route : Sparse (Option Nat) := []
  rate : Sparse Nat := []
deriving DecidableEq, Repr

/-- A host request queue (R400). -/
structure Queue where
  rbase : Word := 0
  rsize : Nat := 0
  tail : BitVec 32 := 0
  head : BitVec 32 := 0
deriving DecidableEq, Repr

/-- The boot and attestation registers (R402 to R406), and the offset in the image's body at which the service cores have
been started, none before step 5 (R402, R404). -/
structure Boot where
  stat : Nat := 0
  entry : Option Word := none
  meas0 : BitVec 512 := 0
  meas1 : BitVec 512 := 0
  attBusy : Bool := false
  attDone : Bool := false
  nonce : BitVec 512 := 0
  rep : BitVec 2048 := 0
  sig : BitVec 4096 := 0
deriving DecidableEq, Repr

/-- A packet held for a stopped tenant (R363): its VF, virtual core, source virtual core, address, data (none for a
path-8 load), whether it carries `vswap` vectors, the tick it arrived, and, for a path-8 store, whether its core waits for
it (R39) and whether it has met its fate. -/
structure Held where
  vf : Nat
  vcore : Nat
  src : Nat
  addr : Word
  data : List (BitVec 512)
  swap : Bool
  since : Nat
  awaited : Bool := false
  met : Bool := false
deriving DecidableEq, Repr

/-- A turn of the agenda (log 1): an event of the opcode table, a change of the focus core, a passage of time, an
eviction of an L2 copy, a loss of a TLB entry, a loss of an instruction-cache line, a new headroom of a row, or an
uncorrectable error in a register-store slot, in a double of cluster SRAM or in an accumulator slot (R409), the loss of a
line of the cluster ways, a change of whether an endpoint refuses atomics and reductions (R267), or the boot ROM's check of the
image (R402). -/
inductive Turn where
  | event (i : Instr)
  | focus (core : Nat)
  | tick (n : Nat)
  | evict (die line : Nat)
  | tlbDrop (die k : Nat)
  | icacheDrop (core k : Nat)
  | sense (die row : Nat) (h : Int)
  | slotError (core slot : Nat)
  | sramError (clu off : Nat)
  | wayDrop (clu k : Nat)
  | refuse (ep : Nat) (b : Bool)
  | bootCheck
  | accError (clu m : Nat)
deriving DecidableEq, Repr

/-- The state of the package; `resetAt` is the tick of its last power-up or reset (R376, R402), `epoch` is the last tick at
which what the spec has happen every 10,000 or 50,000 ticks has
happened (R336, R337, R371). -/
structure State where
  time : Nat := 0
  oracle : Nat := 0
  seq : Nat := 0
  agenda : List Turn := []
  focus : Nat := 0
  core : Core := Core.reset
  others : Sparse Core := []
  clusters : Sparse Cluster := []
  dies : Sparse Die := []
  mem : List Host.Cell := []
  poison : List Nat := []
  vfpol : Sparse VfPol := []
  quench : Sparse Quench := []
  save : Sparse SaveRegs := []
  ioOwn : Sparse (BitVec 9) := [(0, BitVec.allOnes 9), (16, BitVec.allOnes 9)]
  switches : Nat := 0
  ports : Sparse (List Comb) := []
  reds : List RedFlight := []
  fstores : List FStore := []
  promos : List Promo := []
  wbacks : List WBack := []
  remap : Sparse (Option Remap) := []
  launches : List Launch := []
  lastLid : Nat := 0
  budget : Nat := 3200
  epoch : Nat := 0
  resetAt : Nat := 0
  fabric : Fabric := {}
  queues : Sparse Queue := []
  arrivals : List (Nat × Nat) := []
  boot : Boot := {}
  held : List Held := []
  credits : List (Nat × Nat × Nat × Nat × Bool) := []
  tport : List (BitVec 128) := []
  tlost : Nat := 0
deriving DecidableEq, Repr

/-- The machine right after reset (R52, R379, R402, R403): every core stopped in its reset state, every register at
the value the spec gives, or, where it gives none, at the value log 3 names. -/
def State.reset : State := {}

end Sys2Proof.Machine
end

