-- ==== Sys2Proof/Machine/Topo.lean ====
section
/-! DEFINITION. Where things are (R11, R12), access to cores, clusters and dies, virtual core numbers (R378, R379),
the die error log (R408), and the free values. A core is named by 512 × die + its number on the die, a cluster by
64 × die + its number. -/
namespace Sys2Proof.Machine

/-- A step's answer. -/
abbrev Out := Host.Outcome State Fault Refusal

/-- Take a free value (log 2). -/
def State.free (s : State) : Nat × State :=
  (Config.freeValue s.oracle, { s with oracle := s.oracle + 1 })

/-- The die of a core. -/
def dieOf (loc : Nat) : Nat := loc / 512

/-- The number of a core on its die (R12; 256 to 271 are spares, R411). -/
def numOf (loc : Nat) : Nat := loc % 512

/-- A core the package has: 256 enabled and 16 spare cores on each of 8 dies (R12). -/
def isCore (loc : Nat) : Bool := decide (dieOf loc < 8 ∧ numOf loc < 272)

/-- The issuing core's die. -/
def State.die (s : State) : Nat := dieOf s.focus

/-- A die. -/
def State.dieAt (s : State) (d : Nat) : Die := sget Die.reset s.dies d

/-- Replace a die. -/
def State.setDie (s : State) (d : Nat) (x : Die) : State := { s with dies := sput Die.reset s.dies d x }

/-- Update a die. -/
def State.updDie (s : State) (d : Nat) (f : Die → Die) : State := s.setDie d (f (s.dieAt d))

/-- A cluster, named by 64 × die + number. -/
def State.clAt (s : State) (k : Nat) : Cluster := sget {} s.clusters k

/-- Replace a cluster. -/
def State.setCl (s : State) (k : Nat) (x : Cluster) : State := { s with clusters := sput {} s.clusters k x }

/-- Update a cluster. -/
def State.updCl (s : State) (k : Nat) (f : Cluster → Cluster) : State := s.setCl k (f (s.clAt k))

/-- Update the issuing core. -/
def State.updCore (s : State) (f : Core → Core) : State := { s with core := f s.core }

/-- A core of the package. -/
def State.coreAt (s : State) (loc : Nat) : Core :=
  if loc = s.focus then s.core else sget Core.reset s.others loc

/-- Update a core of the package. -/
def State.updCoreAt (s : State) (loc : Nat) (f : Core → Core) : State :=
  if loc = s.focus then s.updCore f else { s with others := supd Core.reset s.others loc f }

/-- Make another core the issuing core (log 1). -/
def State.refocus (s : State) (loc : Nat) : State :=
  if loc = s.focus then s
  else { s with
    focus := loc
    core := sget Core.reset s.others loc
    others := sput Core.reset (sput Core.reset s.others s.focus s.core) loc Core.reset }

/-- Run an effect of core loc with that core as the issuing core. -/
def State.onCore (s : State) (loc : Nat) (f : State → State) : State :=
  (f (s.refocus loc)).refocus s.focus

/-- The cluster number of a core on its die (R12); a spare takes the number of the cluster it replaces, a
replaced core the unused number 48, a spare not in use 32 or 33 (R411). -/
def State.clNum (s : State) (loc : Nat) : Nat :=
  let n := numOf loc
  let sp := (s.dieAt (dieOf loc)).spares
  if n < 256 then
    let k := 2 * (n / 16) + n % 16 / 8
    if sget none sp 0 = some k ∨ sget none sp 1 = some k then 48 else k
  else (sget none sp ((n - 256) / 8)).getD (32 + (n - 256) / 8)

/-- The cluster of a core, as 64 × die + number. -/
def State.clOf (s : State) (loc : Nat) : Nat := 64 * dieOf loc + s.clNum loc

/-- The issuing core's cluster. -/
def State.cl (s : State) : Nat := s.clOf s.focus

/-- A core's position within its cluster (R12). -/
def posOf (loc : Nat) : Nat := numOf loc % 8

/-- The core at a position of cluster k of a die (R12, R411). -/
def State.coreOf (s : State) (clu pos : Nat) : Nat :=
  let d := clu / 64
  let k := clu % 64
  let sp := (s.dieAt d).spares
  if sget none sp 0 = some k then 512 * d + 256 + pos
  else if sget none sp 1 = some k then 512 * d + 264 + pos
  else 512 * d + 16 * (k / 2) + 8 * (k % 2) + pos

/-- The cores of a cluster, by position. -/
def State.coresOf (s : State) (clu : Nat) : List Nat := (List.range 8).map (s.coreOf clu)

/-- The remap table (R379): at reset entry 256 × d + n names core n of die d. -/
def State.locOf (s : State) (v : Nat) : Option Nat :=
  if v < 2048 then
    match sget none s.remap v with
    | some r => if r.valid then some r.loc else none
    | none => some (512 * (v / 256) + v % 256)
  else none

/-- The virtual core number of a core, 0xFFFF when no valid entry names it (R378). Where a restore has left two entries
that name it, it is that of the context it holds. -/
def State.vcoreOf (s : State) (loc : Nat) : Nat :=
  match (s.coreAt loc).ctx.vcore.filter fun v => s.locOf v = some loc with
  | some v => v
  | none =>
  match s.remap.find? (fun e => e.2 = some ⟨true, loc⟩) with
  | some e => e.1
  | none =>
    let v := 256 * dieOf loc + numOf loc
    if numOf loc < 256 ∧ sget none s.remap v = none then v else 0xFFFF

/-- The issuing core's virtual core number. -/
def State.vcore (s : State) : Nat := s.vcoreOf s.focus

/-- Append an entry to a log of a die, counting it in LOST when the log is full (R408). -/
def ErrLog.push (l : ErrLog) (e : ErrEntry) : ErrLog :=
  if l.entries.length < 128 then { l with entries := l.entries ++ [e] }
  else { l with lost := if l.lost = BitVec.allOnes 32 then l.lost else l.lost + 1 }

/-- Log an address in the error log v of a die (R408), for a request of VF `vf`: of the log's own VF, and in log 16, where
nothing names one, 0 (log 64). -/
def State.logAt (s : State) (d v vcore : Nat) (addr : Word) (code : Nat) (vf : Nat := v % 16) : State :=
  s.updDie d fun x => { x with
    errLog := supd {} x.errLog v (·.push { addr, time := word s.time, vcore, vf, code }) }

/-- Log an address of the issuing core in its VF's log of its die (R39, R408). -/
def State.logErr (s : State) (addr : Word) (code : Nat) : State :=
  s.logAt s.die s.core.vf s.vcore addr code

/-- The launch of an identifier. -/
def State.launchOf (s : State) (lid : Nat) : Option Launch := s.launches.find? (fun l => l.lid = lid)

/-- The clusters of a launch on this package, in logical order: dies ascending, clusters ascending (R278, R300). -/
def Launch.clusters (l : Launch) : List Nat :=
  (List.range 8).flatMap fun d => (List.range 32).filterMap fun k =>
    let col := 2 * (d % 4) + k % 2
    let row := 16 * (d / 4) + k / 2
    if l.colLo ≤ col ∧ col ≤ l.colHi ∧ l.rowLo ≤ row ∧ row ≤ l.rowHi then some (64 * d + k) else none

/-- How many logical clusters stand before this package's in the launch: the packages listed before it hold the same
rectangle (R278, R301). -/
def State.clBase (s : State) (l : Launch) : Nat :=
  (l.pkgs.takeWhile (· ≠ s.fabric.endpt)).length * l.clusters.length

/-- The cluster of a logical cluster number of a launch, where it lies on this package (R278). -/
def State.clOfLogical (s : State) (lid n : Nat) : Option Nat :=
  match s.launchOf lid with
  | some l => if s.clBase l ≤ n then l.clusters[n - s.clBase l]? else none
  | none => none

/-- The cores of a launch on this package (R301). -/
def State.launchCores (s : State) (l : Launch) : List Nat := l.clusters.flatMap s.coresOf

end Sys2Proof.Machine
end

