-- ==== Sys2Proof/Machine/Ops.lean ====
section
/-! DEFINITION. The named operations over a core: slots and windows (R125 to R128), results in flight (R132 to R135),
counters (R380, R381), trace records (R384 to R389), the halt queue (R34, R342), taking a trap (R136), a halting
fault (R33) and the return from a trap (R138). -/
namespace Sys2Proof.Machine

/-! Bit assembly. -/

/-- A field of a word at its place: the low w bits of n at bit lo. -/
def put (n lo w : Nat) : Nat := n % 2 ^ w * 2 ^ lo

/-- The bytes of a number, least significant first (R1). -/
def bytesOf (n : Nat) : Nat → List Byte
  | 0 => []
  | k + 1 => BitVec.ofNat 8 n :: bytesOf (n / 256) k

/-- The number whose bytes these are, least significant first (R1). -/
def natOf : List Byte → Nat
  | [] => 0
  | b :: bs => b.toNat + 256 * natOf bs

/-- The bits of a 512-bit record as a number (R3). -/
def rfld (r : BitVec 512) (lo w : Nat) : Nat := fld r.toNat lo w

/-- Sign extension of the low w bits of n to an integer. -/
def sext (n w : Nat) : Int := if n % 2 ^ w < 2 ^ (w - 1) then (n % 2 ^ w : Nat) else (n % 2 ^ w : Nat) - (2 ^ w : Nat)

/-- The word of an integer, modulo 2^64. -/
def wordI (i : Int) : Word := BitVec.ofInt 64 i

/-- Whether [a, a + n) and [b, b + m) meet. -/
def meets (a n b m : Nat) : Bool := decide (a < b + m ∧ b < a + n)

/-! The free values (log 2). -/

/-- Choose one of a list: the head unless several are offered. -/
def State.pick {α : Type} (s : State) (d : α) (xs : List α) : α × State :=
  match xs with
  | [] => (d, s)
  | [x] => (x, s)
  | x :: ys => let (n, s) := s.free; (((x :: ys)[n % (ys.length + 1)]?).getD x, s)

/-- A free choice between two values, taken only where they differ. -/
def State.choose {α : Type} [DecidableEq α] (s : State) (a b : α) : α × State :=
  if a = b then (a, s) else s.pick a [a, b]

/-! Windows and slots. -/

/-- A window-table entry (R130). -/
def Core.win (c : Core) (i : Nat) : Win := sget {} c.wins i

/-- Replace a window-table entry. -/
def Core.setWin (c : Core) (i : Nat) (w : Win) : Core := { c with wins := sput {} c.wins i w }

/-- The current window (R130). -/
def Core.curWin (c : Core) : Win := c.win c.cur

/-- An absolute slot of the register store (R125). -/
def Core.slot (c : Core) (n : Nat) : Word := sget 0 c.store n

/-- Write a slot; a slot so written is correctable again (R409). -/
def Core.setSlot (c : Core) (n : Nat) (v : Word) : Core :=
  { c with store := sput 0 c.store n v, bad := c.bad.filter (· ≠ n) }

/-- Write several slots, in order. -/
def Core.setSlots (c : Core) (ws : List (Nat × Word)) : Core := ws.foldl (fun c w => c.setSlot w.1 w.2) c

/-- The absolute slot that a read of offset k in a window reaches (R128). The first argument bounds the depth of
struck billets. -/
def Core.readSlot (c : Core) : Nat → Win → Nat → Nat
  | 0, w, k => w.base + k
  | n + 1, w, k => if w.s && w.share.getLsbD (k / 8) then c.readSlot n (c.win w.parent) k else w.base + k

/-- The absolute slot a read of offset k reaches, to the depth the window table allows (R128). -/
def Core.src (c : Core) (w : Win) (k : Nat) : Nat := c.readSlot 32 w k

/-- The descriptor word of a window-table entry (R125); an entry that is not valid reads zero (R141). -/
def Win.desc (w : Win) : Word :=
  if w.v then
    word (put w.base 0 14 + put w.size 16 14 + put w.voff 32 14 + put w.parent 48 5 + put (b2n w.t) 56 1
      + put (b2n w.s) 57 1 + put 1 58 1 + put (b2n w.h) 59 1)
  else 0

/-- The window a descriptor word describes (R125), with no share mask. -/
def Win.ofDesc (v : Word) : Win :=
  { base := v.bits 0 14, size := v.bits 16 14, voff := v.bits 32 14, parent := v.bits 48 5
    t := v.bit 56, s := v.bit 57, v := v.bit 58, h := v.bit 59 }

/-- A well-formed descriptor (R126). -/
def descOk (v : Word) : Bool :=
  decide (v.bits 14 2 = 0 ∧ v.bits 30 2 = 0 ∧ v.bits 46 2 = 0 ∧ v.bits 53 3 = 0 ∧ v.bits 60 4 = 0 ∧ v.bits 59 1 = 0
    ∧ v.bits 58 1 = 1 ∧ 1 ≤ v.bits 16 14 ∧ v.bits 0 14 + v.bits 16 14 ≤ 16384 ∧ v.bits 32 14 % 8 = 0)

/-- `cr.win` (R130). -/
def Core.crWin (c : Core) : Word := word (c.cur + put (b2n c.sup) 8 1)

/-- `cr.arena` (R131). -/
def Arena.word (a : Arena) : Word :=
  Sys2Proof.word (put a.lo 0 15 + put a.hi 16 15 + put (b2n a.sliced) 32 1 + put (b2n a.side) 33 1)

/-- The arena a word describes (R131). -/
def Arena.ofWord (v : Word) : Arena := { lo := v.bits 0 15, hi := v.bits 16 15, sliced := v.bit 32, side := v.bit 33 }

/-- The arena is legal: LO ≤ HI ≤ 16,384, SIDE 0 in exclusive mode, within the chosen half in sliced mode
(R131, R145). -/
def Arena.ok (a : Arena) : Bool :=
  decide (a.lo ≤ a.hi ∧ a.hi ≤ 16384) &&
    (if a.sliced then decide (8192 * b2n a.side ≤ a.lo ∧ a.hi ≤ 8192 * b2n a.side + 8192) else !a.side)

/-- A window lies within the arena (R140, R145). -/
def Win.within (w : Win) (a : Arena) : Bool := decide (a.lo ≤ w.base ∧ w.base + w.size ≤ a.hi)

/-- An absolute slot lies in a valid billet of the core (R129). -/
def Core.inBillet (c : Core) (n : Nat) : Bool :=
  c.wins.any fun e => e.2.v && e.2.t && decide (e.2.base ≤ n ∧ n < e.2.base + e.2.size)

/-! Counters and trace records. -/

/-- Count n events of an instruction of this mode and window in the counters of a core: WF and WIN, S and U filter
(R380). -/
def Core.countAs (c : Core) (sup : Bool) (win : Option Nat) (ev n : Nat) : Core :=
  let bump := fun (pmc : Sparse (BitVec 48)) (e : Nat × Word) =>
    let p := e.2
    if p.bits 0 8 = ev ∧ ev ≠ 0 ∧ (if sup then p.bit 12 else p.bit 13) ∧
        (!p.bit 19 ∨ win = some (p.bits 14 5)) then
      supd 0 pmc e.1 (· + BitVec.ofNat 48 n)
    else pmc
  { c with obs := { c.obs with pmc := c.obs.pme.foldl bump c.obs.pmc } }

/-- Count n events of a core in its present mode. -/
def Core.count (c : Core) (win : Option Nat) (ev n : Nat) : Core := c.countAs c.sup win ev n

/-- Count n events of the issuing core's current window. -/
def State.count (s : State) (ev n : Nat) : State := s.updCore fun c => c.count (some c.cur) ev n

/-- A trace record (R384). -/
def traceWord (data : Word) (vcore delta kind vf win reason : Nat) : BitVec 128 :=
  BitVec.ofNat 128 (data.toNat * 2 ^ 64 + put vcore 48 16 + put delta 32 16 + put kind 24 8 + put vf 20 4
    + put win 15 5 + put reason 8 7)

/-- The tick of a port stream's last record and the records since its last full timestamp, counted from 1; (0, 0)
where none was sent (R386). -/
def portClock (rs : List (BitVec 128)) : Nat × Nat :=
  rs.foldl (fun p r => if fld r.toNat 24 8 = 0 then (r.toNat / 2 ^ 64, 1)
    else (p.1 + fld r.toNat 32 16, p.2 + 1)) (0, 0)

/-- A stream needs a full timestamp before a record at tick t, where its last record was at `last` and `since` counts its
records from the last full timestamp (R386). -/
def traceStamp (t last since : Nat) : Bool := decide (since = 0 ∨ since ≥ 256 ∨ t - last > 0xFFFF)

/-- The buffer is full (R387). -/
def TraceBuf.full (b : TraceBuf) : Bool :=
  decide (b.tsize = 0 ∨ (b.put + 16 * b.queue.length + 16) % b.tsize.toNat = b.get.toNat % b.tsize.toNat)

/-- A record of a buffer is dropped and counted; the stream's clock stays with the last record written (R387). -/
def TraceBuf.drop (b : TraceBuf) : TraceBuf :=
  { b with dropped := if b.dropped = BitVec.allOnes 32 then b.dropped else b.dropped + 1 }

/-- Write a record at tick t in a buffer, behind a full timestamp where R386 asks for one: whether the record was dropped
(R387). -/
def TraceBuf.push (b : TraceBuf) (t : Nat) (data : Word) (vcore kind vf win reason : Nat) : Bool × TraceBuf :=
  if b.full then (true, b.drop)
  else
    let b := if traceStamp t b.lastTick b.since then
        { b with queue := b.queue ++ [traceWord (word t) vcore 0 0 vf 0 0], lastTick := t, since := 1 } else b
    if b.full then (true, b.drop)
    else
      (false, { b with
        queue := b.queue ++ [traceWord data vcore (t - b.lastTick) kind vf win reason], lastTick := t, since := b.since + 1 })

/-- Send a record to the trace port (R389), where it is beyond its rate or is sent: the first record sent after dropped ones
is preceded by a full timestamp that gives their number. -/
def State.portSend (s : State) (data : Word) (vcore kind vf win reason : Nat) : State :=
  let (dropped, s) := s.choose false true
  if dropped then { s with tlost := s.tlost + 1 }
  else
    let p := portClock s.tport
    let now := s.time
    let rs :=
      if s.tlost ≠ 0 then
        [traceWord (word now) 0xFFFF 0 0 vf 0 (Nat.min 127 s.tlost), traceWord data vcore 0 kind vf win reason]
      else if traceStamp now p.1 p.2 then
        [traceWord (word now) vcore 0 0 vf 0 0, traceWord data vcore 0 kind vf win reason]
      else [traceWord data vcore (now - p.1) kind vf win reason]
    { s with tport := s.tport ++ rs, tlost := 0 }

/-! Contexts. -/

/-- A context of a VF is stopped on a core's die, captured or with its image saved (R363, R383). -/
def State.stoppedContext (s : State) (loc vf vcore : Nat) : Bool :=
  ((s.coreAt loc).ctx.captures.any fun k => decide (k.vf = vf ∧ k.vcore = vcore)) ||
    (s.dieAt (dieOf loc)).parked.any fun p => decide (p.vf = vf ∧ p.vcore = vcore)

/-- A context of VF vf is the current tenant of a core now (R363): a core that a quench left without one stands stopped. -/
def State.runs (s : State) (loc vf vcore : Nat) : Bool :=
  let c := s.coreAt loc
  decide (c.vf = vf ∧ c.run ≠ .quenched) && (decide (c.run ≠ .stopped) || !s.stoppedContext loc vf vcore)

/-- A dropped trace record of a context is counted in its core where it runs there (event 23, R381); where it stands stopped,
the die holds the count for it (R383); the mode at that event, by which counters filter (R380), is free. -/
def State.dropCredit (s : State) (loc vf vcore : Nat) : State :=
  if s.runs loc vf vcore then s.updCoreAt loc (·.count none 23 1)
  else if s.stoppedContext loc vf vcore then
    let (sup, s) := s.choose false true
    { s with credits := s.credits ++ [(vcore, vf, 23, 1, sup)] }
  else s

/-- Write a trace record of VF vf on a die, to its buffer and, with PORT, to the trace port (R384 to R389). A record
that finds EN = 0 is not written; one that the VF's token bucket does not admit at once is dropped (R388). -/
def State.trace (s : State) (d vf vcore win kind : Nat) (data : Word) (reason : Nat) : State :=
  let b := sget {} (s.dieAt d).trace vf
  if !b.ctl.getLsbD 0 || (decide (8 ≤ kind) && !b.ctl.getLsbD 2) then s
  else
    let (late, s) := s.choose false true
    let r := if late then (true, b.drop) else b.push s.time data vcore kind vf win reason
    let s := s.updDie d fun x => { x with trace := sput {} x.trace vf r.2 }
    let s := match s.locOf vcore with
      | some loc => if r.1 then s.dropCredit loc vf vcore else s
      | none => s
    if b.ctl.getLsbD 1 then s.portSend data vcore kind vf win reason else s

/-- A trace record of the issuing core. -/
def State.traceCore (s : State) (kind : Nat) (data : Word) : State :=
  s.trace s.die s.core.vf s.vcore s.core.cur kind data 0

/-! Arenas that hold an image. -/

/-- An arena of VF vf takes in a half whose image of another VF is unsaved (R359). -/
def Core.holdsOther (c : Core) (vf : Nat) (a : Arena) : Bool :=
  c.ctx.captures.any fun k => k.unsaved && decide (k.vf ≠ vf ∧ (k.sliced = false ∨ a.sliced = false ∨ k.half = b2n a.side))

/-! Results in flight. -/

/-- A pending result writes one of these slots. -/
def Pend.touches (p : Pend) (slots : List Nat) : Bool := p.writes.any fun w => slots.contains w.1

/-- A result of fixed latency. -/
def PendKind.isFixed : PendKind → Bool
  | .fixed _ => true
  | _ => false

/-- A result of fixed latency that is not readable yet at the core's cycle (R134). -/
def Pend.early (p : Pend) (t : Nat) : Bool :=
  match p.kind with
  | .fixed r => decide (t < r)
  | _ => false

/-- A result of fixed latency that is readable at cycle t. -/
def Pend.ripe (p : Pend) (t : Nat) : Bool :=
  match p.kind with
  | .fixed r => decide (r ≤ t)
  | _ => false

/-- A variable-latency result. -/
def Pend.variable (p : Pend) : Bool :=
  match p.kind with
  | .fixed _ => false
  | _ => true

/-- A result whose instruction still stands in the vector queue (R200). -/
def Pend.queued (p : Pend) : Bool :=
  match p.kind with
  | .queued _ => true
  | _ => false

/-- A result of a queued instruction that touches one of these slots. -/
def Core.queuedOn (c : Core) (slots : List Nat) : Bool := c.pend.any fun p => p.queued && p.touches slots

/-- The number of instructions in the vector queue (R200). -/
def Core.queued (c : Core) : Nat := (c.pend.filter Pend.queued).length

/-- A result of variable latency, or one of fixed latency that is readable before cycle r. -/
def Pend.keeps (p : Pend) (r : Nat) : Bool :=
  match p.kind with
  | .fixed q => decide (q < r)
  | _ => true

/-- Older pending fixed-latency writes to these slots that are not readable before cycle r are dropped: the slots keep
what a newer result, readable from cycle r on, writes (R135). -/
def Core.supersede (c : Core) (r : Nat) (slots : List Nat) : Core :=
  { c with pend := c.pend.filterMap fun p =>
      if p.keeps r then some p
      else
        let ws := p.writes.filter fun w => !slots.contains w.1
        if ws = [] ∧ p.flags = 0 then none else some { p with writes := ws } }

/-- Land a result: write its slots and OR its flags (R132, R202). A slot receives its writes in issue order (R133): where
a result of variable latency lands, no newer one is pending, and what is pending for its slots is older. -/
def Core.land (c : Core) (p : Pend) : Core :=
  let c := { c with pend := if p.variable then (c.supersede 0 (p.writes.map Prod.fst)).pend else c.pend }
  let c := c.setSlots p.writes
  { c with fp := { c.fp with fflags := c.fp.fflags ||| p.flags } }

/-- Land, in issue order, every pending result that f holds of. -/
def Core.landIf (c : Core) (f : Pend → Bool) : Core :=
  let ls := c.pend.filter f
  (ls.foldl Core.land { c with pend := c.pend.filter (fun p => !f p) })

/-- Wait for the variable-latency results that write these slots (R133), of which none stands in the vector queue any
longer. -/
def Core.settle (c : Core) (slots : List Nat) : Core :=
  c.landIf fun p => p.variable && !p.queued && p.touches slots

/-- The cycle from which a fixed-latency result that the scoreboard tracks for one of these slots is readable, 0 of any other
(R133). -/
def Pend.trackedFrom (p : Pend) (slots : List Nat) : Nat :=
  match p.kind with
  | .fixed r => if p.chk ∧ p.touches slots then r else 0
  | _ => 0

/-- Wait for every pending result (R171), of which none stands in the vector queue any longer. -/
def Core.settleAll (c : Core) : Core := c.landIf fun p => !p.queued

/-- Add a pending result. Of two fixed-latency results for one slot that would land out of issue order, the slot keeps
the later-issued one (R135); a result of variable latency supersedes the older ones when it lands. -/
def Core.addPend (c : Core) (p : Pend) : Core :=
  let older := match p.kind with
    | .fixed r => (c.supersede r (p.writes.map (·.1))).pend
    | _ => c.pend
  { c with pend := older ++ [p] }

/-- Advance a core's cycle counter, counting cycles (event 1) and cycles with no issue (event 3) (R380, R381). -/
def Core.advance (c : Core) (t : Nat) : Core :=
  if t ≤ c.cycle then c
  else ((c.count (some c.cur) 1 (t - c.cycle)).count (some c.cur) 3 (t - c.cycle)) |> fun c => { c with cycle := t }

/-- Wait for the tracked fixed-latency results that write these slots, to the cycle in which the last of them is readable
(R133, R134). -/
def Core.await (c : Core) (slots : List Nat) : Core :=
  let c := c.advance (c.pend.foldl (fun t p => Nat.max t (p.trackedFrom slots)) 0)
  c.landIf (·.ripe c.cycle)

/-- The core fetches in core cycle t under its duty (R372). -/
def fetches (duty t : Nat) : Bool := decide (t % 16 * duty / 16 < (t % 16 + 1) * duty / 16)

/-- The fetch duty in a cycle (R372). -/
def Clk.dutyIn (k : Clk) (t : Nat) : Nat := if k.dutyAt ≤ t then k.dutyNew else k.duty

/-- The first cycle from t on, within n, in which the core fetches (R372). -/
def dutyCycle (k : Clk) : Nat → Nat → Nat
  | 0, t => t
  | n + 1, t => if fetches (k.dutyIn t) t then t else dutyCycle k n (t + 1)

/-- Bring the core to the cycle in which its current window issues its next instruction, and land the fixed-latency
results readable by then (R20, R134, R139, R372). -/
def Core.toIssue (c : Core) : Core :=
  let t := Nat.max c.cycle (Nat.max c.ready c.curWin.ready)
  let u := dutyCycle c.clk 32 t
  let c := (c.count (some c.cur) 5 (u - t)).advance u
  c.landIf (·.ripe c.cycle)

/-! Halting, traps and the return from a trap. -/

/-- The halt message of R34. -/
def haltMsg (time ibits : Nat) (pc : Word) (vf vcore core sup len win cause : Nat) : BitVec 256 :=
  BitVec.ofNat 256 (put time 192 64 + put (ibits % 2 ^ (16 * len)) 128 64 + put pc.toNat 64 64 + put vf 48 4
    + put vcore 32 16 + put core 25 1 + put sup 24 1 + put len 20 4 + put win 8 5 + put cause 0 8)

/-- Wake a sleeping core (R172); a gate is withdrawn with the sleep (R376). -/
def Core.wake (c : Core) : Core :=
  match c.run with
  | .asleep _ => { c with run := .running, clk := { c.clk with gate := 0 } }
  | _ => c

/-- Wake the core a virtual core number names. -/
def State.wakeV (s : State) (v : Nat) : State :=
  match s.locOf v with
  | some loc => s.updCoreAt loc Core.wake
  | none => s

/-- Append an entry to the halt queue of VF vf on die d, and wake the designated supervisor core that HSUP names
(R341, R342). -/
def State.pushHalt (s : State) (d vf : Nat) (e : HaltEntry) : State :=
  let s := s.updDie d fun x => { x with haltQ := supd {} x.haltQ vf fun q =>
    if q.entries.length < 64 then { q with entries := q.entries ++ [e] }
    else { q with lost := if q.lost = BitVec.allOnes 32 then q.lost else q.lost + 1 } }
  let h := sget 0 (s.dieAt d).hsup vf
  if h.bit 63 then s.wakeV (h.bits 0 16) else s

/-- Send the issuing core's halt message (R33 step 3, R34), for the instruction latched at its PC. -/
def State.sendHalt (s : State) (cause core win : Nat) : State :=
  let c := s.core
  s.pushHalt s.die c.vf
    { msg := haltMsg s.time c.ibits.toNat c.pc c.vf s.vcore core (b2n c.sup) c.ilen win cause
      desc := ({ c.win win with h := true }).desc }

/-- The issuing core stops issuing in every window (R33, R136, R173), at a tick from which its idling counts (R376). -/
def Core.stop (now : Nat) (c : Core) : Core :=
  { c with run := .stopped, wait := none, held := false, seen := [], clk := { c.clk with gate := 0, idleSince := now } }

/-- Mark a window-table entry halted (R33 step 2). -/
def Core.markHalted (c : Core) (i : Nat) : Core := c.setWin i { c.win i with h := true }

/-- Grant a free lease to the requesting core whose position follows the last holder's most closely (R237). -/
def State.grantLease (s : State) (clu : Nat) : State :=
  let l := (s.clAt clu).lease
  if l.holder.isSome then s
  else
    match (List.range 8).findSome? (fun k => l.reqs.find? fun r => r.1 = (l.last + 1 + k) % 8) with
    | none => s
    | some r =>
      let n := (s.coreAt (s.coreOf clu r.1)).mat.leaseN
      s.updCl clu fun c => { c with lease := { c.lease with
        holder := some r, last := r.1, left := n, lastCmd := s.time, paused := none, reqs := c.lease.reqs.filter (· ≠ r) } }

/-- The lease of a cluster ends, and the next request is granted (R236, R237). -/
def State.endLease (s : State) (clu : Nat) : State :=
  (s.updCl clu fun c => { c with lease := { c.lease with holder := none, left := 0 } }).grantLease clu

/-- A lease held by a window of the issuing core ends when that window halts (R236). -/
def State.dropLease (s : State) (win : Nat) : State :=
  if (s.clAt s.cl).lease.holder = some (posOf s.focus, win) then s.endLease s.cl else s

/-- Enter the trap window, or stop where it cannot be entered (R136). -/
def State.enterTrap (s : State) (tpc : Word) (cause : Nat) (val : Word) : State :=
  let c := s.core
  let w := 28 + c.trap.twin
  let tr := { c.trap with
    tpc := tpc &&& ~~~1#64, tfrom := c.cur, tcause := cause % 256, tval := val, tstat := c.sup }
  let c1 := { c with trap := tr, wait := none, held := false, seen := [] }
  if (c.win w).v ∧ !(c.win w).h then
    { s with core := { c1 with cur := w, sup := true, pc := c.trap.tvec } }
  else
    (({ s with core := (c1.markHalted c.cur).stop s.time } : State).dropLease c.cur).sendHalt 1 1 c.cur

/-- Take a local precise trap whose saved PC is `tpc` (R136). A trap takes its core cycle, in which no instruction issues
(R381). -/
def State.trapAt (s : State) (tpc : Word) (cause : Nat) (val : Word) : State :=
  (s.updCore fun c => c.advance (c.cycle + 1)).enterTrap tpc cause val

/-- Take a local precise trap at the instruction's own PC (R136). -/
def State.trap (s : State) (cause : Nat) (val : Word) : Out := .next (s.trapAt s.core.pc cause val)

/-- A halting fault of the instruction at PC (R33). -/
def State.haltFault (s : State) (cause : Nat) : Out :=
  let c := s.core
  let w := 28 + c.trap.twin
  let s := ({ s with core := c.markHalted c.cur } : State).dropLease c.cur
  if c.cur = w then
    let s := s.sendHalt cause 1 c.cur
    .next (s.updCore (Core.stop s.time))
  else
    .next ((s.sendHalt cause 0 c.cur).trapAt c.pc cause 0)

/-- Return from a trap (R138): whether it can return, and the core after it. -/
def Core.rettOk (c : Core) : Bool :=
  let w := c.win c.trap.tfrom
  w.v && !w.h && !(!c.trap.tstat && decide (28 ≤ c.trap.tfrom))

/-- The core after `rett` (R138). -/
def Core.rett (c : Core) : Core := { c with cur := c.trap.tfrom, sup := c.trap.tstat, pc := c.trap.tpc }

/-! Retiring. -/

/-- An instruction of len bytes with stall count stl has issued: its context issues again no earlier than stl
cycles later, the core in the next cycle (R17, R20). The PC is the caller's. -/
def Core.issued (c : Core) (stl : Nat) : Core :=
  let w := c.curWin
  let c := c.setWin c.cur { w with ready := c.cycle + stl }
  let c := (c.count (some c.cur) 1 1).count (some c.cur) 2 1
  { c with cycle := c.cycle + 1, wait := none, held := false, seen := [], obs := { c.obs with issues := c.obs.issues + 1 } }

/-- The instruction of len bytes is complete and the PC goes on to its sequential successor (R16). -/
def State.retire (s : State) (len stl : Nat) : Out :=
  .next (s.updCore fun c => { c.issued stl with pc := c.pc + BitVec.ofNat 64 len })

/-- The instruction is complete and the PC goes to a target. -/
def State.retireTo (s : State) (pc : Word) (stl : Nat) : Out :=
  .next (s.updCore fun c => { c.issued stl with pc })

/-- The instruction waits: it stays at its PC with what it has registered, and is executed again (R97, R376). -/
def State.waiting (s : State) (k : WaitKind) (deadline : Nat := 0) (addr : Word := 0) (len : Nat := 0) : Out :=
  let c := s.core
  let fresh : Wait := { kind := k, pc := c.pc, win := c.cur, since := s.time, report := s.time, deadline, addr, len }
  match c.wait with
  | some w =>
    if w.kind = k ∧ w.pc = c.pc ∧ w.win = c.cur then .next s
    else .next { s with core := { c with wait := some fresh, clk := { c.clk with gate := 0 } } }
  | none => .next { s with core := { c with wait := some fresh, clk := { c.clk with gate := 0 } } }

/-- The core waits already in this instruction (R97). -/
def Core.inWait (c : Core) (k : WaitKind) : Bool :=
  match c.wait with
  | some w => decide (w.kind = k ∧ w.pc = c.pc ∧ w.win = c.cur)
  | none => false

/-- The instruction is held at issue by something other than a wait of R376; it is executed again. -/
def State.heldBack (s : State) : Out := .next (s.updCore fun c => { c with held := true })

end Sys2Proof.Machine
end

