-- ==== Sys2Proof/WellFormed.lean ====
section
/-! DEFINITION. The codes of types and scopes (R28), the lists of supported forms (R166, R204, R208, R212, R215),
and what makes an instruction well formed: every field within the range its encoding holds and every operand one
the instruction's description allows (R21, R23, R30, R31). -/
namespace Sys2Proof

/-- TY codes (R28). -/
def Ty.code : Ty → Nat
  | .f32 => 0 | .i32 => 1 | .n32 => 2 | .bf16 => 3 | .f16 => 4 | .i16 => 5 | .n16 => 6 | .i8 => 7
  | .n8 => 8 | .f64 => 9 | .i64 => 10 | .e4m3 => 11 | .e5m2 => 12 | .i4 => 13 | .nq4 => 14

/-- The type of a TY code; 15 is reserved (R28). -/
def Ty.ofCode : Nat → Option Ty
  | 0 => some .f32 | 1 => some .i32 | 2 => some .n32 | 3 => some .bf16 | 4 => some .f16
  | 5 => some .i16 | 6 => some .n16 | 7 => some .i8 | 8 => some .n8 | 9 => some .f64
  | 10 => some .i64 | 11 => some .e4m3 | 12 => some .e5m2 | 13 => some .i4 | 14 => some .nq4
  | _ => none

/-- A lane type as an element type (R199). -/
def LaneTy.ty : LaneTy → Ty
  | .f32 => .f32 | .i32 => .i32 | .n32 => .n32 | .bf16 => .bf16 | .f16 => .f16 | .i16 => .i16
  | .i8 => .i8 | .f64 => .f64

/-- TY codes of the lane types (R28, R199). -/
def LaneTy.code (t : LaneTy) : Nat := t.ty.code

/-- The lane type of a TY code; a type that is not a lane type is reserved (R199). -/
def LaneTy.ofCode : Nat → Option LaneTy
  | 0 => some .f32 | 1 => some .i32 | 2 => some .n32 | 3 => some .bf16 | 4 => some .f16
  | 5 => some .i16 | 7 => some .i8 | 9 => some .f64
  | _ => none

/-- Floating-point lane types (R199). -/
def LaneTy.isFloat : LaneTy → Bool
  | .f32 | .bf16 | .f16 | .f64 => true
  | _ => false

/-- Lane width in bits (R199). -/
def LaneTy.width : LaneTy → Nat
  | .f32 | .i32 | .n32 => 32
  | .bf16 | .f16 | .i16 => 16
  | .i8 => 8
  | .f64 => 64

/-- Element width in bits (R102, R180, R181). -/
def Ty.width : Ty → Nat
  | .f32 | .i32 | .n32 => 32
  | .bf16 | .f16 | .i16 | .n16 => 16
  | .i8 | .n8 | .e4m3 | .e5m2 => 8
  | .f64 | .i64 => 64
  | .i4 | .nq4 => 4

/-- Floating-point element types. -/
def Ty.isFloat : Ty → Bool
  | .f32 | .bf16 | .f16 | .f64 | .e4m3 | .e5m2 => true
  | _ => false

/-- Scope codes of majors 0x3C and `iinv` (R28). -/
def Scope.code : Scope → Nat
  | .core => 0 | .cluster => 1 | .die => 2 | .dev => 3 | .sys => 4

/-- The scope of a code; 5 to 7 are reserved (R28). -/
def Scope.ofCode : Nat → Option Scope
  | 0 => some .core | 1 => some .cluster | 2 => some .die | 3 => some .dev | 4 => some .sys
  | _ => none

/-- Scope codes of the reductions (R28). -/
def AtScope.code : AtScope → Nat
  | .blk => 0 | .cls => 1 | .dev => 2 | .sys => 3

/-- The scope of a 2-bit code (R28). -/
def AtScope.ofCode : Nat → AtScope
  | 0 => .blk | 1 => .cls | 2 => .dev | _ => .sys

/-- Mode codes of `phreg` (R324). -/
def PhMode.code : PhMode → Nat
  | .sw => 0 | .so => 1 | .wo => 2

/-- The mode of a code; 3 is reserved (R324). -/
def PhMode.ofCode : Nat → Option PhMode
  | 0 => some .sw | 1 => some .so | 2 => some .wo
  | _ => none

/-- A prefix of all zeros (R23). -/
def Pfx.none : Pfx := {}

/-- The control-register numbers the manual assigns (R166). -/
def csrKnown (n : Nat) : Bool :=
  decide (n ≤ 0x005 ∨ (0x010 ≤ n ∧ n ≤ 0x016) ∨ (0x020 ≤ n ∧ n ≤ 0x023) ∨ n = 0x030 ∨ n = 0x031
    ∨ (0x040 ≤ n ∧ n ≤ 0x043) ∨ n = 0x050 ∨ n = 0x051 ∨ n = 0x060 ∨ (0x070 ≤ n ∧ n ≤ 0x087))

/-- The types each unary operation accepts (R208). -/
def unTyOk (op : UnOp) (ty : LaneTy) : Bool :=
  match op with
  | .rcp | .rsqrt | .sqrt | .rnd | .cls => ty.isFloat
  | .exp2 | .log2 | .tanh | .sigm => ty.isFloat && decide (ty ≠ .f64)
  | .clz | .popc => !ty.isFloat
  | .mxs => decide (ty = .f32 ∨ ty = .bf16 ∨ ty = .f16)
  | _ => true

/-- The lane types of `vidx` (R215). -/
def idxTyOk (ty : LaneTy) : Bool := !ty.isFloat

/-- The conversion pairs of equal width (R212). -/
def cvtPair1 (a b : Ty) : Bool :=
  match a, b with
  | .f32, .i32 | .f32, .n32 | .f16, .i16 | .f16, .n16 | .bf16, .i16 | .bf16, .n16 | .bf16, .f16
  | .f64, .i64 | .e4m3, .e5m2 | .i32, .n32 | .i16, .n16 | .i8, .n8 => true
  | _, _ => false

/-- The conversion pairs of width ratio 2, wider type first (R212). -/
def cvtPair2 (a b : Ty) : Bool :=
  match a, b with
  | .f64, .f32 | .f32, .bf16 | .f32, .f16 | .bf16, .e4m3 | .bf16, .e5m2 | .f16, .e4m3 | .f16, .e5m2
  | .i64, .i32 | .i32, .i16 | .i16, .i8 | .n32, .n16 | .n16, .n8 | .i8, .i4 => true
  | _, _ => false

/-- The supported conversions and their modes (R212). -/
def cvtOk (sty : Ty) (mode : Nat) (dty : Ty) : Bool :=
  if cvtPair1 sty dty || cvtPair1 dty sty then decide (mode ≤ 1)
  else (cvtPair2 sty dty || cvtPair2 dty sty) && decide (mode ≤ 3)

/-- A conversion that rounds nothing: a widening between floating-point types, or one between integer types
(R214). -/
def cvtExact (sty dty : Ty) : Bool :=
  (sty.isFloat && dty.isFloat && decide (sty.width < dty.width)) || (!sty.isFloat && !dty.isFloat)

/-- The instructions that honour PM (R204). -/
def VOp.honoursPm : VOp → Bool
  | .un op _ _ _ => decide (op ≠ .mxs)
  | .ext .. | .ins .. | .pred .. | .ldt .. | .swap .. | .mat .. => false
  | _ => true

/-- The instructions that honour Z (R204). -/
def VOp.honoursZ : VOp → Bool
  | .un op _ _ _ => decide (op ≠ .mxs ∧ op ≠ .sumr ∧ op ≠ .maxr ∧ op ≠ .minr)
  | .ext .. | .ins .. | .pred .. | .ldt .. | .swap .. | .mat .. | .st .. | .sts .. => false
  | _ => true

/-- The instructions that honour RM (R204, R209, R214). -/
def VOp.honoursRm : VOp → Bool
  | .lane ty op _ _ _ => ty.isFloat && decide (op = .add ∨ op = .sub ∨ op = .mul ∨ op = .mac)
  | .un op ty _ _ => match op with
    | .rcp | .rsqrt | .sqrt | .exp2 | .log2 | .tanh | .sigm | .rnd => true
    | .sumr => ty.isFloat
    | _ => false
  | .cvt sty _ dty _ _ => !cvtExact sty dty
  | _ => false

/-- The instructions that take a fourth operand (R204). -/
def VOp.honoursC : VOp → Bool
  | .lane _ op _ _ _ => decide (op = .mac)
  | .ldg .. | .sts .. => true
  | _ => false

/-- A prefix its word may have (R21, R23, R204, R216, R218). -/
def pfxOk (p : Pfx) (v : VOp) : Bool :=
  decide (p.rm ≠ 7) && (decide (p.rm = 0) || v.honoursRm) && (!p.cv || v.honoursC)
  && (p.cv || decide (p.c = 0)) && (decide (p.pm = 0) || v.honoursPm)
  && (!p.z || decide (p.pm = 0) || v.honoursZ)
  && (match v with
      | .ldg .. => p.cv
      | .sts .. => p.cv
      | .ldff .. => decide (p.pm ≠ 0)
      | _ => true)

/-- Fields of a prefix within their widths (R21). -/
def Pfx.ranged (p : Pfx) : Bool := decide (p.c < 64 ∧ p.rm < 8 ∧ p.pm < 8 ∧ p.stl < 8)

/-- A register name (R18). -/
def reg (n : Nat) : Bool := decide (n < 64)

/-- A stall count (R18). -/
def stlOk (n : Nat) : Bool := decide (n < 8)

/-- Operands of a matrix command (R238). -/
def MatOp.wf : MatOp → Bool
  | .lease | .rel | .rot => true
  | .bload a | .zero a => reg a
  | .mac d a | .st d a | .ld d a | .acc d a => reg d && reg a
  | .wait a d | .claim a d | .stat a d => reg a && reg d

/-- Operands of a prefixable word (R205 to R220, R238). -/
def VOp.wf : VOp → Bool
  | .lane _ _ d a b => reg d && reg a && reg b
  | .un op ty d a => unTyOk op ty && reg d && reg a
  | .cvt sty mode dty d a => cvtOk sty mode dty && reg d && reg a
  | .bcast _ d a => reg d && reg a
  | .idx ty d a => idxTyOk ty && reg d && reg a
  | .pred _ d a => decide (56 ≤ d ∧ d ≤ 62) && reg a
  | .ext dbl d a k | .ins dbl d a k => reg d && reg a && decide (k < if dbl then 8 else 16)
  | .ld _ d a b | .st _ d a b | .ldff _ d a b | .ldg d a b | .sts d a b => reg d && reg a && reg b
  | .ldt _ d a b => decide (d ≤ 48) && reg a && reg b
  | .swap d => decide (d ≤ 48)
  | .mat op => op.wf

/-- A core the package has (R12), as 512 × die + number. -/
def coreOk (core : Nat) : Bool := decide (core / 512 < 8 ∧ core % 512 < 272)

/-- A well-formed instruction: what its encoding can hold and its description allows. An event has no encoding;
its parameters name units the package has (R12, R50, R379, R398, R400). -/
def Instr.wf : Instr → Bool
  | .add d a b stl => reg d && reg a && reg b && stlOk stl
  | .sub d a b stl => reg d && reg a && reg b && stlOk stl
  | .and d a b stl => reg d && reg a && reg b && stlOk stl
  | .or d a b stl => reg d && reg a && reg b && stlOk stl
  | .xor d a b stl => reg d && reg a && reg b && stlOk stl
  | .andn d a b stl => reg d && reg a && reg b && stlOk stl
  | .sll d a b stl => reg d && reg a && reg b && stlOk stl
  | .srl d a b stl => reg d && reg a && reg b && stlOk stl
  | .sra d a b stl => reg d && reg a && reg b && stlOk stl
  | .slt d a b stl => reg d && reg a && reg b && stlOk stl
  | .sltu d a b stl => reg d && reg a && reg b && stlOk stl
  | .seq d a b stl => reg d && reg a && reg b && stlOk stl
  | .min d a b stl => reg d && reg a && reg b && stlOk stl
  | .max d a b stl => reg d && reg a && reg b && stlOk stl
  | .minn d a b stl => reg d && reg a && reg b && stlOk stl
  | .maxn d a b stl => reg d && reg a && reg b && stlOk stl
  | .mul d a b stl => reg d && reg a && reg b && stlOk stl
  | .mulh d a b stl => reg d && reg a && reg b && stlOk stl
  | .mulhn d a b stl => reg d && reg a && reg b && stlOk stl
  | .div d a b stl => reg d && reg a && reg b && stlOk stl
  | .divn d a b stl => reg d && reg a && reg b && stlOk stl
  | .rem d a b stl => reg d && reg a && reg b && stlOk stl
  | .remn d a b stl => reg d && reg a && reg b && stlOk stl
  | .clz d a stl => reg d && reg a && stlOk stl
  | .ctz d a stl => reg d && reg a && stlOk stl
  | .popc d a stl => reg d && reg a && stlOk stl
  | .bswap d a stl => reg d && reg a && stlOk stl
  | .rotl d a b stl => reg d && reg a && reg b && stlOk stl
  | .rotr d a b stl => reg d && reg a && reg b && stlOk stl
  | .sextw d a stl => reg d && reg a && stlOk stl
  | .zextw d a stl => reg d && reg a && stlOk stl
  | .addi d a _ stl => reg d && reg a && stlOk stl
  | .andi d a _ stl => reg d && reg a && stlOk stl
  | .ori d a _ stl => reg d && reg a && stlOk stl
  | .xori d a _ stl => reg d && reg a && stlOk stl
  | .slti d a _ stl => reg d && reg a && stlOk stl
  | .sltni d a _ stl => reg d && reg a && stlOk stl
  | .slli d a _ stl => reg d && reg a && stlOk stl
  | .srli d a _ stl => reg d && reg a && stlOk stl
  | .srai d a _ stl => reg d && reg a && stlOk stl
  | .rotli d a _ stl => reg d && reg a && stlOk stl
  | .lui d _ stl => reg d && stlOk stl
  | .lmid d _ stl => reg d && stlOk stl
  | .ltop d _ stl => reg d && stlOk stl
  | .faddF64 d a b stl => reg d && reg a && reg b && stlOk stl
  | .fsubF64 d a b stl => reg d && reg a && reg b && stlOk stl
  | .fmulF64 d a b stl => reg d && reg a && reg b && stlOk stl
  | .fdivF64 d a b stl => reg d && reg a && reg b && stlOk stl
  | .fsqrtF64 d a stl => reg d && reg a && stlOk stl
  | .fminF64 d a b stl => reg d && reg a && reg b && stlOk stl
  | .fmaxF64 d a b stl => reg d && reg a && reg b && stlOk stl
  | .fmacF64 d a b stl => reg d && reg a && reg b && stlOk stl
  | .fltF64 d a b stl => reg d && reg a && reg b && stlOk stl
  | .fleF64 d a b stl => reg d && reg a && reg b && stlOk stl
  | .feqF64 d a b stl => reg d && reg a && reg b && stlOk stl
  | .fclassF64 d a stl => reg d && reg a && stlOk stl
  | .fcvtI64F64 d a stl => reg d && reg a && stlOk stl
  | .fcvtN64F64 d a stl => reg d && reg a && stlOk stl
  | .fcvtI32F64 d a stl => reg d && reg a && stlOk stl
  | .fcvtN32F64 d a stl => reg d && reg a && stlOk stl
  | .fcvtF64I64 d a stl => reg d && reg a && stlOk stl
  | .fcvtF64N64 d a stl => reg d && reg a && stlOk stl
  | .fcvtF64I32 d a stl => reg d && reg a && stlOk stl
  | .fcvtF64N32 d a stl => reg d && reg a && stlOk stl
  | .fcvtF64F32 d a stl => reg d && reg a && stlOk stl
  | .fminpF64 d a b stl => reg d && reg a && reg b && stlOk stl
  | .fmaxpF64 d a b stl => reg d && reg a && reg b && stlOk stl
  | .faddF32 d a b stl => reg d && reg a && reg b && stlOk stl
  | .fsubF32 d a b stl => reg d && reg a && reg b && stlOk stl
  | .fmulF32 d a b stl => reg d && reg a && reg b && stlOk stl
  | .fdivF32 d a b stl => reg d && reg a && reg b && stlOk stl
  | .fsqrtF32 d a stl => reg d && reg a && stlOk stl
  | .fminF32 d a b stl => reg d && reg a && reg b && stlOk stl
  | .fmaxF32 d a b stl => reg d && reg a && reg b && stlOk stl
  | .fmacF32 d a b stl => reg d && reg a && reg b && stlOk stl
  | .fltF32 d a b stl => reg d && reg a && reg b && stlOk stl
  | .fleF32 d a b stl => reg d && reg a && reg b && stlOk stl
  | .feqF32 d a b stl => reg d && reg a && reg b && stlOk stl
  | .fclassF32 d a stl => reg d && reg a && stlOk stl
  | .fcvtI64F32 d a stl => reg d && reg a && stlOk stl
  | .fcvtN64F32 d a stl => reg d && reg a && stlOk stl
  | .fcvtI32F32 d a stl => reg d && reg a && stlOk stl
  | .fcvtN32F32 d a stl => reg d && reg a && stlOk stl
  | .fcvtF32I64 d a stl => reg d && reg a && stlOk stl
  | .fcvtF32N64 d a stl => reg d && reg a && stlOk stl
  | .fcvtF32I32 d a stl => reg d && reg a && stlOk stl
  | .fcvtF32N32 d a stl => reg d && reg a && stlOk stl
  | .fcvtF32F64 d a stl => reg d && reg a && stlOk stl
  | .fminpF32 d a b stl => reg d && reg a && reg b && stlOk stl
  | .fmaxpF32 d a b stl => reg d && reg a && reg b && stlOk stl
  | .beqz a _ stl => reg a && stlOk stl
  | .bnez a _ stl => reg a && stlOk stl
  | .bltz a _ stl => reg a && stlOk stl
  | .bgez a _ stl => reg a && stlOk stl
  | .blez a _ stl => reg a && stlOk stl
  | .bgtz a _ stl => reg a && stlOk stl
  | .dbnz a _ stl => reg a && stlOk stl
  | .j _ stl => stlOk stl
  | .call _ stl => stlOk stl
  | .jr a stl => reg a && stlOk stl
  | .callr a stl => reg a && stlOk stl
  | .ldD d a _ stl => reg d && reg a && stlOk stl
  | .ldW d a _ stl => reg d && reg a && stlOk stl
  | .ldWn d a _ stl => reg d && reg a && stlOk stl
  | .ldH d a _ stl => reg d && reg a && stlOk stl
  | .ldHn d a _ stl => reg d && reg a && stlOk stl
  | .ldB d a _ stl => reg d && reg a && stlOk stl
  | .ldBn d a _ stl => reg d && reg a && stlOk stl
  | .stD d a _ stl => reg d && reg a && stlOk stl
  | .stW d a _ stl => reg d && reg a && stlOk stl
  | .stH d a _ stl => reg d && reg a && stlOk stl
  | .stB d a _ stl => reg d && reg a && stlOk stl
  | .csrr csr d stl => csrKnown csr && reg d && stlOk stl
  | .csrw csr x stl => csrKnown csr && reg x && stlOk stl
  | .csrs csr x stl => csrKnown csr && reg x && stlOk stl
  | .csrc csr x stl => csrKnown csr && reg x && stlOk stl
  | .trap _ stl => stlOk stl
  | .rett stl => stlOk stl
  | .halt stl => stlOk stl
  | .sleep a stl => reg a && stlOk stl
  | .ibar stl => stlOk stl
  | .iinv d a _ stl => reg d && reg a && stlOk stl
  | .brk _ stl => stlOk stl
  | .resume d a stl => reg d && reg a && stlOk stl
  | .wset a idx stl => reg a && decide (idx < 32) && stlOk stl
  | .wget d idx stl => reg d && decide (idx < 32) && stlOk stl
  | .wsw idx stl => decide (idx < 32) && stlOk stl
  | .wswj idx stl => decide (idx < 32) && stlOk stl
  | .wshr d a idx stl => reg d && reg a && decide (idx < 32) && stlOk stl
  | .wclr idx stl => decide (idx < 32) && stlOk stl
  | .warena d a stl => reg d && reg a && stlOk stl
  | .pfx p v => p.ranged && v.wf && pfxOk p v && (match v with | .ldff .. | .ldg .. | .sts .. => false | _ => true)
  | .vaddF32 d a b stl => reg d && reg a && reg b && stlOk stl
  | .vsubF32 d a b stl => reg d && reg a && reg b && stlOk stl
  | .vmulF32 d a b stl => reg d && reg a && reg b && stlOk stl
  | .vmacF32 d a b stl => reg d && reg a && reg b && stlOk stl
  | .vminF32 d a b stl => reg d && reg a && reg b && stlOk stl
  | .vmaxF32 d a b stl => reg d && reg a && reg b && stlOk stl
  | .vminpF32 d a b stl => reg d && reg a && reg b && stlOk stl
  | .vmaxpF32 d a b stl => reg d && reg a && reg b && stlOk stl
  | .vandF32 d a b stl => reg d && reg a && reg b && stlOk stl
  | .vorF32 d a b stl => reg d && reg a && reg b && stlOk stl
  | .vxorF32 d a b stl => reg d && reg a && reg b && stlOk stl
  | .vshlF32 d a b stl => reg d && reg a && reg b && stlOk stl
  | .vshrF32 d a b stl => reg d && reg a && reg b && stlOk stl
  | .vsraF32 d a b stl => reg d && reg a && reg b && stlOk stl
  | .vcltF32 d a b stl => reg d && reg a && reg b && stlOk stl
  | .vceqF32 d a b stl => reg d && reg a && reg b && stlOk stl
  | .vaddI32 d a b stl => reg d && reg a && reg b && stlOk stl
  | .vsubI32 d a b stl => reg d && reg a && reg b && stlOk stl
  | .vmulI32 d a b stl => reg d && reg a && reg b && stlOk stl
  | .vmacI32 d a b stl => reg d && reg a && reg b && stlOk stl
  | .vminI32 d a b stl => reg d && reg a && reg b && stlOk stl
  | .vmaxI32 d a b stl => reg d && reg a && reg b && stlOk stl
  | .vminpI32 d a b stl => reg d && reg a && reg b && stlOk stl
  | .vmaxpI32 d a b stl => reg d && reg a && reg b && stlOk stl
  | .vandI32 d a b stl => reg d && reg a && reg b && stlOk stl
  | .vorI32 d a b stl => reg d && reg a && reg b && stlOk stl
  | .vxorI32 d a b stl => reg d && reg a && reg b && stlOk stl
  | .vshlI32 d a b stl => reg d && reg a && reg b && stlOk stl
  | .vshrI32 d a b stl => reg d && reg a && reg b && stlOk stl
  | .vsraI32 d a b stl => reg d && reg a && reg b && stlOk stl
  | .vcltI32 d a b stl => reg d && reg a && reg b && stlOk stl
  | .vceqI32 d a b stl => reg d && reg a && reg b && stlOk stl
  | .vaddN32 d a b stl => reg d && reg a && reg b && stlOk stl
  | .vsubN32 d a b stl => reg d && reg a && reg b && stlOk stl
  | .vmulN32 d a b stl => reg d && reg a && reg b && stlOk stl
  | .vmacN32 d a b stl => reg d && reg a && reg b && stlOk stl
  | .vminN32 d a b stl => reg d && reg a && reg b && stlOk stl
  | .vmaxN32 d a b stl => reg d && reg a && reg b && stlOk stl
  | .vminpN32 d a b stl => reg d && reg a && reg b && stlOk stl
  | .vmaxpN32 d a b stl => reg d && reg a && reg b && stlOk stl
  | .vandN32 d a b stl => reg d && reg a && reg b && stlOk stl
  | .vorN32 d a b stl => reg d && reg a && reg b && stlOk stl
  | .vxorN32 d a b stl => reg d && reg a && reg b && stlOk stl
  | .vshlN32 d a b stl => reg d && reg a && reg b && stlOk stl
  | .vshrN32 d a b stl => reg d && reg a && reg b && stlOk stl
  | .vsraN32 d a b stl => reg d && reg a && reg b && stlOk stl
  | .vcltN32 d a b stl => reg d && reg a && reg b && stlOk stl
  | .vceqN32 d a b stl => reg d && reg a && reg b && stlOk stl
  | .vaddBf16 d a b stl => reg d && reg a && reg b && stlOk stl
  | .vsubBf16 d a b stl => reg d && reg a && reg b && stlOk stl
  | .vmulBf16 d a b stl => reg d && reg a && reg b && stlOk stl
  | .vmacBf16 d a b stl => reg d && reg a && reg b && stlOk stl
  | .vminBf16 d a b stl => reg d && reg a && reg b && stlOk stl
  | .vmaxBf16 d a b stl => reg d && reg a && reg b && stlOk stl
  | .vminpBf16 d a b stl => reg d && reg a && reg b && stlOk stl
  | .vmaxpBf16 d a b stl => reg d && reg a && reg b && stlOk stl
  | .vandBf16 d a b stl => reg d && reg a && reg b && stlOk stl
  | .vorBf16 d a b stl => reg d && reg a && reg b && stlOk stl
  | .vxorBf16 d a b stl => reg d && reg a && reg b && stlOk stl
  | .vshlBf16 d a b stl => reg d && reg a && reg b && stlOk stl
  | .vshrBf16 d a b stl => reg d && reg a && reg b && stlOk stl
  | .vsraBf16 d a b stl => reg d && reg a && reg b && stlOk stl
  | .vcltBf16 d a b stl => reg d && reg a && reg b && stlOk stl
  | .vceqBf16 d a b stl => reg d && reg a && reg b && stlOk stl
  | .vaddF16 d a b stl => reg d && reg a && reg b && stlOk stl
  | .vsubF16 d a b stl => reg d && reg a && reg b && stlOk stl
  | .vmulF16 d a b stl => reg d && reg a && reg b && stlOk stl
  | .vmacF16 d a b stl => reg d && reg a && reg b && stlOk stl
  | .vminF16 d a b stl => reg d && reg a && reg b && stlOk stl
  | .vmaxF16 d a b stl => reg d && reg a && reg b && stlOk stl
  | .vminpF16 d a b stl => reg d && reg a && reg b && stlOk stl
  | .vmaxpF16 d a b stl => reg d && reg a && reg b && stlOk stl
  | .vandF16 d a b stl => reg d && reg a && reg b && stlOk stl
  | .vorF16 d a b stl => reg d && reg a && reg b && stlOk stl
  | .vxorF16 d a b stl => reg d && reg a && reg b && stlOk stl
  | .vshlF16 d a b stl => reg d && reg a && reg b && stlOk stl
  | .vshrF16 d a b stl => reg d && reg a && reg b && stlOk stl
  | .vsraF16 d a b stl => reg d && reg a && reg b && stlOk stl
  | .vcltF16 d a b stl => reg d && reg a && reg b && stlOk stl
  | .vceqF16 d a b stl => reg d && reg a && reg b && stlOk stl
  | .vaddI16 d a b stl => reg d && reg a && reg b && stlOk stl
  | .vsubI16 d a b stl => reg d && reg a && reg b && stlOk stl
  | .vmulI16 d a b stl => reg d && reg a && reg b && stlOk stl
  | .vmacI16 d a b stl => reg d && reg a && reg b && stlOk stl
  | .vminI16 d a b stl => reg d && reg a && reg b && stlOk stl
  | .vmaxI16 d a b stl => reg d && reg a && reg b && stlOk stl
  | .vminpI16 d a b stl => reg d && reg a && reg b && stlOk stl
  | .vmaxpI16 d a b stl => reg d && reg a && reg b && stlOk stl
  | .vandI16 d a b stl => reg d && reg a && reg b && stlOk stl
  | .vorI16 d a b stl => reg d && reg a && reg b && stlOk stl
  | .vxorI16 d a b stl => reg d && reg a && reg b && stlOk stl
  | .vshlI16 d a b stl => reg d && reg a && reg b && stlOk stl
  | .vshrI16 d a b stl => reg d && reg a && reg b && stlOk stl
  | .vsraI16 d a b stl => reg d && reg a && reg b && stlOk stl
  | .vcltI16 d a b stl => reg d && reg a && reg b && stlOk stl
  | .vceqI16 d a b stl => reg d && reg a && reg b && stlOk stl
  | .vaddI8 d a b stl => reg d && reg a && reg b && stlOk stl
  | .vsubI8 d a b stl => reg d && reg a && reg b && stlOk stl
  | .vmulI8 d a b stl => reg d && reg a && reg b && stlOk stl
  | .vmacI8 d a b stl => reg d && reg a && reg b && stlOk stl
  | .vminI8 d a b stl => reg d && reg a && reg b && stlOk stl
  | .vmaxI8 d a b stl => reg d && reg a && reg b && stlOk stl
  | .vminpI8 d a b stl => reg d && reg a && reg b && stlOk stl
  | .vmaxpI8 d a b stl => reg d && reg a && reg b && stlOk stl
  | .vandI8 d a b stl => reg d && reg a && reg b && stlOk stl
  | .vorI8 d a b stl => reg d && reg a && reg b && stlOk stl
  | .vxorI8 d a b stl => reg d && reg a && reg b && stlOk stl
  | .vshlI8 d a b stl => reg d && reg a && reg b && stlOk stl
  | .vshrI8 d a b stl => reg d && reg a && reg b && stlOk stl
  | .vsraI8 d a b stl => reg d && reg a && reg b && stlOk stl
  | .vcltI8 d a b stl => reg d && reg a && reg b && stlOk stl
  | .vceqI8 d a b stl => reg d && reg a && reg b && stlOk stl
  | .vaddF64 d a b stl => reg d && reg a && reg b && stlOk stl
  | .vsubF64 d a b stl => reg d && reg a && reg b && stlOk stl
  | .vmulF64 d a b stl => reg d && reg a && reg b && stlOk stl
  | .vmacF64 d a b stl => reg d && reg a && reg b && stlOk stl
  | .vminF64 d a b stl => reg d && reg a && reg b && stlOk stl
  | .vmaxF64 d a b stl => reg d && reg a && reg b && stlOk stl
  | .vminpF64 d a b stl => reg d && reg a && reg b && stlOk stl
  | .vmaxpF64 d a b stl => reg d && reg a && reg b && stlOk stl
  | .vandF64 d a b stl => reg d && reg a && reg b && stlOk stl
  | .vorF64 d a b stl => reg d && reg a && reg b && stlOk stl
  | .vxorF64 d a b stl => reg d && reg a && reg b && stlOk stl
  | .vshlF64 d a b stl => reg d && reg a && reg b && stlOk stl
  | .vshrF64 d a b stl => reg d && reg a && reg b && stlOk stl
  | .vsraF64 d a b stl => reg d && reg a && reg b && stlOk stl
  | .vcltF64 d a b stl => reg d && reg a && reg b && stlOk stl
  | .vceqF64 d a b stl => reg d && reg a && reg b && stlOk stl
  | .vmov ty d a stl => unTyOk .mov ty && reg d && reg a && stlOk stl
  | .vneg ty d a stl => unTyOk .neg ty && reg d && reg a && stlOk stl
  | .vabs ty d a stl => unTyOk .abs ty && reg d && reg a && stlOk stl
  | .vnot ty d a stl => unTyOk .not ty && reg d && reg a && stlOk stl
  | .vrcp ty d a stl => unTyOk .rcp ty && reg d && reg a && stlOk stl
  | .vrsqrt ty d a stl => unTyOk .rsqrt ty && reg d && reg a && stlOk stl
  | .vsqrt ty d a stl => unTyOk .sqrt ty && reg d && reg a && stlOk stl
  | .vexp2 ty d a stl => unTyOk .exp2 ty && reg d && reg a && stlOk stl
  | .vlog2 ty d a stl => unTyOk .log2 ty && reg d && reg a && stlOk stl
  | .vtanh ty d a stl => unTyOk .tanh ty && reg d && reg a && stlOk stl
  | .vsigm ty d a stl => unTyOk .sigm ty && reg d && reg a && stlOk stl
  | .vrnd ty d a stl => unTyOk .rnd ty && reg d && reg a && stlOk stl
  | .vclz ty d a stl => unTyOk .clz ty && reg d && reg a && stlOk stl
  | .vpopc ty d a stl => unTyOk .popc ty && reg d && reg a && stlOk stl
  | .vsumr ty d a stl => unTyOk .sumr ty && reg d && reg a && stlOk stl
  | .vmaxr ty d a stl => unTyOk .maxr ty && reg d && reg a && stlOk stl
  | .vminr ty d a stl => unTyOk .minr ty && reg d && reg a && stlOk stl
  | .vmxs ty d a stl => unTyOk .mxs ty && reg d && reg a && stlOk stl
  | .vrev ty d a stl => unTyOk .rev ty && reg d && reg a && stlOk stl
  | .vclass ty d a stl => unTyOk .cls ty && reg d && reg a && stlOk stl
  | .vcvt sty mode dty d a stl => cvtOk sty mode dty && reg d && reg a && stlOk stl
  | .vbcast _ d a stl => reg d && reg a && stlOk stl
  | .vextW d a k stl => reg d && reg a && decide (k < 16) && stlOk stl
  | .vextD d a k stl => reg d && reg a && decide (k < 8) && stlOk stl
  | .vinsW d a k stl => reg d && reg a && decide (k < 16) && stlOk stl
  | .vinsD d a k stl => reg d && reg a && decide (k < 8) && stlOk stl
  | .vpred _ d a stl => decide (56 ≤ d ∧ d ≤ 62) && reg a && stlOk stl
  | .vidx ty d a stl => idxTyOk ty && reg d && reg a && stlOk stl
  | .vldW d a b stl => reg d && reg a && reg b && stlOk stl
  | .vldH d a b stl => reg d && reg a && reg b && stlOk stl
  | .vldB d a b stl => reg d && reg a && reg b && stlOk stl
  | .vldD d a b stl => reg d && reg a && reg b && stlOk stl
  | .vstW d a b stl => reg d && reg a && reg b && stlOk stl
  | .vstH d a b stl => reg d && reg a && reg b && stlOk stl
  | .vstB d a b stl => reg d && reg a && reg b && stlOk stl
  | .vstD d a b stl => reg d && reg a && reg b && stlOk stl
  | .vldffW p d a b => p.ranged && reg d && reg a && reg b && pfxOk p (.ldff false d a b)
  | .vldffB p d a b => p.ranged && reg d && reg a && reg b && pfxOk p (.ldff true d a b)
  | .vldgW p d a b => p.ranged && reg d && reg a && reg b && pfxOk p (.ldg d a b)
  | .vstsW p d a b => p.ranged && reg d && reg a && reg b && pfxOk p (.sts d a b)
  | .vldtW d a b stl => decide (d ≤ 48) && reg a && reg b && stlOk stl
  | .vldtH d a b stl => decide (d ≤ 48) && reg a && reg b && stlOk stl
  | .vswap d stl => decide (d ≤ 48) && stlOk stl
  | .vtrip a n1 mode ns bs stl => reg a && decide (n1 < 16) && decide (mode < 3) && decide (ns < 16) && decide (bs < 64) && stlOk stl
  | .vadd16 int d b => decide (d < 32) && decide (b < 32) && decide (¬ (int = false ∧ b = 0 ∧ d = 0))
  | .vsub16 _ d b => decide (d < 32) && decide (b < 32)
  | .vmul16 _ d b => decide (d < 32) && decide (b < 32)
  | .vmin16 _ d b => decide (d < 32) && decide (b < 32)
  | .vmax16 _ d b => decide (d < 32) && decide (b < 32)
  | .vand16 _ d b => decide (d < 32) && decide (b < 32)
  | .vor16 _ d b => decide (d < 32) && decide (b < 32)
  | .vxor16 _ d b => decide (d < 32) && decide (b < 32)
  | .vmov16 _ d b => decide (d < 32) && decide (b < 32)
  | .vneg16 _ d b => decide (d < 32) && decide (b < 32)
  | .vabs16 _ d b => decide (d < 32) && decide (b < 32)
  | .vshl16 d b => decide (d < 32) && decide (b < 32)
  | .vsra16 d b => decide (d < 32) && decide (b < 32)
  | .vclt16 _ d b => decide (d < 32) && decide (b < 32)
  | .vceq16 _ d b => decide (d < 32) && decide (b < 32)
  | .vrcp16 d b => decide (d < 32) && decide (b < 32)
  | .vpopc16 d b => decide (d < 32) && decide (b < 32)
  | .brk16 => true
  | .vstrm d a v stl => reg d && reg a && reg v && stlOk stl
  | .vsunb d a stl => reg d && reg a && stlOk stl
  | .vsq d a stl => reg d && reg a && stlOk stl
  | .mlease stl => stlOk stl
  | .mrel stl => stlOk stl
  | .mbload a stl => reg a && stlOk stl
  | .mmac d a stl => reg d && reg a && stlOk stl
  | .mrot stl => stlOk stl
  | .mzero d stl => reg d && stlOk stl
  | .mst d a stl => reg d && reg a && stlOk stl
  | .mld d a stl => reg d && reg a && stlOk stl
  | .macc d a stl => reg d && reg a && stlOk stl
  | .mwait d a stl => reg d && reg a && stlOk stl
  | .mclaim d a stl => reg d && reg a && stlOk stl
  | .mstat d a stl => reg d && reg a && stlOk stl
  | .atomAddBlk _ d a b stl => reg d && reg a && reg b && stlOk stl
  | .atomAndBlk _ d a b stl => reg d && reg a && reg b && stlOk stl
  | .atomOrBlk _ d a b stl => reg d && reg a && reg b && stlOk stl
  | .atomXorBlk _ d a b stl => reg d && reg a && reg b && stlOk stl
  | .atomMinBlk _ d a b stl => reg d && reg a && reg b && stlOk stl
  | .atomMaxBlk _ d a b stl => reg d && reg a && reg b && stlOk stl
  | .atomSwapBlk _ d a b stl => reg d && reg a && reg b && stlOk stl
  | .atomCasBlk _ d a b stl => reg d && reg a && reg b && stlOk stl
  | .atomAddCls _ d a b stl => reg d && reg a && reg b && stlOk stl
  | .atomAndCls _ d a b stl => reg d && reg a && reg b && stlOk stl
  | .atomOrCls _ d a b stl => reg d && reg a && reg b && stlOk stl
  | .atomXorCls _ d a b stl => reg d && reg a && reg b && stlOk stl
  | .atomMinCls _ d a b stl => reg d && reg a && reg b && stlOk stl
  | .atomMaxCls _ d a b stl => reg d && reg a && reg b && stlOk stl
  | .atomSwapCls _ d a b stl => reg d && reg a && reg b && stlOk stl
  | .atomCasCls _ d a b stl => reg d && reg a && reg b && stlOk stl
  | .atomAddDev _ d a b stl => reg d && reg a && reg b && stlOk stl
  | .atomAndDev _ d a b stl => reg d && reg a && reg b && stlOk stl
  | .atomOrDev _ d a b stl => reg d && reg a && reg b && stlOk stl
  | .atomXorDev _ d a b stl => reg d && reg a && reg b && stlOk stl
  | .atomMinDev _ d a b stl => reg d && reg a && reg b && stlOk stl
  | .atomMaxDev _ d a b stl => reg d && reg a && reg b && stlOk stl
  | .atomSwapDev _ d a b stl => reg d && reg a && reg b && stlOk stl
  | .atomCasDev _ d a b stl => reg d && reg a && reg b && stlOk stl
  | .atomAddSys _ d a b stl => reg d && reg a && reg b && stlOk stl
  | .atomAndSys _ d a b stl => reg d && reg a && reg b && stlOk stl
  | .atomOrSys _ d a b stl => reg d && reg a && reg b && stlOk stl
  | .atomXorSys _ d a b stl => reg d && reg a && reg b && stlOk stl
  | .atomMinSys _ d a b stl => reg d && reg a && reg b && stlOk stl
  | .atomMaxSys _ d a b stl => reg d && reg a && reg b && stlOk stl
  | .atomSwapSys _ d a b stl => reg d && reg a && reg b && stlOk stl
  | .atomCasSys _ d a b stl => reg d && reg a && reg b && stlOk stl
  | .redAddW a b _ stl => reg a && reg b && stlOk stl
  | .redAddD a b _ stl => reg a && reg b && stlOk stl
  | .redAndW a b _ stl => reg a && reg b && stlOk stl
  | .redAndD a b _ stl => reg a && reg b && stlOk stl
  | .redOrW a b _ stl => reg a && reg b && stlOk stl
  | .redOrD a b _ stl => reg a && reg b && stlOk stl
  | .redXorW a b _ stl => reg a && reg b && stlOk stl
  | .redXorD a b _ stl => reg a && reg b && stlOk stl
  | .redMinW a b _ stl => reg a && reg b && stlOk stl
  | .redMinD a b _ stl => reg a && reg b && stlOk stl
  | .redMaxW a b _ stl => reg a && reg b && stlOk stl
  | .redMaxD a b _ stl => reg a && reg b && stlOk stl
  | .redFaddF32 a b _ stl => reg a && reg b && stlOk stl
  | .redFaddF64 a b _ stl => reg a && reg b && stlOk stl
  | .ldSync d a stl => reg d && reg a && stlOk stl
  | .take d a stl => reg d && reg a && stlOk stl
  | .put d a src stl => reg d && reg a && reg src && stlOk stl
  | .feSet a l stl => reg a && reg l && stlOk stl
  | .feClr a l stl => reg a && reg l && stlOk stl
  | .feQ d a stl => reg d && reg a && stlOk stl
  | .feWait a l stl => reg a && reg l && stlOk stl
  | .bcfgC d a stl => reg d && reg a && stlOk stl
  | .bcfgS d a stl => reg d && reg a && stlOk stl
  | .bcfgF d a stl => reg d && reg a && stlOk stl
  | .bq d a stl => reg d && reg a && stlOk stl
  | .fpush d a src stl => reg d && reg a && reg src && stlOk stl
  | .fpop d a stl => reg d && reg a && stlOk stl
  | .fq d a stl => reg d && reg a && stlOk stl
  | .cpy d a b stl => reg d && reg a && reg b && stlOk stl
  | .cpyFe d a b stl => reg d && reg a && reg b && stlOk stl
  | .mcast d a b stl => reg d && reg a && reg b && stlOk stl
  | .putsig d a b stl => reg d && reg a && reg b && stlOk stl
  | .cpyPh d a b stl => reg d && reg a && reg b && stlOk stl
  | .cpwait d a stl => reg d && reg a && stlOk stl
  | .cpq d a stl => reg d && reg a && stlOk stl
  | .cpcan d a b stl => reg d && reg a && reg b && stlOk stl
  | .mark a _ stl => reg a && stlOk stl
  | .ttarm d a stl => reg d && reg a && stlOk stl
  | .ttq d a stl => reg d && reg a && stlOk stl
  | .ttreplay d a stl => reg d && reg a && stlOk stl
  | .ttoff d stl => reg d && stlOk stl
  | .tdef d a stl => reg d && reg a && stlOk stl
  | .tspawn d a stl => reg d && reg a && stlOk stl
  | .tnext d a idx stl => reg d && reg a && decide (idx < 28) && stlOk stl
  | .tdone idx stl => decide (idx < 28) && stlOk stl
  | .freeze d idx stl => reg d && decide (idx < 28) && stlOk stl
  | .tquery d a stl => reg d && reg a && stlOk stl
  | .tclaim d a stl => reg d && reg a && stlOk stl
  | .tlaunch d a stl => reg d && reg a && stlOk stl
  | .tyield idx stl => decide (idx < 28) && stlOk stl
  | .fence _ stl => stlOk stl
  | .ldAcq d a _ stl => reg d && reg a && stlOk stl
  | .stRel d a _ stl => reg d && reg a && stlOk stl
  | .acqpDev d a b stl => reg d && reg a && reg b && stlOk stl
  | .acqpSys d a b stl => reg d && reg a && reg b && stlOk stl
  | .phnew d a sc stl => reg d && reg a && decide (sc = .die ∨ sc = .dev) && stlOk stl
  | .phfree d a stl => reg d && reg a && stlOk stl
  | .phreg d a _ stl => reg d && reg a && stlOk stl
  | .phdrop d a stl => reg d && reg a && stlOk stl
  | .phsig d a stl => reg d && reg a && stlOk stl
  | .phwait d a stl => reg d && reg a && stlOk stl
  | .phnext d a stl => reg d && reg a && stlOk stl
  | .phq d a stl => reg d && reg a && stlOk stl
  | .illegalEncoding _ len => decide (len ≤ 4)
  | .resultLands core _ => coreOk core
  | .storeBufferEntryLeaves core => coreOk core
  | .atomicPerformed core => coreOk core
  | .reductionApplied _ => true
  | .reductionAtPort core => coreOk core
  | .combiningEntryExpiry _ _ => true
  | .promotionRequest core => coreOk core
  | .bankSwitchBegin die cl bank => decide (die < 8) && decide (cl < 34) && decide (bank < 24)
  | .bankSwitchEnd die cl bank => decide (die < 8) && decide (cl < 34) && decide (bank < 24)
  | .sectorDone die _ _ _ => decide (die < 8)
  | .entryFault die _ _ => decide (die < 8)
  | .copyStart core => coreOk core
  | .segmentDone core _ _ => coreOk core
  | .copyFault core _ => coreOk core
  | .streamWordDelivery core strm => coreOk core && decide (strm < 4)
  | .vectorBind die cl => decide (die < 8) && decide (cl < 34)
  | .tripIssue core => coreOk core
  | .matrixCommandStart die cl => decide (die < 8) && decide (cl < 34)
  | .matrixCommandComplete die cl => decide (die < 8) && decide (cl < 34)
  | .rotationTileArrival die cl => decide (die < 8) && decide (cl < 34)
  | .leaseIdleTimeout die cl => decide (die < 8) && decide (cl < 34)
  | .counterSatisfied die _ => decide (die < 8)
  | .taskOffer die => decide (die < 8)
  | .tnextTimeout core => coreOk core
  | .placementRank die => decide (die < 8)
  | .settle die => decide (die < 8)
  | .settleComplete die _ => decide (die < 8)
  | .migrationDecision _ => true
  | .quenchTick vf => decide (vf < 16)
  | .flushToken die vf => decide (die < 8) && decide (vf < 16)
  | .spillDone core => coreOk core
  | .spillFault core => coreOk core
  | .clusterSpill die cl => decide (die < 8) && decide (cl < 34)
  | .qctlGo vf _ => decide (vf < 16)
  | .corecmdContinueSpill core => coreOk core
  | .corecmdRestore core vcore => coreOk core && decide (vcore < 2048)
  | .corecmdRunInPlace core vcore => coreOk core && decide (vcore < 2048)
  | .packetHoldExpiry _ => true
  | .orphrel die cl _ => decide (die < 8) && decide (cl < 34)
  | .haltQueueRemove die vf => decide (die < 8) && decide (vf < 16)
  | .faultQueueRemove die vf => decide (die < 8) && decide (vf < 16)
  | .errorLogRemove die log => decide (die < 8) && decide (log < 17)
  | .invalidateCmd die vf _ => decide (die < 8) && decide (vf < 16)
  | .invalidateComplete die vf => decide (die < 8) && decide (vf < 16)
  | .commit die => decide (die < 8)
  | .ownershipBitmapWrite unit _ _ => decide (unit < 10)
  | .corevfWrite core vf => coreOk core && decide (vf < 16)
  | .remapWrite v _ => decide (v < 2048)
  | .sparectl die _ => decide (die < 8)
  | .packageBudgetWrite _ => true
  | .coreclkWrite core _ => coreOk core
  | .rowvWrite die row _ => decide (die < 8) && decide (row < 17)
  | .hopAbort core => coreOk core
  | .hopRetry core => coreOk core
  | .activityWindow die cl => decide (die < 8) && decide (cl < 34)
  | .budgetInterval => true
  | .clockGate core => coreOk core
  | .powerGate core => coreOk core
  | .residencyTimer core => coreOk core
  | .sleepDeadline core => coreOk core
  | .wakeDoorbell core => coreOk core
  | .counterCredit vcore vf _ _ => decide (vcore < 2048) && decide (vf < 16)
  | .pcSample core reason => coreOk core && decide (reason < 18)
  | .memorySample core _ => coreOk core
  | .hostRequestTail q _ => decide (q < 1024)
  | .hostRequestTake core => decide (core < 4)
  | .frouteWrite ep _ => decide (ep < 256)
  | .fabricRequest _ => true
  | .flitCrcFailure die _ => decide (die < 8)
  | .powerUpReset => true
  | .bootgo => true
  | .attgo => true
  | .attestationDone => true
  | .hbm4Scrub _ _ _ => true
  | .registerWrite unit _ _ => decide (unit < 10)
  | .sleepEndWithoutCause core => coreOk core
  | .writeBackAcknowledged die _ => decide (die < 8)
  | .endpointStoreApplied _ => true
  | .traceRecordPerformed die vf => decide (die < 8) && decide (vf < 16)

/-- A row that is an event of the machine, which no core fetches. -/
def Instr.isEvent : Instr → Bool
  | .resultLands _ _ => true
  | .storeBufferEntryLeaves _ => true
  | .atomicPerformed _ => true
  | .reductionApplied _ => true
  | .reductionAtPort _ => true
  | .combiningEntryExpiry _ _ => true
  | .promotionRequest _ => true
  | .bankSwitchBegin _ _ _ => true
  | .bankSwitchEnd _ _ _ => true
  | .sectorDone _ _ _ _ => true
  | .entryFault _ _ _ => true
  | .copyStart _ => true
  | .segmentDone _ _ _ => true
  | .copyFault _ _ => true
  | .streamWordDelivery _ _ => true
  | .vectorBind _ _ => true
  | .tripIssue _ => true
  | .matrixCommandStart _ _ => true
  | .matrixCommandComplete _ _ => true
  | .rotationTileArrival _ _ => true
  | .leaseIdleTimeout _ _ => true
  | .counterSatisfied _ _ => true
  | .taskOffer _ => true
  | .tnextTimeout _ => true
  | .placementRank _ => true
  | .settle _ => true
  | .settleComplete _ _ => true
  | .migrationDecision _ => true
  | .quenchTick _ => true
  | .flushToken _ _ => true
  | .spillDone _ => true
  | .spillFault _ => true
  | .clusterSpill _ _ => true
  | .qctlGo _ _ => true
  | .corecmdContinueSpill _ => true
  | .corecmdRestore _ _ => true
  | .corecmdRunInPlace _ _ => true
  | .packetHoldExpiry _ => true
  | .orphrel _ _ _ => true
  | .haltQueueRemove _ _ => true
  | .faultQueueRemove _ _ => true
  | .errorLogRemove _ _ => true
  | .invalidateCmd _ _ _ => true
  | .invalidateComplete _ _ => true
  | .commit _ => true
  | .ownershipBitmapWrite _ _ _ => true
  | .corevfWrite _ _ => true
  | .remapWrite _ _ => true
  | .sparectl _ _ => true
  | .packageBudgetWrite _ => true
  | .coreclkWrite _ _ => true
  | .rowvWrite _ _ _ => true
  | .hopAbort _ => true
  | .hopRetry _ => true
  | .activityWindow _ _ => true
  | .budgetInterval => true
  | .clockGate _ => true
  | .powerGate _ => true
  | .residencyTimer _ => true
  | .sleepDeadline _ => true
  | .wakeDoorbell _ => true
  | .counterCredit _ _ _ _ => true
  | .pcSample _ _ => true
  | .memorySample _ _ => true
  | .hostRequestTail _ _ => true
  | .hostRequestTake _ => true
  | .frouteWrite _ _ => true
  | .fabricRequest _ => true
  | .flitCrcFailure _ _ => true
  | .powerUpReset => true
  | .bootgo => true
  | .attgo => true
  | .attestationDone => true
  | .hbm4Scrub _ _ _ => true
  | .registerWrite _ _ _ => true
  | .sleepEndWithoutCause _ => true
  | .writeBackAcknowledged _ _ => true
  | .endpointStoreApplied _ => true
  | .traceRecordPerformed _ _ => true
  | _ => false

end Sys2Proof
end

