-- ==== Sys2Proof/Machine/Flags.lean ====
section
/-! DEFINITION. Number formats, rounding and the floating-point flags (R152 to R158, R177 to R194): every value is
formed exactly and rounded once. A result is a bit pattern with the flags it raises, in the bit positions of
`cr.fflags`. -/
namespace Sys2Proof.Machine

/-- The flags of R152, and a result with its flags. -/
abbrev Flags := BitVec 6
abbrev FRes := Nat × Flags

def fNX : Flags := 1
def fUF : Flags := 2
def fOF : Flags := 4
def fDZ : Flags := 8
def fNV : Flags := 16
def fSAT : Flags := 32

/-- The NaN encodings of a format (R177). -/
inductive NanKind where
  | ieee | top | none
deriving DecidableEq, Repr

/-- A floating-point format (R177): exponent bits, fraction bits, bias, whether it has infinities, its NaNs. -/
structure Fmt where
  ew : Nat
  fw : Nat
  bias : Nat
  inf : Bool
  nan : NanKind
deriving DecidableEq, Repr

def Fmt.f64 : Fmt := ⟨11, 52, 1023, true, .ieee⟩
def Fmt.f32 : Fmt := ⟨8, 23, 127, true, .ieee⟩
def Fmt.bf16 : Fmt := ⟨8, 7, 127, true, .ieee⟩
def Fmt.f16 : Fmt := ⟨5, 10, 15, true, .ieee⟩
def Fmt.e4m3 : Fmt := ⟨4, 3, 7, false, .top⟩
def Fmt.e5m2 : Fmt := ⟨5, 2, 15, true, .ieee⟩
def Fmt.e3m2 : Fmt := ⟨3, 2, 3, false, .none⟩
def Fmt.e2m3 : Fmt := ⟨2, 3, 1, false, .none⟩
def Fmt.e2m1 : Fmt := ⟨2, 1, 1, false, .none⟩

/-- The format of a floating-point type (R28, R177); integer types answer f64, which no caller uses. -/
def Fmt.ofTy : Ty → Fmt
  | .f32 => .f32 | .bf16 => .bf16 | .f16 => .f16 | .e4m3 => .e4m3 | .e5m2 => .e5m2 | _ => .f64

/-- The width of a format. -/
def Fmt.width (f : Fmt) : Nat := 1 + f.ew + f.fw

/-- The sign bit, as a weight. -/
def Fmt.signBit (f : Fmt) : Nat := 2 ^ (f.ew + f.fw)

/-- The magnitude bits of the largest finite value (R177). -/
def Fmt.maxMag (f : Fmt) : Nat :=
  match f.nan with
  | .ieee => (2 ^ f.ew - 1) * 2 ^ f.fw - 1
  | .top => 2 ^ (f.ew + f.fw) - 2
  | .none => 2 ^ (f.ew + f.fw) - 1

/-- The magnitude bits of infinity, in a format that has it. -/
def Fmt.infMag (f : Fmt) : Nat := (2 ^ f.ew - 1) * 2 ^ f.fw

/-- The default NaN (R179). -/
def Fmt.dnan (f : Fmt) : Nat :=
  match f.nan with
  | .top => 2 ^ (f.ew + f.fw) - 1
  | _ => f.infMag + 2 ^ (f.fw - 1)

/-- A signed magnitude. -/
def Fmt.signed (f : Fmt) (neg : Bool) (mag : Nat) : Nat := mag + if neg then f.signBit else 0

/-- A decoded element (R178, R179): a NaN, signalling or not; an infinity; or ±m × 2^e. -/
inductive FVal where
  | nan (signalling : Bool)
  | inf (neg : Bool)
  | num (neg : Bool) (m : Nat) (e : Int)
deriving DecidableEq, Repr

/-- Decode an element (R178, R179). -/
def Fmt.decode (f : Fmt) (x : Nat) : FVal :=
  let neg := decide (x / f.signBit % 2 = 1)
  let ex := x / 2 ^ f.fw % 2 ^ f.ew
  let fr := x % 2 ^ f.fw
  let number :=
    if ex = 0 then FVal.num neg fr (1 - (f.bias : Int) - f.fw)
    else .num neg (2 ^ f.fw + fr) ((ex : Int) - f.bias - f.fw)
  match f.nan with
  | .ieee =>
    if ex = 2 ^ f.ew - 1 then (if fr = 0 then .inf neg else .nan (decide (fr < 2 ^ (f.fw - 1)))) else number
  | .top => if x % f.signBit = f.signBit - 1 then .nan false else number
  | .none => number

/-- A value is a NaN. -/
def FVal.isNan : FVal → Bool
  | .nan _ => true
  | _ => false

/-- A value is a signalling NaN. -/
def FVal.isSig : FVal → Bool
  | .nan s => s
  | _ => false

/-- NV for a signalling NaN among the operands (R191). -/
def nvSig (xs : List FVal) : Flags := if xs.any FVal.isSig then fNV else 0

/-- The number of bits of n. -/
def bitLen (n : Nat) : Nat := if n = 0 then 0 else n.log2 + 1

/-- Round a magnitude in units: quotient r with remainder rem of 2^k and a sticky part below it, by a mode of R189.
The answer is the rounded quotient and whether it is inexact. -/
def roundUnits (rm : Nat) (neg : Bool) (r rem k : Nat) (sticky : Bool) : Nat × Bool :=
  let inexact := decide (rem ≠ 0) || sticky
  let twice := 2 * rem
  let unit := 2 ^ k
  let up :=
    match rm with
    | 1 => decide (unit < twice) || (decide (unit = twice) && (sticky || decide (r % 2 = 1)))
    | 3 => neg && inexact
    | 4 => !neg && inexact
    | 5 => decide (unit ≤ twice)
    | _ => false
  if rm = 6 then ((if inexact ∧ r % 2 = 0 then r + 1 else r), inexact)
  else ((if up then r + 1 else r), inexact)

/-- Round m × 2^e (and a sticky part below one unit of m) to a multiple of 2^q. -/
def roundAt (rm : Nat) (neg : Bool) (m : Nat) (e : Int) (sticky : Bool) (q : Int) : Nat × Bool :=
  if q ≤ e then (m * 2 ^ (e - q).toNat, sticky)
  else
    let k := (q - e).toNat
    if bitLen m + 1 < k then roundUnits rm neg 0 (if m = 0 then 0 else 1) 2 sticky
    else roundUnits rm neg (m / 2 ^ k) (m % 2 ^ k) k sticky

/-- How a result overflows (R189): plainly, by mode, or by a conversion rule of R192. -/
def ovMode (f : Fmt) (rm : Nat) (neg : Bool) : FRes :=
  let big := match rm with
    | 1 | 5 => true
    | 3 => neg
    | 4 => !neg
    | _ => false
  (f.signed neg (if big then f.infMag else f.maxMag), fOF ||| fNX)

/-- Round the exact non-zero value ±m × 2^e (with a sticky part) to a format: R189 and the flags of R190, R191.
`ov` answers an overflow. -/
def Fmt.roundOv (f : Fmt) (ov : Bool → FRes) (rm : Nat) (neg : Bool) (m : Nat) (e : Int) (sticky : Bool) : FRes :=
  if m = 0 ∧ !sticky then (f.signed neg 0, 0)
  else
    let top : Int := (bitLen m : Int) - 1 + e
    let emin : Int := 1 - (f.bias : Int)
    let q := max (top - f.fw) (emin - f.fw)
    let (r, inexact) := roundAt rm neg m e sticky q
    let code := (q - (emin - f.fw)).toNat * 2 ^ f.fw + r
    if f.maxMag < code then ov neg
    else
      let tiny := decide (top < emin) && (decide (top < emin - 1) ||
        (let u := top - f.fw
         decide ((roundAt rm neg m e sticky u).1 < 2 ^ (emin - u).toNat)))
      (f.signed neg code, (if inexact then fNX else 0) ||| (if tiny && inexact then fUF else 0))

/-- Round to a format, overflowing by R189. -/
def Fmt.round (f : Fmt) (rm : Nat) (neg : Bool) (m : Nat) (e : Int) (sticky : Bool := false) : FRes :=
  f.roundOv (ovMode f rm) rm neg m e sticky

/-- A signed dyadic number as an integer multiple of 2^e, for e no greater than its exponent. -/
def scaled (neg : Bool) (m : Nat) (x e : Int) : Int :=
  let v : Int := m * 2 ^ (x - e).toNat
  if neg then -v else v

/-- The sign of an exact zero sum of two terms (R190). -/
def zeroNeg (rm : Nat) (n1 : Bool) (m1 : Nat) (n2 : Bool) : Bool :=
  if n1 = n2 ∧ m1 = 0 then n1 else decide (rm = 3)

/-- The rounded sum of two finite terms. -/
def Fmt.sum (f : Fmt) (rm : Nat) (n1 : Bool) (m1 : Nat) (e1 : Int) (n2 : Bool) (m2 : Nat) (e2 : Int) : FRes :=
  let e := min e1 e2
  let i := scaled n1 m1 e1 e + scaled n2 m2 e2 e
  if i = 0 then (f.signed (zeroNeg rm n1 m1 n2) 0, 0)
  else f.round rm (decide (i < 0)) i.natAbs e

/-- a + b (R154, R205). -/
def Fmt.add (f : Fmt) (rm a b : Nat) : FRes :=
  let x := f.decode a
  let y := f.decode b
  match x, y with
  | .num n1 m1 e1, .num n2 m2 e2 => f.sum rm n1 m1 e1 n2 m2 e2
  | .inf n1, .inf n2 => if n1 = n2 then (f.signed n1 f.infMag, 0) else (f.dnan, fNV)
  | .inf n, .num _ _ _ => (f.signed n f.infMag, 0)
  | .num _ _ _, .inf n => (f.signed n f.infMag, 0)
  | _, _ => (f.dnan, nvSig [x, y])

/-- An element with its sign inverted. -/
def Fmt.neg (f : Fmt) (a : Nat) : Nat := if a / f.signBit % 2 = 1 then a - f.signBit else a + f.signBit

/-- a − b: the sum of a and −b (R190). A NaN operand keeps its kind. -/
def Fmt.sub (f : Fmt) (rm a b : Nat) : FRes := f.add rm a (f.neg b)

/-- a × b. -/
def Fmt.mul (f : Fmt) (rm a b : Nat) : FRes :=
  let x := f.decode a
  let y := f.decode b
  match x, y with
  | .num n1 m1 e1, .num n2 m2 e2 => f.round rm (n1 != n2) (m1 * m2) (e1 + e2)
  | .inf n1, .inf n2 => (f.signed (n1 != n2) f.infMag, 0)
  | .inf n1, .num n2 m _ => if m = 0 then (f.dnan, fNV) else (f.signed (n1 != n2) f.infMag, 0)
  | .num n1 m _, .inf n2 => if m = 0 then (f.dnan, fNV) else (f.signed (n1 != n2) f.infMag, 0)
  | _, _ => (f.dnan, nvSig [x, y])

/-- d + a × b with one rounding (R154). -/
def Fmt.mac (f : Fmt) (rm d a b : Nat) : FRes :=
  let x := f.decode a
  let y := f.decode b
  let z := f.decode d
  let bad := match x, y with
    | .inf _, .num _ m _ => decide (m = 0)
    | .num _ m _, .inf _ => decide (m = 0)
    | _, _ => false
  if bad then (f.dnan, fNV)
  else if x.isNan || y.isNan || z.isNan then (f.dnan, nvSig [x, y, z])
  else
    match x, y, z with
    | .num n1 m1 e1, .num n2 m2 e2, .num n3 m3 e3 => f.sum rm n3 m3 e3 (n1 != n2) (m1 * m2) (e1 + e2)
    | .num _ _ _, .num _ _ _, .inf n => (f.signed n f.infMag, 0)
    | p, q, r =>
      let neg := (match p with | .inf n => n | .num n _ _ => n | _ => false)
        != (match q with | .inf n => n | .num n _ _ => n | _ => false)
      match r with
      | .inf n => if n = neg then (f.signed n f.infMag, 0) else (f.dnan, fNV)
      | _ => (f.signed neg f.infMag, 0)

/-- a / b. -/
def Fmt.div (f : Fmt) (rm a b : Nat) : FRes :=
  let x := f.decode a
  let y := f.decode b
  match x, y with
  | .num n1 m1 e1, .num n2 m2 e2 =>
    if m2 = 0 then (if m1 = 0 then (f.dnan, fNV) else (f.signed (n1 != n2) f.infMag, fDZ))
    else
      let k := f.fw + 4 + bitLen m2
      f.round rm (n1 != n2) (m1 * 2 ^ k / m2) (e1 - e2 - k) (decide (m1 * 2 ^ k % m2 ≠ 0))
  | .inf _, .inf _ => (f.dnan, fNV)
  | .inf n1, .num n2 _ _ => (f.signed (n1 != n2) f.infMag, 0)
  | .num n1 _ _, .inf n2 => (f.signed (n1 != n2) 0, 0)
  | _, _ => (f.dnan, nvSig [x, y])

/-- The integer square root, by the bits 2^(n-1) to 1. -/
def isqrt (x : Nat) : Nat → Nat → Nat
  | 0, r => r
  | n + 1, r => if (r + 2 ^ n) * (r + 2 ^ n) ≤ x then isqrt x n (r + 2 ^ n) else isqrt x n r

/-- The floor of the square root. -/
def sqrtFloor (x : Nat) : Nat := isqrt x (bitLen x / 2 + 1) 0

/-- √a (R154, R209). -/
def Fmt.sqrt (f : Fmt) (rm a : Nat) : FRes :=
  match f.decode a with
  | .nan s => (f.dnan, if s then fNV else 0)
  | .inf n => if n then (f.dnan, fNV) else (f.infMag, 0)
  | .num n m e =>
    if m = 0 then (f.signed n 0, 0)
    else if n then (f.dnan, fNV)
    else
      let k := 2 * f.fw + 8
      let odd := (e % 2).toNat
      let x := m * 2 ^ (k + odd)
      let r := sqrtFloor x
      f.round rm false r ((e - odd - k) / 2) (decide (r * r ≠ x))

/-- 1 / √a (R209). -/
def Fmt.rsqrt (f : Fmt) (rm a : Nat) : FRes :=
  match f.decode a with
  | .nan s => (f.dnan, if s then fNV else 0)
  | .inf n => if n then (f.dnan, fNV) else (0, 0)
  | .num n m e =>
    if m = 0 then (f.signed n f.infMag, fDZ)
    else if n then (f.dnan, fNV)
    else
      let odd := (e % 2).toNat
      let y := m * 2 ^ odd
      let k := bitLen y + f.fw + 4
      let x := 2 ^ (2 * k) / y
      let r := sqrtFloor x
      f.round rm false r (-(e - odd) / 2 - k) (decide (r * r * y ≠ 2 ^ (2 * k)))

/-- 1 / a (R209). -/
def Fmt.rcp (f : Fmt) (rm a : Nat) : FRes := f.div rm (f.bias * 2 ^ f.fw) a

/-! The transcendental operations of R209. Every value is formed to 640 binary places. The result of a finite,
non-exact case lies nowhere near a rounding boundary at that precision in f32, bf16 and f16 (log 8). -/

/-- Binary places of the fixed-point values below. -/
def fxP : Nat := 640

/-- Σ z^(2k+1) / (2k+1) for k below n, in fixed point: the inverse hyperbolic tangent of z. -/
def atanhFix (z z2 : Nat) : Nat → Nat → Nat → Nat
  | 0, _, acc => acc
  | n + 1, k, acc => atanhFix (z * z2 / 2 ^ fxP) z2 n (k + 1) (acc + z / (2 * k + 1))

/-- ln 2 = 2 · atanh(1/3). -/
def ln2Fix : Nat := 2 * atanhFix (2 ^ fxP / 3) (2 ^ fxP / 9) 220 0 0

/-- The remaining terms of the exponential series from term t with index k. -/
def expSeries (x : Nat) : Nat → Nat → Nat → Nat → Nat
  | 0, _, _, acc => acc
  | n + 1, k, t, acc => expSeries x n (k + 1) (t * x / (2 ^ fxP * (k + 1))) (acc + t)

/-- e^x for x in [0, 1). -/
def expFix (x : Nat) : Nat := expSeries x 150 0 (2 ^ fxP) 0

/-- e^−y in fixed point, for y ≥ 0 in fixed point. -/
def expNegFix (y : Nat) : Nat :=
  let n := y / ln2Fix
  if fxP < n then 0 else 2 ^ (2 * fxP) / expFix (y % ln2Fix) / 2 ^ n

/-- ±m × 2^e as a fixed-point magnitude. -/
def toFix (m : Nat) (e : Int) : Nat :=
  let s := e + fxP
  if 0 ≤ s then m * 2 ^ s.toNat else m / 2 ^ (-s).toNat

/-- Round an inexact value whose fixed-point floor is v. -/
def Fmt.roundFix (f : Fmt) (rm : Nat) (neg : Bool) (v : Nat) : FRes := f.round rm neg v (-(fxP : Int)) true

/-- 2^a (R209). -/
def Fmt.exp2 (f : Fmt) (rm a : Nat) : FRes :=
  match f.decode a with
  | .nan s => (f.dnan, if s then fNV else 0)
  | .inf n => (if n then 0 else f.infMag, 0)
  | .num n m e =>
    if m = 0 ∨ 0 ≤ e then
      let i : Int := scaled n m e 0
      f.round rm false 1 (if m = 0 then 0 else i)
    else
      let k := (-e).toNat
      let i : Int := scaled n m e e
      let fl := i / 2 ^ k
      let fr := (i % 2 ^ k).toNat
      if fr = 0 then f.round rm false 1 fl
      else f.round rm false (expFix (toFix fr e * ln2Fix / 2 ^ fxP)) (fl - fxP) true

/-- log₂ a (R209). -/
def Fmt.log2 (f : Fmt) (rm a : Nat) : FRes :=
  match f.decode a with
  | .nan s => (f.dnan, if s then fNV else 0)
  | .inf n => if n then (f.dnan, fNV) else (f.infMag, 0)
  | .num n m e =>
    if m = 0 then (f.signed true f.infMag, fDZ)
    else if n then (f.dnan, fNV)
    else
      let l := bitLen m - 1
      let i : Int := (l : Int) + e
      if m = 2 ^ l then f.round rm (decide (i < 0)) i.natAbs 0
      else
        let z := (m - 2 ^ l) * 2 ^ fxP / (m + 2 ^ l)
        let ln := 2 * atanhFix z (z * z / 2 ^ fxP) 220 0 0
        let v : Int := i * 2 ^ fxP + ((ln * 2 ^ fxP / ln2Fix : Nat) : Int)
        f.roundFix rm (decide (v < 0)) v.natAbs

/-- tanh a (R209). -/
def Fmt.tanh (f : Fmt) (rm a : Nat) : FRes :=
  match f.decode a with
  | .nan s => (f.dnan, if s then fNV else 0)
  | .inf n => (f.signed n (f.bias * 2 ^ f.fw), 0)
  | .num n m e =>
    if m = 0 then (f.signed n 0, 0)
    else
      let x := if (bitLen m : Int) + e > 12 then 2 ^ (fxP + 12) else toFix m e
      let t := expNegFix (2 * x)
      f.roundFix rm n (Nat.min ((2 ^ fxP - t) * 2 ^ fxP / (2 ^ fxP + t)) (2 ^ fxP - 1))

/-- 1 / (1 + e^−a) (R209). -/
def Fmt.sigm (f : Fmt) (rm a : Nat) : FRes :=
  match f.decode a with
  | .nan s => (f.dnan, if s then fNV else 0)
  | .inf n => (if n then 0 else f.bias * 2 ^ f.fw, 0)
  | .num n m e =>
    if m = 0 then f.round rm false 1 (-1)
    else
      let x := if (bitLen m : Int) + e > 12 then 2 ^ (fxP + 12) else toFix m e
      let t := expNegFix x
      let v := if n then t * 2 ^ fxP / (2 ^ fxP + t) else 2 ^ (2 * fxP) / (2 ^ fxP + t)
      f.roundFix rm false (Nat.min v (2 ^ fxP - 1))

/-! Comparisons, minimum and maximum, classes. -/

/-- The order of two elements that are not NaNs, −0 below +0 (R155). -/
def Fmt.key (f : Fmt) (a : Nat) : Int :=
  let mag : Nat := a % f.signBit
  if a / f.signBit % 2 = 1 then -(mag : Int) - 1 else mag

/-- `fmin`, `fmax` and, with p, `fminp`, `fmaxp` (R155). -/
def Fmt.minMax (f : Fmt) (mx p : Bool) (a b : Nat) : FRes :=
  let x := f.decode a
  let y := f.decode b
  if x.isSig || y.isSig then (f.dnan, fNV)
  else if x.isNan && y.isNan then (f.dnan, 0)
  else if x.isNan then (if p then f.dnan else b, 0)
  else if y.isNan then (if p then f.dnan else a, 0)
  else (if (decide (f.key a ≤ f.key b)) != mx then a else b, 0)

/-- a < b, a ≤ b and a = b of two values that are not NaNs, with −0 = +0 (R156). -/
def FVal.lt : FVal → FVal → Bool
  | .inf n, .inf k => n && !k
  | .inf n, _ => n
  | _, .inf k => !k
  | .num n1 m1 e1, .num n2 m2 e2 =>
    let e := min e1 e2
    decide (scaled n1 m1 e1 e < scaled n2 m2 e2 e)
  | _, _ => false

/-- `flt` (R156): the answer and its flags. -/
def Fmt.lt (f : Fmt) (a b : Nat) : Bool × Flags :=
  let x := f.decode a
  let y := f.decode b
  if x.isNan || y.isNan then (false, fNV) else (x.lt y, 0)

/-- `fle` (R156). -/
def Fmt.le (f : Fmt) (a b : Nat) : Bool × Flags :=
  let x := f.decode a
  let y := f.decode b
  if x.isNan || y.isNan then (false, fNV) else (!y.lt x, 0)

/-- `feq` (R156). -/
def Fmt.eq (f : Fmt) (a b : Nat) : Bool × Flags :=
  let x := f.decode a
  let y := f.decode b
  if x.isNan || y.isNan then (false, nvSig [x, y]) else (!x.lt y && !y.lt x, 0)

/-- The one-hot class code of R156. -/
def Fmt.classify (f : Fmt) (a : Nat) : Nat :=
  match f.decode a with
  | .nan s => if s then 2 ^ 8 else 2 ^ 9
  | .inf n => if n then 2 ^ 0 else 2 ^ 7
  | .num n m _ =>
    let k := if m = 0 then 0 else if m < 2 ^ f.fw then 1 else 2
    if n then 2 ^ (3 - k) else 2 ^ (4 + k)

/-! Conversions. -/

/-- ±m × 2^e rounded to an integral magnitude, and whether that is inexact (R189). -/
def roundIntegral (rm : Nat) (neg : Bool) (m : Nat) (e : Int) : Nat × Bool := roundAt rm neg m e false 0

/-- An element rounded to an integral value of its format (`vrnd`, R209). -/
def Fmt.rnd (f : Fmt) (rm a : Nat) : FRes :=
  match f.decode a with
  | .nan s => (f.dnan, if s then fNV else 0)
  | .inf n => (f.signed n f.infMag, 0)
  | .num n m e =>
    let r := roundIntegral rm n m e
    if r.2 then ((f.round 1 n r.1 0).1, fNX) else (a, 0)

/-- An integer in a range, as a w-bit pattern. -/
def intBits (w : Nat) (i : Int) : Nat := (i % (2 ^ w : Int)).toNat

/-- Least and greatest integer of a type of w bits. -/
def intMin (signed : Bool) (w : Nat) : Int := if signed then -(2 ^ (w - 1) : Int) else 0
def intMax (signed : Bool) (w : Nat) : Int := if signed then (2 ^ (w - 1) : Int) - 1 else (2 ^ w : Int) - 1

/-- Float to integer: plain clamps raise NV (R157), saturating ones SAT and NX (R192). -/
def Fmt.toInt (f : Fmt) (rm : Nat) (sat signed : Bool) (w a : Nat) : Int × Flags :=
  let lo := intMin signed w
  let hi := intMax signed w
  let cl : Flags := if sat then fSAT ||| fNX else fNV
  match f.decode a with
  | .nan _ => (0, fNV)
  | .inf n => (if n then lo else hi, cl)
  | .num n m e =>
    let r := roundIntegral rm n m e
    let i : Int := if n then -(r.1 : Int) else r.1
    if i < lo then (lo, cl) else if hi < i then (hi, cl) else (i, if r.2 then fNX else 0)

/-- An overflow of a conversion (R192, R214). -/
def Fmt.cvtOv (f : Fmt) (sat : Bool) (rm : Nat) (neg : Bool) : FRes :=
  if sat then (f.signed neg f.maxMag, fSAT ||| fNX)
  else if f.inf then ovMode f rm neg
  else (f.signed neg f.dnan, fNV ||| fOF ||| fNX)

/-- Integer to float (R157, R214). -/
def Fmt.ofInt (f : Fmt) (rm : Nat) (sat : Bool) (i : Int) : FRes :=
  f.roundOv (f.cvtOv sat rm) rm (decide (i < 0)) i.natAbs 0 false

/-- Float to float (R157, R192, R214). -/
def Fmt.cvt (src dst : Fmt) (rm : Nat) (sat : Bool) (a : Nat) : FRes :=
  match src.decode a with
  | .nan s => (dst.dnan, if s then fNV else 0)
  | .inf n =>
    if sat ∧ !(src.fw < dst.fw ∧ src.ew ≤ dst.ew) then (dst.signed n dst.maxMag, fSAT ||| fNX)
    else if dst.inf then (dst.signed n dst.infMag, 0)
    else (dst.signed n dst.dnan, fNV)
  | .num n m e => dst.roundOv (dst.cvtOv sat rm) rm n m e false

end Sys2Proof.Machine
end

