-- ==== Sys2Proof/Machine/Operands.lean ====
section
/-! DEFINITION. Operands: how names resolve (R127, R128), the order of checks (R146), watchpoints (R393, R394),
reading and writing scalar and vector names with register copy faults (R128) and latencies (R134), and the names each
vector word uses (R203 to R224). -/
namespace Sys2Proof.Machine

/-- The names an instruction uses: whether it is privileged as executed (R32), scalar names read and written, vector
names read and written, whether a trip of its window (R225) and an atomic in flight (R269) make it wait, and a vector name that `vstrm` binds (R121). A predicate is
the scalar name of its slot. `own` marks the instructions of R346 that themselves report failed work, a stopped trip
among it, and `drain` those that wait for every pending result of the core, in every window (R171, R173). `vq` marks an
instruction that enters the vector queue (R200), and `words` are the vector names it reads whose next stream words it takes
at issue (R122). `acc` marks an instruction whose own access the watchpoints of kinds 1 to 3 match (R394). -/
structure Use where
  priv : Bool := false
  xs : List Nat := []
  xd : List Nat := []
  vs : List Nat := []
  vd : List Nat := []
  gate : Bool := true
  mem : Bool := gate
  vn : List Nat := []
  own : Bool := false
  drain : Bool := false
  vq : Bool := false
  words : List Nat := []
  acc : Bool := false
deriving DecidableEq, Repr

/-- The offsets of a scalar name; x0 has none (R127). -/
def offX (n : Nat) : List Nat := if n = 0 then [] else [n]

/-- The offsets of a vector name in a window (R127). -/
def offV (w : Win) (n : Nat) : List Nat := (List.range 8).map (w.voff + 8 * n + ·)

/-- A vector name lies beyond the window (R127). -/
def vBeyond (w : Win) (n : Nat) : Bool := decide (63 < n ∨ w.size ≤ w.voff + 8 * n + 7)

/-- The names an instruction uses that lie beyond the window, as `cr.tval` reports them (R121, R127). -/
def Use.beyond (u : Use) (w : Win) : List Nat :=
  ((u.xs ++ u.xd).filter fun n => n ≠ 0 ∧ w.size ≤ n) ++
    ((u.vs ++ u.vd).filter (vBeyond w)).map (256 + ·) ++ u.vn.filter (vBeyond w)

/-- The absolute slots an instruction reads. -/
def Use.reads (u : Use) (c : Core) : List Nat :=
  (u.xs.flatMap offX ++ u.vs.flatMap (offV c.curWin)).map (c.src c.curWin)

/-- The absolute slots an instruction writes. -/
def Use.writes (u : Use) (c : Core) : List Nat :=
  (u.xd.flatMap offX ++ u.vd.flatMap (offV c.curWin)).map (c.curWin.base + ·)

/-- The absolute slots that the copy faults of a write of these offsets of a window read (R128). -/
def Core.copies (c : Core) (w : Win) (offs : List Nat) : List Nat :=
  if !w.s then []
  else (((offs.map (· / 8)).eraseDups.filter w.share.getLsbD).flatMap fun g =>
    ((List.range 8).map (8 * g + ·)).filter (· < w.size)).map (c.src w)

/-- The absolute slots that an instruction's copy faults read (R128). -/
def Use.copies (u : Use) (c : Core) : List Nat :=
  c.copies c.curWin (u.xd.flatMap offX ++ u.vd.flatMap (offV c.curWin))

/-! Streams (R121, R122). -/

/-- A stream of a core. -/
def Core.stream (c : Core) (k : Nat) : Option Stream := sget none c.eng.streams k

/-- The size of an element in bytes (R102). -/
def recE (r : BitVec 512) : Nat :=
  match Ty.ofCode (rfld r 64 4) with
  | some .f64 | some .i64 => 8
  | some .f32 | some .i32 | some .n32 => 4
  | some .bf16 | some .f16 | some .i16 | some .n16 => 2
  | _ => 1

/-- The extents D0 to D3 (R101). -/
def recD (r : BitVec 512) (k : Nat) : Nat := rfld r (128 + 32 * k) 32

/-- The length L of the sequence (R102). -/
def recLen (r : BitVec 512) : Nat := recD r 0 * recD r 1 * recD r 2 * recD r 3 * recE r

/-- The number of 64-byte words of a stream (R121). -/
def Stream.words (x : Stream) : Nat := (recLen x.src + 63) / 64

/-- The next word of a stream has arrived, or none will: every word has been taken, or delivery has faulted (R122). -/
def Stream.ready (x : Stream) : Bool := decide (x.buf ≠ []) || x.faulted || decide (x.words ≤ x.given)

/-- The next word of a stream: zero after the last, or where delivery has faulted (R122). -/
def Core.nextWord (c : Core) (k : Nat) : BitVec 512 := ((c.stream k).bind fun x => x.buf.head?).getD 0

/-- Take the next word of a stream (R122); a zero word past the last, or after a delivery fault, is not counted (log 74). -/
def Core.takeWord (c : Core) (k : Nat) : Core :=
  match c.stream k with
  | some x =>
    if x.buf = [] then c
    else
      let x := { x with taken := x.taken + 1, buf := x.buf.tail }
      { c with eng := { c.eng with streams := sput none c.eng.streams k (some x) } }
  | none => c

/-- The stream bound to a vector name of a window. -/
def Core.bound (c : Core) (win name : Nat) : Option Nat :=
  (List.range 4).find? fun k => match c.stream k with
    | some x => decide (x.win = win ∧ x.name = name)
    | none => false

/-- Those of some vector names of a window that are bound, with their streams. -/
def Core.boundTo (c : Core) (win : Nat) (names : List Nat) : List (Nat × Nat) :=
  names.eraseDups.filterMap fun n => (c.bound win n).map (n, ·)

/-- A queued instruction has still to take a word of stream k. -/
def Core.streamOwed (c : Core) (k : Nat) : Bool :=
  c.pend.any fun p => p.late.any fun l => l.streams.any (·.2 = k)

/-- The next words of these streams can be taken. -/
def Core.wordsReady (c : Core) (bs : List (Nat × Nat)) : Bool :=
  bs.all fun b => match c.stream b.2 with
    | some x => x.ready
    | none => true

/-- The next words of these streams can be taken by an instruction that does not stand in the queue. -/
def Core.wordsFree (c : Core) (bs : List (Nat × Nat)) : Bool := c.wordsReady bs && bs.all fun b => !c.streamOwed b.2

/-- Take a word of each of these streams. -/
def Core.takeWords (c : Core) (bs : List (Nat × Nat)) : Core := bs.foldl (fun c b => c.takeWord b.2) c

/-! Watchpoints. -/

/-- The first watchpoint of the given kinds that matches an access of [lo, lo + n) in user mode: its number and
whether it only records (R393, R394). -/
def Core.watched (c : Core) (kinds : List Nat) (lo n : Nat) : Option (Nat × Bool) :=
  if c.sup then none
  else (List.range 4).findSome? fun k =>
    let w := sget 0 c.obs.wpc k
    let len := w.bits 4 6
    let base := (sget 0 c.obs.wpa k).toNat / 2 ^ len * 2 ^ len
    if kinds.contains (w.bits 0 3) ∧ (!w.bit 15 ∨ w.bits 10 5 = c.cur) ∧ meets lo n base (2 ^ len) then
      some (k, w.bit 3)
    else none

/-- Report a watchpoint: a BRK trap, or one trace record and the instruction goes on (R394). -/
def State.watchHit (s : State) (h : Option (Nat × Bool)) (data : Word) (k : State → Out) : Out :=
  match h with
  | none => k s
  | some (n, true) =>
    if s.core.seen.contains n then k s
    else k ((s.traceCore 7 data).updCore fun c => { c with seen := n :: c.seen })
  | some (n, false) => s.trap 3 (word (0x100 + n))

/-- An execute watchpoint at the PC (R394, kind 4). -/
def State.watchExec (s : State) (k : State → Out) : Out :=
  s.watchHit (s.core.watched [4] s.core.pc.toNat 1) s.core.pc k

/-- The step watchpoint that matches an instruction of the core in user mode: the lowest number, and whether it only
records (R394, kind 5). -/
def Core.stepping (c : Core) : Option (Nat × Bool) :=
  if c.sup then none
  else (List.range 4).findSome? fun k =>
    let w := sget 0 c.obs.wpc k
    if w.bits 0 3 = 5 ∧ (!w.bit 15 ∨ w.bits 10 5 = c.cur) then some (k, w.bit 3) else none

/-- Every step watchpoint that matches turns itself off (R394). -/
def Core.stepped (c : Core) : Core :=
  { c with obs := { c.obs with wpc := (List.range 4).foldl (fun t k =>
      let w := sget 0 t k
      if w.bits 0 3 = 5 ∧ (!w.bit 15 ∨ w.bits 10 5 = c.cur) then sput 0 t k (w &&& ~~~7#64) else t) c.obs.wpc } }

/-- Report a step watchpoint, which then is off. One that only records is reported for its instruction alone: no other
watchpoint is, should the instruction be held back and executed again (R394). -/
def State.stepHit (s : State) (h : Nat × Bool) (k : State → Out) : Out :=
  (s.updCore Core.stepped).watchHit (some h) s.core.pc fun s => k (s.updCore fun c => { c with seen := List.range 4 })

/-- An access watchpoint, once the checks of R146 have passed (R394, kinds 1 to 3), with the step watchpoint of the same
instruction: the lowest number is reported, and a step watchpoint that matches turns itself off (log 40). -/
def State.watchAccess (s : State) (load store : Bool) (ranges : List (Nat × Nat)) (k : State → Out) : Out :=
  let kinds := (if load then [1] else []) ++ (if store then [2] else []) ++ [3]
  let hits := ranges.filterMap fun r => (s.core.watched kinds r.1 r.2).map (·, r.1)
  let best := hits.foldl (fun b h => match b with
    | none => some h
    | some g => if h.1.1 < g.1.1 then some h else some g) none
  match best, s.core.stepping with
  | none, none => k s
  | some (h, lo), none => s.watchHit (some h) (word lo) k
  | none, some g => s.stepHit g k
  | some (h, lo), some g =>
    if h.1 < g.1 then (s.updCore Core.stepped).watchHit (some h) (word lo) k else s.stepHit g k

/-- The step watchpoint (R394, kind 5): it matches the first user-mode instruction that issues, here one that has no
access of its own for the other kinds to match. -/
def State.watchStep (s : State) (u : Use) (k : State → Out) : Out :=
  if u.acc then k s
  else
    match s.core.stepping with
    | none => k s
    | some h => s.stepHit h k

/-! Vector words: the names each uses. -/

end Sys2Proof.Machine

namespace Sys2Proof

open Machine

/-- Sixteen names from d on (R219, R220). -/
def names16 (d : Nat) : List Nat := (List.range 16).map (d + ·)

/-- The predicate of a prefix as a scalar name; p0 has none (R203). -/
def Pfx.pred (p : Pfx) : List Nat := if p.pm = 0 then [] else [55 + p.pm]

/-- A predicated merging write reads its destination (R200, R203). -/
def Pfx.merges (p : Pfx) : Bool := decide (p.pm ≠ 0) && !p.z

/-- Scalar names a matrix command reads, and writes (R238). -/
def MatOp.xs : MatOp → List Nat
  | .bload a => [a] | .mac _ a => [a] | .st _ a => [a] | .ld _ a => [a] | .acc _ a => [a]
  | .lease | .rel | .rot | .zero _ | .wait _ _ | .claim _ _ | .stat _ _ => []

def MatOp.xd : MatOp → List Nat
  | .wait a _ => [a] | .claim a _ => [a] | .stat a _ => [a]
  | .lease | .rel | .rot | .zero _ | .bload _ | .mac _ _ | .st _ _ | .ld _ _ | .acc _ _ => []

/-- A one-operand word that writes every lane of its destination: a reduction merges nothing (R210). -/
def UnOp.reduces : UnOp → Bool
  | .sumr | .maxr | .minr => true
  | _ => false

/-- The names a vector word uses under its prefix (R203 to R220). -/
def VOp.uses (p : Pfx) : VOp → Use
  | .lane _ op d a b =>
    { mem := false, vq := true, xs := p.pred, vs := [a, b] ++ (if op = .mac then (if p.cv then [d, p.c] else [d]) else [])
        ++ (if p.merges then [d] else []), vd := [d] }
  | .un op ty d a =>
    { mem := false, vq := true, xs := p.pred, vd := [d]
      vs := (if op = .mxs ∧ ty = .f32 then [a, a + 1] else [a]) ++ (if p.merges ∧ !op.reduces then [d] else []) }
  | .cvt sty mode dty d a =>
    { mem := false, vq := true, xs := p.pred, vd := [d]
      vs := a :: (if p.merges ∨ (dty.width < sty.width ∧ 2 ≤ mode) then [d] else []) }
  | .bcast _ d a => { mem := false, vq := true, xs := a :: p.pred, vs := if p.merges then [d] else [], vd := [d] }
  | .idx _ d a => { mem := false, vq := true, xs := a :: p.pred, vs := if p.merges then [d] else [], vd := [d] }
  | .pred _ d a => { mem := false, xs := [a], xd := [d] }
  | .ext _ d a _ => { mem := false, vq := true, vs := [a], xd := [d] }
  | .ins _ d a _ => { mem := false, vq := true, xs := [a], vs := [d], vd := [d] }
  | .ld _ d a b => { xs := [a, b] ++ p.pred, vs := if p.merges then [d] else [], vd := [d] }
  | .st _ d a b => { xs := [a, b] ++ p.pred, vs := [d], words := [d] }
  | .ldff _ d a b =>
    { xs := [a, b] ++ p.pred, xd := p.pred, vs := if p.merges then [d] else [], vd := [d] }
  | .ldg d a b =>
    { xs := [a, b] ++ p.pred, vs := p.c :: (if p.merges then [d] else []), vd := [d], words := [p.c] }
  | .sts d a b => { xs := [a, b] ++ p.pred, vs := [d, p.c], words := [d, p.c] }
  | .ldt _ d a b => { xs := [a, b], vd := names16 d }
  | .swap d => { mem := false, vs := names16 d, vd := names16 d }
  | .mat op => { xs := op.xs, xd := op.xd }

/-- The names a body instruction uses (R222). -/
def BodyOp.uses : BodyOp → Use
  | .v p op => op.uses p
  | .copy _ d a b => { xs := [a, b], xd := [d] }

/-- The name n staggered by k where the mode covers it: written names for `dst`, names only read for `src` (R223). -/
def stagName (mode k : Nat) (written : Bool) (n : Nat) : Nat :=
  if mode = 0 ∨ (mode = 1 ∧ written) ∨ (mode = 2 ∧ !written) then n + k else n

/-- A matrix command of a trip with its accumulator name staggered; it counts as written (R223). -/
def MatOp.stag (mode k : Nat) : MatOp → MatOp
  | .mac d a => .mac (stagName mode k true d) a
  | .zero d => .zero (stagName mode k true d)
  | .st d a => .st (stagName mode k true d) a
  | .ld d a => .ld (stagName mode k true d) a
  | .acc d a => .acc (stagName mode k true d) a
  | .wait a d => .wait a (stagName mode k true d)
  | .claim a d => .claim a (stagName mode k true d)
  | .stat a d => .stat a (stagName mode k true d)
  | .lease => .lease | .rel => .rel | .rot => .rot | .bload a => .bload a

/-- A vector word of a trip with its names staggered by k (R223), field by field (log 80). -/
def VOp.stag (mode k : Nat) : VOp → VOp
  | .lane ty op d a b =>
    .lane ty op (stagName mode k true d) (stagName mode k false a) (stagName mode k false b)
  | .un op ty d a => .un op ty (stagName mode k true d) (stagName mode k false a)
  | .cvt sty m dty d a => .cvt sty m dty (stagName mode k true d) (stagName mode k false a)
  | .bcast ty d a => .bcast ty (stagName mode k true d) a
  | .idx ty d a => .idx ty (stagName mode k true d) a
  | .pred ty d a => .pred ty d a
  | .ext z d a i => .ext z d (stagName mode k false a) i
  | .ins z d a i => .ins z (stagName mode k true d) a i
  | .ld sz d a b => .ld sz (stagName mode k true d) a b
  | .st sz d a b => .st sz (stagName mode k false d) a b
  | .ldff z d a b => .ldff z (stagName mode k true d) a b
  | .ldg d a b => .ldg (stagName mode k true d) a b
  | .sts d a b => .sts (stagName mode k false d) a b
  | .ldt h d a b => .ldt h (stagName mode k true d) a b
  | .swap d => .swap (stagName mode k true d)
  | .mat op => .mat (op.stag mode k)

/-- A body instruction staggered by k (R223). -/
def BodyOp.stag (mode k : Nat) : BodyOp → BodyOp
  | .v p op => .v { p with c := if p.cv then stagName mode k false p.c else p.c } (op.stag mode k)
  | .copy f d a b => .copy f d a b

/-- The accumulator name of a body instruction, if it has one. -/
def BodyOp.acc : BodyOp → List Nat
  | .v _ (.mat op) =>
    match op with
    | .mac d _ => [d] | .zero d => [d] | .st d _ => [d] | .ld d _ => [d] | .acc d _ => [d]
    | .wait _ d => [d] | .claim _ d => [d] | .stat _ d => [d]
    | .lease | .rel | .rot | .bload _ => []
  | _ => []

end Sys2Proof

namespace Sys2Proof.Machine

/-- The slots an instruction of a trip's body writes in iteration j. -/
def Trip.writesOf (t : Trip) (j : Nat) (b : BodyOp) : List Nat :=
  let u := (b.stag t.mode (j * t.ns)).uses
  (u.xd.flatMap offX ++ u.vd.flatMap (offV t.win)).map (t.win.base + ·)

/-- The slots a trip has still to write, which count as pending (R224, R225). -/
def Trip.pending (t : Trip) : List Nat :=
  if t.stopped then []
  else
    let rest := t.body.flatMap fun b =>
      if t.count ≤ t.iter + 1 then []
      else if t.ns = 0 ∨ t.mode = 2 then t.writesOf (t.iter + 1) b
      else (List.range (t.count - t.iter - 1)).flatMap fun j => t.writesOf (t.iter + 1 + j) b
    (t.body.drop t.pos).flatMap (t.writesOf t.iter) ++ rest

/-! Issue. -/

/-- Something the core has issued is still to be carried out: an atomic, queued vector instructions, or a trip that goes on. -/
def Core.behind (c : Core) : Bool :=
  decide (c.queued ≠ 0) || c.m.atom.isSome || c.eng.trip.any fun t => !t.stopped

/-- A read of uncorrectable slots stops the core before the instruction takes effect, once its pending results have landed
(R410). -/
def State.badSlot (s : State) (n : Nat) : State :=
  let c := s.core
  let a := word (put 8 60 4 + put s.vcore 32 16 + 8 * n)
  let s := { s with core := c.settleAll.stop s.time }
  (s.logAt s.die c.vf s.vcore a 2).logAt s.die 16 s.vcore a 2 c.vf

/-- A read of these slots, settled, stops the core where one of them is uncorrectable (R410). -/
def State.checkGood (s : State) (rd : List Nat) (k : State → Out) : Out :=
  match rd.filter s.core.bad.contains with
  | n :: _ => if s.core.behind then s.heldBack else .next (s.badSlot n)
  | [] => k s

/-- The checks of the slots an instruction reads and writes, in the order of R146: the wait of the scoreboard and STALL,
TEMPLATE, uncorrectable slots, among them those that its copy faults `cp` read (R128, R410). -/
def State.checkSlots (s : State) (rd wr cp : List Nat) (k : State → Out) : Out :=
  let s := { s with core := s.core.settle (rd ++ wr) }
  match (if s.core.sbchk then
      rd.filter fun n => s.core.pend.any fun p => p.chk && p.early s.core.cycle && p.touches [n] else []) with
  | n :: ns => let (n, s) := s.pick n (n :: ns); s.trap 10 (word n)
  | [] =>
    let s := { s with core := s.core.await (rd ++ wr) }
    match wr.filter s.core.inBillet with
    | n :: ns => let (n, s) := s.pick n (n :: ns); s.trap 11 (word n)
    | [] =>
      ({ s with core := (s.core.settle cp).await cp } : State).checkGood (rd ++ cp) k

/-- The checks of the names an instruction uses in the order of R146, then the instruction itself: WINDOW, then those of
its slots, once no queued vector instruction is to write one of them. The second argument receives the slots read and
written. -/
def State.checkNames (s : State) (u : Use) (k : List Nat → State → Out) : Out :=
  match u.beyond s.core.curWin with
  | n :: ns => let (n, s) := s.pick n (n :: ns); s.trap 4 (word n)
  | [] =>
    if s.core.queuedOn (u.reads s.core ++ u.writes s.core ++ u.copies s.core) then s.heldBack
    else
      s.checkSlots (u.reads s.core) (u.writes s.core) (u.copies s.core) (k (u.reads s.core ++ u.writes s.core))

/-- The vector queue holds an instruction back: it is full (R200), or must be empty for it (R171, R173), or a stream word
that the instruction takes at issue has not arrived (R122). -/
def Use.blocked (u : Use) (c : Core) : Bool :=
  (u.vq && decide (16 ≤ c.queued)) || (u.drain && decide (c.queued ≠ 0)) || !c.wordsFree (c.boundTo c.cur u.words)

/-- A trip of the current window has stopped: the order of its record (R226, R346). -/
def Core.tripStop (c : Core) : Option Nat :=
  match c.eng.trip with
  | some t => if t.stopped ∧ t.widx = c.cur then some t.fseq else (c.eng.stops.find? (·.1 = c.cur)).map (·.2)
  | none => (c.eng.stops.find? (·.1 = c.cur)).map (·.2)

/-- What the `macc` of the trip of the current window has met and its context has still to report: cause and value (R226,
R247). -/
def Core.tripRaised (c : Core) : Option (Nat × Word) := (c.eng.raised.find? (·.1 = c.cur)).map (·.2)

/-- The context reports what its trip's `macc` has met (R247). -/
def State.tripReport (s : State) (r : Nat × Word) : Out :=
  (s.updCore fun c => { c with eng := { c.eng with raised := c.eng.raised.filter (· ≠ (c.cur, r)) } }).trap r.1 r.2

/-- The checks of an instruction in the order of R146, then the instruction itself: execute watchpoints, PRIV, the names,
an atomic in flight (R269), the vector queue (R200), the trip buffer (R225, R226) and the step watchpoint. -/
def State.issue (s : State) (u : Use) (k : State → Out) : Out :=
  s.watchExec fun s =>
  if u.priv && !s.core.sup then s.haltFault 2
  else
    ({ s with core := s.core.toIssue } : State).checkNames u fun slots s =>
      if s.core.m.atom.any fun f => u.mem || slots.any fun n => f.slot = some n then s.heldBack
      else if u.gate ∧ !u.own ∧ s.core.tripStop.isSome then s.trap 13 (word 0xC0000000)
      else if u.blocked s.core then s.heldBack
      else
        let waits := s.core.eng.trip.any fun t =>
          !t.stopped && ((u.gate && decide (t.widx = s.core.cur)) || u.drain || slots.any t.pending.contains)
        match (if u.gate ∨ waits then s.core.tripRaised else none) with
        | some r => s.tripReport r
        | none => if waits then s.heldBack else s.watchStep u k

/-- The slots that a queued vector instruction (R200), an atomic in flight (R133, R260) or a trip (R224, R225) has still to
write. -/
def Core.owed (c : Core) : List Nat :=
  (c.pend.filter Pend.queued).flatMap (·.writes.map (·.1)) ++
  (match c.m.atom with
    | some f => f.slot.toList
    | none => []) ++
  match c.eng.trip with
    | some t => t.pending
    | none => []

/-- The slots for which something of a core is pending beside the results that are ready to land: what it owes, and the slot
that a deferred take or pop of it writes (R133). -/
def State.owedBy (s : State) (loc : Nat) : List Nat :=
  let c := s.coreAt loc
  c.owed ++ (if c.wait.any fun w => decide (w.kind = .take ∨ w.kind = .fpop) then
    s.clusters.flatMap fun k => k.2.banks.flatMap fun b => (b.2.deferred.filter (·.core = loc)).filterMap (·.slot) else [])

/-- A path-8 access of a slot of a core waits until no tracked write to it is pending (R133): a result of variable latency
has landed; one of fixed latency too, where the scoreboard tracks it or the core issues nothing, and otherwise it may
have. -/
def State.settleFar (s : State) (loc k : Nat) : State :=
  let s := s.updCoreAt loc (·.settle [k])
  let c := s.coreAt loc
  if !(c.pend.any (·.touches [k])) then s
  else
    let (land, s) := if c.run ≠ .running then (true, s) else s.choose true false
    s.updCoreAt loc (·.landIf fun p => (land || p.chk) && p.touches [k])

/-- Further slots of an instruction wait for what an atomic or a trip has still to write (R133). -/
def State.waitSlots (s : State) (slots : List Nat) (k : State → Out) : Out :=
  if slots.any s.core.owed.contains then s.heldBack else k s

/-- A trip of the current window that has stopped, as failed work: the order of its record, and what `cr.tval` names
(R226, R346). -/
def State.tripFault (s : State) : Option (Nat × Nat) := s.core.tripStop.map (·, 0xC0000000)

/-- Raise ASYNC for the failed work whose record came first, the instruction's own or a stopped trip (R346). -/
def State.async (own : Option (Nat × Nat)) (k : State → Out) (s : State) : Out :=
  match own, s.tripFault with
  | some a, some b => s.trap 13 (word (if b.1 < a.1 then b.2 else a.2))
  | some a, none => s.trap 13 (word a.2)
  | none, some b => s.trap 13 (word b.2)
  | none, none => k s

/-! Reading and writing names. -/

/-- The value of a scalar name (R127, R128). -/
def Core.x (c : Core) (n : Nat) : Word := if n = 0 then 0 else c.slot (c.src c.curWin n)

/-- The vector a list of eight doubles forms, the first lowest (R2). -/
def vecOf (ws : List Word) : BitVec 512 :=
  BitVec.ofNat 512 (ws.foldr (fun w acc => w.toNat + 2 ^ 64 * acc) 0)

/-- The eight doubles of a vector (R2). -/
def wordsOf (v : BitVec 512) : List Word := (List.range 8).map fun i => word (fld v.toNat (64 * i) 64)

/-- The vector of a name in a window. -/
def Core.vecIn (c : Core) (w : Win) (n : Nat) : BitVec 512 := vecOf ((offV w n).map fun k => c.slot (c.src w k))

/-- The vector of a name in the current window. -/
def Core.vec (c : Core) (n : Nat) : BitVec 512 := c.vecIn c.curWin n

/-- A register copy fault of group g: the offsets of the group that the write leaves out are copied from the parent,
the bit is cleared, and the fault, an event of window-table entry i (R380), takes four cycles (R128). -/
def Core.copyFault (c : Core) (i : Nat) (w : Win) (offs : List Nat) (g : Nat) : Core :=
  let rest := ((List.range 8).map (8 * g + ·)).filter fun k => k < w.size ∧ !offs.contains k
  let c := (c.settle (rest.map (c.src w))).await (rest.map (c.src w))
  let c := c.setSlots (rest.map fun k => (w.base + k, c.slot (c.src w k)))
  let c := { c with eng := { c.eng with copyFaults := c.eng.copyFaults + 1 } }
  (c.count (some i) 4 1).advance (c.cycle + 4)

/-- Take the copy faults of a write of these offsets of a window, that of window-table entry i, and answer the window with
its share mask cleared there. -/
def Core.claim (c : Core) (i : Nat) (w : Win) (offs : List Nat) : Core × Win :=
  if !w.s then (c, w)
  else offs.foldl (fun (p : Core × Win) k =>
    if p.2.share.getLsbD (k / 8) then
      (p.1.copyFault i p.2 offs (k / 8), { p.2 with share := p.2.share &&& ~~~(1#128 <<< (k / 8)) })
    else p) (c, w)

/-- Tag a write of offsets of window-table entry i, whose window has this base, with its absolute slots (R128, R132). -/
def Core.tagIn (c : Core) (i base : Nat) (vals : List (Nat × Word)) : Core × List (Nat × Word) :=
  let w0 := c.win i
  let (c', w) := if w0.base = base then c.claim i w0 (vals.map (·.1)) else (c, w0)
  let c' := if w = w0 then c' else c'.setWin i w
  (c', vals.map fun v => (base + v.1, v.2))

/-- Tag a write of offsets of the current window with its absolute slots. -/
def Core.tag (c : Core) (vals : List (Nat × Word)) : Core × List (Nat × Word) := c.tagIn c.cur c.curWin.base vals

/-- A result readable by the next instruction (L = 1), written to offsets of the current window (R134). -/
def Core.writeNow (c : Core) (vals : List (Nat × Word)) : Core :=
  let (c, ws) := c.tag vals
  (c.supersede 0 (ws.map (·.1))).setSlots ws

/-- A result of another kind of a window, tagged and pending, of n requests beyond the cluster (R49). -/
def Core.writeLaterIn (c : Core) (i base : Nat) (kind : PendKind) (flags : Flags) (vals : List (Nat × Word)) (n : Nat := 0) :
    Core :=
  let (c, ws) := c.tagIn i base vals
  if ws = [] ∧ flags = 0 ∧ n = 0 then c
  else c.addPend { kind, writes := ws, flags, chk := c.sbchk && kind.isFixed, reqs := n }

/-- A result of another kind of the current window. -/
def Core.writeLater (c : Core) (kind : PendKind) (flags : Flags) (vals : List (Nat × Word)) : Core :=
  c.writeLaterIn c.cur c.curWin.base kind flags vals

/-- The offset and value of a scalar result; x0 discards it (R127). -/
def resX (d : Nat) (v : Word) : List (Nat × Word) := if d = 0 then [] else [(d, v)]

/-- X(D) := v, readable at once. -/
def Core.setX (c : Core) (d : Nat) (v : Word) : Core := c.writeNow (resX d v)

/-- X(D) := v, with latency L. -/
def Core.setXIn (c : Core) (l d : Nat) (v : Word) : Core := c.writeLater (.fixed (c.cycle + l)) 0 (resX d v)

/-- X(D) := v, a variable-latency result, of n requests beyond the cluster (R49). -/
def Core.setXVar (c : Core) (d : Nat) (v : Word) (n : Nat := 0) : Core :=
  c.writeLaterIn c.cur c.curWin.base .flight 0 (resX d v) n

/-- The offsets and values of a vector result. -/
def resV (w : Win) (d : Nat) (v : BitVec 512) : List (Nat × Word) := (offV w d).zip (wordsOf v)

/-- Bind the oldest queued vector instruction: it leaves the queue (R200, R228). -/
def bindFirst : List Pend → List Pend
  | [] => []
  | p :: ps =>
    match p.kind with
    | .queued _ => { p with kind := .flight } :: ps
    | _ => p :: bindFirst ps

/-- Enter an instruction of a window in the vector queue (R200). -/
def Core.enqueue (c : Core) (i base cost : Nat) (flags : Flags) (vals : List (Nat × Word)) (late : Option Late := none) : Core :=
  let (c, ws) := (c.count (some i) 6 1).tagIn i base vals
  c.addPend { kind := .queued cost, writes := ws, flags, late }

/-- OR flags into `cr.fflags` (R153). -/
def Core.raise (c : Core) (f : Flags) : Core := { c with fp := { c.fp with fflags := c.fp.fflags ||| f } }

end Sys2Proof.Machine
end

