-- ==== Sys2Proof/Machine/Memory.lean ====
section
/-! DEFINITION. Memory: paths (R35 to R37), physical memory (R40 to R42), translation (R43 to R47), partitions (R50),
copies of remote lines and the promotion log (R55, R306 to R316), cluster banks and their granules (R79 to R93), the
fabric ports (R273 to R275) and the store buffer (R163). A byte of memory is named by one number: a physical address
below 2^52, or 2^52 + 2^23 × cluster + offset for scratch. -/
namespace Sys2Proof.Machine

/-! Bytes. -/

/-- The byte at a model address; an unlisted one reads zero (log 4). -/
def State.byte (s : State) (k : Nat) : Byte := sget 0 s.mem k

/-- n bytes from a model address. -/
def State.bytes (s : State) (k n : Nat) : List Byte := (List.range n).map fun i => s.byte (k + i)

/-- Write one byte. -/
def memPut (m : List Host.Cell) (k : Nat) (b : Byte) : List Host.Cell := sput (0 : Byte) m k b

/-- The form of memory: addresses strictly rising, no entry equal to what an unlisted address reads as. -/
abbrev Memory.wf (m : List Host.Cell) : Bool := scanon (0 : Byte) 0 m

/-- Write cells, in order. -/
def memPuts (m : List Host.Cell) (cs : List Host.Cell) : List Host.Cell := cs.foldl (fun m c => memPut m c.1 c.2) m

/-- The cells of bytes laid out from an address. -/
def cellsAt (k : Nat) : List Byte → List Host.Cell
  | [] => []
  | b :: bs => (k, b) :: cellsAt (k + 1) bs

/-- A 64-bit word of [k, k + n) is uncorrectable (R409). -/
def State.poisoned (s : State) (k n : Nat) : Bool := s.poison.any fun w => meets w 8 k n

/-- Write cells at their place: a full write of a poisoned word replaces it; a part of one is discarded with an error
response (R409). -/
def State.write (s : State) (cs : List Host.Cell) : State × Bool :=
  match s.poison.filter (fun w => cs.any fun c => c.1 / 8 * 8 = w) with
  | [] => ({ s with mem := memPuts s.mem cs }, false)
  | ps =>
    let full := ps.filter fun w => (List.range 8).all fun i => cs.any fun c => c.1 = w + i
    let bad := ps.filter fun w => !full.contains w
    ({ s with
        poison := s.poison.filter (fun w => !full.contains w)
        mem := memPuts s.mem (cs.filter fun c => !bad.contains (c.1 / 8 * 8)) }, decide (bad ≠ []))

/-! Places. -/

/-- A physical address in an HBM4 stack (R40). -/
def isHbm (pa : Nat) : Bool := decide (pa / 2 ^ 36 < 8 ∧ pa % 2 ^ 36 < 0xC00000000)

/-- A physical address in fabric space (R40). -/
def isFabric (pa : Nat) : Bool := decide (2 ^ 51 ≤ pa ∧ pa < 2 ^ 52)

/-- The endpoint of a fabric address (R40, R397). -/
def endptOf (pa : Nat) : Nat := fld pa 43 8

/-- The die whose stack holds a physical address: its home (R54). -/
def homeDie (pa : Nat) : Nat := pa / 2 ^ 36

/-- The address a fabric address of this package's own endpoint reaches (R397). -/
def State.phys (s : State) (pa : Nat) : Nat :=
  if isFabric pa ∧ endptOf pa = s.fabric.endpt ∧ fld pa 0 43 < 0x8000000000 then fld pa 0 43 else pa

/-- A physical address lies in a region, and in fabric space its endpoint is routed and maps the offset (R40, R397,
R398). -/
def State.regionOk (s : State) (pa : Nat) : Bool :=
  if isFabric pa then
    (sget none s.fabric.route (endptOf pa)).isSome &&
      (decide (endptOf pa ≠ s.fabric.endpt) || isHbm (s.phys pa))
  else isHbm pa

/-- The error code of a read of n bytes at a physical address: 1 outside every region, 2 in a poisoned word (R40,
R409). -/
def State.physErr (s : State) (pa n : Nat) : Option Nat :=
  if !s.regionOk pa then some 1 else if s.poisoned (s.phys pa) n then some 2 else none

/-- The model address of scratch (R36). -/
def scratchKey (clu off : Nat) : Nat := 2 ^ 52 + 2 ^ 23 * clu + off

/-- A model address of scratch, its cluster, its offset and its bank. -/
def isScratch (k : Nat) : Bool := decide (2 ^ 52 ≤ k ∧ k < 2 ^ 53)
def scrCl (k : Nat) : Nat := (k - 2 ^ 52) / 2 ^ 23
def scrOff (k : Nat) : Nat := k % 2 ^ 23
def bankNo (off : Nat) : Nat := off / 0x40000

/-- The model address of scratch of logical cluster n of a launch, where it lies on another package: what stands there is
no part of this package's state, and what an access there gives is free (log 33). -/
def farKey (n off : Nat) : Nat := 2 ^ 53 + 2 ^ 23 * n + off
def isFar (k : Nat) : Bool := decide (2 ^ 53 ≤ k)

/-- n bytes that another package's cluster gives. -/
def State.farBytes (s : State) (n : Nat) : List Byte × State := let (k, s) := s.free; (bytesOf k n, s)

/-- The bytes a leaf maps: 1 GiB, 2 MiB, 64 KiB or 4 KiB (R43, R44). -/
def leafSize (pte : Word) (level : Nat) : Nat :=
  if level = 3 ∧ pte.bit 7 then 2 ^ 16 else 2 ^ (12 + 9 * (3 - level))

/-- The physical address a leaf gives (R43, R44). -/
def leafPa (pte : Word) (level va : Nat) : Nat :=
  let n := leafSize pte level
  put (pte.bits 12 40) 12 40 / n * n + va % n

/-- The physical line that a line of the ways holds. -/
def WayLine.phys (l : WayLine) : Nat := leafPa l.pte l.level (64 * l.line) / 64

/-! Copies of lines homed on other dies (R55, R307, R310, R315). -/

/-- A die's copy of a line. -/
def State.copyOf (s : State) (d line : Nat) : Option L2Line := (s.dieAt d).l2.find? (·.line = line)

/-- Drop a die's copy of a line. -/
def State.dropCopy (s : State) (d line : Nat) : State :=
  s.updDie d fun x => { x with l2 := x.l2.filter (·.line ≠ line) }

/-- Replace a die's copy of a line. -/
def State.setCopy (s : State) (d : Nat) (l : L2Line) : State :=
  s.updDie d fun x => { x with l2 := x.l2.filter (·.line ≠ l.line) ++ [l] }

/-- The home acknowledges a write-back: its dirty bytes are written, with the line's other bytes or without them (R257).
What falls in part into a poisoned word is discarded, and the line's address logged for firmware, since a write-back names no
VF (R408, R409). -/
def State.applyWb (s : State) (w : WBack) : State :=
  let (all, s) :=
    if (w.clean.all fun c => s.byte c.1 = c.2) ∧ !s.poisoned (64 * w.line) 64 then (false, s) else s.choose false true
  let (s, bad) := s.write (if all then w.cells ++ w.clean else w.cells)
  if bad then s.logAt w.die 16 0xFFFF (word (64 * w.line)) 2 else s

/-- Wait for the acknowledgement of every write-back that f holds of. -/
def State.ackWb (s : State) (f : WBack → Bool) : State :=
  (s.wbacks.filter f).foldl State.applyWb { s with wbacks := s.wbacks.filter fun w => !f w }

/-- Send a die's dirty copy of a line home; the copy stays, clean (R307, R315). -/
def State.writeBack (s : State) (d line : Nat) : State :=
  match s.copyOf d line with
  | none => s
  | some l =>
    if l.dirty.all (!·) then s
    else
      let cells := cellsAt (64 * line) l.bytes
      let split := cells.zip l.dirty
      let w : WBack := ⟨d, line, (split.filter (·.2)).map (·.1), (split.filter (!·.2)).map (·.1)⟩
      let s := s.setCopy d { l with dirty := List.replicate 64 false }
      { s with wbacks := s.wbacks ++ [w] }

/-- Write a die's copy of a line home and wait until the home has it. -/
def State.writeHome (s : State) (d line : Nat) : State :=
  (s.writeBack d line).ackWb fun w => w.die = d ∧ w.line = line

/-- Drop the lines of the ways of a die's clusters that f holds of, after a dirty copy of each has been written back to its
home (R49, R82, R258). -/
def State.dropLines (s : State) (d : Nat) (f : Nat → WayLine → Bool) : State :=
  (s.clusters.filter fun k => decide (k.1 / 64 = d) && k.2.ways.any (f k.1)).foldl (fun s k =>
    let s := ((s.clAt k.1).ways.filter (f k.1)).foldl (fun s l =>
      if homeDie (64 * l.phys) = d then s else s.writeHome d l.phys) s
    s.updCl k.1 fun c => { c with ways := c.ways.filter fun l => !f k.1 l }) s

/-! Banks (R79 to R84). -/

/-- A bank of a cluster. -/
def State.bank (s : State) (clu b : Nat) : Bank := sget {} (s.clAt clu).banks b

/-- Update a bank. -/
def State.updBank (s : State) (clu b : Nat) (f : Bank → Bank) : State :=
  s.updCl clu fun c => { c with banks := supd {} c.banks b f }

/-- The granules of a bank, empty (R82). -/
def emptyBank (b : Nat) (m : Sparse Bool) : Sparse Bool :=
  m.filter fun e => ¬ (b * 0x4000 ≤ e.1 ∧ e.1 < (b + 1) * 0x4000)

/-- The model addresses a waiting full-empty instruction of a core awaits lie in a bank (R82); a take or pop that has been
served awaits nothing there (R91). -/
def State.waitsOn (s : State) (loc clu b : Nat) : Bool :=
  match (s.coreAt loc).wait with
  | some w =>
    let held := (s.bank clu b).deferred.any fun e => e.core = loc
    let mine := if w.addr.bits 60 4 = 1 then some (s.clOf loc)
      else s.clOfLogical (s.coreAt loc).dom.launch (w.addr.bits 40 8)
    (decide (w.kind = .ldSync ∨ w.kind = .feWait ∨ w.kind = .macc) ||
        decide (w.kind = .take ∨ w.kind = .fpop) && held) &&
      decide (mine = some clu) && meets (w.addr.bits 0 23) (Nat.max 1 w.len) (b * 0x40000) 0x40000
  | none => false

/-- The address that the `macc` of a core's trip awaits in a bank of its cluster, with the trip's window (R82, R247). -/
def State.tripOn (s : State) (loc clu b : Nat) : Option (Nat × Word) :=
  match (s.coreAt loc).eng.trip with
  | some t => (t.awaits.filter fun a =>
      decide (s.clOf loc = clu) && meets (a.1.bits 0 23) (Nat.max 1 a.2) (b * 0x40000) 0x40000).map fun a => (t.widx, a.1)
  | none => none

/-- A core that waits on a bank, or whose trip does, receives an error response (R82 step 2, R92, R226). -/
def State.failWaiter (s : State) (clu b loc : Nat) : State :=
  let c := s.coreAt loc
  let s :=
    if s.waitsOn loc clu b then
      let a := (c.wait.map (·.addr)).getD 0
      (s.logAt (dieOf loc) c.vf (s.vcoreOf loc) a 3).updCoreAt loc fun c => { c with feErr := some a }
    else s
  match s.tripOn loc clu b with
  | some (win, a) => (s.logAt (dieOf loc) c.vf (s.vcoreOf loc) a 3).updCoreAt loc fun c =>
      { c with eng := { c.eng with raised := c.eng.raised ++ [(win, 15, a)] } }
  | none => s

/-- Every core that waits on a bank receives an error response (R82 step 2, R92). -/
def State.failWaiters (s : State) (clu b : Nat) : State :=
  ((s.focus :: s.others.map (·.1)).foldl (fun s loc => s.failWaiter clu b loc) s).updBank clu b fun k =>
    { k with deferred := [] }

/-- Begin the next queued switch of an idle bank (R82 steps 1 and 2, R83). -/
def State.bankBegin (s : State) (clu b : Nat) : State :=
  let k := s.bank clu b
  match k.switching, k.queue with
  | none, r :: rs => (s.failWaiters clu b).updBank clu b fun k => { k with switching := some r, queue := rs }
  | _, _ => s

/-- End the switch a bank is in (R82 steps 3 to 5). -/
def State.bankEnd (s : State) (clu b : Nat) : State :=
  match (s.bank clu b).switching with
  | none => s
  | some r =>
    let lo := scratchKey clu (b * 0x40000)
    let left := decide ((s.bank clu b).role = .scratch)
    let s := { s with
      switches := s.switches + 1
      mem := s.mem.filter fun c => ¬ (lo ≤ c.1 ∧ c.1 < lo + 0x40000)
      poison := s.poison.filter fun w => ¬ (lo ≤ w ∧ w < lo + 0x40000) }
    let s := (s.dropLines (clu / 64) fun k l => decide (k = clu ∧ l.bank = b))
    (s.updCl clu fun c => { c with full := emptyBank b c.full }).updBank clu b fun k =>
      { k with role := r, switching := none, fifo := [], left := if left then s.switches else k.left }

/-- Wait for the switch a bank is in, or is owed, to end (R37). -/
def State.settleBank (s : State) (clu b : Nat) : State :=
  let k := s.bank clu b
  if k.switching = none ∧ k.queue = [] then s else (s.bankBegin clu b).bankEnd clu b

/-! Granules and deferred takes (R85 to R93). -/

/-- A granule is full. -/
def State.isFull (s : State) (clu g : Nat) : Bool := sget false (s.clAt clu).full g

/-- Set a granule's bit without waking anyone. -/
def State.setGran (s : State) (clu g : Nat) (b : Bool) : State :=
  s.updCl clu fun c => { c with full := sput false c.full g b }

/-- Remove the first deferred entry that f holds of. -/
def takeFirst {α : Type} (f : α → Bool) : List α → Option (α × List α)
  | [] => none
  | x :: xs => if f x then some (x, xs) else (takeFirst f xs).map fun p => (p.1, x :: p.2)

/-- Land a value in an absolute slot of a core (R132), over whatever older is pending for it (R133). -/
def State.landAt (s : State) (loc : Nat) (slot : Option Nat) (v : Word) : State :=
  match slot with
  | some n => s.updCoreAt loc fun c => (c.supersede 0 [n]).setSlot n v
  | none => s

/-- A granule becomes full: the oldest deferred take of it is served in the same step (R85, R91). One that would read
an uncorrectable word receives an error response, and the granule stays full (R92, R409). -/
def State.fillGran (s : State) (clu g : Nat) : State :=
  let b := bankNo (16 * g)
  match takeFirst (fun d => d.off / 16 = g) (s.bank clu b).deferred with
  | some (d, rest) =>
    let s := s.updBank clu b fun k => { k with deferred := rest }
    let k := scratchKey clu d.off
    if s.poisoned k 8 then
      let c := s.coreAt d.core
      let a := (c.wait.map (·.addr)).getD 0
      let s := s.logAt (dieOf d.core) c.vf (s.vcoreOf d.core) a 2
      (s.updCoreAt d.core fun c => { c with feErr := some a }).setGran clu g true
    else (s.landAt d.core d.slot (word (natOf (s.bytes k 8)))).setGran clu g false
  | none => s.setGran clu g true

/-- Set full every granule that n bytes at an offset touch, in ascending order. -/
def State.fillRange (s : State) (clu off n : Nat) : State :=
  if n = 0 then s
  else (List.range ((off + n - 1) / 16 - off / 16 + 1)).foldl (fun s i => s.fillGran clu (off / 16 + i)) s

/-- A model address lies in a bank that is scratchpad. -/
def State.scrOk (s : State) (k : Nat) : Bool :=
  isScratch k && decide ((s.bank (scrCl k) (bankNo (scrOff k))).role = .scratch)

/-- The error code of a read of scratch: 1 where the bank is not scratchpad, 2 uncorrectable (R37, R409). -/
def State.scrErr (s : State) (k n : Nat) : Option Nat :=
  if !s.scrOk k then some 1 else if s.poisoned k n then some 2 else none

/-! Translation (R43 to R47). -/

/-- Whose translation: the die that translates, the VF, the ASID, the mode and the issuer's virtual core; `own` marks an
access of the issuing core itself, as opposed to an engine's. -/
structure Who where
  die : Nat
  vf : Nat
  asid : Nat
  sup : Bool
  vcore : Nat
  own : Bool := false
deriving DecidableEq, Repr

/-- The issuing core (R46). -/
def State.who (s : State) : Who :=
  { die := s.die, vf := s.core.vf, asid := s.core.asid, sup := s.core.sup, vcore := s.vcore, own := true }

/-- Log an address for an access (R408). -/
def State.logWho (s : State) (w : Who) (a : Word) (code : Nat) : State := s.logAt w.die w.vf w.vcore a code

/-- What an access needs of a translation (R43, R264). -/
inductive Access where
  | load | store | atomic | red | fetch
deriving DecidableEq, Repr

/-- The permission bits of an entry allow the access (R43, R45). -/
def Access.permitted (a : Access) (pte : Word) (sup : Bool) : Bool :=
  (sup || pte.bit 3) && match a with
    | .load => pte.bit 2
    | .store => pte.bit 4
    | .red => pte.bit 4
    | .atomic => pte.bit 2 && pte.bit 4
    | .fetch => pte.bit 5

/-- Why a walk fails: an address to log with its code, or nothing to log (R45). -/
abbrev WalkErr := Option (Word × Nat)

/-- Read a double of an ASID table or a page table (R45, R47). -/
def State.tableRead (s : State) (pa : Nat) : Except WalkErr Word :=
  match s.physErr pa 8 with
  | some c => .error (some (word pa, c))
  | none => .ok (word (natOf (s.bytes (s.phys pa) 8)))

/-- A page-table entry obeys R43 and R44 at its level. -/
def pteOk (pte : Word) (level : Nat) : Bool :=
  pte.bit 0 && decide (pte.bits 60 4 = 0 ∧ pte.bits 8 4 = 0) &&
    (if level = 0 then !pte.bit 1 else if level = 3 then pte.bit 1 else true) &&
    (!pte.bit 1 || decide (level = 3) || decide (put (pte.bits 12 40) 12 40 % leafSize pte level = 0))

/-- Walk from a table at a level (R43). -/
def State.walkFrom (s : State) (va : Nat) : Nat → Nat → Nat → Except WalkErr (Word × Nat)
  | 0, _, _ => .error none
  | n + 1, level, table =>
    match s.tableRead (table + 8 * fld va (39 - 9 * level) 9) with
    | .error e => .error e
    | .ok pte =>
      if !pteOk pte level then .error none
      else if pte.bit 1 then .ok (pte, level)
      else s.walkFrom va n (level + 1) (pte.bits 12 40 * 4096)

/-- The walk of a virtual address under an ASID (R43, R45, R47). -/
def State.walk (s : State) (w : Who) (va : Nat) : Except WalkErr (Word × Nat) :=
  let root := sget 0 (s.dieAt w.die).troot w.vf
  if !root.bit 0 then .error none
  else
    match s.tableRead (root.bits 12 40 * 4096 + 8 * w.asid) with
    | .error e => .error e
    | .ok e =>
      if !e.bit 0 ∨ e.bits 1 11 ≠ 0 ∨ e.bits 52 12 ≠ 0 then .error none
      else s.walkFrom va 4 0 (e.bits 12 40 * 4096)

/-- The entries of a 64 KiB page from which its translation may be taken, where they disagree (R44). The table's
address is found by a second walk of the levels above. -/
def State.walkTable (s : State) (va : Nat) : Nat → Nat → Nat → Option Nat
  | 0, _, table => some table
  | n + 1, level, table =>
    match s.tableRead (table + 8 * fld va (39 - 9 * level) 9) with
    | .error _ => none
    | .ok pte => s.walkTable va n (level + 1) (pte.bits 12 40 * 4096)

/-- The sixteen entries of the 64 KiB page of an address. -/
def State.contiguous (s : State) (w : Who) (va : Nat) : List Word :=
  let root := sget 0 (s.dieAt w.die).troot w.vf
  match s.tableRead (root.bits 12 40 * 4096 + 8 * w.asid) with
  | .error _ => []
  | .ok e =>
    match s.walkTable va 3 0 (e.bits 12 40 * 4096) with
    | none => []
    | some t => (List.range 16).map fun i =>
        match s.tableRead (t + 8 * (fld va 16 5 * 16 + i)) with
        | .ok p => p
        | .error _ => 0

/-- An entry of a 64 KiB page as it translates the whole page: the low four bits of its PPN cleared (R44). -/
def wholePage (p : Word) : Word := p &&& ~~~0xF000#64

/-- Whether the sixteen entries of a 64 KiB page agree (R44). -/
def agree (ps : List Word) : Bool :=
  ps.zipIdx.all fun e => decide (e.1.bits 12 4 = e.2 ∧ wholePage e.1 = wholePage ((ps[0]?).getD 0))

/-- The result of the walk, with the free choice of R44. -/
def State.walkChoice (s : State) (w : Who) (va : Nat) : Except WalkErr (Word × Nat) × State :=
  match s.walk w va with
  | .error e => (.error e, s)
  | .ok (pte, level) =>
    if level = 3 ∧ pte.bit 7 then
      let ps := s.contiguous w va
      if agree ps then (.ok (pte, level), s)
      else
        let (p, s) := s.pick pte ps
        (if pteOk p 3 then .ok (p ||| 0x80#64, 3) else .error none, s)
    else (.ok (pte, level), s)

/-- A TLB entry translates the address for the ASID (R43, R47). -/
def TlbEntry.hits (e : TlbEntry) (w : Who) (va : Nat) : Bool :=
  decide (e.vf = w.vf) && (decide (e.asid = w.asid) || e.pte.bit 6) &&
    decide (e.vpn * 4096 / leafSize e.pte e.level = va / leafSize e.pte e.level)

/-- Keep a translation in the die's TLB of 16,384 entries (R47). -/
def State.tlbFill (s : State) (w : Who) (va : Nat) (pte : Word) (level : Nat) : State :=
  let e : TlbEntry := { vf := w.vf, asid := w.asid, vpn := va / 4096, pte, level }
  s.updDie w.die fun d =>
    let kept := d.tlb.filter fun e => !TlbEntry.hits e w va
    { d with tlb := (kept ++ [e]).drop (kept.length - 16383) }

/-- The interleave group that holds a physical address is owned by the VF (R41, R45, R50). -/
def State.groupOwned (s : State) (vf pa : Nat) : Bool :=
  if !isHbm pa then true
  else
    let d := s.dieAt (homeDie pa)
    let c := pa % 2 ^ 36 / 0x30000000
    let g := 2 ^ sget 6 d.groupL c
    let own := (sget {} d.own vf).pchan
    (List.range g).all fun i => own.getLsbD (c / g * g + i)

/-- Translate an effective address of a translated path (R45, R47): the physical address, or none for XLATE, with what
the die error log records. A TLB entry may be used or walked anew (R49): the choice is free where the two differ. An
access of the issuing core that no entry serves counts a TLB miss (event 13, R381). -/
def State.translate (s : State) (w : Who) (a : Access) (ea : Word) : Option Nat × State :=
  let path := ea.bits 60 4
  let va := ea.bits 0 48
  if ea.bits 48 9 ≠ 0 ∨ !(sget 0 (s.dieAt w.die).troot w.vf).bit 0 then (none, s)
  else
    let (r, s) := s.walkChoice w va
    let old := (s.dieAt w.die).tlb.find? (·.hits w va)
    let (r, s, used) : Except WalkErr (Word × Nat) × State × Bool :=
      match old with
      | none => (r, s, false)
      | some e =>
        match r with
        | .ok p =>
          let (q, s) := s.choose (e.pte, e.level) p
          (.ok q, s, decide (q = (e.pte, e.level)))
        | .error x =>
          let (b, s) := s.choose true false
          (if b then .ok (e.pte, e.level) else .error x, s, b)
    let s := if used ∨ !w.own then s else s.count 13 1
    match r with
    | .error (some (x, c)) => (none, s.logWho w x c)
    | .error none => (none, s)
    | .ok (pte, level) =>
      let s := if used then s else s.tlbFill w va pte level
      let pa := leafPa pte level va
      if !a.permitted pte w.sup then (none, s)
      else if (path = 5) ≠ isFabric pa then (none, s)
      else if !s.groupOwned w.vf pa then (none, s.logWho w ea 1)
      else (some pa, s)

/-! Paths (R35 to R37). -/

/-- The OFFSET bits R36 lists for a path, as a mask. -/
def pathMask (path : Nat) : Nat :=
  match path with
  | 0 | 3 | 4 | 5 => 2 ^ 48 - 1
  | 1 => 2 ^ 23 - 1
  | 2 => 2 ^ 48 - 2 ^ 40 + (2 ^ 23 - 1)
  | 8 => 2 ^ 48 - 2 ^ 32 + (2 ^ 17 - 1)
  | 9 => 2 ^ 28 - 1
  | _ => 0

/-- An effective address of an assigned path, with every bit that must be zero zero (R35, R36). -/
def pathForm (ea : Word) : Bool :=
  let p := ea.bits 60 4
  decide (p ≤ 5 ∨ p = 8 ∨ p = 9) && decide (ea.toNat % 2 ^ 60 &&& pathMask p = ea.toNat % 2 ^ 60)

/-- Wait for a switch of the path-1 bank an address names (R37). -/
def State.settlePath1 (s : State) (ea : Word) : State :=
  if ea.bits 60 4 = 1 ∧ ea.bits 0 23 < 0x600000 then s.settleBank s.cl (bankNo (ea.bits 0 23)) else s

/-- The plain access does not raise PATH (R37). -/
def State.pathOk (s : State) (a : Access) (ea : Word) : Bool :=
  let p := ea.bits 60 4
  let off := ea.bits 0 23
  pathForm ea && !(decide (p = 8 ∨ p = 9) && !s.core.sup) && !(decide (p = 3) && decide (a ≠ .load)) &&
    !(decide (p = 1 ∨ p = 2) && decide (0x600000 ≤ off)) &&
    (decide (p ≠ 1) || decide ((s.bank s.cl (bankNo off)).role = .scratch)) &&
    (decide (p ≠ 2) || decide (ea.bits 40 8 < s.core.dom.ncl))

/-- The model address of a scratch address of the issuing core (R36). -/
def State.scratchOf (s : State) (ea : Word) : Nat :=
  if ea.bits 60 4 = 1 then scratchKey s.cl (ea.bits 0 23)
  else
    match s.clOfLogical s.core.dom.launch (ea.bits 40 8) with
    | some k => scratchKey k (ea.bits 0 23)
    | none => farKey (ea.bits 40 8) (ea.bits 0 23)

/-! The cache ways of a cluster (R47, R48, R80). -/

/-- A line of the ways is tagged with an address (R47). -/
def WayLine.hits (l : WayLine) (w : Who) (va : Nat) : Bool :=
  decide (l.vf = w.vf ∧ l.line = va / 64) && (decide (l.asid = w.asid) || l.pte.bit 6)

/-- The banks of a cluster in the cache role: its ways (R80). -/
def State.cacheBanks (s : State) (clu : Nat) : List Nat :=
  (List.range 24).filter fun b => (s.bank clu b).role = .cache

/-- Wait for the switches of a cluster's ways: an access that may touch a bank in the cache role waits until its switch has
ended (R37, R82 step 1). -/
def State.settleWays (s : State) (clu : Nat) : State := (s.cacheBanks clu).foldl (fun s b => s.settleBank clu b) s

/-- A cluster's ways without the least recently used line of a set, where every bank in the cache role holds a line of the
set: the lines, and the bank that takes a new one (R80). -/
def State.wayFor (s : State) (clu set : Nat) (ls : List WayLine) : Option (Nat × List WayLine) :=
  let mine := ls.filter fun l => l.line % 4096 = set
  match (s.cacheBanks clu).filter (fun b => !(mine.map (·.bank)).contains b), mine with
  | b :: _, _ => some (b, ls)
  | [], l :: _ => some (l.bank, ls.filter (· ≠ l))
  | [], [] => none

/-- Fill a line of a cluster's ways with the translation the die's TLB holds for it, as a path-3 line or as a path-0 line.
A copy of the physical line under another address is dropped first (R48). -/
def State.wayFill (s : State) (clu : Nat) (w : Who) (va : Nat) (ro : Bool) : State :=
  match (s.dieAt w.die).tlb.find? (·.hits w va) with
  | none => s
  | some e =>
    let l : WayLine := { bank := 0, vf := w.vf, asid := w.asid, line := va / 64, pte := e.pte, level := e.level
                         ro := if ro then some {} else none }
    match s.wayFor clu (l.line % 4096) ((s.clAt clu).ways.filter fun k => k.phys ≠ l.phys) with
    | none => s
    | some (b, ls) => s.updCl clu fun c => { c with ways := ls ++ [{ l with bank := b }] }

/-- Translate an access of the issuing core: on paths 0 and 3 a line of its cluster's ways that holds the address needs no
translation, and a miss (event 12, R381) is translated and fills a line (R47, R80). A path-3 line serves no path-0 access
(R56). -/
def State.wayTranslate (s : State) (a : Access) (ea : Word) : Option Nat × State :=
  let p := ea.bits 60 4
  let va := ea.bits 0 48
  let s := if p = 0 ∨ p = 3 then s.settleWays s.cl else s
  if ¬ (p = 0 ∨ p = 3) ∨ s.cacheBanks s.cl = [] ∨ ea.bits 48 9 ≠ 0 ∨ !(sget 0 (s.dieAt s.die).troot s.core.vf).bit 0 then
    s.translate s.who a ea
  else
    match (s.clAt s.cl).ways.find? fun l => l.hits s.who va && (l.ro.isNone || decide (p = 3)) with
    | some l =>
      if !a.permitted l.pte s.core.sup then (none, s)
      else (some (leafPa l.pte l.level va), s.updCl s.cl fun c => { c with ways := c.ways.filter (· ≠ l) ++ [l] })
    | none =>
      match (s.count 12 1).translate s.who a ea with
      | (some pa, s) => (some pa, s.wayFill s.cl s.who va (decide (p = 3)))
      | r => r

/-- The checks of a memory access in the order of R38: the cause of the trap, or the model address. -/
def State.locate (s : State) (a : Access) (ea : Word) (align : Nat) : Except Nat Nat × State :=
  let s := s.settlePath1 ea
  let p := ea.bits 60 4
  if !s.pathOk a ea then (.error 9, s)
  else if ea.toNat % align ≠ 0 then (.error 6, s)
  else if p = 1 ∨ p = 2 then (.ok (s.scratchOf ea), s)
  else if p = 8 ∨ p = 9 then (.ok 0, s)
  else
    match s.wayTranslate a ea with
    | (some pa, s) => (.ok pa, s)
    | (none, s) => (.error 8, s)

/-! The use of copies (R307, R310, R315). -/

/-- The slice of a die's L2, of 32, and the set of it, of 2,048, that a line is hashed to (R10, R14). -/
def l2Place (line : Nat) : Nat × Nat := (Config.l2Slice line % 32, Config.l2Set line % 2048)

/-- The home slice of a line of the die's own memory (R50): one of those that its interleave group is bound to, over which
the group's lines are hashed; one of all where the group is bound to none. -/
def State.homePlace (s : State) (line : Nat) : Nat × Nat :=
  let x := s.dieAt (homeDie (64 * line))
  let c := 64 * line % 2 ^ 36 / 0x30000000
  let g := 2 ^ sget 6 x.groupL c
  let m := sget (BitVec.allOnes 32) x.slices (c / g * g)
  let bound := (List.range 32).filter fun k => m.getLsbD k
  ((bound[Config.l2Slice line % bound.length]?).getD (Config.l2Slice line % 32), Config.l2Set line % 2048)

/-- The way of a set of a slice that takes a line a VF brings into a die's L2: one that the VF's mask sets (R50), free if one
is; else the line in one of those ways is evicted (R307). None where the mask is zero. -/
def State.l2Way (s : State) (vf d : Nat) (p : Nat × Nat) : Option Nat × State :=
  let mask := sget 0 (s.dieAt d).ways (32 * vf + p.1)
  let mine := (s.dieAt d).l2.filter fun l => l2Place l.line = p
  let homes := (s.dieAt d).homeL2.filter fun l => s.homePlace l.line = p
  let ws := (List.range 16).filter fun w => mask.getLsbD w
  match ws.filter (fun w => !(mine.map (·.way) ++ homes.map (·.way)).contains w), ws with
  | w :: _, _ => (some w, s)
  | [], [] => (none, s)
  | [], w :: ws =>
    let (w, s) := s.pick w (w :: ws)
    match mine.find? (·.way = w) with
    | some l => (some w, (s.writeBack d l.line).dropCopy d l.line)
    | none => (some w, s.updDie d fun x => { x with homeL2 := x.homeL2.filter fun l => ¬ (homes.contains l ∧ l.way = w) })

/-- Whatever slice and set of a die a line goes to, a way that the VF may use is free there: the die's L2 holds no copy, and
fewer lines of its own memory than the VF has ways in any slice. -/
def State.roomy (s : State) (vf d : Nat) : Bool :=
  let x := s.dieAt d
  x.l2.isEmpty && (List.range 32).all fun k =>
    decide (x.homeL2.length < ((List.range 16).filter (sget 0 x.ways (32 * vf + k)).getLsbD).length)

/-- An access of a VF to a line of the die's own memory brings it into its home slice (R50). -/
def State.homeTouch (s : State) (vf d line : Nat) : State :=
  if (s.dieAt d).homeL2.any (·.line = line) then s
  else if s.roomy vf d then
    let p := s.homePlace line
    s.updDie d fun x => { x with homeL2 := x.homeL2 ++ [⟨line, p.1, (s.l2Way vf d p).1.getD 0⟩] }
  else
    match s.l2Way vf d (s.homePlace line) with
    | (none, s) => s
    | (some way, s) => s.updDie d fun x => { x with homeL2 := x.homeL2 ++ [⟨line, (s.homePlace line).1, way⟩] }

/-- Fill a copy of a line from its home, with its fill tick (R310): none where a word of the line is poisoned, or where the
VF may bring no line into the slice. -/
def State.fillCopy (s : State) (vf d line : Nat) : Option L2Line × State :=
  let s := s.ackWb fun w => w.die = d ∧ w.line = line
  if s.poisoned (64 * line) 64 then (none, s)
  else
    match s.l2Way vf d (l2Place line) with
    | (none, s) => (none, s)
    | (some way, s) =>
      let l : L2Line := { line, slice := (l2Place line).1, way, bytes := s.bytes (64 * line) 64
                          dirty := List.replicate 64 false, tick := s.time }
      (some l, s.setCopy d l)

/-- A copy filled at a tick is fresh for a freshness floor F (R310). A fill in the tick of the acquire that raised F may have
come before it, and does not count: no copy older than an acquire serves a load after it (R413, R414, log 7). -/
def fresh (floor tick : Nat) : Bool := decide (floor = 0 ∨ floor < tick)

/-- The copy of a line that an access with freshness floor F may use (R310): one that is not fresh is written home if
dirty and filled again. None where the die holds none; the access is then performed at the home. -/
def State.useCopy (s : State) (vf d line floor : Nat) : Option L2Line × State :=
  match s.copyOf d line with
  | some l => if fresh floor l.tick then (some l, s) else ((s.writeHome d line).dropCopy d line).fillCopy vf d line
  | none => s.fillCopy vf d line

/-- Read n bytes within a line as the agents of die d see them (path 0); vf brings the line into the die's L2. -/
def State.dieRead (s : State) (vf d pa n floor : Nat) : Except Nat (List Byte) × State :=
  let here := fun (s : State) => match s.physErr pa n with
    | some c => .error c
    | none => .ok (s.bytes pa n)
  if !isHbm pa then (here s, s)
  else if homeDie pa = d then let s := s.homeTouch vf d (pa / 64); (here s, s)
  else
    match s.useCopy vf d (pa / 64) floor with
    | (some l, s) => (.ok ((l.bytes.drop (pa % 64)).take n), s)
    | (none, s) => (here s, s)

/-- A line number joins a core's promotion log; where 32 entries stand in it, the oldest is drained at once (R315,
R316). -/
def State.drainEntry (s : State) (loc line : Nat) : State :=
  let s := s.writeHome (dieOf loc) line
  s.updCoreAt loc fun c =>
    ({ c with m := { c.m with plog := c.m.plog.filter (·.1 ≠ line) } }).count none 14 1

/-- Drain the entries of a core's promotion log that f holds of (R315). -/
def State.drainLog (s : State) (loc : Nat) (f : BitVec 32 → Bool) : State :=
  ((s.coreAt loc).m.plog.filter fun e => f e.2).foldl (fun s e => s.drainEntry loc e.1) s

/-- A store, atomic result or reduction of a core was performed at its die's copy of a line (R315, R316). -/
def State.logLine (s : State) (loc line : Nat) : State :=
  let m := (s.coreAt loc).m
  if m.plog.any (·.1 = line) then s
  else
    let s := match m.plog with
      | e :: _ => if 32 ≤ m.plog.length then s.drainEntry loc e.1 else s
      | [] => s
    s.updCoreAt loc fun c =>
      { c with m := { c.m with lsn := c.m.lsn + 1, plog := c.m.plog ++ [(line, c.m.lsn + 1)] } }

/-- Replace bytes of a copy. -/
def patch (l : L2Line) (cs : List Host.Cell) (dirty : Bool) : L2Line :=
  cs.foldl (fun l c =>
    let i := c.1 % 64
    if c.1 / 64 = l.line then { l with bytes := l.bytes.set i c.2, dirty := l.dirty.set i dirty } else l) l

/-- Write cells of one line at their home as an agent of die d (R306, R307): a write-back of the line by the die that is
under way goes first, and the die's copy of the line follows, since the write has its place in the die's order. The answer
says whether an error response came. -/
def State.homePut (s : State) (d : Nat) (cs : List Host.Cell) : State × Bool :=
  let line := (cs.head?.map (·.1)).getD 0 / 64
  let (s, e) := (s.ackWb fun w => w.die = d ∧ w.line = line).write cs
  match s.copyOf d line with
  | some l => (s.setCopy d (patch l (cs.filter fun c => !s.poison.contains (c.1 / 8 * 8)) false), e)
  | none => (s, e)

/-- Write bytes of one line as an agent of die d on path 0 (R306): at the line's home, or at the die's copy. The answer
is the code of an error response. -/
def State.dieWrite (s : State) (vf loc : Nat) (pa : Nat) (cs : List Host.Cell) : State × Option Nat :=
  let d := dieOf loc
  let here := fun (s : State) =>
    let (s, e) := s.write cs
    (s, if e then some 2 else none)
  if !isHbm pa then (s, some 1)
  else if homeDie pa = d then here (s.homeTouch vf d (pa / 64))
  else
    match s.useCopy vf d (pa / 64) 0 with
    | (some l, s) => ((s.setCopy d (patch l cs true)).logLine loc (pa / 64), none)
    | (none, s) => here s

/-- Write bytes at their home on path 4 (R307). -/
def State.homeWrite (s : State) (loc : Nat) (pa : Nat) (cs : List Host.Cell) : State × Option Nat :=
  if !isHbm pa then (s, some 1)
  else
    let (s, e) := s.homePut (dieOf loc) cs
    (s, if e then some 2 else none)

/-- Read n bytes at their home (R309). -/
def State.homeBytes (s : State) (pa n : Nat) : Except Nat (List Byte) :=
  match s.physErr pa n with
  | some c => .error c
  | none => .ok (s.bytes (s.phys pa) n)

/-- A plain read on path 4 as die d: the home's bytes, once a write-back of the line by the die that is under way is
there, but for those the die's copy holds dirty (R306). -/
def State.homeRead (s : State) (d pa n : Nat) : Except Nat (List Byte) × State :=
  let s := s.ackWb fun w => w.die = d ∧ w.line = pa / 64
  match s.homeBytes pa n, s.copyOf d (pa / 64) with
  | .ok bs, some l => (.ok (bs.zipIdx.map fun b =>
      let i := (pa + b.2) % 64
      if (l.dirty[i]?).getD false then (l.bytes[i]?).getD b.1 else b.1), s)
  | r, _ => (r, s)

/-- The load of a dev- or sys-scope acquire, performed at the home after a dirty copy of the die has gone there
(R309). -/
def State.acqRead (s : State) (d pa n : Nat) : Except Nat (List Byte) × State :=
  let s := if homeDie pa = d then s else s.writeHome d (pa / 64)
  (s.homeBytes pa n, s)

/-- Before a dev- or sys-scope operation on a remote line: the die's copy goes home and is dropped, the ways of the die's
clusters drop the line, and the entries for it in the promotion logs of the die's cores are drained (R258, log 79). -/
def State.expel (s : State) (d line : Nat) : State :=
  let s := ((s.writeHome d line).dropCopy d line).dropLines d fun _ l => l.phys = line
  let off := fun (c : Core) => { c with m := { c.m with plog := c.m.plog.filter (·.1 ≠ line) } }
  ((s.focus :: s.others.map (·.1)).filter fun loc => dieOf loc = d).foldl (fun s loc => s.updCoreAt loc off) s

/-! Read-modify-write (R255, R260, R262). -/

/-- comb of R262 and R263 on n-byte patterns, as numbers. -/
def comb (rop old b : Nat) : Nat :=
  let w := if rop = 12 then 32 else if rop = 13 then 64 else if rop % 2 = 0 then 32 else 64
  let m := 2 ^ w
  match rop / 2 with
  | 0 => (old + b) % m
  | 1 => old % m &&& b % m
  | 2 => old % m ||| b % m
  | 3 => old % m ^^^ b % m
  | 4 => if sext old w ≤ sext b w then old % m else b % m
  | 5 => if sext old w ≤ sext b w then b % m else old % m
  | _ => (((if rop = 12 then Fmt.f32 else Fmt.f64).add 1 (old % m) (b % m)).1)

/-- The bytes a reduction covers (R262). -/
def ropSize (rop : Nat) : Nat := if rop = 12 then 4 else if rop = 13 then 8 else if rop % 2 = 0 then 4 else 8

/-! The fabric (R273 to R275, R313). -/

/-- The port that carries an endpoint's traffic (R398). -/
def State.portOf (s : State) (pa : Nat) : Nat := (sget none s.fabric.route (endptOf pa)).getD 0

/-- The endpoint of a fabric address outside the package refuses atomics and reductions (R267). -/
def State.refuses (s : State) (pa : Nat) : Bool :=
  isFabric pa && decide (endptOf pa ≠ s.fabric.endpt) && s.fabric.refuses.contains (endptOf pa)

/-- Apply a reduction at its home or endpoint (R262, R271); one on path 5 was routed when it reached its port (R398). A copy of the line that the issuing die has filled meanwhile
goes home and is dropped first, so that a later load of the core reads the home (R258, R270). -/
def State.applyRed (s : State) (r : RedFlight) : State :=
  let n := ropSize r.rop
  let k := s.phys r.key
  let fail := fun (c : Nat) => s.logAt (dieOf r.core) r.vf (s.vcoreOf r.core) r.ea c
  if s.refuses r.key then fail 10
  else if s.poisoned k n then fail 2
  else if r.path ≠ 5 ∧ (s.physErr r.key n).isSome then fail 1
  else
    let s := if r.path ≠ 5 ∧ homeDie k ≠ dieOf r.core then s.expel (dieOf r.core) (k / 64) else s
    let old := natOf (s.bytes k n)
    (s.write (cellsAt k (bytesOf (comb r.rop old r.b.toNat) n))).1

/-- Whether each reduction is applied where those that f holds of are: also those that reached a fabric port before one of
them for bytes they share (R273). -/
def redsToApply (f : RedFlight → Bool) : List RedFlight → List (RedFlight × Bool)
  | [] => []
  | r :: rs =>
    let qs := redsToApply f rs
    (r, f r || (decide (r.path = 5) && qs.any fun q => q.2 && decide (q.1.path = 5) &&
      meets r.key (ropSize r.rop) q.1.key (ropSize q.1.rop))) :: qs

/-- Apply every accepted reduction that f holds of, in order (R271), behind those that reached their port before it. -/
def State.applyReds (s : State) (f : RedFlight → Bool) : State :=
  let qs := redsToApply f s.reds
  ((qs.filter (·.2)).map (·.1)).foldl State.applyRed { s with reds := (qs.filter (!·.2)).map (·.1) }

/-- A core's own accepted reductions that overlap n bytes are applied before a later access of them (R270). -/
def State.settleReds (s : State) (loc k n : Nat) : State :=
  s.applyReds fun r => r.core = loc ∧ meets r.key (ropSize r.rop) k n

/-- Apply a path-5 store at its endpoint: an error response is logged (R162). -/
def State.applyFStore (s : State) (r : FStore) : State :=
  let (s, e) := s.write (r.cells.map fun c => (s.phys c.1, c.2))
  if e then s.logAt (dieOf r.core) r.vf (s.vcoreOf r.core) r.ea 2 else s

/-- Apply the path-5 stores that f holds of at their endpoints, in order (R313). -/
def State.applyFStores (s : State) (f : FStore → Bool) : State :=
  (s.fstores.filter f).foldl State.applyFStore { s with fstores := s.fstores.filter fun r => !f r }

/-! Requests beyond the cluster (R49, R390). -/

/-- The requests of a core that are outstanding beyond its cluster (R49): those of its loads, and its path-5 stores on their
way. What the model performs at once is outstanding at no step (log 78). -/
def State.requests (s : State) (loc : Nat) : Nat :=
  ((s.coreAt loc).pend.map (·.reqs)).sum + (s.fstores.filter (·.core = loc)).length

/-- One of a core's outstanding requests completes: a load's results land, or its oldest path-5 store is applied, behind those
that reached their ports before it (R273). Which kind it is is free. -/
def State.complete (s : State) (loc : Nat) : State :=
  let load := (s.coreAt loc).pend.find? fun p => p.reqs ≠ 0 ∧ p.kind = .flight
  let older := (s.fstores.takeWhile (·.core ≠ loc)).length
  let (store, s) :=
    if load.isNone then (true, s) else if older = s.fstores.length then (false, s) else s.choose false true
  match (if store then none else load) with
  | some p => s.updCoreAt loc (·.landIf (· = p))
  | none => (s.fstores.take (older + 1)).foldl State.applyFStore { s with fstores := s.fstores.drop (older + 1) }

/-- Wait until n more requests of a core may be outstanding, of 48 (R49): at most k complete. -/
def State.room (s : State) (loc n : Nat) : Nat → State
  | 0 => s
  | k + 1 => if s.requests loc + n ≤ 48 then s else (s.complete loc).room loc n k

/-- A request of the core leaves its cluster: every MPER-th is a memory sample, where they are on (R390). -/
def Core.sampleReq (pc : Word) (win : Nat) (c : Core) (ea : Word) : Core :=
  let n := c.obs.reqs + 1
  let mper := c.clk.samp.bits 40 16
  if !c.clk.samp.bit 1 ∨ mper = 0 then c
  else if n < mper then { c with obs := { c.obs with reqs := n } }
  else { c with obs := { c.obs with reqs := 0, sampled := c.obs.sampled ++ [(pc, ea, win)] } }

/-- Accesses of the issuing core to these addresses, by an instruction at a PC of a window, leave its cluster: they wait for
room (R49), and are counted for samples (R390). -/
def State.leave (s : State) (pc : Word) (win : Nat) (eas : List Word) : State :=
  if eas = [] then s
  else
    (s.room s.focus eas.length 48).updCore fun c => eas.foldl (Core.sampleReq pc win) c

/-- Of addresses that the issuing core is to access, those whose access leaves its cluster (R49): on paths 4 and 5, and on paths
0 and 3 where no line of the cluster's ways serves them. -/
def State.misses (s : State) (eas : List Word) : List Word :=
  eas.filter fun ea =>
    let p := ea.bits 60 4
    decide (p = 4 ∨ p = 5) || decide (p = 0 ∨ p = 3) &&
      (decide (s.cacheBanks s.cl = []) ||
        !((s.clAt s.cl).ways.any fun l => l.hits s.who (ea.bits 0 48) && (l.ro.isNone || decide (p = 3))))

/-- Send the combining entries that f holds of as reductions to their endpoints (R275). -/
def State.sendCombs (s : State) (f : Comb → Bool) : State :=
  let sent := s.ports.flatMap fun p => p.2.filter f
  let ports := s.ports.foldl (fun m p => sput [] m p.1 (p.2.filter fun c => !f c)) s.ports
  let asRed := fun (c : Comb) =>
    ({ core := c.core, vf := c.vf, path := 5, key := c.pa, ea := c.ea, rop := c.rop, b := c.val } : RedFlight)
  { s with ports, reds := s.reds ++ sent.map asRed }

/-- A path-5 access to n bytes reaches its port behind everything that overlaps it there (R273, R275 event 3). -/
def State.settleFabric (s : State) (pa n : Nat) : State :=
  let s := s.sendCombs fun c => meets c.pa (ropSize c.rop) pa n
  let s := s.applyFStores fun r => r.cells.any fun c => meets c.1 1 pa n
  s.applyReds fun r => r.path = 5 ∧ meets r.key (ropSize r.rop) pa n

/-- Credit n events of a shared unit to the core of VF vf whose instruction, in this mode, caused them (R382): none where
the core runs another VF, and in a TENANT VF none of events 21 and 22. -/
def State.credit (s : State) (loc vf : Nat) (sup : Bool) (ev n : Nat) : State :=
  if (s.coreAt loc).vf ≠ vf ∨ ((sget {} s.vfpol vf).tenant ∧ (ev = 21 ∨ ev = 22)) then s
  else s.updCoreAt loc fun c => c.countAs sup none ev n

/-- A sys-scope reduction reaches its fabric port (R274): an entry of another ROP at the same address is sent (R275, event
4), and a merge is credited to the core (event 22, R381). -/
def State.redAtPort (s : State) (loc : Nat) (e : SbEntry) (rop : Nat) (b : Word) : State :=
  let n := ropSize rop
  let pa := e.key
  let vf := e.vf
  let s := s.sendCombs fun c => decide (c.pa = pa ∧ c.rop ≠ rop)
  let s := s.applyFStores fun r => r.cells.any fun c => meets c.1 1 pa n
  let p := s.portOf pa
  let es := sget [] s.ports p
  let key := fun (c : Comb) => decide (c.vf = vf ∧ c.pa = pa ∧ c.rop = rop)
  if es.any key then
    ({ s with ports := sput [] s.ports p (es.map fun c =>
        if key c then { c with val := word (comb rop c.val.toNat b.toNat) } else c) } : State).credit loc vf e.sup 22 1
  else if (es.filter (·.vf = vf)).length < 64 ∧ es.length < 512 then
    { s with ports := sput [] s.ports p (es ++ [{ vf, pa, rop, val := b, opened := s.time, core := loc, ea := e.ea }]) }
  else { s with reds := s.reds ++ [{ core := loc, vf, path := 5, key := pa, ea := e.ea, rop, b }] }

/-! The store buffer (R163, R270). -/

/-- Perform a store at its target (R163): an error response is logged with the effective address. -/
def State.performStore (s : State) (loc : Nat) (e : SbEntry) (cs : List Host.Cell) : State :=
  let fail := fun (s : State) (c : Nat) => s.logAt (dieOf loc) e.vf (s.vcoreOf loc) e.ea c
  let done := fun (s : State) => s.updCoreAt loc fun c => c.countAs e.sup (some e.win) 9 1
  let s := s.settleReds loc e.key e.size
  if isFar e.key then done s
  else if e.path = 1 ∨ e.path = 2 then
    let s := s.settleBank (scrCl e.key) (bankNo (scrOff e.key))
    if !s.scrOk e.key then fail s 1
    else
      let (s, bad) := s.write cs
      done (if bad then fail s 2 else s)
  else if e.path = 5 then
    if !s.regionOk e.key then fail s 1
    else
      let s := (s.settleFabric e.key e.size).room loc 1 48
      done { s with fstores := s.fstores ++ [{ core := loc, vf := e.vf, ea := e.ea, cells := cs }] }
  else
    let (s, err) := if e.path = 4 then s.homeWrite loc e.key cs else s.dieWrite e.vf loc e.key cs
    match err with
    | some c => fail s c
    | none => done s

/-- Some bank of a cluster is in the cache role (R80, R254). -/
def State.hasWays (s : State) (clu : Nat) : Bool := decide (s.cacheBanks clu ≠ [])

/-- Perform a reduction as it leaves the buffer: on memory of the die it is applied, elsewhere it is accepted by its
home or its port (R254, R270, R274). -/
def State.performRed (s : State) (loc : Nat) (e : SbEntry) (rop : Nat) (sc : AtScope) (b : Word) : State :=
  let fail := fun (s : State) (c : Nat) => s.logAt (dieOf loc) e.vf (s.vcoreOf loc) e.ea c
  let s := s.updCoreAt loc fun c => c.countAs e.sup (some e.win) 10 1
  let s := if sc = .cls ∧ e.path = 0 then s.settleWays (s.clOf loc) else s
  let n := ropSize rop
  let d := dieOf loc
  if isFar e.key then s
  else if e.path = 1 ∨ e.path = 2 then
    let s := s.settleBank (scrCl e.key) (bankNo (scrOff e.key))
    match s.scrErr e.key n with
    | some c => fail s c
    | none => (s.write (cellsAt e.key (bytesOf (comb rop (natOf (s.bytes e.key n)) b.toNat) n))).1
  else if e.path = 5 then
    if !s.regionOk e.key then fail s 1 else s.redAtPort loc e rop b
  else if homeDie e.key = d ∨ !isHbm e.key ∨ (sc = .cls ∧ s.hasWays (s.clOf loc)) then
    match s.dieRead e.vf d e.key n 0 with
    | (.error c, s) => fail s c
    | (.ok bs, s) => (s.dieWrite e.vf loc e.key (cellsAt e.key (bytesOf (comb rop (natOf bs) b.toNat) n))).1
  else
    let s := s.expel d (e.key / 64)
    { s with reds := s.reds ++ [{ core := loc, vf := e.vf, path := e.path, key := e.key, ea := e.ea, rop, b }] }

/-- The oldest entry of a core's store buffer is performed (R163). -/
def State.performEntry (s : State) (loc : Nat) (e : SbEntry) : State :=
  match e.op with
  | .store cs => s.performStore loc e cs
  | .red rop sc b => s.performRed loc e rop sc b

/-- Path-3 copies of its cluster filled so far are refused by a core from now on (R56). -/
def State.refuseRo (s : State) (loc : Nat) : State :=
  ({ s with seq := s.seq + 1 } : State).updCoreAt loc fun c => { c with m := { c.m with roFloor := s.seq + 1 } }

/-- The oldest entry of a core's store buffer leaves it (R163). Where it precedes the core's last acquire, path-3 loads see
it from then on (R56). -/
def State.drainOne (s : State) (loc : Nat) : State :=
  match (s.coreAt loc).m.sbuf with
  | [] => s
  | e :: es =>
    let n := (s.coreAt loc).m.roPend
    let s := s.updCoreAt loc fun c => { c with m := { c.m with sbuf := es, roPend := n - 1 } }
    let s := s.performEntry loc e
    if n = 0 then s else s.refuseRo loc

/-- n entries leave. -/
def State.drainN (s : State) (loc : Nat) : Nat → State
  | 0 => s
  | n + 1 => (s.drainOne loc).drainN loc n

/-- Wait until a core's store buffer has drained. -/
def State.drainAll (s : State) (loc : Nat) : State := s.drainN loc (s.coreAt loc).m.sbuf.length

/-- Wait until the issuing core's store buffer has drained. -/
def State.drained (s : State) : State := s.drainAll s.focus

/-- Enter the store buffer; where 32 entries stand in it, the oldest leaves first (R163). -/
def State.enterBuffer (s : State) (e : SbEntry) : State :=
  let s := if 32 ≤ s.core.m.sbuf.length then s.drainOne s.focus else s
  s.updCore fun c => { c with m := { c.m with sbuf := c.m.sbuf ++ [e] } }

/-- How many entries must leave before a read of these bytes: up to the last that overlaps them (R163, R270). -/
def overlapCount (es : List SbEntry) (k n : Nat) : Nat :=
  (es.zipIdx.foldl (fun m e => if meets e.1.key e.1.size k n then e.2 + 1 else m) 0)

/-- The bytes that buffered stores forward to a read, where they cover it wholly (R163): for each byte the youngest. -/
def forwarded (es : List SbEntry) (k n : Nat) : Option (List Byte) :=
  let hit := es.filter fun e => meets e.key e.size k n
  if hit.any fun e => match e.op with | .red _ _ _ => true | .store _ => false then none
  else
    let cells := hit.flatMap fun e => match e.op with | .store cs => cs | .red _ _ _ => []
    let one := fun (i : Nat) => (cells.filter fun c => c.1 = k + i).getLast?.map (·.2)
    (List.range n).foldr (fun i acc => match one i, acc with
      | some b, some bs => some (b :: bs)
      | _, _ => none) (some [])

/-! Plain reads. -/

/-- The tick at which what a die reads of a line was read at its home: that of the die's copy, else now (R310). -/
def State.homeTick (s : State) (d line : Nat) : Nat := ((s.copyOf d line).map (·.tick)).getD s.time

/-- A path-3 line of the ways may serve the issuing core (R56, R310): it is filled, no earlier than the core's last acquire,
and, where its home is another die, from a copy fresh for the core's floor. -/
def State.roServes (s : State) (line : Nat) (r : RoCopy) : Bool :=
  decide (r.bytes ≠ [] ∧ s.core.m.roFloor ≤ r.seq) && (decide (homeDie (64 * line) = s.die) || fresh s.core.m.floor r.tick)

/-- A path-3 load (R56): a line that the cluster's ways hold for path 3 serves it, or is filled again; another line, and a
cluster without ways, serve it as path 0. -/
def State.roRead (s : State) (pa n : Nat) : Except Nat (List Byte) × State :=
  let line := pa / 64
  match (s.clAt s.cl).ways.find? fun l => l.phys = line with
  | some { ro := some r, .. } =>
    if s.roServes line r then (.ok ((r.bytes.drop (pa % 64)).take n), s)
    else
      match s.dieRead s.core.vf s.die (64 * line) 64 s.core.m.floor with
      | (.ok bs, s) =>
        let r : RoCopy := { bytes := bs, seq := s.seq, tick := s.homeTick s.die line }
        (.ok ((bs.drop (pa % 64)).take n), s.updCl s.cl fun c =>
          { c with ways := c.ways.map fun l => if l.phys = line then { l with ro := some r } else l })
      | (.error _, s) => s.dieRead s.core.vf s.die pa n s.core.m.floor
  | _ => s.dieRead s.core.vf s.die pa n s.core.m.floor

/-- Read n bytes at their place on a path (R53 to R57): the bytes, or the code of an error response. -/
def State.pathRead (s : State) (path k n : Nat) : Except Nat (List Byte) × State :=
  match path with
  | 1 | 2 =>
    if isFar k then let (bs, s) := s.farBytes n; (.ok bs, s)
    else
      let s := s.settleBank (scrCl k) (bankNo (scrOff k))
      match s.scrErr k n with
      | some c => (.error c, s)
      | none => (.ok (s.bytes k n), s)
  | 3 => s.roRead k n
  | 4 => s.homeRead s.die k n
  | 5 =>
    let s := s.settleFabric k n
    match s.physErr k n with
    | some c => (.error c, s)
    | none => (.ok (s.bytes (s.phys k) n), s)
  | _ => s.dieRead s.core.vf s.die k n s.core.m.floor

/-- A plain read by the issuing core of n bytes (R53, R163): forwarded from its store buffer where that covers them;
otherwise the overlapping entries leave first. A path-3 load waits for those that precede the last acquire alone (R56). -/
def State.plainRead (s : State) (path k n : Nat) : Except Nat (List Byte) × State :=
  if path = 3 then
    ((s.drainN s.focus (overlapCount (s.core.m.sbuf.take s.core.m.roPend) k n)).settleReds s.focus k n).pathRead path k n
  else
    match forwarded s.core.m.sbuf k n with
    | some bs => (.ok bs, s)
    | none => ((s.drainN s.focus (overlapCount s.core.m.sbuf k n)).settleReds s.focus k n).pathRead path k n

end Sys2Proof.Machine
end

