-- ==== Sys2Proof/Machine/Walk.lean ====
section
/-! DEFINITION. Shape records and their walks (R101 to R103), the places an engine reads and writes, the fault queue
(R344, R345), phaser signals (R327, R328), and the release and acquire steps engines and instructions share (R308,
R309, R271). -/
namespace Sys2Proof.Machine

/-! Shape records. -/

/-- The strides S0 to S3 (R101). -/
def recS (r : BitVec 512) (k : Nat) : Int := sext (rfld r (256 + 32 * k) 32) 32

/-- BASE (R101), its path, SIG, SIGA, DEC, FIRST and COUNT. -/
def recBase (r : BitVec 512) : Nat := rfld r 0 64
def recPath (r : BitVec 512) : Nat := rfld r 60 4
def recSig (r : BitVec 512) : Nat := rfld r 68 4
def recSiga (r : BitVec 512) : Nat := rfld r 384 64
def recDec (r : BitVec 512) : Nat := rfld r 112 16
def recFirst (r : BitVec 512) : Nat := rfld r 448 16
def recCount (r : BitVec 512) : Nat := rfld r 464 16

/-- A malformed record (R103). -/
def recMalformed (r : BitVec 512) : Bool :=
  let e := recE r
  decide (rfld r 480 32 ≠ 0 ∨ rfld r 72 40 ≠ 0 ∨ 2 < recSig r ∨ rfld r 64 4 = 15
    ∨ recD r 0 = 0 ∨ recD r 1 = 0 ∨ recD r 2 = 0 ∨ recD r 3 = 0
    ∨ 0x1000000 < recLen r ∨ recBase r % e ≠ 0
    ∨ recS r 0 % e ≠ 0 ∨ recS r 1 % e ≠ 0 ∨ recS r 2 % e ≠ 0 ∨ recS r 3 % e ≠ 0) ||
  (match recSig r with
    | 0 => decide (recSiga r ≠ 0 ∨ recDec r ≠ 0)
    | 1 => decide (recDec r = 0)
    | _ => decide (8192 ≤ recSiga r ∨ recDec r ≠ 0))

/-- The address of element i of the walk, exact (R102). -/
def elemAddr (r : BitVec 512) (i : Nat) : Int :=
  let d0 := recD r 0
  let d1 := recD r 1
  let d2 := recD r 2
  recBase r + (i % d0 : Nat) * recS r 0 + (i / d0 % d1 : Nat) * recS r 1 + (i / d0 / d1 % d2 : Nat) * recS r 2
    + (i / d0 / d1 / d2 : Nat) * recS r 3

/-- An element's address stays on its path (R108, code 0x56). -/
def elemOk (r : BitVec 512) (i : Nat) : Bool :=
  let a := elemAddr r i
  decide (0 ≤ a ∧ a.toNat / 2 ^ 60 = recPath r) && pathForm (wordI a)

/-- Every element address of a walk stays on its path (R102). -/
def walkOk (r : BitVec 512) : Bool := (List.range (recLen r / recE r)).all (elemOk r)

/-- The effective address of byte k of the sequence. -/
def byteAddr (r : BitVec 512) (k : Nat) : Word := wordI (elemAddr r (k / recE r) + (k % recE r : Nat))

/-- The aligned double of the walk that byte k lies in. -/
def walkDouble (r : BitVec 512) (k : Nat) : Nat := (byteAddr r k).toNat / 8

/-- The part of a piece of work that goes to doubles which some part of a group touches and no part already done does: the
group is written with whole doubles, each once (R255, R272). -/
def wholeDoubles {α : Type} (dbl : α → Nat) (group rest done : List α) : List α :=
  let ds := group.map dbl
  let gone := (done.map dbl).filter ds.contains
  (group ++ rest.filter fun x => ds.contains (dbl x)).filter fun x => !gone.contains (dbl x)

/-- Each aligned block of m bytes, 8 or 16, that a walk goes to lies in one segment of its sequence: the rows are contiguous
and of whole blocks, and no two of them meet. -/
def wholeRows (m : Nat) (r : BitVec 512) : Bool :=
  let e := recE r
  let span := fun (k : Nat) => (List.range k).foldl (fun n i => n + (recD r i - 1) * (recS r i).natAbs) e
  (decide (e % m = 0) || decide (recS r 0 = e ∧ recD r 0 * e % m = 0 ∧ recBase r % m = 0)) &&
    (List.range 4).all fun i => decide (recD r i ≤ 1 ∨
      (span i ≤ (recS r i).natAbs ∧ (e % m = 0 ∨ i = 0 ∨ recS r i % m = 0)))

/-- Some part of a walk that lies in a granule of it has still to land: it is no part done, and shares its double with
none. -/
def outstanding {α : Type} (r : BitVec 512) (at_ : α → Nat) (rest done : List α) (g : Nat) : Bool :=
  match rest.filter fun x => decide ((byteAddr r (at_ x)).toNat / 16 = g) with
  | [] => false
  | near => !(wholeDoubles (fun x => walkDouble r (at_ x)) near [] done).isEmpty

/-- The 64 bytes of memory at a model address as a record. -/
def recOf (bs : List Byte) : BitVec 512 := BitVec.ofNat 512 (natOf bs)

/-! The fault queue (R344, R345). -/

/-- A fault record (R345). -/
def faultRecord (time : Nat) (faddr : Word) (progress : Nat) (pc : Word) (ticket iter pos code vf kind vcore win : Nat)
    (src dst : BitVec 512) : BitVec 1536 :=
  BitVec.ofNat 1536 (put time 448 64 + put faddr.toNat 384 64 + put progress 320 32 + put pc.toNat 256 64
    + put ticket 224 32 + put iter 208 16 + put pos 192 4 + put code 56 8 + put vf 52 4 + put kind 48 4
    + put vcore 32 16 + put win 24 5 + src.toNat * 2 ^ 512 + dst.toNat * 2 ^ 1024)

/-- Append a record to the fault queue of VF vf on die d, and wake the core it names (R344, R172). -/
def State.pushFault (s : State) (d vf vcore : Nat) (r : BitVec 1536) : State :=
  let s := s.updDie d fun x => { x with faultQ := supd {} x.faultQ vf fun q =>
    if q.records.length < 256 then { q with records := q.records ++ [r] }
    else { q with lost := if q.lost = BitVec.allOnes 32 then q.lost else q.lost + 1 } }
  s.wakeV vcore

/-! Release and acquire (R308, R309, R271). -/

/-- An acquire by a core: path-3 copies of its cluster and, at dev or sys scope, copies of remote lines are refused from
now on, and path-3 loads see what its store buffer holds (R56, R309). -/
def State.acquireAt (s : State) (loc : Nat) (dev : Bool) : State :=
  let s := { s with seq := s.seq + 1 }
  s.updCoreAt loc fun c => { c with m := { c.m with
    roFloor := s.seq, roPend := c.m.sbuf.length, floor := if dev then s.time else c.m.floor } }

/-- An acquire by the issuing core. -/
def State.acquire (s : State) (dev : Bool) : State := s.acquireAt s.focus dev

/-- The release steps of dev scope by a core beyond its store buffer: its promotion log drains and its reductions but
those on path 5 are applied (R315, R271). -/
def State.releaseDev (s : State) (loc : Nat) : State :=
  (s.drainLog loc fun _ => true).applyReds fun r => r.core = loc ∧ r.path ≠ 5

/-- The release steps of sys scope: also its path-5 stores and reductions, and the VF's combining entries (R313,
R275). -/
def State.releaseSys (s : State) (loc : Nat) : State :=
  let vf := (s.coreAt loc).vf
  let s := (s.releaseDev loc).applyFStores fun f => f.core = loc
  (s.sendCombs fun c => c.vf = vf).applyReds fun r => r.path = 5 ∧ (r.core = loc ∨ r.vf = vf)

/-- The VF's policy clamps a sys-scope release of the issuing core to dev scope (R314). -/
def State.releaseScope (s : State) (sys : Bool) : State :=
  if !sys then s.releaseDev s.focus
  else
    let p := sget {} s.vfpol s.core.vf
    if p.tenant then
      let s := { s with vfpol := sput {} s.vfpol s.core.vf { p with clamped := true } }
      s.releaseDev s.focus
    else s.releaseSys s.focus

/-- A release to a cluster, the store buffer drained: at die scope on this die's memory, at dev scope elsewhere (R96). -/
def State.releaseTo (s : State) (clu : Nat) : State := if clu / 64 = s.die then s else s.releaseDev s.focus

/-- An acquire by a core from a cluster: at die scope from its die's memory, or at dev scope from elsewhere (R96). -/
def State.acquireBy (s : State) (loc clu : Nat) : State := s.acquireAt loc (decide (clu / 64 ≠ dieOf loc))

/-- An acquire by the issuing core from a cluster. -/
def State.acquireFrom (s : State) (clu : Nat) : State := s.acquireBy s.focus clu

/-! Phasers (R323 to R328). -/

/-- A phaser of a die. -/
def State.phaser (s : State) (id : Nat) : Option Phaser := sget none (s.dieAt (id / 1024 % 8)).phasers (id % 1024)

/-- Replace a phaser. -/
def State.setPhaser (s : State) (id : Nat) (p : Option Phaser) : State :=
  s.updDie (id / 1024 % 8) fun d => { d with phasers := sput none d.phasers (id % 1024) p }

/-- A signalling member (R323). -/
def Member.signals (m : Member) : Bool := decide (m.mode ≠ .wo)

/-- The member has given its signal for phase p (R327). -/
def Member.gave (m : Member) (p : BitVec 32) : Bool :=
  match m.mode with
  | .sw => decide (m.l = p) && m.given
  | .so => decide (m.l ≠ p) && !(m.owed.isSome && decide (m.l = p + 1))
  | .wo => true

/-- Complete phase P where every signalling member has given its signal for it (R327). -/
def Phaser.complete (p : Phaser) : Phaser :=
  if p.members.any Member.signals ∧ p.members.all (·.gave p.p) then { p with p := p.p + 1 } else p

/-- The member record of a context. -/
def Phaser.member (p : Phaser) (vcore win : Nat) : Option Member :=
  p.members.find? fun m => m.vcore = vcore ∧ m.win = win

/-- Update the member record of a context. -/
def Phaser.updMember (p : Phaser) (vcore win : Nat) (f : Member → Member) : Phaser :=
  { p with members := p.members.map fun m => if m.vcore = vcore ∧ m.win = win then f m else m }

/-- Store a phaser after a signal, with the trace record of a completed phase (R327, R385). -/
def State.phaserDone (s : State) (id : Nat) (p : Phaser) : State :=
  let q := p.complete
  let s := s.setPhaser id (some q)
  if q.p = p.p then s
  else s.trace (id / 1024 % 8) p.vf 0xFFFF 0 10 (word (put id 32 32 + q.p.toNat)) 0

/-- The signal owed to a copy is given (R328): none where the phaser is gone. -/
def State.phGive (s : State) (id vcore win ticket : Nat) (vf lid : Nat) : Option State :=
  match s.phaser id with
  | none => none
  | some p =>
    if p.vf ≠ vf ∨ p.lid ≠ lid then none
    else
      match p.member vcore win with
      | none => none
      | some m =>
        if m.owed ≠ some ticket then none
        else some (s.phaserDone id (p.updMember vcore win fun m =>
          { m with owed := none, given := if m.mode = .sw then true else m.given }))

/-- The owed signal of a cancelled copy is withdrawn (R328). -/
def State.phWithdraw (s : State) (id vcore win ticket : Nat) : State :=
  match s.phaser id with
  | none => s
  | some p => s.setPhaser id (some (p.updMember vcore win fun m =>
      if m.owed = some ticket then
        { m with owed := none, l := if m.mode = .so then m.l - 1 else m.l }
      else m))

/-! The places engines read and write. -/

/-- An engine's view: its translations, the cluster that path 1 names, the launch that path 2 names, and, for work that a
bank switched away from scratchpad faults (R82), the package's count of switches when the work began. -/
structure View where
  who : Who
  cl : Nat
  lid : Nat
  sw : Option Nat := none
deriving DecidableEq, Repr

/-- The logical cluster number of a path-2 address lies in the launch. -/
def State.inLaunch (s : State) (lid n : Nat) : Bool :=
  match s.launchOf lid with
  | some l => decide (n < l.pkgs.length * l.clusters.length)
  | none => false

/-- A scratch bank serves work that began at a count of switches: it is scratchpad and has not left that role since (R82,
R108). -/
def Bank.serves (b : Bank) (sw : Option Nat) : Bool :=
  decide (b.role = .scratch) && sw.all fun n => decide (b.left ≤ n)

/-- Where an engine's access to an effective address goes: a model address, or its fault: 0 translation, 1 error
response, 3 not scratchpad (R108); an offset that no bank has is taken for the latter (log 74). -/
def State.engLocate (s : State) (v : View) (a : Access) (ea : Word) : Except Nat Nat × State :=
  let p := ea.bits 60 4
  let off := ea.bits 0 23
  if p = 1 ∨ p = 2 then
    if 0x600000 ≤ off then (.error 3, s)
    else
      match (if p = 1 then some v.cl else s.clOfLogical v.lid (ea.bits 40 8)) with
      | none => if s.inLaunch v.lid (ea.bits 40 8) then (.ok (farKey (ea.bits 40 8) off), s) else (.error 1, s)
      | some k =>
        let s := s.settleBank k (bankNo off)
        if (s.bank k (bankNo off)).serves v.sw then (.ok (scratchKey k off), s) else (.error 3, s)
  else
    match s.translate v.who a ea with
    | (some pa, s) => (.ok pa, s)
    | (none, s) => (.error 0, s)

/-- Read n bytes as an engine of a VF on die d: the bytes, or 1 error response, 2 uncorrectable. -/
def State.engRead (s : State) (vf d path k n : Nat) : Except Nat (List Byte) × State :=
  match path with
  | 1 | 2 =>
    if isFar k then let (bs, s) := s.farBytes n; (.ok bs, s)
    else (if s.poisoned k n then .error 2 else .ok (s.bytes k n), s)
  | 4 => s.homeRead d k n
  | 5 => let s := s.settleFabric k n; (s.homeBytes k n, s)
  | _ => s.dieRead vf d k n 0

/-- Write cells as an engine on die d, visible at their home (R107): whether an error response came. -/
def State.engWrite (s : State) (d path k : Nat) (cs : List Host.Cell) : State × Bool :=
  match path with
  | 1 | 2 => if isFar k then (s, false) else s.write cs
  | 5 =>
    if !s.regionOk k then (s, true)
    else
      let s := s.settleFabric k cs.length
      let cs := cs.map fun c => (s.phys c.1, c.2)
      if isHbm (s.phys k) then s.homePut d cs else s.write cs
  | _ => if !isHbm k then (s, true) else s.homePut d cs

/-- Decrement a counter by an indivisible read-modify-write at its home or bank (R110, R287): the fault, if any: 0
translation, 1 otherwise. An address that breaks R36 in another place than VA [56:48], of a failed walk (R45), gives 1
(log 74). -/
def State.decrement (s : State) (v : View) (a : Word) (dec : Nat) : Option Nat × State :=
  let p := a.bits 60 4
  if ¬ (p = 0 ∨ p = 1 ∨ p = 2 ∨ p = 4) ∨ a.toNat % 8 ≠ 0 ∨
      !(pathForm a || decide ((p = 0 ∨ p = 4) ∧ a.bits 57 3 = 0)) then (some 1, s)
  else
    match s.engLocate v .atomic a with
    | (.error 0, s) => (some 0, s)
    | (.error _, s) => (some 1, s)
    | (.ok k, s) =>
      let s := if p = 0 ∨ p = 4 then (if homeDie k = v.who.die then s else s.expel v.who.die (k / 64)) else s
      match (if isFar k then none else if p = 1 ∨ p = 2 then s.scrErr k 8 else s.physErr k 8) with
      | some _ => (some 1, s)
      | none =>
        let (bs, s) := if isFar k then s.farBytes 8 else (s.bytes k 8, s)
        let c := natOf bs
        let s := if isFar k then s else (s.write (cellsAt k (bytesOf (c - dec) 8))).1
        (none, if c < dec then s.logWho v.who a 4 else s)

end Sys2Proof.Machine
end

