-- ==== Sys2Proof/Machine/Tongs.lean ====
section
/-! DEFINITION. The Tongs: copies and tickets (R104 to R118) and streams (R120 to R124). -/
namespace Sys2Proof.Machine

/-! Moving bytes. -/

/-- The bytes moved in one piece: the smaller of the two element sizes. -/
def pieceSize (src dst : BitVec 512) : Nat := Nat.min (recE src) (recE dst)

/-- The view of a copy's engine. -/
def Cmd.view (c : Cmd) : View :=
  { who := { die := c.die, vf := c.vf, asid := c.asid, sup := c.sup, vcore := c.vcore }, cl := c.cl, lid := c.lid
    sw := some c.sw }

/-- The Tongs of a cluster are owned by a VF (R50). -/
def State.tongsOwned (s : State) (vf clu : Nat) : Bool :=
  (sget {} (s.dieAt (clu / 64)).own vf).tongs.getLsbD (clu % 64)

/-- A fault of a piece: its code (R108) and address. -/
abbrev EngFault := Nat × Word

/-- The code of a fault of `engLocate`, on the source (0x50) or the destination (0x51) side. -/
def locCode (side : Nat) (c : Nat) : Nat := if c = 0 then side else if c = 3 then 0x53 else 0x52

/-- Read bytes [k, k + n) of a source walk. -/
def State.srcPiece (s : State) (v : View) (r : BitVec 512) (k n : Nat) : Except EngFault (List Byte) × State :=
  let ea := byteAddr r k
  if !elemOk r (k / recE r) then (.error (0x56, ea), s)
  else
    match s.engLocate v .load ea with
    | (.error c, s) => (.error (locCode 0x50 c, ea), s)
    | (.ok a, s) =>
      match s.engRead v.who.vf v.who.die (ea.bits 60 4) a n with
      | (.error 2, s) => (.error (0x55, ea), s)
      | (.error _, s) => (.error (0x52, ea), s)
      | (.ok bs, s) => (.ok bs, s)

/-- Where bytes at k of a destination walk go: model addresses, one per cluster written (R107). -/
def State.dstPiece (s : State) (c : Cmd) (k : Nat) : Except EngFault (List Nat) × State :=
  let r := c.dst
  let ea := byteAddr r k
  if !elemOk r (k / recE r) then (.error (0x56, ea), s)
  else if c.form = .mcast then
    let off := ea.bits 0 23
    let ks := (List.range (recCount r)).map fun i => s.clOfLogical c.lid (recFirst r + i)
    if 0x600000 ≤ off then (.error (0x53, ea), s)
    else if ks.any Option.isNone then (.error (0x52, ea), s)
    else
      let ks := ks.filterMap id
      let s := ks.foldl (fun s q => s.settleBank q (bankNo off)) s
      if ks.any fun q => !s.tongsOwned c.vf q then (.error (0x54, ea), s)
      else if ks.any fun q => !(s.bank q (bankNo off)).serves (some c.sw) then (.error (0x53, ea), s)
      else (.ok (ks.map fun q => scratchKey q off), s)
  else
    match s.engLocate c.view .store ea with
    | (.error e, s) => (.error (locCode 0x51 e, ea), s)
    | (.ok a, s) =>
      if isScratch a ∧ !s.tongsOwned c.vf (scrCl a) then (.error (0x54, ea), s)
      else if ea.bits 60 4 = 5 ∧ !s.regionOk a then (.error (0x52, ea), s)
      else if ¬ isScratch a ∧ !isFar a ∧ ea.bits 60 4 ≠ 5 ∧ !isHbm a then (.error (0x52, ea), s)
      else (.ok [a], s)

/-- A byte named twice by one destination walk receives one of its values (R103): the choice is free where they
differ. -/
def State.overlap (s : State) (cs : List Host.Cell) : List Host.Cell × State :=
  cs.foldl (fun (p : List Host.Cell × State) c =>
    match p.1.find? fun e => e.1 = c.1 with
    | none => (p.1 ++ [c], p.2)
    | some e =>
      let (b, s) := p.2.choose c.2 e.2
      (p.1.map (fun x => if x.1 = c.1 then (x.1, b) else x), s)) ([], s)

/-- A piece of a segment: its bytes, the model addresses it goes to, and its destination's effective address. -/
abbrev Piece := List Byte × List Nat × Word

/-- The pieces of a segment, in walk order, or its first fault. -/
def State.pieces (s : State) (c : Cmd) : List (Nat × Nat) → Except EngFault (List Piece) × State
  | [] => (.ok [], s)
  | (k, n) :: ks =>
    match s.srcPiece c.view c.src k n with
    | (.error e, s) => (.error e, s)
    | (.ok bs, s) =>
      match s.dstPiece c k with
      | (.error e, s) => (.error e, s)
      | (.ok as, s) =>
        match s.pieces c ks with
        | (.error e, s) => (.error e, s)
        | (.ok ps, s) => (.ok ((bs, as, byteAddr c.dst k) :: ps), s)

/-- The places of the pieces of bytes [lo, lo + n). -/
def splitRange (p lo n : Nat) : List (Nat × Nat) :=
  (List.range ((n + p - 1) / p)).map fun i => (lo + p * i, Nat.min p (n - p * i))

/-- The length of segment j of a copy (R102). -/
def segLen (l j : Nat) : Nat := Nat.min 256 (l - 256 * j)

/-- The number of segments (R102). -/
def segCount (l : Nat) : Nat := (l + 255) / 256

/-- The form sets full-empty bits (R107). -/
def Cmd.fills (c : Cmd) : Bool := decide (c.form = .cpyFe ∨ c.form = .mcast)

/-- The words that pieces go to, in walk order: each with the effective address of its first byte in that order, its lowest
address written and its cells. -/
def wordWrites (ps : List Piece) : List (Word × Nat × List Host.Cell) :=
  let all := ps.flatMap fun p => p.2.1.flatMap fun a =>
    (cellsAt a p.1).map fun c => (p.2.2 + BitVec.ofNat 64 (c.1 - a), c)
  let keys := all.foldl (fun (ks : List (Word × Nat × Nat)) c =>
    if ks.any fun k => k.2 = (c.1.bits 60 4, c.2.1 / 8) then ks else ks ++ [(c.1, c.1.bits 60 4, c.2.1 / 8)]) []
  keys.map fun k =>
    let cs := (all.filter fun c => c.1.bits 60 4 = k.2.1 ∧ c.2.1 / 8 = k.2.2).map (·.2)
    (k.1, cs.foldl (fun m c => Nat.min m c.1) (8 * k.2.2 + 7), cs)

/-- Write the pieces of a segment, as an engine of die d, the bytes of one word together (R409): the effective address of
the first byte that meets an error response, if any (R345). -/
def State.landPieces (s : State) (d : Nat) (ps : List Piece) : State × Option Word :=
  (wordWrites ps).foldl (fun (acc : State × Option Word) w =>
    let (s, bad) := acc.1.engWrite d (w.1.bits 60 4) w.2.1 w.2.2
    (s, if acc.2.isNone ∧ bad then some w.1 else acc.2)) (s, none)

/-- Some piece goes off die d (R115): to the scratch or the stack of another die, or across the fabric. -/
def offDie (d : Nat) (ps : List Piece) : Bool :=
  ps.any fun p => p.2.1.any fun a => decide ((if isScratch a then scrCl a / 64 else homeDie a) ≠ d)

/-- The granules that pieces went to, each once: the walk's granule and the model's. -/
def granulesOf (r : BitVec 512) (ks : List (Nat × Nat)) (ps : List Piece) : List (Nat × Nat) :=
  (ks.zip ps).foldl (fun acc e =>
    e.2.2.1.foldl (fun acc a =>
      let g := ((byteAddr r e.1.1).toNat / 16, a / 16)
      if isScratch a ∧ !acc.contains g then acc ++ [g] else acc) acc) []

/-- Set full the granules of pieces just landed whose other bytes have all landed too (R85): `still` says whether some
outstanding part of the work still touches a granule of the walk. -/
def State.fillDone (s : State) (r : BitVec 512) (ks : List (Nat × Nat)) (ps : List Piece) (still : Nat → Bool) : State :=
  (granulesOf r ks ps).foldl (fun s g =>
    if still g.1 then s else s.fillGran (scrCl (16 * g.2)) (scrOff (16 * g.2) / 16)) s

/-- A byte of a segment that the destination walk names twice takes one of the values sent to it (R103). -/
def State.arbitrate (s : State) (ps : List Piece) : List Piece × State :=
  let all := ps.flatMap fun p => match p.2.1 with
    | a :: _ => cellsAt a p.1
    | [] => []
  let (cs, s) := s.overlap all
  (ps.map fun p => match p.2.1 with
    | a :: _ => (p.1.zipIdx.map fun b => ((cs.find? fun c => c.1 = a + b.2).map (·.2)).getD b.1, p.2)
    | [] => p, s)

/-- The places of the pieces of the segments of a copy. -/
def Cmd.places (c : Cmd) (js : List Nat) : List (Nat × Nat) :=
  js.flatMap fun j => splitRange (pieceSize c.src c.dst) (256 * j) (segLen (recLen c.dst) j)

/-- The segments of a copy that are not done, but for j. -/
def Cmd.others (c : Cmd) (j : Nat) : List Nat :=
  (List.range (segCount (recLen c.dst))).filter fun i => i ≠ j ∧ !c.segs.contains i

/-- The pieces that segment j of a copy moves: its own, with those of other segments that go to the same doubles (R272). -/
def Cmd.parts (c : Cmd) (j : Nat) : List (Nat × Nat) :=
  if wholeRows 8 c.dst && !c.segs.contains j then c.places [j]
  else wholeDoubles (fun k => walkDouble c.dst k.1) (c.places [j]) (c.places (c.others j)) (c.places c.segs)

/-- Once segment j has landed, a granule still waits for other bytes of the copy (R85). -/
def Cmd.lacks (c : Cmd) (j g : Nat) : Bool :=
  !wholeRows 16 c.dst && outstanding c.dst (·.1) (c.places (c.others j)) (c.places (j :: c.segs)) g

/-- Move segment j of a copy (R107): nothing of it is written where a byte of it faults. Bytes of other segments that share
an aligned double of the destination with it go with it (R272). A form that sets full-empty bits sets each granule full once
all the command's bytes of it have landed (R85). The answer says whether bytes went off the die. -/
def State.moveSegment (s : State) (c : Cmd) (j : Nat) : Except EngFault Bool × State :=
  let ks := c.parts j
  match s.pieces c ks with
  | (.error e, s) => (.error e, s)
  | (.ok ps, s) =>
    let (ps, s) := s.arbitrate ps
    let (s, bad) := s.landPieces c.die ps
    match bad with
    | some a => (.error (0x52, a), s)
    | none => (.ok (offDie c.die ps), if c.fills then s.fillDone c.dst ks ps (c.lacks j) else s)

/-! Commands. -/

/-- The bytes of the segments that are done (R107). -/
def Cmd.progress (c : Cmd) : Nat := c.segs.foldl (fun n j => n + segLen (recLen c.dst) j) 0

/-- The live command of a ticket of a core. -/
def State.cmdOf (s : State) (loc ticket : Nat) : Option Cmd :=
  (s.coreAt loc).eng.cmds.find? (·.ticket = ticket)

/-- Replace a live command. -/
def State.setCmd (s : State) (loc : Nat) (c : Cmd) : State :=
  s.updCoreAt loc fun k => { k with eng := { k.eng with
    cmds := k.eng.cmds.map fun x => if x.ticket = c.ticket then c else x } }

/-- The ended records: the 64 most recent keep their state and progress, older tickets are done (R106). -/
def endedPush (es : List Ended) (e : Ended) : List Ended :=
  let es := es.filter (·.ticket ≠ e.ticket) ++ [e]
  es.zipIdx.map fun x =>
    if x.2 + 64 < es.length then { x.1 with state := .done, progress := x.1.len } else x.1

/-- End a command: done or cancelled (R106). -/
def State.endCmd (s : State) (loc : Nat) (c : Cmd) (st : CmdState) : State :=
  let s := s.updCoreAt loc fun k => { k with eng := { k.eng with
    cmds := k.eng.cmds.filter (·.ticket ≠ c.ticket)
    ended := endedPush k.eng.ended
      { ticket := c.ticket, state := st, progress := c.progress, len := recLen c.dst } } }
  s.trace c.die c.vf c.vcore c.win 8 (word (put c.ticket 32 32 + put (if st = .done then 2 else 4) 24 8)) 0

/-- Fault a command, with its record (R108, R344). -/
def State.faultCmd (s : State) (loc : Nat) (c : Cmd) (e : EngFault) : State :=
  let s := { s with seq := s.seq + 1 }
  let c := { c with state := .faulted, code := e.1, faddr := e.2, fseq := s.seq }
  let s := s.setCmd loc c
  let s := s.pushFault c.die c.vf c.vcore
    (faultRecord s.time e.2 c.progress c.pc c.ticket 0 0 e.1 c.vf 1 c.vcore c.win c.src c.dst)
  s.trace c.die c.vf c.vcore c.win 8 (word (put c.ticket 32 32 + put 3 24 8)) 0

/-- The counter of a copy lies on another die than the copy. -/
def State.counterOff (s : State) (c : Cmd) (a : Word) : Bool × State :=
  match s.engLocate { c.view with sw := none } .atomic a with
  | (.ok k, s) => (offDie c.die [([], [k], a)], s)
  | (.error _, s) => (false, s)

/-- The release of a copy's signal by its core: at dev scope, or at die scope, which asks nothing of a copy whose bytes
have landed (R115, R308). -/
def State.signalRelease (s : State) (loc : Nat) (wide : Bool) : State := if wide then s.releaseDev loc else s

/-- Give the signal of a command all of whose segments are done, and end it; or fault it (R107, R109). The signal is a
release of the issuing core (R308): a decrement's at the scope of R115, a phaser's at the phaser's. -/
def State.finishCmd (s : State) (loc : Nat) (c : Cmd) : State :=
  match c.form with
  | .putsig =>
    let a := word (recSiga c.dst)
    let (off, s) := s.counterOff c a
    match (s.signalRelease loc (c.wide || off)).decrement { c.view with sw := none } a (recDec c.dst) with
    | (none, s) => s.endCmd loc c .done
    | (some 0, s) => s.faultCmd loc c (0x51, a)
    | (some _, s) => s.faultCmd loc c (0x52, a)
  | .cpyPh =>
    let id := recSiga c.dst
    let s := s.signalRelease loc ((s.phaser id).any (·.dev))
    match s.phGive id c.vcore c.win c.ticket c.vf c.lid with
    | some s => s.endCmd loc c .done
    | none => s.faultCmd loc c (0x52, word id)
  | _ => s.endCmd loc c .done

/-- A command begins to run, or runs again (R113, R116). -/
def State.runCmd (s : State) (loc : Nat) (c : Cmd) : State := s.setCmd loc { c with state := .running, sw := s.switches }

/-- Start the oldest queued command of a core (R116). -/
def State.startCmd (s : State) (loc : Nat) : State :=
  match (s.coreAt loc).eng.cmds.find? (·.state = .queued) with
  | some c => s.runCmd loc c
  | none => s

/-- Every segment of a command is done. -/
def Cmd.moved (c : Cmd) : Bool := decide (c.segs.length = segCount (recLen c.dst))

/-- Segment j of a running command is done (R107); nothing happens where it is done already or faults. A command all of whose
segments are done has its signal to give, as a replay has whose signal faulted (R113). -/
def State.segment (s : State) (loc ticket j : Nat) : State :=
  match s.cmdOf loc ticket with
  | none => s
  | some c =>
    if c.state ≠ .running then s
    else if c.moved then s.finishCmd loc c
    else if c.segs.contains j ∨ segCount (recLen c.dst) ≤ j then s
    else
      match s.moveSegment c j with
      | (.error _, _) => s
      | (.ok off, s) =>
        let c := { c with segs := c.segs ++ [j], wide := c.wide || off }
        let s := s.setCmd loc c
        if c.moved then s.finishCmd loc c else s

/-- The lowest segment not done that faults now, with its fault; or nothing (R108, R345). -/
def State.firstFault (s : State) (c : Cmd) : List Nat → Option EngFault
  | [] => none
  | j :: js =>
    if c.segs.contains j then s.firstFault c js
    else
      match (s.moveSegment c j).1 with
      | .error e => some e
      | .ok _ => s.firstFault c js

/-- A running command faults (R108), or its signal does (R109). -/
def State.copyFault (s : State) (loc ticket : Nat) : State :=
  match s.cmdOf loc ticket with
  | none => s
  | some c =>
    if c.state ≠ .running then s
    else if c.moved then
      let t := s.finishCmd loc c
      if (t.cmdOf loc ticket).any fun k => k.state = .faulted then t else s
    else
      match s.firstFault c (List.range (segCount (recLen c.dst))) with
      | some e => s.faultCmd loc c e
      | none => s

/-- One step of a core's copies: the first running command moves its next segment or faults, or the oldest queued one
starts. -/
def State.copyStep (s : State) (loc : Nat) : State :=
  match (s.coreAt loc).eng.cmds.find? (·.state = .running) with
  | none => s.startCmd loc
  | some c =>
    match (List.range (segCount (recLen c.dst))).find? (fun j => !c.segs.contains j) with
    | none => s.finishCmd loc c
    | some j =>
      match s.moveSegment c j with
      | (.error _, _) => s.copyFault loc c.ticket
      | (.ok _, _) => s.segment loc c.ticket j

/-- The state of a ticket: none where it was not issued; its live command; or its final state and values (R106). -/
inductive TicketView where
  | unissued
  | live (c : Cmd)
  | ended (e : Ended)
  | forgotten
deriving DecidableEq, Repr

/-- What is known of ticket t of the issuing core (R106). -/
def State.ticket (s : State) (t : Nat) : TicketView :=
  let e := s.core.eng
  match e.cmds.find? (·.ticket = t) with
  | some c => .live c
  | none =>
    match e.ended.find? (·.ticket = t) with
    | some x => .ended x
    | none => if 1 ≤ t ∧ (t < e.nextTicket ∨ (e.wrapped ∧ t ≤ 0x3FFFFFFF)) then .forgotten else .unissued

/-- A state's code (R106). -/
def CmdState.code : CmdState → Nat
  | .queued => 0 | .running => 1 | .done => 2 | .faulted => 3 | .cancelled => 4

/-- The negative codes of a result. -/
def neg (n : Nat) : Word := wordI (-(n : Int))

/-! Issuing a copy. -/

/-- Check a record address as a plain load on path 0 or 1 (R105): the trap's cause, or its model address. -/
def State.recLocate (s : State) (ea : Word) : Except Nat Nat × State :=
  if ea.bits 60 4 ≠ 0 ∧ ea.bits 60 4 ≠ 1 then (.error 9, s) else s.locate .load ea 64

/-- Read a record; an error response is logged (R105). -/
def State.recRead (s : State) (ea : Word) (k : Nat) : Option (BitVec 512) × State :=
  match s.plainRead (ea.bits 60 4) k 64 with
  | (.ok bs, s) => (some (recOf bs), s)
  | (.error c, s) => (none, s.logErr ea c)

/-- The BASE path of a side is permitted for a form (R104). -/
def srcPathOk (r : BitVec 512) : Bool := decide (recPath r ≤ 5)
def dstPathOk (f : CopyForm) (r : BitVec 512) : Bool :=
  let p := recPath r
  match f with
  | .cpyFe => decide (p = 1 ∨ p = 2)
  | .mcast => decide (p = 1)
  | _ => decide (p ≤ 2 ∨ p = 4 ∨ p = 5)

/-- Signal and cluster-set fields fit the form (R105, code −4). -/
def sigOk (f : CopyForm) (src dst : Option (BitVec 512)) : Bool :=
  let want := match f with
    | .putsig => 1
    | .cpyPh => 2
    | _ => 0
  (match dst with
    | some r => decide (recSig r = want) && (decide (f = .mcast) || decide (recFirst r = 0 ∧ recCount r = 0))
    | none => true) &&
  (match src with
    | some r => decide (recSig r = 0 ∧ recFirst r = 0 ∧ recCount r = 0)
    | none => true)

/-- The issuing context can signal the phaser now (R328). -/
def State.canSignal (s : State) (r : BitVec 512) (vcore win : Nat) : Bool :=
  match s.phaser (recSiga r) with
  | none => false
  | some p =>
    decide (p.vf = s.core.vf ∧ p.lid = s.core.dom.launch) &&
      match p.member vcore win with
      | none => false
      | some m =>
        match m.mode with
        | .sw => !m.given && m.owed.isNone
        | .so => decide (m.l = p.p)
        | .wo => false

/-- The cluster set of an `mcast` lies in the launch and on the issuing core's die (R105, code −6); an empty set does not
(log 74). -/
def State.mcastOk (s : State) (r : BitVec 512) : Bool :=
  decide (1 ≤ recCount r) && (List.range (recCount r)).all fun i =>
    match s.clOfLogical s.core.dom.launch (recFirst r + i) with
    | some k => decide (k / 64 = s.die)
    | none => false

/-- The failure code of a copy, 0 where it is valid (R105, R426). -/
def State.copyCode (s : State) (f : CopyForm) (win : Nat) (src dst : Option (BitVec 512)) : Nat :=
  let bad := fun (o : Option (BitVec 512)) (p : BitVec 512 → Bool) => match o with
    | some r => p r
    | none => false
  if bad src recMalformed || bad dst recMalformed then 1
  else if bad src fun a => bad dst fun b => decide (recLen a ≠ recLen b) then 2
  else if bad src (fun r => !srcPathOk r) || bad dst (fun r => !dstPathOk f r) then 3
  else if !sigOk f src dst then 4
  else if f = .cpyPh ∧ bad dst fun r => !s.canSignal r s.vcore win then 5
  else if f = .mcast ∧ bad dst fun r => !s.mcastOk r then 6
  else if src.isNone || dst.isNone then 9
  else 0

/-- Make the member's signal owed to a ticket (R328). -/
def State.phOwe (s : State) (r : BitVec 512) (win ticket : Nat) : State :=
  match s.phaser (recSiga r) with
  | none => s
  | some p => s.setPhaser (recSiga r) (some (p.updMember s.vcore win fun m =>
      { m with owed := some ticket, l := if m.mode = .so then m.l + 1 else m.l }))

/-- The result of an issuing copy form after the checks of its record addresses (R105, R106): X(D), and the state. The number
after a wrap may be that of a faulted command still live (log 74). -/
def State.copyIssue (s : State) (f : CopyForm) (pc : Word) (win : Nat) (a b : Word) (ka kb : Nat) : Word × State :=
  let s := s.drained
  let (src, s) := s.recRead a ka
  let (dst, s) := s.recRead b kb
  match s.copyCode f win src dst, src, dst with
  | 0, some src, some dst =>
    let t := s.core.eng.nextTicket
    let cmd : Cmd :=
      { ticket := t, form := f, pc, win, vf := s.core.vf, asid := s.core.asid, vcore := s.vcore, die := s.die
        cl := s.cl, lid := s.core.dom.launch, sup := s.core.sup, src, dst }
    let s := if f = .cpyPh then s.phOwe dst win t else s
    let s := s.updCore fun c => { c with eng := { c.eng with
      nextTicket := if t = 0x3FFFFFFF then 1 else t + 1
      wrapped := c.eng.wrapped || decide (t = 0x3FFFFFFF)
      cmds := c.eng.cmds ++ [cmd], ended := c.eng.ended.filter (·.ticket ≠ t) } }
    (word t, s.trace s.die s.core.vf s.vcore win 8 (word (put t 32 32)) 0)
  | code, _, _ => (neg code, s)

/-- An issuing copy form (R104, R105): a 33rd live command waits at issue, before its record addresses are checked
(log 74). Its own accesses are the reads of its records (R394). -/
def State.copyForm (f : CopyForm) (d a b stl : Nat) (s : State) : Out :=
  s.issue { xs := [a, b], xd := [d], acc := true } fun s =>
    if 32 ≤ s.core.eng.cmds.length then s.heldBack
    else
      let ea := s.core.x a
      let eb := s.core.x b
      match s.recLocate ea with
      | (.error c, s) => s.trap c ea
      | (.ok ka, s) =>
        match s.recLocate eb with
        | (.error c, s) => s.trap c eb
        | (.ok kb, s) => s.watchAccess true false [(ea.toNat, 64), (eb.toNat, 64)] fun s =>
          let (v, s) := s.copyIssue f s.core.pc s.core.cur ea eb ka kb
          (s.updCore fun c => c.setXVar d v).retire 4 stl

/-- `cpy` (R104 to R107). -/
def execCpy (d a b stl : Nat) (s : State) : Out := s.copyForm .cpy d a b stl

/-- `cpy.fe` (R104 to R107). -/
def execCpyFe (d a b stl : Nat) (s : State) : Out := s.copyForm .cpyFe d a b stl

/-- `mcast` (R104 to R107). -/
def execMcast (d a b stl : Nat) (s : State) : Out := s.copyForm .mcast d a b stl

/-- `putsig` (R104 to R110). -/
def execPutsig (d a b stl : Nat) (s : State) : Out := s.copyForm .putsig d a b stl

/-- `cpy.ph` (R104 to R109, R328). -/
def execCpyPh (d a b stl : Nat) (s : State) : Out := s.copyForm .cpyPh d a b stl

/-- X(D) := v, a variable-latency result, and the instruction retires. -/
def State.doneX (s : State) (d : Nat) (v : Word) (stl : Nat) : Out :=
  (s.updCore fun c => c.setXVar d v).retire 4 stl

/-- `cpwait` (R111): done is an acquire of the destination (R115). -/
def execCpwait (d a stl : Nat) (s : State) : Out :=
  s.issue { xs := [a], xd := [d], mem := false, own := true } fun s =>
    let t := (s.core.x a).toNat
    let own := match s.ticket t with
      | .live c => if c.state = .faulted then some (c.fseq, t) else none
      | _ => none
    s.async own fun s =>
    match s.ticket t with
    | .unissued => s.doneX d (neg 2) stl
    | .forgotten => let (n, s) := s.free; (s.acquire true).doneX d (word (n % 2 ^ 32)) stl
    | .ended e =>
      if e.state = .cancelled then s.doneX d (neg 1) stl else (s.acquire true).doneX d (word e.len) stl
    | .live _ => s.waiting .cpwait

/-- `cpq` (R112). -/
def execCpq (d a stl : Nat) (s : State) : Out :=
  s.issue { xs := [a], xd := [d], mem := false } fun s =>
    match s.ticket (s.core.x a).toNat with
    | .unissued => s.doneX d (neg 1) stl
    | .forgotten =>
      let (n, s) := s.free
      (s.acquire true).doneX d (word (put 2 56 8 + n % 2 ^ 32)) stl
    | .ended e =>
      (if e.state = .done then s.acquire true else s).doneX d (word (put e.state.code 56 8 + e.progress)) stl
    | .live c => s.doneX d (word (put c.state.code 56 8 + c.progress)) stl

/-- `cpcan` (R113). -/
def execCpcan (d a b stl : Nat) (s : State) : Out :=
  s.issue { xs := [a, b], xd := [d], mem := false } fun s =>
    let act := (s.core.x b).toNat
    let cancel := fun (c : Cmd) =>
      let s := s.endCmd s.focus c .cancelled
      if c.form = .cpyPh then s.phWithdraw (recSiga c.dst) c.vcore c.win c.ticket else s
    if 2 ≤ act then s.doneX d (neg 3) stl
    else
      match s.ticket (s.core.x a).toNat with
      | .unissued => s.doneX d (neg 2) stl
      | .forgotten | .ended _ => s.doneX d (neg 1) stl
      | .live c =>
        if act = 0 then (cancel c).doneX d (word (if c.state = .queued then 0 else c.progress)) stl
        else if c.state = .faulted then (s.runCmd s.focus c).doneX d 0 stl
        else s.doneX d (neg 1) stl

/-! Streams. -/

/-- Replace a stream of a core. -/
def State.setStream (s : State) (loc k : Nat) (x : Option Stream) : State :=
  s.updCoreAt loc fun c => { c with eng := { c.eng with streams := sput none c.eng.streams k x } }

/-- The view of a stream's engine: the cluster and the launch are those of its core now (log 74). -/
def State.streamView (s : State) (loc : Nat) (x : Stream) : View :=
  { who := { die := dieOf loc, vf := x.vf, asid := x.asid, sup := x.sup, vcore := s.vcoreOf loc }
    cl := s.clOf loc, lid := (s.coreAt loc).dom.launch, sw := some x.sw }

/-- The pieces of a stream word, read in walk order. -/
def State.streamBytes (s : State) (v : View) (r : BitVec 512) : List (Nat × Nat) → Except EngFault (List Byte) × State
  | [] => (.ok [], s)
  | (k, n) :: ks =>
    match s.srcPiece v r k n with
    | (.error e, s) => (.error e, s)
    | (.ok bs, s) =>
      match s.streamBytes v r ks with
      | (.error e, s) => (.error e, s)
      | (.ok cs, s) => (.ok (bs ++ cs), s)

/-- Deliver the next word of a stream into its buffer of 16 words, or mark the stream faulted with its record
(R121, R122). -/
def State.deliver (s : State) (loc k : Nat) : State :=
  match (s.coreAt loc).stream k with
  | none => s
  | some x =>
    if x.faulted ∨ x.words ≤ x.given ∨ 16 ≤ x.buf.length then s
    else
      let v := s.streamView loc x
      let lo := 64 * x.given
      match s.streamBytes v x.src (splitRange (recE x.src) lo (Nat.min 64 (recLen x.src - lo))) with
      | (.ok bs, s) => s.setStream loc k (some { x with given := x.given + 1, buf := x.buf ++ [recOf bs] })
      | (.error e, s) =>
        let s := { s with seq := s.seq + 1 }
        let s := s.setStream loc k (some { x with faulted := true, fseq := s.seq })
        s.pushFault v.who.die x.vf v.who.vcore (faultRecord s.time e.2 (64 * x.given) x.pc (0x80000000 + k) 0 0 e.1
          x.vf 3 v.who.vcore x.win x.src 0)

/-- The failure code of a `vstrm`, 0 where it is valid (R121, R426). -/
def State.strmCode (s : State) (v : Nat) (r : Option (BitVec 512)) : Nat :=
  let bad := fun (p : BitVec 512 → Bool) => match r with
    | some r => p r
    | none => false
  if bad recMalformed then 1
  else if bad fun r => !srcPathOk r then 3
  else if bad fun r => decide (recSig r ≠ 0 ∨ recFirst r ≠ 0 ∨ recCount r ≠ 0) then 4
  else if (List.range 4).all fun k => (s.core.stream k).isSome then 7
  else if (s.core.bound s.core.cur v).isSome then 8
  else if r.isNone then 9
  else 0

/-- `vstrm` (R121). -/
def execVstrm (d a v stl : Nat) (s : State) : Out :=
  s.issue { xs := [a], xd := [d], vn := [v], acc := true } fun s =>
    let ea := s.core.x a
    match s.recLocate ea with
    | (.error c, s) => s.trap c ea
    | (.ok k, s) => s.watchAccess true false [(ea.toNat, 64)] fun s =>
      let s := s.drained
      let (r, s) := s.recRead ea k
      match s.strmCode v r, r with
      | 0, some r =>
        let n := ((List.range 4).find? fun k => (s.core.stream k).isNone).getD 0
        let x : Stream :=
          { name := v, win := s.core.cur, recAddr := ea, src := r, pc := s.core.pc, vf := s.core.vf
            asid := s.core.asid, sup := s.core.sup, sw := s.switches }
        (s.setStream s.focus n (some x)).doneX d (word n) stl
      | code, _ => s.doneX d (neg code) stl

/-- `vsunb` (R124). -/
def execVsunb (d a stl : Nat) (s : State) : Out :=
  s.issue { xs := [a], xd := [d], mem := false } fun s =>
    let n := (s.core.x a).toNat
    match (if n < 4 then s.core.stream n else none) with
    | none => s.doneX d (neg 1) stl
    | some x => if s.core.streamOwed n then s.heldBack else (s.setStream s.focus n none).doneX d (word x.taken) stl

/-- `vsq` (R123). -/
def execVsq (d a stl : Nat) (s : State) : Out :=
  s.issue { xs := [a], xd := [d], mem := false, own := true } fun s =>
    let n := (s.core.x a).toNat
    let own := match (if n < 4 then s.core.stream n else none) with
      | some x => if x.faulted then some (x.fseq, n) else none
      | none => none
    s.async own fun s =>
    match (if n < 4 then s.core.stream n else none) with
    | none => s.doneX d (neg 1) stl
    | some x =>
      if x.words ≤ x.given then s.doneX d (word x.buf.length) stl
      else s.waiting .vsq

end Sys2Proof.Machine
end

