-- ==== Sys2Proof/Machine/Bellows.lean ====
section
/-! DEFINITION. The Bellows: armed timetables, the movement of sectors, faults and replays (R58 to R78, R368). -/
namespace Sys2Proof.Machine

/-! Entries. -/

/-- The fields of an entry (R59). -/
def TtEntry.trig (e : TtEntry) : Nat := rfld e.raw 0 32
def TtEntry.dead (e : TtEntry) : Nat := rfld e.raw 32 32
def TtEntry.srcAddr (e : TtEntry) : Word := word (rfld e.raw 64 64)
def TtEntry.dstAddr (e : TtEntry) : Word := word (rfld e.raw 128 64)
def TtEntry.mapAddr (e : TtEntry) : Word := word (rfld e.raw 192 64)
def TtEntry.first (e : TtEntry) : Nat := rfld e.raw 256 16
def TtEntry.count (e : TtEntry) : Nat := rfld e.raw 272 16
def TtEntry.len (e : TtEntry) : Nat := rfld e.raw 384 32
def TtEntry.act (e : TtEntry) : Nat := rfld e.raw 448 4
def TtEntry.stalls (e : TtEntry) : Bool := decide (rfld e.raw 456 1 = 1)

/-- Where a logical cluster lies: its package's position in the launch and its die (R278, R300). -/
def State.logicalPlace (s : State) (lid n : Nat) : Option (Nat × Nat) :=
  match s.launchOf lid with
  | some l =>
    let cs := l.clusters
    if n < l.pkgs.length * cs.length then some (n / cs.length, (cs[n % cs.length]?).getD 0 / 64) else none
  | none => none

/-- A cluster set lies in the launch and on one die (R62). -/
def State.setOk (s : State) (lid first count : Nat) : Bool :=
  (s.logicalPlace lid first).isSome && decide (1 ≤ count) &&
    (List.range count).all fun i => decide (s.logicalPlace lid (first + i) = s.logicalPlace lid first)

/-- The clusters of an entry's set on this package: none once its launch is released (log 75). -/
def State.entryClusters (s : State) (lid : Nat) (e : TtEntry) : List Nat :=
  (List.range e.count).filterMap fun i => s.clOfLogical lid (e.first + i)

/-- The entry's die is die d of this package (R62). -/
def State.entryOn (s : State) (d lid : Nat) (e : TtEntry) : Bool :=
  decide ((s.clOfLogical lid e.first).map (· / 64) = some d)

/-- A path-0 address aligned to 64 bytes (R59). -/
def ttAddr (a : Word) : Bool := decide (a.bits 60 4 = 0 ∧ a.toNat % 64 = 0) && pathForm a

/-- A well-formed entry (R59, R60, R62), as code −3 of R66 judges it. -/
def State.entryOk (s : State) (lid : Nat) (e : TtEntry) : Bool :=
  decide (rfld e.raw 457 47 = 0 ∧ rfld e.raw 452 4 = 0 ∧ rfld e.raw 416 32 = 0 ∧ rfld e.raw 288 32 = 0 ∧ rfld e.raw 504 8 ≤ 4
    ∧ 1 ≤ e.trig ∧ (e.dead = 0 ∨ e.trig ≤ e.dead) ∧ 1 ≤ e.len ∧ e.len ≤ 0x1000000 ∧ e.act ≤ 3) &&
  ttAddr e.srcAddr && ttAddr e.dstAddr && ttAddr e.mapAddr && s.setOk lid e.first e.count

/-- The sectors of an entry (R61). -/
def TtEntry.sectorCount (e : TtEntry) : Nat := segCount e.len

/-- The bytes of a sector map (R61). -/
def TtEntry.mapLen (e : TtEntry) : Nat := (e.sectorCount + 511) / 512 * 64

/-- Sector j is requested (R61). -/
def TtEntry.requested (e : TtEntry) (j : Nat) : Bool :=
  decide (j < e.sectorCount) && ((e.req[j / 8]?).getD 0).getLsbD (j % 8)

/-- The requested sectors that are not done. -/
def TtEntry.undone (e : TtEntry) : List Nat :=
  (List.range e.sectorCount).filter fun j => e.requested j && !e.sectors.contains j

/-- PROGRESS (R61): the bytes of the done requested sectors. -/
def TtEntry.progress (e : TtEntry) : Nat :=
  (e.sectors.filter e.requested).foldl (fun n j => n + segLen e.len j) 0

/-- A status's code (R59). -/
def EntStatus.code : EntStatus → Nat
  | .idle => 0 | .started => 1 | .complete => 2 | .faulted => 3 | .rejected => 4

/-- The done map (R61). -/
def TtEntry.doneMap (e : TtEntry) : List Byte :=
  (List.range e.mapLen).map fun i => BitVec.ofNat 8
    ((List.range 8).foldl (fun n k => n + (if e.sectors.contains (8 * i + k) then 2 ^ k else 0)) 0)

/-! Slots. -/

/-- A slot of a die's controller. -/
def State.slotAt (s : State) (d k : Nat) : Option TtSlot := sget none (s.dieAt d).slots k

/-- Replace a slot. -/
def State.setSlotAt (s : State) (d k : Nat) (t : Option TtSlot) : State :=
  s.updDie d fun x => { x with slots := sput none x.slots k t }

/-- An entry of a slot. -/
def State.entryAt (s : State) (d k i : Nat) : Option TtEntry := (s.slotAt d k).bind fun t => t.entries[i]?

/-- Replace an entry of a slot. -/
def State.setEntry (s : State) (d k i : Nat) (e : TtEntry) : State :=
  match s.slotAt d k with
  | some t => s.setSlotAt d k (some { t with entries := t.entries.set i e })
  | none => s

/-- The slot the issuing core is bound to, where it still holds the core's timetable (R63, R72). -/
def State.boundSlot (s : State) : Option TtSlot :=
  let m := s.core.eng.mark
  if m.armed then
    match s.slotAt s.die m.slot with
    | some t => if t.bound.contains s.vcore then some t else none
    | none => none
  else none

/-- The view of a slot's controller and executors on die d, for an entry and a cluster of its set (R64). -/
def TtSlot.view (t : TtSlot) (d : Nat) (e : TtEntry) (clu : Nat) : View :=
  { who := { die := d, vf := t.vf, asid := t.asid, sup := t.sup, vcore := e.markVcore }, cl := clu, lid := t.lid
    sw := some e.sw }

/-! Reads and writes of the controller. -/

/-- Read n bytes on path 0 as the controller: the failure is 0 for a translation fault, 1 for an error response. -/
def State.ttRead (s : State) (v : View) (ea : Word) (n : Nat) : Except Nat (List Byte) × State :=
  match s.engLocate v .load ea with
  | (.error c, s) => (.error c, s)
  | (.ok a, s) =>
    match s.engRead v.who.vf v.who.die 0 a n with
    | (.error _, s) => (.error 1, s)
    | (.ok bs, s) => (.ok bs, s)

/-- Read n blocks of 64 bytes from an address on; a failure gives the block's address too. -/
def State.ttBlocks (s : State) (v : View) (ea : Word) : Nat → Except (Nat × Word) (List Byte) × State
  | 0 => (.ok [], s)
  | n + 1 =>
    match s.ttRead v ea 64 with
    | (.error c, s) => (.error (c, ea), s)
    | (.ok bs, s) =>
      match s.ttBlocks v (ea + 64) n with
      | (.error e, s) => (.error e, s)
      | (.ok cs, s) => (.ok (bs ++ cs), s)

/-- Write bytes on path 0 as the controller; a failure writes nothing and logs the address with code 1 (R74). -/
def State.ttWrite (s : State) (v : View) (ea : Word) (bs : List Byte) : State :=
  match s.engLocate v .store ea with
  | (.error _, s) => s.logWho v.who ea 1
  | (.ok a, s) =>
    let (s, bad) := s.engWrite v.who.die 0 a (cellsAt a bs)
    if bad then s.logWho v.who ea 1 else s

/-- Write blocks of 64 bytes from an address on. -/
def State.ttWriteBlocks (s : State) (v : View) (ea : Word) (bs : List Byte) : Nat → State
  | 0 => s
  | n + 1 => (s.ttWrite v ea (bs.take 64)).ttWriteBlocks v (ea + 64) (bs.drop 64) n

/-- Write an entry's STATUS, PROGRESS and done map back to memory (R74). -/
def State.writeEntry (s : State) (d k i : Nat) : State :=
  match s.slotAt d k, s.entryAt d k i with
  | some t, some e =>
    let v := t.view d e 0
    let at_ := t.header + BitVec.ofNat 64 (64 * (i + 1))
    let s := s.ttWrite v (at_ + 40) (bytesOf e.progress 8)
    let s := s.ttWrite v (at_ + 63) (bytesOf e.status.code 1)
    s.ttWriteBlocks v (e.mapAddr + BitVec.ofNat 64 e.mapLen) e.doneMap (e.mapLen / 64)
  | _, _ => s

/-- A slot whose last bound core has left is freed when none of its entries runs on (R77). -/
def State.freeSlot (s : State) (d k : Nat) : State :=
  match s.slotAt d k with
  | none => s
  | some t =>
    if !t.releasing ∨ t.entries.any (fun e => e.status = .started) then s
    else
      let s := (List.range t.entries.length).foldl (fun s i =>
        match t.entries[i]? with
        | some e => if s.entryOn d t.lid e then s.writeEntry d k i else s
        | none => s) s
      s.setSlotAt d k none

/-! Moving sectors. -/

/-- A tier (R60): 0 where the path has none. -/
def tierOf (path : Nat) : Nat := if path = 1 then 1 else if path = 0 ∨ path = 4 then 2 else if path = 5 then 3 else 0

/-- The action permits the pairing of tiers (R60). -/
def tiersOk (act src dst : Nat) : Bool :=
  match act with
  | 0 => decide ((src = 2 ∨ src = 3) ∧ dst = 1)
  | 1 | 2 => decide (src = 1 ∧ (dst = 2 ∨ dst = 3))
  | _ => decide ((src = 2 ∨ src = 3) ∧ (dst = 2 ∨ dst = 3))

/-- The executor that moves bytes of an entry of die d is owned by the VF (R50, R71): the I/O die's where either side is
in tier 3, otherwise that of the stack that holds the physical address. -/
def State.execOwned (s : State) (vf d : Nat) (tier3 : Bool) (pa : Nat) : Bool :=
  if tier3 then (sget 0 s.ioOwn (vf + 16 * (if d % 4 < 2 then 0 else 1))).getLsbD 8
  else (sget {} (s.dieAt (homeDie pa)).own vf).exec

/-- Read bytes in tier 2 or 3 as an executor: at their home, or as an agent of the entry's die; where the two differ the
choice is free. -/
def State.execRead (s : State) (vf d path k n : Nat) : Except Nat (List Byte) × State :=
  match s.engRead vf d path k n with
  | (.ok bs, s) =>
    if path = 5 then (.ok bs, s)
    else
      match s.homeBytes k n with
      | .ok cs => let (r, s) := s.choose bs cs; (.ok r, s)
      | .error _ => (.ok bs, s)
  | r => r

/-- The code of R73 for a fault of `engLocate` on the source or the destination side. -/
def ttLoc (xlate c : Nat) : Nat := if c = 0 then xlate else if c = 3 then 0x45 else 0x44

/-- Read n bytes at k of an entry's source, from a cluster of its set where it is tier 1. -/
def State.ttSrc (s : State) (t : TtSlot) (d : Nat) (e : TtEntry) (clu k n : Nat) : Except EngFault (List Byte) × State :=
  let ea := byteAddr e.src k
  let p := recPath e.src
  let v := t.view d e clu
  match s.engLocate v .load ea with
  | (.error c, s) => (.error (ttLoc 0x42 c, ea), s)
  | (.ok a, s) =>
    let owned := if p = 1 then s.tongsOwned t.vf clu
      else decide (e.act = 1 ∨ e.act = 2) ||
        s.execOwned t.vf d (decide (p = 5 ∨ recPath e.dst = 5)) a
    if !owned then (.error (0x46, ea), s)
    else
      match (if p = 1 then s.engRead t.vf d 1 a n else s.execRead t.vf d p a n) with
      | (.error 2, s) => (.error (0x47, ea), s)
      | (.error _, s) => (.error (0x44, ea), s)
      | (.ok bs, s) => (.ok bs, s)

/-- Where bytes at k of an entry's destination go in one cluster of its set (tier 1) or in memory. -/
def State.ttDst (s : State) (t : TtSlot) (d : Nat) (e : TtEntry) (clu k : Nat) : Except EngFault Nat × State :=
  let ea := byteAddr e.dst k
  let p := recPath e.dst
  match s.engLocate (t.view d e clu) .store ea with
  | (.error c, s) => (.error (ttLoc 0x43 c, ea), s)
  | (.ok a, s) =>
    let owned := if p = 1 then s.tongsOwned t.vf clu
      else decide (e.act = 3) || s.execOwned t.vf d (decide (p = 5)) a
    if !owned then (.error (0x46, ea), s)
    else if p ≠ 1 ∧ !s.regionOk a then (.error (0x44, ea), s)
    else (.ok a, s)

/-- Where bytes at k of a fetch go: every cluster of the set. -/
def State.ttDsts (s : State) (t : TtSlot) (d : Nat) (e : TtEntry) (k : Nat) : List Nat → Except EngFault (List Nat) × State
  | [] => (.ok [], s)
  | c :: cs =>
    match s.ttDst t d e c k with
    | (.error f, s) => (.error f, s)
    | (.ok a, s) =>
      match s.ttDsts t d e k cs with
      | (.error f, s) => (.error f, s)
      | (.ok as, s) => (.ok (a :: as), s)

/-- The parts of a sector: the source cluster where the source is tier 1, the places in the two sequences, the
length. -/
def State.sectorParts (s : State) (lid : Nat) (e : TtEntry) (j : Nat) : List (Nat × Nat × Nat × Nat) :=
  let ks := splitRange (pieceSize e.src e.dst) (256 * j) (segLen e.len j)
  if e.act = 1 ∨ e.act = 2 then
    (s.entryClusters lid e).zipIdx.flatMap fun c => ks.map fun k => (c.1, k.1, c.2 * e.len + k.1, k.2)
  else ks.map fun k => (0, k.1, k.1, k.2)

/-- The pieces of a sector, in order, or its first fault. -/
def State.sectorPieces (s : State) (t : TtSlot) (d : Nat) (e : TtEntry) :
    List (Nat × Nat × Nat × Nat) → Except EngFault (List Piece) × State
  | [] => (.ok [], s)
  | (clu, sk, dk, n) :: ks =>
    match s.ttSrc t d e clu sk n with
    | (.error f, s) => (.error f, s)
    | (.ok bs, s) =>
      match s.ttDsts t d e dk (if e.act = 0 then s.entryClusters t.lid e else [clu]) with
      | (.error f, s) => (.error f, s)
      | (.ok as, s) =>
        match s.sectorPieces t d e ks with
        | (.error f, s) => (.error f, s)
        | (.ok ps, s) => (.ok ((bs, as, byteAddr e.dst dk) :: ps), s)

/-- The parts of several sectors. -/
def State.partsOf (s : State) (lid : Nat) (e : TtEntry) (js : List Nat) : List (Nat × Nat × Nat × Nat) :=
  js.flatMap (s.sectorParts lid e)

/-- Every block of m bytes of an entry's destination lies in one sector of it. -/
def TtEntry.whole (e : TtEntry) (m : Nat) : Bool := decide (e.len % m = 0) && wholeRows m e.dst

/-- The requested sectors still to be moved, but for j. -/
def TtEntry.others (e : TtEntry) (j : Nat) : List Nat := e.undone.filter (· ≠ j)

/-- The parts that sector j of an entry moves: its own, with those of other sectors that go to the same doubles (R272). -/
def State.partsWith (s : State) (lid : Nat) (e : TtEntry) (j : Nat) : List (Nat × Nat × Nat × Nat) :=
  if e.whole 8 && !e.sectors.contains j then s.sectorParts lid e j
  else wholeDoubles (fun k => walkDouble e.dst k.2.2.1) (s.sectorParts lid e j) (s.partsOf lid e (e.others j))
    (s.partsOf lid e e.sectors)

/-- Once sector j has landed, a granule still waits for other bytes of the entry (R85). -/
def State.lacks (s : State) (lid : Nat) (e : TtEntry) (j g : Nat) : Bool :=
  !e.whole 16 && outstanding e.dst (·.2.2.1) (s.partsOf lid e (e.others j)) (s.partsOf lid e (j :: e.sectors)) g

/-- Move sector j of an entry (R60, R61): nothing of it is written where a byte of it faults. Bytes of other requested
sectors that share an aligned double of the destination with it go with it (R272). A fetch sets each granule full once all
the entry's bytes of it have landed (R70, R85). -/
def State.moveSector (s : State) (t : TtSlot) (d : Nat) (e : TtEntry) (j : Nat) : Except EngFault Unit × State :=
  let parts := s.partsWith t.lid e j
  match s.sectorPieces t d e parts with
  | (.error f, s) => (.error f, s)
  | (.ok ps, s) =>
    let (ps, s) := s.arbitrate ps
    let (s, bad) := s.landPieces d ps
    match bad with
    | some a => (.error (0x44, a), s)
    | none =>
      let at_ := fun (k : Nat × Nat × Nat × Nat) => (k.2.2.1, k.2.2.2)
      (.ok (), if e.act = 0 then s.fillDone e.dst (parts.map at_) ps (s.lacks t.lid e j) else s)

/-! The end of an entry. -/

/-- The trace record of an entry that has ended (R385), and its write-back (R74). -/
def State.entryEnded (s : State) (d k i : Nat) : State :=
  match s.slotAt d k, s.entryAt d k i with
  | some t, some e =>
    let s := s.trace d t.vf e.markVcore e.markWin 9 (word (put i 32 32 + put e.status.code 24 8)) 0
    (s.writeEntry d k i).freeSlot d k
  | _, _ => s

/-- Every source granule of every cluster of the set becomes empty (R60, R70). -/
def State.evictSource (s : State) (lid : Nat) (e : TtEntry) : State :=
  let n := recE e.src
  let gs := (List.range (recLen e.src / n)).map fun i => (wordI (elemAddr e.src i)).bits 0 23 / 16
  (s.entryClusters lid e).foldl (fun s c => gs.foldl (fun s g => s.setGran c g false) s) s

/-- An entry all of whose requested sectors are done is complete (R61). -/
def State.completeEntry (s : State) (d k i : Nat) : State :=
  match s.slotAt d k, s.entryAt d k i with
  | some t, some e =>
    if e.status ≠ .started ∨ e.undone ≠ [] then s
    else
      let s := s.setEntry d k i { e with status := .complete }
      let s := if e.act = 1 then s.evictSource t.lid e else s
      s.entryEnded d k i
  | _, _ => s

/-- End an entry by a fault, with its record (R73, R344, R345). -/
def State.faultEntry (s : State) (d k i : Nat) (f : EngFault) : State :=
  match s.slotAt d k, s.entryAt d k i with
  | some t, some e =>
    let st : EntStatus := if f.1 = 0x40 ∨ f.1 = 0x41 ∨ f.1 = 0x48 then .rejected else .faulted
    let s := { s with seq := s.seq + 1 }
    let s := s.setEntry d k i { e with status := st, code := f.1, faddr := f.2, fseq := s.seq }
    let s := s.pushFault d t.vf e.markVcore
      (faultRecord s.time f.2 e.progress e.markPc i k 0 f.1 t.vf 2 e.markVcore e.markWin 0 0)
    s.entryEnded d k i
  | _, _ => s

/-! The start of an entry. -/

/-- The records of an entry obey what R102 adds for the Bellows, and keep to their paths (code 0x40). -/
def ttRecOk (r : BitVec 512) : Bool :=
  !recMalformed r && decide (recSig r = 0 ∧ recFirst r = 0 ∧ recCount r = 0) && walkOk r

/-- The causes for which the records just read reject the entry (R60, R73). -/
def TtEntry.rejections (e : TtEntry) (src dst : Option (BitVec 512)) : List Nat :=
  let n := if e.act = 1 ∨ e.act = 2 then e.count * e.len else e.len
  let ok := fun (o : Option (BitVec 512)) (p : BitVec 512 → Bool) => match o with
    | some r => p r
    | none => true
  (if ok src ttRecOk && ok dst ttRecOk then [] else [0x40]) ++
    (if ok src fun a => ok dst fun b => tiersOk e.act (tierOf (recPath a)) (tierOf (recPath b)) then [] else [0x41]) ++
    (if (ok src fun a => decide (recLen a = e.len)) && (ok dst fun b => decide (recLen b = n)) then [] else [0x48])

/-- The causes of faults among what could not be read: a code and an address. -/
def readFault (xlate : Nat) (a : Word) (r : Except Nat (List Byte)) : List EngFault :=
  match r with
  | .error 0 => [(xlate, a)]
  | .error _ => [(0x44, a)]
  | .ok _ => []

/-- The record read, if it was. -/
def readRec (r : Except Nat (List Byte)) : Option (BitVec 512) :=
  match r with
  | .ok bs => some (recOf bs)
  | .error _ => none

/-- Read the records and the request map of a started entry and judge it (R60, R73). Where several causes end it, which
one is reported is free; a rejection names no address, so its FADDR is free. -/
def State.beginEntry (s : State) (d k i : Nat) : State :=
  match s.slotAt d k, s.entryAt d k i with
  | some t, some e =>
    let v := t.view d e 0
    let (src, s) := s.ttRead v e.srcAddr 64
    let (dst, s) := s.ttRead v e.dstAddr 64
    let (req, s) := s.ttBlocks v e.mapAddr (e.mapLen / 64)
    let e := { e with src := (readRec src).getD 0, dst := (readRec dst).getD 0 }
    let (free, s) :=
      if e.rejections (readRec src) (readRec dst) = [] then (0, s) else s.free
    let causes := readFault 0x42 e.srcAddr src ++ readFault 0x43 e.dstAddr dst ++
      (match req with
        | .error (c, a) => [(ttLoc 0x43 c, a)]
        | .ok _ => []) ++
      (e.rejections (readRec src) (readRec dst)).map fun c => (c, word free)
    match causes, req with
    | f :: fs, _ =>
      let s := s.setEntry d k i e
      let (f, s) := s.pick f (f :: fs)
      s.faultEntry d k i f
    | [], .ok m => (s.setEntry d k i { e with req := m }).completeEntry d k i
    | [], .error _ => s
  | _, _ => s

/-- Start an idle entry for the issuing core's `mark` (R68, R72). -/
def State.startEntry (s : State) (d k i : Nat) : State :=
  match s.entryAt d k i with
  | some e =>
    (s.setEntry d k i { e with
      status := .started, sw := s.switches, markPc := s.core.pc, markWin := s.core.cur
      markVcore := s.vcore }).beginEntry d k i
  | none => s

/-! The events of a started entry. -/

/-- Sector j of a started entry is done (R61); nothing happens where it is not requested, is done or faults. -/
def State.sectorDone (s : State) (d k i j : Nat) : State :=
  match s.slotAt d k, s.entryAt d k i with
  | some t, some e =>
    if e.status ≠ .started ∨ !e.undone.contains j then s
    else
      match s.moveSector t d e j with
      | (.error _, _) => s
      | (.ok _, s) => (s.setEntry d k i { e with sectors := e.sectors ++ [j] }).completeEntry d k i
  | _, _ => s

/-- The fault of the lowest undone sector that faults now (R345). -/
def State.firstSectorFault (s : State) (t : TtSlot) (d : Nat) (e : TtEntry) : List Nat → Option EngFault
  | [] => none
  | j :: js =>
    match (s.moveSector t d e j).1 with
    | .error f => some f
    | .ok _ => s.firstSectorFault t d e js

/-- A started entry with a sector that faults ends by it (R73). -/
def State.entryFaults (s : State) (d k i : Nat) : State :=
  match s.slotAt d k, s.entryAt d k i with
  | some t, some e =>
    if e.status ≠ .started then s
    else
      match s.firstSectorFault t d e e.undone with
      | some f => s.faultEntry d k i f
      | none => s
  | _, _ => s

/-- One step of an entry: its next sector moves, or it faults. -/
def State.entryStep (s : State) (d k i : Nat) : State :=
  match s.slotAt d k, s.entryAt d k i with
  | some t, some e =>
    match e.undone with
    | [] => s.completeEntry d k i
    | j :: _ =>
      match s.moveSector t d e j with
      | (.error _, _) => s.entryFaults d k i
      | (.ok _, _) => s.sectorDone d k i j
  | _, _ => s

/-- An executor finishes a sector (R61, R71). -/
def execSectorDone (die slot entry sector : Nat) (s : State) : Out := .next (s.sectorDone die slot entry sector)

/-- An entry is faulted (R73). -/
def execEntryFault (die slot entry : Nat) (s : State) : Out := .next (s.entryFaults die slot entry)

/-! Binding. -/

/-- Unread, read entries of a timetable, in order. -/
def State.readEntries (s : State) (v : View) (ea : Word) : Nat → List (Option TtEntry) × State
  | 0 => ([], s)
  | n + 1 =>
    let (r, s) := s.ttRead v ea 64
    let (es, s) := s.readEntries v (ea + 64) n
    ((readRec r).map (fun b => ({ raw := b } : TtEntry)) :: es, s)

/-- The entries are sorted by TRIG in non-decreasing order (R67). -/
def sortedTrig : List TtEntry → Bool
  | a :: b :: es => decide (a.trig ≤ b.trig) && sortedTrig (b :: es)
  | _ => true

/-- The header is well formed (R58). -/
def headerOk (h : BitVec 512) : Bool :=
  decide (rfld h 24 488 = 0 ∧ rfld h 16 8 = 1 ∧ 1 ≤ rfld h 0 16 ∧ rfld h 0 16 ≤ 4096)

/-- Bind the issuing core to a slot: its result and `cr.mark` (R66). The cluster sets stay those of the launch that armed
it (log 75). -/
def State.bind (s : State) (k : Nat) (t : TtSlot) : Word × State :=
  let s := s.setSlotAt s.die k (some { t with bound := t.bound ++ [s.vcore], releasing := false })
  (word k, s.updCore fun c => { c with eng := { c.eng with mark := { armed := true, slot := k } } })

/-- Whether the earlier stores of the core have reached memory when the controller reads is free. -/
def State.maybeDrained (s : State) : State :=
  if s.core.m.sbuf = [] then s
  else
    let (b, s) := s.pick true [true, false]
    if b then s.drained else s

/-- Allocate slot k for a timetable (R66, R426): X(D) and the state. -/
def State.arm (s : State) (ea : Word) (k : Nat) : Word × State :=
  let d := s.die
  let v : View := { who := s.who, cl := s.cl, lid := s.core.dom.launch }
  let held := (s.dieAt d).slots.foldl (fun n t => n + (t.2.map (·.entries.length)).getD 0) 0
  let other := if s.core.eng.mark.armed then 4 else 5
  let (h, s) := s.maybeDrained.ttRead v ea 64
  match readRec h with
  | none => (neg other, s)
  | some h =>
    let n := rfld h 0 16
    if 16384 < held + n then (neg 1, s)
    else if !headerOk h then (neg 2, s)
    else
      let (es, s) := s.readEntries v (ea + 64) n
      let read := es.filterMap id
      if !(read.all (s.entryOk v.lid)) ∨ !sortedTrig read then (neg 3, s)
      else if s.core.eng.mark.armed then (neg 4, s)
      else if read.length < n then (neg 5, s)
      else
        s.bind k
          { header := ea, asid := s.core.asid, vf := s.core.vf, sup := s.core.sup, lid := v.lid, entries := read
            bound := [] }

/-- `ttarm` after the checks of its address (R66). A core of no launch has no cluster set (R62). The lowest free slot is
taken (log 75). -/
def State.ttarm (s : State) (ea : Word) : Word × State :=
  let d := s.die
  let mine := fun (t : TtSlot) => decide (t.header = ea ∧ t.asid = s.core.asid ∧ t.vf = s.core.vf)
  let holds := (List.range 16).find? fun k => match s.slotAt d k with
    | some t => mine t
    | none => false
  match s.boundSlot.map mine, holds, (List.range 16).find? (fun k => (s.slotAt d k).isNone) with
  | some true, _, _ => (word s.core.eng.mark.slot, s)
  | _, some k, _ =>
    if (s.launchOf s.core.dom.launch).isNone then (neg 3, s)
    else if s.core.eng.mark.armed then (neg 4, s)
    else
      match s.slotAt d k with
      | some t => s.bind k t
      | none => (neg 1, s)
  | _, none, none => (neg 1, s)
  | _, none, some k => s.arm ea k

/-- `ttarm` (R66). -/
def execTtarm (d a stl : Nat) (s : State) : Out :=
  s.issue { xs := [a], xd := [d] } fun s =>
    let ea := s.core.x a
    if ea.bits 60 4 ≠ 0 ∨ !pathForm ea then s.trap 9 ea
    else if ea.toNat % 64 ≠ 0 then s.trap 6 ea
    else
      let (v, s) := s.ttarm ea
      s.doneX d v stl

/-! Markers. -/

/-- Start every idle entry of the core's slot whose trigger is reached (R68). -/
def State.startTriggered (s : State) (m : Nat) : State :=
  match s.boundSlot with
  | none => s
  | some t =>
    let d := s.die
    let k := s.core.eng.mark.slot
    (List.range t.entries.length).foldl (fun s i =>
      match s.entryAt d k i with
      | some e =>
        if s.entryOn d t.lid e ∧ e.status = .idle ∧ e.trig ≤ m then s.startEntry d k i else s
      | none => s) s

/-- The entries whose deadlines a `mark` checks, in ascending index order (R68). -/
def State.checkedEntries (s : State) (m : Nat) : List (Nat × TtEntry) :=
  match s.boundSlot with
  | none => []
  | some t =>
    (t.entries.zipIdx.filter fun e => s.entryOn s.die t.lid e.1 && (s.entryClusters t.lid e.1).contains s.cl &&
      decide (s.core.eng.mark.mark < e.1.dead ∧ e.1.dead ≤ m)).map fun e => (e.2, e.1)

/-- The core sees the deliveries of the entries that its `mark` has found complete (R70). -/
def State.markSees (s : State) (es : List (Nat × TtEntry)) : State :=
  if es.any fun e => e.2.act ≠ 0 then s.acquire true else s

/-- The end of a `mark` whose deadlines have all passed. -/
def State.markPassed (s : State) (m : Nat) (stl : Nat) : Out :=
  (s.updCore fun c => { c with eng := { c.eng with mark := { c.eng.mark with mark := m } } }).retire 4 stl

/-- A `mark` stalls on entry i: it counts the miss once (R63, R68). -/
def State.markStall (s : State) (i : Nat) : Out :=
  let counted := s.core.inWait .mark && decide ((s.core.wait.map (·.addr)) = some (word (i + 1)))
  let s := if counted then s
    else (s.count 15 1).updCore fun c => { c with eng := { c.eng with mark := { c.eng.mark with
      misses := Nat.min (c.eng.mark.misses + 1) 0xFFFF } } }
  match s.waiting .mark 0 (word (i + 1)) with
  | .next s => .next (s.updCore fun c => { c with wait := c.wait.map fun w => { w with addr := word (i + 1) } })
  | o => o

/-- The failed work that a `mark` of m would report (R68, R346). -/
def State.markFault (s : State) (m : Nat) : Option (Nat × Nat) :=
  if !s.core.eng.mark.armed ∨ m ≤ s.core.eng.mark.mark then none
  else
    match (s.checkedEntries m).find? fun e => e.2.status ≠ .complete with
    | some (i, e) => if (e.status = .faulted ∨ e.status = .rejected) ∧ e.stalls then some (e.fseq, i) else none
    | none => none

/-- `mark` (R68). -/
def execMark (a : Nat) (off : BitVec 6) (stl : Nat) (s : State) : Out :=
  s.issue { xs := [a], own := true } fun s =>
    let m := (s.core.x a + off.setWidth 64).bits 0 32
    State.async (if s.tripFault.isSome then s.markFault m else none) (s := s) fun s =>
    if !s.core.eng.mark.armed ∨ m ≤ s.core.eng.mark.mark then s.retire 4 stl
    else
      let s := s.drained.startTriggered m
      let es := s.checkedEntries m
      let s := s.markSees (es.takeWhile fun e => e.2.status = .complete)
      match es.find? fun e => e.2.status ≠ .complete with
      | none => s.markPassed m stl
      | some (i, e) =>
        if (e.status = .faulted ∨ e.status = .rejected) ∧ e.stalls then s.trap 13 (word i)
        else if !e.stalls then s.trap 12 (word i)
        else s.markStall i

/-! Queries, replays and unbinding. -/

/-- The entry of an index, where the core is bound and the entry's die is its die (R75, R76). -/
def State.myEntry (s : State) (i : Nat) : Option TtEntry :=
  match s.boundSlot with
  | some t => (t.entries[i]?).filter fun e => s.entryOn s.die t.lid e
  | none => none

/-- `ttq` (R75). -/
def execTtq (d a stl : Nat) (s : State) : Out :=
  s.issue { xs := [a], xd := [d] } fun s =>
    match s.myEntry (s.core.x a).toNat with
    | some e => s.doneX d (word (put e.status.code 56 8 + e.progress)) stl
    | none => s.doneX d (neg 1) stl

/-- `ttreplay` (R76): the records and the map are read again (R73). -/
def execTtreplay (d a stl : Nat) (s : State) : Out :=
  s.issue { xs := [a], xd := [d] } fun s =>
    let i := (s.core.x a).toNat
    let k := s.core.eng.mark.slot
    match s.myEntry i with
    | none => s.doneX d (neg (if s.boundSlot.isSome then 3 else 4)) stl
    | some e =>
      match e.status with
      | .rejected => s.doneX d (neg 2) stl
      | .faulted =>
        let s := s.setEntry s.die k i { e with status := .started, sw := s.switches }
        ((s.writeEntry s.die k i).beginEntry s.die k i).doneX d 0 stl
      | _ => s.doneX d (neg 1) stl

/-- `ttoff` (R77): on an unbound core it changes nothing but X(D). -/
def execTtoff (d stl : Nat) (s : State) : Out :=
  s.issue { xd := [d] } fun s =>
    let k := s.core.eng.mark.slot
    let n := match s.boundSlot with
      | some t => (t.entries.filter fun e => e.status = .started).length
      | none => 0
    let s := match s.boundSlot with
      | some t =>
        let bound := t.bound.filter (· ≠ s.vcore)
        (s.setSlotAt s.die k (some { t with bound, releasing := decide (bound = []) })).freeSlot s.die k
      | none => s
    (if s.core.eng.mark.armed then s.updCore fun c => { c with eng := { c.eng with mark := {} } } else s).doneX d
      (word n) stl

end Sys2Proof.Machine
end

