-- ==== Sys2Proof/Machine/FullEmpty.lean ====
section
/-! DEFINITION. Bank roles, full-empty granules and FIFO banks: majors 0x36, 0x37 and 0x38 (R79 to R100). -/
namespace Sys2Proof.Machine

/-! Bank roles. -/

/-- The role a bank will hold once every switch received for it has ended (R82). -/
def Bank.pending (k : Bank) : Role := (k.queue.getLast?).getD (k.switching.getD k.role)

/-- Order a switch of a bank (R82, R83): it begins at once where the bank is idle. -/
def State.orderSwitch (s : State) (clu b : Nat) (r : Role) : State :=
  (s.updBank clu b fun k => { k with queue := k.queue ++ [r] }).bankBegin clu b

/-- The banks of a mask (R81). -/
def banksOf (m : Word) : List Nat := (List.range 24).filter fun b => m.bit b

/-- `bcfg.c`, `bcfg.s` and `bcfg.f` (R82): X(D) := the banks for which a switch was ordered. -/
def State.bcfg (r : Role) (d a stl : Nat) (s : State) : Out :=
  s.issue { xs := [a], xd := [d] } fun s =>
    let bs := (banksOf (s.core.x a)).filter fun b => (s.bank s.cl b).pending ≠ r
    (bs.foldl (fun s b => s.orderSwitch s.cl b r) s).doneX d (word (bs.foldl (fun n b => n + 2 ^ b) 0)) stl

/-- `bcfg.c` (R82). -/
def execBcfgC (d a stl : Nat) (s : State) : Out := s.bcfg .cache d a stl

/-- `bcfg.s` (R82). -/
def execBcfgS (d a stl : Nat) (s : State) : Out := s.bcfg .scratch d a stl

/-- `bcfg.f` (R82). -/
def execBcfgF (d a stl : Nat) (s : State) : Out := s.bcfg .fifo d a stl

/-- The code of a bank (R84): 3 from the start of a switch until no switch is owed. -/
def Bank.code (k : Bank) : Nat :=
  if k.switching ≠ none ∨ k.queue ≠ [] then 3
  else match k.role with
    | .cache => 0
    | .scratch => 1
    | .fifo => 2

/-- `bq` (R84). -/
def execBq (d a stl : Nat) (s : State) : Out :=
  s.issue { xs := [a], xd := [d], mem := false } fun s =>
    s.doneX d (word ((banksOf (s.core.x a)).foldl (fun n b => n + put (s.bank s.cl b).code (2 * b) 2) 0)) stl

/-- The switch a bank is owed begins (R82, R83). -/
def execBankSwitchBegin (die cl bank : Nat) (s : State) : Out := .next (s.bankBegin (64 * die + cl) bank)

/-- The switch a bank is in ends, and the next one queued begins (R82, R83). -/
def execBankSwitchEnd (die cl bank : Nat) (s : State) : Out :=
  .next ((s.bankEnd (64 * die + cl) bank).bankBegin (64 * die + cl) bank)

/-! Full-empty instructions. -/

/-- A path-1 or path-2 address that R37 permits, whatever the bank's role. -/
def State.fePath (s : State) (ea : Word) : Bool :=
  let p := ea.bits 60 4
  decide (p = 1 ∨ p = 2) && pathForm ea && decide (ea.bits 0 23 < 0x600000) &&
    (decide (p ≠ 2) || decide (ea.bits 40 8 < s.core.dom.ncl))

/-- The error response of a full-empty instruction: logged, and reported as FE (R92). -/
def State.feError (s : State) (ea : Word) (code : Nat) : Out := (s.logErr ea code).trap 15 ea

/-- The error response that reached the core while it waited is reported (R82 step 2, R92); it is logged already. -/
def State.feReport (s : State) (a : Word) : Out := (s.updCore fun c => { c with feErr := none }).trap 15 a

/-- An instruction that waits already in this kind of wait goes on from it with the address and length it awaits: an
error response first. -/
def State.feResume (s : State) (k : WaitKind) (again : Word → Nat → State → Out) (fresh : State → Out) : Out :=
  match (if s.core.inWait k then s.core.wait else none) with
  | none => fresh (s.updCore fun c => { c with feErr := none })
  | some w =>
    match s.core.feErr with
    | some a => s.feReport a
    | none => again w.addr w.len s

/-- The access of a full-empty instruction to n bytes at X(A) reaches its bank (R87, R96): PATH, ALIGN, the drain, the
bank's role, and watchpoints, as a load, a store or both (R394). -/
def State.feAccess (s : State) (load store : Bool) (ea : Word) (n align : Nat) (k : Nat → State → Out) (other : State → Out) :
    Out :=
  if !s.fePath ea then s.trap 9 ea
  else
    match s.locate .load ea align with
    | (.error c, s) => s.trap c ea
    | (.ok a, s) =>
      if isFar a then s.drained.watchAccess load store [(ea.toNat, n)] other
      else
        let s := s.drained.settleBank (scrCl a) (bankNo (scrOff a))
        if !s.scrOk a then s.trap 9 ea else s.watchAccess load store [(ea.toNat, n)] (k a)

/-- `ld.sync`, `take` or `fpop` at another package's cluster: the double may have come, or the core waits (log 33). -/
def State.farTake (k : WaitKind) (d : Nat) (ea : Word) (stl : Nat) (s : State) : Out :=
  let (wait, s) := s.choose false true
  if wait then s.waiting k 0 ea 8
  else
    let (bs, s) := s.farBytes 8
    (s.acquire true).doneX d (word (natOf bs)) stl

/-- A `put` or a `fpush` at another package's cluster: whether it finds room there is free, and where it does it is a release
(log 33). -/
def State.farPut (d stl : Nat) (s : State) : Out :=
  let (full, s) := s.choose false true
  (if full then s else s.releaseDev s.focus).doneX d (word (b2n full)) stl

/-- The double at a model address is delivered by `ld.sync` or `take`, an acquire (R96). -/
def State.feDeliver (s : State) (d a : Nat) (stl : Nat) : Out :=
  (s.acquireFrom (scrCl a)).doneX d (word (natOf (s.bytes a 8))) stl

/-- `ld.sync` at its granule (R88). -/
def State.ldSync (d : Nat) (ea : Word) (stl a : Nat) (s : State) : Out :=
  if !s.isFull (scrCl a) (scrOff a / 16) then s.waiting .ldSync 0 ea 8
  else if s.poisoned a 8 then s.feError ea 2
  else s.feDeliver d a stl

/-- `ld.sync` (R88). -/
def execLdSync (d a stl : Nat) (s : State) : Out :=
  s.issue { xs := [a], xd := [d], acc := true } fun s =>
    let ea := s.core.x a
    s.feResume .ldSync (fun ea _ s =>
        if isFar (s.scratchOf ea) then s.farTake .ldSync d ea stl else s.ldSync d ea stl (s.scratchOf ea))
      (fun s => s.feAccess true false ea 8 8 (fun k s => s.ldSync d ea stl k) (State.farTake .ldSync d ea stl))

/-- Join a bank's deferred list (R89, R91): a full list is an error response. -/
def State.join (s : State) (k : WaitKind) (d : Nat) (ea : Word) (clu off : Nat) : Out :=
  let b := bankNo off
  if 32 ≤ (s.bank clu b).deferred.length then s.feError ea 3
  else
    let (c, ws) := (s.count 16 1).core.tag (resX d 0)
    let e : Deferred := { core := s.focus, win := s.core.cur, off, slot := (ws.head?).map (·.1) }
    (({ s with core := c } : State).updBank clu b fun x => { x with deferred := x.deferred ++ [e] }).waiting k 0 ea 8

/-- The core still stands in a bank's deferred list. -/
def State.deferredIn (s : State) (clu off : Nat) : Bool :=
  (s.bank clu (bankNo off)).deferred.any fun e => e.core = s.focus

/-- A deferred take or pop goes on waiting, or has been served: its value has landed (R91). -/
def State.served (s : State) (k : WaitKind) (d : Nat) (ea : Word) (stl : Nat) : Out :=
  let a := s.scratchOf ea
  if isFar a then s.farTake k d ea stl
  else if s.deferredIn (scrCl a) (scrOff a) then s.waiting k else (s.acquireFrom (scrCl a)).retire 4 stl

/-- `take` (R89, R91); for watchpoints it loads its double and stores its full-empty bit (log 40). -/
def execTake (d a stl : Nat) (s : State) : Out :=
  s.issue { xs := [a], xd := [d], acc := true } fun s =>
    let ea := s.core.x a
    s.feResume .take (fun ea _ s => s.served .take d ea stl) fun s =>
      s.feAccess true true ea 8 8 (fun k s =>
        if !s.isFull (scrCl k) (scrOff k / 16) then s.join .take d ea (scrCl k) (scrOff k)
        else if s.poisoned k 8 then s.feError ea 2
        else (s.setGran (scrCl k) (scrOff k / 16) false).feDeliver d k stl) (State.farTake .take d ea stl)

/-- `put` (R90): one that sets the granule full is a release (R96). -/
def execPut (d a src stl : Nat) (s : State) : Out :=
  s.issue { xs := [a, src], xd := [d], acc := true } fun s =>
    let ea := s.core.x a
    let v := s.core.x src
    s.feAccess false true ea 8 8 (fun k s =>
      let g := scrOff k / 16
      if s.isFull (scrCl k) g then (s.logErr ea 3).doneX d 1 stl
      else (((s.releaseTo (scrCl k)).write (cellsAt k (bytesOf v.toNat 8))).1.fillGran (scrCl k) g).doneX d 0 stl)
      (State.farPut d stl)

/-- `fe.q` (R94): no alignment rule (R87). -/
def execFeQ (d a stl : Nat) (s : State) : Out :=
  s.issue { xs := [a], xd := [d], acc := true } fun s =>
    let ea := s.core.x a
    s.feAccess true false ea 1 1 (fun k s =>
      let n := (s.bank (scrCl k) (bankNo (scrOff k))).deferred.length
      s.doneX d (word (b2n (s.isFull (scrCl k) (scrOff k / 16)) + put n 8 6)) stl)
      (fun s => let (n, s) := s.free; s.doneX d (word (n % 2 + put (n / 2 % 33) 8 6)) stl)

/-- The banks that [off, off + n) touches. -/
def banksIn (off n : Nat) : List Nat :=
  (List.range 24).filter fun b => meets off n (b * 0x40000) 0x40000

/-- The address of the first byte of the range that is outside every scratchpad bank, if any (R87). -/
def State.firstOffence (s : State) (clu : Nat) (ea : Word) (n : Nat) : Option Word :=
  let off := ea.bits 0 23
  let at_ := fun (o : Nat) => ea + BitVec.ofNat 64 (Nat.max off o - off)
  match (banksIn off (Nat.min n (0x600000 - off))).find? fun b => (s.bank clu b).role ≠ .scratch with
  | some b => some (at_ (b * 0x40000))
  | none => if 0x600000 < off + n then some (at_ 0x600000) else none

/-- Wait for the switches of the banks that [off, off + n) touches (R37). -/
def State.settleBanks (s : State) (clu off n : Nat) : State := (banksIn off n).foldl (fun s b => s.settleBank clu b) s

/-- The range of `fe.set`, `fe.clr` and `fe.wait` (R87): its checks, the drain, after which the banks' roles are checked again,
watchpoints (R394), and what is done at its cluster. -/
def State.feRange (s : State) (store : Bool) (ea len : Word) (stl : Nat) (k : Nat → State → Out) (other : State → Out) : Out :=
  let n := len.toNat
  if n = 0 then
    if ¬ (ea.bits 60 4 = 1 ∨ ea.bits 60 4 = 2) then s.trap 9 ea
    else if ea.toNat % 16 ≠ 0 then s.trap 6 ea
    else s.drained.watchAccess (!store) store [] (·.retire 4 stl)
  else if !s.fePath ea then s.trap 9 ea
  else
    let a := s.scratchOf ea
    let clu := scrCl a
    let s := if isFar a then s else s.settleBanks clu (ea.bits 0 23) n
    match (if isFar a then none else s.firstOffence clu ea n) with
    | some x => s.trap 9 x
    | none =>
      if ea.toNat % 16 ≠ 0 then s.trap 6 ea
      else if n % 16 ≠ 0 then s.trap 6 len
      else
        let s := if isFar a then s.drained else s.drained.settleBanks clu (ea.bits 0 23) n
        match (if isFar a then none else s.firstOffence clu ea n) with
        | some x => s.trap 9 x
        | none => s.watchAccess (!store) store [(ea.toNat, n)] (if isFar a then other else k clu)

/-- `fe.set` (R93). -/
def execFeSet (a l stl : Nat) (s : State) : Out :=
  s.issue { xs := [a, l], acc := true } fun s =>
    let ea := s.core.x a
    let len := s.core.x l
    s.feRange true ea len stl (fun clu s => (s.fillRange clu (ea.bits 0 23) len.toNat).retire 4 stl)
      (·.retire 4 stl)

/-- Set granules empty in ascending order. -/
def State.clearRange (s : State) (clu off n : Nat) : State :=
  (List.range (n / 16)).foldl (fun s i => s.setGran clu (off / 16 + i) false) s

/-- `fe.clr` (R93). -/
def execFeClr (a l stl : Nat) (s : State) : Out :=
  s.issue { xs := [a, l], acc := true } fun s =>
    let ea := s.core.x a
    let len := s.core.x l
    s.feRange true ea len stl (fun clu s => (s.clearRange clu (ea.bits 0 23) len.toNat).retire 4 stl)
      (·.retire 4 stl)

/-! Failed work a wait depends on (R95, R346). -/

/-- A destination walk writes in [lo, lo + n) of a cluster; the cluster of an element is given by f. -/
def walkCovers (r : BitVec 512) (f : Word → Bool) (lo n : Nat) : Bool :=
  (List.range (recLen r / recE r)).any fun i =>
    let ea := wordI (elemAddr r i)
    f ea && meets (ea.bits 0 23) (recE r) lo n

/-- A copy's destination covers a granule of [lo, lo + n) of a cluster. -/
def State.cmdCovers (s : State) (c : Cmd) (clu lo n : Nat) : Bool :=
  if c.form = .mcast then
    ((List.range (recCount c.dst)).any fun i => s.clOfLogical c.lid (recFirst c.dst + i) = some clu) &&
      walkCovers c.dst (fun _ => true) lo n
  else walkCovers c.dst (fun ea =>
    if ea.bits 60 4 = 1 then decide (c.cl = clu)
    else ea.bits 60 4 = 2 && decide (s.clOfLogical c.lid (ea.bits 40 8) = some clu)) lo n

/-- An entry's destination covers a granule of [lo, lo + n) of a cluster; a rejected entry whose destination cannot be
walked covers every granule (R95). -/
def entryCovers (e : TtEntry) (lo n : Nat) : Bool :=
  (decide (e.status = .rejected) && !ttRecOk e.dst) || walkCovers e.dst (fun ea => ea.bits 60 4 = 1) lo n

/-- The failed work that a wait for [lo, lo + n) of a cluster depends on, as `cr.tval` names it: the one whose record
came first (R95, R346). The copies are those of the window the core issues in. -/
def State.asyncWork (s : State) (clu lo n : Nat) : Option (Nat × Nat) :=
  let cs := (s.core.eng.cmds.filter fun c =>
    c.state = .faulted && decide (c.win = s.core.cur) && s.cmdCovers c clu lo n).map fun c => (c.fseq, c.ticket)
  let es := (s.dieAt (clu / 64)).slots.flatMap fun t => match t.2 with
    | none => []
    | some t => (t.entries.zipIdx.filter fun e =>
        (decide (e.1.status = .faulted) || decide (e.1.status = .rejected)) &&
          (s.entryClusters t.lid e.1).contains clu && entryCovers e.1 lo n).map fun e => (e.1.fseq, 0x40000000 + e.2)
  (cs ++ es).foldl (fun (b : Option (Nat × Nat)) x => match b with
    | none => some x
    | some y => if x.1 < y.1 then some x else some y) none

/-- That work as `cr.tval` names it. -/
def State.asyncFault (s : State) (clu lo n : Nat) : Option Word := (s.asyncWork clu lo n).map fun x => word x.2

/-- Every granule of [lo, lo + n) is full. -/
def State.allFull (s : State) (clu lo n : Nat) : Bool :=
  (List.range ((lo + n + 15) / 16 - lo / 16)).all fun i => s.isFull clu (lo / 16 + i)

/-- `fe.wait` at its range (R95). -/
def State.feWait (ea : Word) (n stl clu : Nat) (s : State) : Out :=
  let lo := ea.bits 0 23
  if s.allFull clu lo n then (s.acquireFrom clu).retire 4 stl
  else
    match s.asyncFault clu lo n with
    | some v => s.trap 13 v
    | none => s.waiting .feWait 0 ea n

/-- `fe.wait` at another package's cluster: its granules may be full, or the core waits (log 33). -/
def State.farWait (ea : Word) (n stl : Nat) (s : State) : Out :=
  let (wait, s) := s.choose false true
  if wait then s.waiting .feWait 0 ea n else (s.acquire true).retire 4 stl

/-- `fe.wait` (R95). -/
def execFeWait (a l stl : Nat) (s : State) : Out :=
  s.issue { xs := [a, l], own := true, acc := true } fun s =>
    let ea := s.core.x a
    let len := s.core.x l
    let k := s.scratchOf ea
    let stuck := s.fePath ea && !isFar k && !s.allFull (scrCl k) (scrOff k) len.toNat
    State.async (if s.tripFault.isSome ∧ stuck then s.asyncWork (scrCl k) (scrOff k) len.toNat else none) (s := s) fun s =>
    s.feResume .feWait (fun ea n s =>
        if isFar (s.scratchOf ea) then s.farWait ea n stl else s.feWait ea n stl (scrCl (s.scratchOf ea)))
      (fun s => s.feRange false ea len stl (fun clu s => s.feWait ea len.toNat stl clu) (State.farWait ea len.toNat stl))

/-! FIFO banks. -/

/-- The access of a FIFO instruction reaches its bank (R98, R100): PATH, ALIGN, the drain, after which the bank's role is
checked again, and watchpoints on the n bytes at X(A) (R394). -/
def State.fifoAccess (s : State) (store : Bool) (ea : Word) (n : Nat) (k : Nat → Nat → State → Out) (other : State → Out) :
    Out :=
  if !s.fePath ea then s.trap 9 ea
  else
    let a := s.scratchOf ea
    let b := bankNo (ea.bits 0 23)
    let settled := fun (s : State) => if isFar a then s else s.settleBank (scrCl a) b
    let wrong := fun (s : State) => decide (¬ isFar a ∧ (s.bank (scrCl a) b).role ≠ .fifo)
    let s := settled s
    if wrong s then s.trap 9 ea
    else if ea.bits 0 23 % 0x40000 ≠ 0 then s.trap 6 ea
    else
      let s := settled s.drained
      if wrong s then s.trap 9 ea
      else s.watchAccess (!store) store [(ea.toNat, n)] (if isFar a then other else k (scrCl a) b)

/-- `fpush` (R99): the oldest deferred pop takes the entry at once; a push is a release (R100). -/
def execFpush (d a src stl : Nat) (s : State) : Out :=
  s.issue { xs := [a, src], xd := [d], acc := true } fun s =>
    let ea := s.core.x a
    let v := s.core.x src
    s.fifoAccess true ea 8 (fun clu b s =>
      let k := s.bank clu b
      if 16384 ≤ k.fifo.length then s.doneX d 1 stl
      else
        let s := s.releaseTo clu
        match k.deferred with
        | e :: es => ((s.updBank clu b fun k => { k with deferred := es }).landAt e.core e.slot v).doneX d 0 stl
        | [] => (s.updBank clu b fun k => { k with fifo := k.fifo ++ [v] }).doneX d 0 stl)
      (State.farPut d stl)

/-- `fpop` (R99). -/
def execFpop (d a stl : Nat) (s : State) : Out :=
  s.issue { xs := [a], xd := [d], acc := true } fun s =>
    let ea := s.core.x a
    s.feResume .fpop (fun ea _ s => s.served .fpop d ea stl) fun s =>
      s.fifoAccess false ea 8 (fun clu b s =>
        match (s.bank clu b).fifo with
        | v :: vs => ((s.updBank clu b fun k => { k with fifo := vs }).acquireFrom clu).doneX d v stl
        | [] => s.join .fpop d ea clu (b * 0x40000)) (State.farTake .fpop d ea stl)

/-- `fq` (R99). -/
def execFq (d a stl : Nat) (s : State) : Out :=
  s.issue { xs := [a], xd := [d], acc := true } fun s =>
    let ea := s.core.x a
    s.fifoAccess false ea 1 (fun clu b s => s.doneX d (word (s.bank clu b).fifo.length) stl)
      (fun s => let (n, s) := s.free; s.doneX d (word (n % 16385)) stl)

end Sys2Proof.Machine
end

