-- ==== Sys2Proof/Machine/Atomics.lean ====
section
/-! DEFINITION. Atomics and reductions: majors 0x31 to 0x35 (R254 to R275). -/
namespace Sys2Proof.Machine

/-- A scope is permitted on a path (R254). -/
def scopeOk (sc : AtScope) (path : Nat) : Bool :=
  match sc with
  | .blk => decide (path = 1 ∨ path = 2)
  | .cls => decide (path = 0 ∨ path = 1)
  | .dev => decide (path = 0 ∨ path = 4 ∨ path = 1 ∨ path = 2)
  | .sys => decide (path = 0 ∨ path = 4 ∨ path = 5)

/-- The checks of an atomic's or reduction's address, in order (R265, R266): the cause of the trap, or the model
address. -/
def State.rmwLocate (s : State) (acc : Access) (sc : AtScope) (ea : Word) (n : Nat) : Except Nat Nat × State :=
  if scopeOk sc (ea.bits 60 4) then s.locate acc ea n else (.error 9, s)

/-- The new value an atomic stores on n bytes, none where it stores nothing (R260). -/
def atomNew (op n old b e : Nat) : Option Nat :=
  match op with
  | 6 => some (b % 2 ^ (8 * n))
  | 7 => if old = e % 2 ^ (8 * n) then some (b % 2 ^ (8 * n)) else none
  | _ => some (comb (2 * op + (if n = 8 then 1 else 0)) old b)

/-- The value X(D) receives (R260). -/
def atomOld (n old : Nat) : Word := if n = 4 then wordI (sext old 32) else word old

/-- Perform an atomic at its place: the old value, or the code of an error response (R254 to R258, R267). -/
def State.atomAt (s : State) (loc : Nat) (f : AtomFlight) : Except Nat Nat × State :=
  let d := dieOf loc
  let new := fun (old : Nat) => (atomNew f.op f.size old f.b.toNat f.e.toNat).map fun v =>
    cellsAt f.key (bytesOf v f.size)
  let s := s.settleReds loc f.key f.size
  let s := if f.sc = .cls ∧ f.path = 0 then s.settleWays (s.clOf loc) else s
  if isFar f.key then let (bs, s) := s.farBytes f.size; (.ok (natOf bs), s)
  else if f.path = 1 ∨ f.path = 2 then
    let s := s.settleBank (scrCl f.key) (bankNo (scrOff f.key))
    match s.scrErr f.key f.size with
    | some c => (.error c, s)
    | none =>
      let old := natOf (s.bytes f.key f.size)
      (.ok old, match new old with | some cs => (s.write cs).1 | none => s)
  else if f.path = 5 then
    let s := s.settleFabric f.key f.size
    match (if s.refuses f.key then some 10 else s.physErr f.key f.size) with
    | some c => (.error c, s)
    | none =>
      let old := natOf (s.bytes (s.phys f.key) f.size)
      (.ok old, match new old with
        | some cs => (s.write (cs.map fun c => (s.phys c.1, c.2))).1
        | none => s)
  else if f.sc = .cls ∧ s.hasWays (s.clOf loc) ∨ homeDie f.key = d ∨ !isHbm f.key then
    match s.dieRead f.vf d f.key f.size 0 with
    | (.error c, s) => (.error c, s)
    | (.ok bs, s) =>
      (.ok (natOf bs), match new (natOf bs) with
        | some cs => (s.dieWrite f.vf loc f.key cs).1
        | none => s)
  else
    let s := s.expel d (f.key / 64)
    match s.physErr f.key f.size with
    | some c => (.error c, s)
    | none =>
      let old := natOf (s.bytes f.key f.size)
      (.ok old, match new old with | some cs => (s.write cs).1 | none => s)

/-- The atomic a core has in flight is performed, and its old value lands; the core's later accesses come after it, so it is an
acquire of die scope too (R56, R132, R255, R260, R268, R269). -/
def State.performAtom (s : State) (loc : Nat) : State :=
  match (s.coreAt loc).m.atom with
  | none => s
  | some f =>
    let s := s.updCoreAt loc fun c => ({ c with m := { c.m with atom := none } }).countAs f.sup (some f.win) 10 1
    let (r, s) := s.atomAt loc f
    let s := s.acquireAt loc false
    match r with
    | .ok old => s.landAt loc f.slot (atomOld f.size old)
    | .error c => (s.logAt (dieOf loc) f.vf (s.vcoreOf loc) f.ea c).landAt loc f.slot 0

/-- An atomic (R259, R260, R269): after its checks and the drain it is in flight. -/
def State.atom (sc : AtScope) (op : Nat) (dbl : Bool) (d a b stl : Nat) (s : State) : Out :=
  s.issue { xs := [a, b] ++ (if op = 7 then [d] else []), xd := [d], acc := true } fun s =>
    let ea := s.core.x a
    let n := if dbl then 8 else 4
    let far := s.misses [ea]
    match s.rmwLocate .atomic sc ea n with
    | (.error c, s) => s.trap c ea
    | (.ok k, s) =>
      s.watchAccess true true [(ea.toNat, n)] fun s =>
        let vb := s.core.x b
        let ve := s.core.x d
        let s := (s.leave s.core.pc s.core.cur far).drained
        let (c, ws) := s.core.tag (resX d 0)
        let f : AtomFlight :=
          { sc, path := ea.bits 60 4, key := k, ea, size := n, op, b := vb, e := ve, vf := c.vf
            slot := (ws.head?).map (·.1), sup := c.sup, win := c.cur }
        ({ s with core := { c with m := { c.m with atom := some f } } } : State).retire 4 stl

/-- A reduction (R262, R270): a store-buffer entry. -/
def State.red (rop : Nat) (a b : Nat) (sc : AtScope) (stl : Nat) (s : State) : Out :=
  s.issue { xs := [a, b], acc := true } fun s =>
    let ea := s.core.x a
    let n := ropSize rop
    let far := s.misses [ea]
    match s.rmwLocate .red sc ea n with
    | (.error c, s) => s.trap c ea
    | (.ok k, s) =>
      s.watchAccess false true [(ea.toNat, n)] fun s =>
        ((s.leave s.core.pc s.core.cur far).enterBuffer
          { path := ea.bits 60 4, key := k, size := n, vf := s.core.vf, ea, op := .red rop sc (s.core.x b)
            sup := s.core.sup, win := s.core.cur }).retire 4 stl

/-- `atom.add.*.blk` (R259, R260). -/
def execAtomAddBlk (dbl : Bool) (d a b stl : Nat) (s : State) : Out :=
  s.atom .blk 0 dbl d a b stl

/-- `atom.and.*.blk` (R259, R260). -/
def execAtomAndBlk (dbl : Bool) (d a b stl : Nat) (s : State) : Out :=
  s.atom .blk 1 dbl d a b stl

/-- `atom.or.*.blk` (R259, R260). -/
def execAtomOrBlk (dbl : Bool) (d a b stl : Nat) (s : State) : Out :=
  s.atom .blk 2 dbl d a b stl

/-- `atom.xor.*.blk` (R259, R260). -/
def execAtomXorBlk (dbl : Bool) (d a b stl : Nat) (s : State) : Out :=
  s.atom .blk 3 dbl d a b stl

/-- `atom.min.*.blk` (R259, R260). -/
def execAtomMinBlk (dbl : Bool) (d a b stl : Nat) (s : State) : Out :=
  s.atom .blk 4 dbl d a b stl

/-- `atom.max.*.blk` (R259, R260). -/
def execAtomMaxBlk (dbl : Bool) (d a b stl : Nat) (s : State) : Out :=
  s.atom .blk 5 dbl d a b stl

/-- `atom.swap.*.blk` (R259, R260). -/
def execAtomSwapBlk (dbl : Bool) (d a b stl : Nat) (s : State) : Out :=
  s.atom .blk 6 dbl d a b stl

/-- `atom.cas.*.blk` (R259, R260). -/
def execAtomCasBlk (dbl : Bool) (d a b stl : Nat) (s : State) : Out :=
  s.atom .blk 7 dbl d a b stl

/-- `atom.add.*.cls` (R259, R260). -/
def execAtomAddCls (dbl : Bool) (d a b stl : Nat) (s : State) : Out :=
  s.atom .cls 0 dbl d a b stl

/-- `atom.and.*.cls` (R259, R260). -/
def execAtomAndCls (dbl : Bool) (d a b stl : Nat) (s : State) : Out :=
  s.atom .cls 1 dbl d a b stl

/-- `atom.or.*.cls` (R259, R260). -/
def execAtomOrCls (dbl : Bool) (d a b stl : Nat) (s : State) : Out :=
  s.atom .cls 2 dbl d a b stl

/-- `atom.xor.*.cls` (R259, R260). -/
def execAtomXorCls (dbl : Bool) (d a b stl : Nat) (s : State) : Out :=
  s.atom .cls 3 dbl d a b stl

/-- `atom.min.*.cls` (R259, R260). -/
def execAtomMinCls (dbl : Bool) (d a b stl : Nat) (s : State) : Out :=
  s.atom .cls 4 dbl d a b stl

/-- `atom.max.*.cls` (R259, R260). -/
def execAtomMaxCls (dbl : Bool) (d a b stl : Nat) (s : State) : Out :=
  s.atom .cls 5 dbl d a b stl

/-- `atom.swap.*.cls` (R259, R260). -/
def execAtomSwapCls (dbl : Bool) (d a b stl : Nat) (s : State) : Out :=
  s.atom .cls 6 dbl d a b stl

/-- `atom.cas.*.cls` (R259, R260). -/
def execAtomCasCls (dbl : Bool) (d a b stl : Nat) (s : State) : Out :=
  s.atom .cls 7 dbl d a b stl

/-- `atom.add.*.dev` (R259, R260). -/
def execAtomAddDev (dbl : Bool) (d a b stl : Nat) (s : State) : Out :=
  s.atom .dev 0 dbl d a b stl

/-- `atom.and.*.dev` (R259, R260). -/
def execAtomAndDev (dbl : Bool) (d a b stl : Nat) (s : State) : Out :=
  s.atom .dev 1 dbl d a b stl

/-- `atom.or.*.dev` (R259, R260). -/
def execAtomOrDev (dbl : Bool) (d a b stl : Nat) (s : State) : Out :=
  s.atom .dev 2 dbl d a b stl

/-- `atom.xor.*.dev` (R259, R260). -/
def execAtomXorDev (dbl : Bool) (d a b stl : Nat) (s : State) : Out :=
  s.atom .dev 3 dbl d a b stl

/-- `atom.min.*.dev` (R259, R260). -/
def execAtomMinDev (dbl : Bool) (d a b stl : Nat) (s : State) : Out :=
  s.atom .dev 4 dbl d a b stl

/-- `atom.max.*.dev` (R259, R260). -/
def execAtomMaxDev (dbl : Bool) (d a b stl : Nat) (s : State) : Out :=
  s.atom .dev 5 dbl d a b stl

/-- `atom.swap.*.dev` (R259, R260). -/
def execAtomSwapDev (dbl : Bool) (d a b stl : Nat) (s : State) : Out :=
  s.atom .dev 6 dbl d a b stl

/-- `atom.cas.*.dev` (R259, R260). -/
def execAtomCasDev (dbl : Bool) (d a b stl : Nat) (s : State) : Out :=
  s.atom .dev 7 dbl d a b stl

/-- `atom.add.*.sys` (R259, R260). -/
def execAtomAddSys (dbl : Bool) (d a b stl : Nat) (s : State) : Out :=
  s.atom .sys 0 dbl d a b stl

/-- `atom.and.*.sys` (R259, R260). -/
def execAtomAndSys (dbl : Bool) (d a b stl : Nat) (s : State) : Out :=
  s.atom .sys 1 dbl d a b stl

/-- `atom.or.*.sys` (R259, R260). -/
def execAtomOrSys (dbl : Bool) (d a b stl : Nat) (s : State) : Out :=
  s.atom .sys 2 dbl d a b stl

/-- `atom.xor.*.sys` (R259, R260). -/
def execAtomXorSys (dbl : Bool) (d a b stl : Nat) (s : State) : Out :=
  s.atom .sys 3 dbl d a b stl

/-- `atom.min.*.sys` (R259, R260). -/
def execAtomMinSys (dbl : Bool) (d a b stl : Nat) (s : State) : Out :=
  s.atom .sys 4 dbl d a b stl

/-- `atom.max.*.sys` (R259, R260). -/
def execAtomMaxSys (dbl : Bool) (d a b stl : Nat) (s : State) : Out :=
  s.atom .sys 5 dbl d a b stl

/-- `atom.swap.*.sys` (R259, R260). -/
def execAtomSwapSys (dbl : Bool) (d a b stl : Nat) (s : State) : Out :=
  s.atom .sys 6 dbl d a b stl

/-- `atom.cas.*.sys` (R259, R260). -/
def execAtomCasSys (dbl : Bool) (d a b stl : Nat) (s : State) : Out :=
  s.atom .sys 7 dbl d a b stl

/-- `red.add.w` (R261, R262). -/
def execRedAddW (a b : Nat) (sc : AtScope) (stl : Nat) (s : State) : Out := s.red 0 a b sc stl

/-- `red.add.d` (R261, R262). -/
def execRedAddD (a b : Nat) (sc : AtScope) (stl : Nat) (s : State) : Out := s.red 1 a b sc stl

/-- `red.and.w` (R261, R262). -/
def execRedAndW (a b : Nat) (sc : AtScope) (stl : Nat) (s : State) : Out := s.red 2 a b sc stl

/-- `red.and.d` (R261, R262). -/
def execRedAndD (a b : Nat) (sc : AtScope) (stl : Nat) (s : State) : Out := s.red 3 a b sc stl

/-- `red.or.w` (R261, R262). -/
def execRedOrW (a b : Nat) (sc : AtScope) (stl : Nat) (s : State) : Out := s.red 4 a b sc stl

/-- `red.or.d` (R261, R262). -/
def execRedOrD (a b : Nat) (sc : AtScope) (stl : Nat) (s : State) : Out := s.red 5 a b sc stl

/-- `red.xor.w` (R261, R262). -/
def execRedXorW (a b : Nat) (sc : AtScope) (stl : Nat) (s : State) : Out := s.red 6 a b sc stl

/-- `red.xor.d` (R261, R262). -/
def execRedXorD (a b : Nat) (sc : AtScope) (stl : Nat) (s : State) : Out := s.red 7 a b sc stl

/-- `red.min.w` (R261, R262). -/
def execRedMinW (a b : Nat) (sc : AtScope) (stl : Nat) (s : State) : Out := s.red 8 a b sc stl

/-- `red.min.d` (R261, R262). -/
def execRedMinD (a b : Nat) (sc : AtScope) (stl : Nat) (s : State) : Out := s.red 9 a b sc stl

/-- `red.max.w` (R261, R262). -/
def execRedMaxW (a b : Nat) (sc : AtScope) (stl : Nat) (s : State) : Out := s.red 10 a b sc stl

/-- `red.max.d` (R261, R262). -/
def execRedMaxD (a b : Nat) (sc : AtScope) (stl : Nat) (s : State) : Out := s.red 11 a b sc stl

/-- `red.fadd.f32` (R261, R262, R263). -/
def execRedFaddF32 (a b : Nat) (sc : AtScope) (stl : Nat) (s : State) : Out := s.red 12 a b sc stl

/-- `red.fadd.f64` (R261, R262, R263). -/
def execRedFaddF64 (a b : Nat) (sc : AtScope) (stl : Nat) (s : State) : Out := s.red 13 a b sc stl

/-- The atomic in flight of a core is performed (R255, R260). -/
def execAtomicPerformed (core : Nat) (s : State) : Out := .next (s.performAtom core)

/-- Reduction k of those accepted and not applied is applied (R262, R271); on path 5 behind every earlier one that
overlaps it (R273). -/
def execReductionApplied (k : Nat) (s : State) : Out :=
  match s.reds[k]? with
  | none => .next s
  | some r =>
    if r.path = 5 ∧ (s.reds.take k).any fun q =>
        decide (q.path = 5) && meets q.key (ropSize q.rop) r.key (ropSize r.rop) then .next s
    else .next (({ s with reds := s.reds.eraseIdx k } : State).applyRed r)

/-- The oldest entry of a core's store buffer, a path-5 reduction, reaches its port (R274). -/
def execReductionAtPort (core : Nat) (s : State) : Out :=
  match (s.coreAt core).m.sbuf with
  | e :: _ =>
    match e.op, e.path with
    | .red _ _ _, 5 => .next (s.drainOne core)
    | _, _ => .next s
  | [] => .next s

/-- A combining entry 256 ticks old is sent (R275 event 1). -/
def execCombiningEntryExpiry (port k : Nat) (s : State) : Out :=
  match (sget [] s.ports port)[k]? with
  | some c => .next (if c.opened + 256 ≤ s.time then s.sendCombs fun x => x = c else s)
  | none => .next s

/-- The oldest store-buffer entry of a core leaves (R163). -/
def execStoreBufferEntryLeaves (core : Nat) (s : State) : Out := .next (s.drainOne core)

end Sys2Proof.Machine
end

