-- ==== Sys2Proof/Machine/Order.lean ====
section
/-! DEFINITION. Fences, acquire loads, release stores and the remote-promoting acquire: majors 0x3C and 0x3D (R305 to
R322). -/
namespace Sys2Proof.Machine

/-- A scope reaches dev. -/
def Scope.wide (sc : Scope) : Bool := decide (sc = .dev ∨ sc = .sys)

/-- Earlier loads have returned and the store buffer has drained (R318). -/
def State.fenced (s : State) : State := (s.updCore fun c => c.landIf fun p => p.variable && !p.queued).drained

/-- The wait of `fence S` (R318): the release half. -/
def State.fenceWait (s : State) (sc : Scope) : State :=
  match sc with
  | .core | .cluster | .die => s.fenced
  | .dev => s.fenced.releaseScope false
  | .sys => s.fenced.releaseScope true

/-- The acquire half of a scope (R56, R309): nothing below die. -/
def State.acquireScope (s : State) (sc : Scope) : State :=
  match sc with
  | .core | .cluster => s
  | .die => s.acquire false
  | .dev | .sys => s.acquire true

/-- `fence` (R318). -/
def execFence (sc : Scope) (stl : Nat) (s : State) : Out :=
  s.issue {} fun s => ((s.fenceWait sc).acquireScope sc).retire 4 stl

/-- The checks of the address of an acquire load or a release store, in order (R319). -/
def State.ordLocate (s : State) (acc : Access) (ea : Word) : Except Nat Nat × State :=
  let p := ea.bits 60 4
  if p = 8 ∨ p = 9 then (.error 9, s) else s.locate acc ea 8

/-- The load of a dev- or sys-scope acquire, at the home or bank of its bytes (R309). -/
def State.homeLoad (s : State) (path k : Nat) : Except Nat (List Byte) × State :=
  match path with
  | 0 | 3 | 4 => (s.settleReds s.focus k 8).acqRead s.die k 8
  | p => s.pathRead p k 8

/-- A load's value; an error response loads zero and is logged (R162). -/
def State.loadValue (s : State) (ea : Word) (r : Except Nat (List Byte)) : Word × State :=
  match r with
  | .ok bs => (word (natOf bs), s.count 8 1)
  | .error c => (0, s.logErr ea c)

/-- `ld.acq.S` of a checked address (R319): X(D), variable-latency. -/
def State.loadAcquire (s : State) (sc : Scope) (d : Nat) (ea : Word) (k stl : Nat) : Out :=
  let p := ea.bits 60 4
  if Scope.wide sc then
    let (r, s) := (s.fenceWait sc).homeLoad p k
    let (v, s) := s.loadValue ea r
    (s.acquireScope sc).doneX d v stl
  else
    let (r, s) := s.plainRead p k 8
    let (v, s) := s.loadValue ea r
    (s.acquireScope sc).doneX d v stl

/-- `ld.acq` (R319). -/
def execLdAcq (d a : Nat) (sc : Scope) (stl : Nat) (s : State) : Out :=
  s.issue { xs := [a], xd := [d], acc := true } fun s =>
    let ea := s.core.x a
    let far := s.misses [ea]
    match s.ordLocate .load ea with
    | (.error c, s) => s.trap c ea
    | (.ok k, s) => s.watchAccess true false [(ea.toNat, 8)] fun s =>
        (s.leave s.core.pc s.core.cur far).loadAcquire sc d ea k stl

/-- The store of a dev- or sys-scope release, performed at the home, bank or endpoint of its bytes (R312). -/
def State.homeStore (s : State) (ea : Word) (path k : Nat) (v : Word) : State :=
  let cs := cellsAt k (bytesOf v.toNat 8)
  let s := s.settleReds s.focus k 8
  let (s, err) : State × Option Nat :=
    match path with
    | 1 | 2 =>
      let s := if isFar k then s else s.settleBank (scrCl k) (bankNo (scrOff k))
      if isFar k then (s, none)
      else if !s.scrOk k then (s, some 1)
      else
        let (s, bad) := s.write cs
        (s, if bad then some 2 else none)
    | 5 =>
      if !s.regionOk k then (s, some 1)
      else
        let (s, bad) := (s.settleFabric k 8).write (cs.map fun c => (s.phys c.1, c.2))
        (s, if bad then some 2 else none)
    | _ => s.homeWrite s.focus k cs
  match err with
  | some c => s.logErr ea c
  | none => s.count 9 1

/-- `st.rel` (R319): X(D) is the value. -/
def execStRel (d a : Nat) (sc : Scope) (stl : Nat) (s : State) : Out :=
  s.issue { xs := [d, a], acc := true } fun s =>
    let ea := s.core.x a
    let v := s.core.x d
    let far := s.misses [ea]
    match s.ordLocate .store ea with
    | (.error c, s) => s.trap c ea
    | (.ok k, s) =>
      s.watchAccess false true [(ea.toNat, 8)] fun s =>
        let s := s.leave s.core.pc s.core.cur far
        let p := ea.bits 60 4
        if Scope.wide sc then ((s.fenceWait sc).homeStore ea p k v).retire 4 stl
        else
          (s.enterBuffer { path := p, key := k, size := 8, vf := s.core.vf, ea
                           op := .store (cellsAt k (bytesOf v.toNat 8)), sup := s.core.sup, win := s.core.cur }).retire 4 stl

/-! Remote promotion. -/

/-- The entry numbered e of a promotion log is none later than a snapshot (R321). -/
def logged (snap e : BitVec 32) : Bool := decide ((snap - e).toNat < 2 ^ 31)

/-- Update the promotion requests that f holds of. -/
def State.updPromos (s : State) (f : Promo → Bool) (g : Promo → Promo) : State :=
  { s with promos := s.promos.map fun p => if f p then g p else p }

/-- The log hardware of a core serves its promotion requests, in two stages (R321, R322). Those that have no snapshot share
one: the store buffer drains, and the snapshot is the number of the log's last entry. Otherwise the first request without a
reply gets it, once every entry up to its snapshot has been drained. -/
def State.promote (s : State) (loc : Nat) : State :=
  let new := fun (p : Promo) => decide (p.target = loc) && p.snap.isNone
  if s.promos.any new then
    let s := s.drainAll loc
    s.updPromos new fun p => { p with snap := some (s.coreAt loc).m.lsn }
  else
    match s.promos.find? fun p => decide (p.target = loc) && !p.replied with
    | none => s
    | some q => (s.drainLog loc (logged (q.snap.getD 0))).updPromos (· = q) fun p => { p with replied := true }

/-- The promotion requests of a core are withdrawn. -/
def State.dropPromos (s : State) (loc : Nat) : State := { s with promos := s.promos.filter (·.by_ ≠ loc) }

/-- The core that an `acqp` names, where it may ask for a promotion (R321). -/
def State.promoTarget (s : State) (t : Word) : Option Nat :=
  (if t.bits 16 48 = 0 then s.locOf (t.bits 0 16) else none).filter fun loc => decide ((s.coreAt loc).vf = s.core.vf)

/-- `acqp` sends its request, or is a plain acquire (R321, R322). -/
def State.acqpSend (sc : Scope) (d a b stl : Nat) (s : State) : Out :=
  let ea := s.core.x a
  let t := s.core.x b
  let far := s.misses [ea]
  match s.ordLocate .load ea with
  | (.error c, s) => s.trap c ea
  | (.ok k, s) =>
    s.watchAccess true false [(ea.toNat, 8)] fun s =>
      let s := (s.leave s.core.pc s.core.cur far).drained.dropPromos s.focus
      match s.promoTarget t with
      | some target =>
        State.waiting { s with promos := s.promos ++ [{ by_ := s.focus, target, key := k, ea }] } .acqp 0 ea 8
      | none => (s.logErr t 5).loadAcquire sc d ea k stl

/-- `acqp` (R320 to R322): it waits for the reply to its request, and then acquires. -/
def State.acqp (sc : Scope) (d a b stl : Nat) (s : State) : Out :=
  s.issue { xs := [a, b], xd := [d], acc := true } fun s =>
    match (if s.core.inWait .acqp then s.promos.find? (·.by_ = s.focus) else none) with
    | some p => if p.replied then (s.dropPromos s.focus).loadAcquire sc d p.ea p.key stl else s.waiting .acqp
    | none => s.acqpSend sc d a b stl

/-- `acqp.dev` (R320). -/
def execAcqpDev (d a b stl : Nat) (s : State) : Out := s.acqp .dev d a b stl

/-- `acqp.sys` (R320). -/
def execAcqpSys (d a b stl : Nat) (s : State) : Out := s.acqp .sys d a b stl

/-- A core serves its promotion requests (R321). -/
def execPromotionRequest (core : Nat) (s : State) : Out := .next (s.promote core)

/-- The home acknowledges a write-back of a die's copy of a line (R315). -/
def execWriteBackAcknowledged (die line : Nat) (s : State) : Out :=
  .next (s.ackWb fun w => w.die = die ∧ w.line = line)

/-- Path-5 store k is applied at its endpoint (R313), behind every earlier one that overlaps it (R273). -/
def execEndpointStoreApplied (k : Nat) (s : State) : Out :=
  match s.fstores[k]? with
  | none => .next s
  | some f =>
    if (s.fstores.take k).any fun g => g.cells.any fun x => f.cells.any fun y => x.1 = y.1 then .next s
    else .next (({ s with fstores := s.fstores.eraseIdx k } : State).applyFStore f)

end Sys2Proof.Machine
end

