-- ==== Sys2Proof/Machine/Phasers.lean ====
section
/-! DEFINITION. The phaser instructions: major 0x0F (R323 to R331, R347). -/
namespace Sys2Proof.Machine

/-- The phaser of an id that belongs to the issuing VF and launch (R323). -/
def State.myPhaser (s : State) (a : Word) : Option Phaser :=
  if a.bits 13 51 = 0 then
    (s.phaser (a.bits 0 13)).filter fun p => decide (p.vf = s.core.vf ∧ p.lid = s.core.dom.launch)
  else none

/-- The issuing context's member record. -/
def State.me (s : State) (p : Phaser) : Option Member := p.member s.vcore s.core.cur

/-- Update the issuing context's member record. -/
def State.updMe (s : State) (p : Phaser) (f : Member → Member) : Phaser := p.updMember s.vcore s.core.cur f

/-- `phnew` (R325). -/
def execPhnew (d a : Nat) (sc : Scope) (stl : Nat) (s : State) : Out :=
  s.issue { xs := [a], xd := [d], mem := false } fun s =>
    let x := s.core.x a
    let die := if x = BitVec.allOnes 64 then some s.die else if x.toNat < 8 then some x.toNat else none
    match die with
    | none => s.doneX d (neg 2) stl
    | some h =>
      match (List.range 1024).find? fun i => (s.phaser (1024 * h + i)).isNone with
      | none => s.doneX d (neg 1) stl
      | some i =>
        let p : Phaser := { vf := s.core.vf, lid := s.core.dom.launch, dev := decide (sc = .dev) }
        (s.setPhaser (1024 * h + i) (some p)).doneX d (word (1024 * h + i)) stl

/-- `phfree` (R325). -/
def execPhfree (d a stl : Nat) (s : State) : Out :=
  s.issue { xs := [a], xd := [d], mem := false } fun s =>
    let x := s.core.x a
    match s.myPhaser x with
    | none => s.doneX d (neg 1) stl
    | some p =>
      if p.members ≠ [] then s.doneX d (neg 2) stl
      else (s.setPhaser (x.bits 0 13) none).doneX d 0 stl

/-- The member records in use on a die (R323). -/
def State.memberCount (s : State) (die : Nat) : Nat :=
  (s.dieAt die).phasers.foldl (fun n p => n + (p.2.map (·.members.length)).getD 0) 0

/-- `phreg` (R326): the codes are judged in the order it gives them (R426). A phaser holds 4,096 members (R323). -/
def execPhreg (d a : Nat) (md : PhMode) (stl : Nat) (s : State) : Out :=
  s.issue { xs := [a], xd := [d], mem := false } fun s =>
    let x := s.core.x a
    let home := x.bits 10 3
    match s.myPhaser x with
    | none => s.doneX d (neg 1) stl
    | some p =>
      if (s.me p).isSome then s.doneX d (neg 2) stl
      else if 16384 ≤ s.memberCount home ∨ 4096 ≤ p.members.length then s.doneX d (neg 3) stl
      else if !p.dev ∧ home ≠ s.die then s.doneX d (neg 4) stl
      else
        let m : Member := { vcore := s.vcore, win := s.core.cur, mode := md, l := p.p }
        (s.setPhaser (x.bits 0 13) (some { p with members := p.members ++ [m] })).doneX d (word p.p.toNat) stl

/-- `phdrop` (R326): the phase completes where the dropped member was the last not to have signalled. -/
def execPhdrop (d a stl : Nat) (s : State) : Out :=
  s.issue { xs := [a], xd := [d], mem := false } fun s =>
    let x := s.core.x a
    match s.myPhaser x with
    | none => s.doneX d (neg 1) stl
    | some p =>
      match s.me p with
      | none => s.doneX d (neg 2) stl
      | some m =>
        if m.owed.isSome then s.doneX d (neg 3) stl
        else
          let q := { p with members := p.members.filter fun k => ¬ (k.vcore = s.vcore ∧ k.win = s.core.cur) }
          (s.phaserDone (x.bits 0 13) q).doneX d 0 stl

/-- The release of a signal at the phaser's scope (R330). -/
def State.phRelease (s : State) (p : Phaser) : State := if p.dev then s.drained.releaseDev s.focus else s.drained

/-- The acquire of a completed wait at the phaser's scope (R330). -/
def State.phAcquire (s : State) (p : Phaser) : State := s.acquire p.dev

/-- The ticket of a faulted `cpy.ph` of the same context that owes the member's signal for its phase L (R347): an SO member
has gone on to its next phase (R328). -/
def State.owedFault (s : State) (m : Member) : Option (Nat × Nat) :=
  match (if m.mode = .so then none else m.owed) with
  | none => none
  | some t => (s.core.eng.cmds.find? fun c =>
      c.ticket = t ∧ c.state = .faulted ∧ c.win = s.core.cur).map fun c => (c.fseq, c.ticket)

/-- Phase p lies past phase l, compared modulo 2^32 (R323). -/
def past (p l : BitVec 32) : Bool := decide (p ≠ l) && decide ((p - l).toNat < 2 ^ 31)

/-- A member waits until P > L, then moves on (R327, R347). -/
def State.phPass (s : State) (k : WaitKind) (id d stl : Nat) (p : Phaser) (m : Member) : Out :=
  if past p.p m.l then
    let q := s.updMe p fun m => { m with l := m.l + 1, given := false }
    ((s.setPhaser id (some q)).phAcquire p).doneX d (word (m.l + 1).toNat) stl
  else
    match s.owedFault m with
    | some t => s.trap 13 (word t.2)
    | none => s.waiting k

/-- An SO member signals: it waits while L > P (R327). -/
def State.phSignalSo (s : State) (k : WaitKind) (id d stl : Nat) (p : Phaser) (m : Member) : Out :=
  if past m.l p.p then s.waiting k
  else
    let s := s.phRelease p
    let q := s.updMe p fun m => { m with l := m.l + 1 }
    (s.phaserDone id q).doneX d (word m.l.toNat) stl

/-- A phaser instruction of a member: −1 without the phaser, −2 without membership (R323, R327). One that signals follows an
atomic in flight, since the signal is a release (R269, R330). -/
def State.withMember (own mem : Bool) (d a stl : Nat) (k : Nat → Phaser → Member → State → Out) (s : State) : Out :=
  s.issue { xs := [a], xd := [d], own, mem } fun s =>
    let x := s.core.x a
    let work := if own ∧ s.tripFault.isSome then (s.myPhaser x).bind fun p => (s.me p).bind fun m =>
        if past p.p m.l then none else s.owedFault m
      else none
    State.async work (s := s) fun s =>
    match s.myPhaser x with
    | none => s.doneX d (neg 1) stl
    | some p =>
      match s.me p with
      | none => s.doneX d (neg 2) stl
      | some m => k (x.bits 0 13) p m s

/-- `phsig` (R327). -/
def execPhsig (d a stl : Nat) (s : State) : Out :=
  s.withMember false true d a stl fun id p m s =>
    match m.mode with
    | .wo => s.doneX d (neg 2) stl
    | .so => s.phSignalSo .phsig id d stl p m
    | .sw =>
      if m.given ∨ m.owed.isSome then s.doneX d (neg 3) stl
      else
        let s := s.phRelease p
        (s.phaserDone id (s.updMe p fun m => { m with given := true })).doneX d (word m.l.toNat) stl

/-- `phwait` (R327). -/
def execPhwait (d a stl : Nat) (s : State) : Out :=
  s.withMember true false d a stl fun id p m s =>
    match m.mode with
    | .so => s.doneX d (neg 2) stl
    | .wo => s.phPass .phwait id d stl p m
    | .sw =>
      if !m.given ∧ m.owed.isNone then s.doneX d (neg 3) stl
      else s.phPass .phwait id d stl p m

/-- `phnext` (R327). -/
def execPhnext (d a stl : Nat) (s : State) : Out :=
  s.withMember true true d a stl fun id p m s =>
    match m.mode with
    | .so => s.phSignalSo .phnext id d stl p m
    | .wo => s.phPass .phnext id d stl p m
    | .sw =>
      if m.given ∨ m.owed.isSome then s.phPass .phnext id d stl p m
      else
        let s := s.phRelease p
        let s := s.phaserDone id (s.updMe p fun m => { m with given := true })
        match s.phaser id with
        | some q => s.phPass .phnext id d stl q { m with given := true }
        | none => s.doneX d (neg 1) stl

/-- `phq` (R329). -/
def execPhq (d a stl : Nat) (s : State) : Out :=
  s.issue { xs := [a], xd := [d], mem := false } fun s =>
    match s.myPhaser (s.core.x a) with
    | none => s.doneX d (neg 1) stl
    | some p =>
      let left := (p.members.filter fun m => m.signals && !m.gave p.p).length
      s.doneX d (word (put p.p.toNat 32 32 + put p.members.length 16 16 + left % 2 ^ 16)) stl

end Sys2Proof.Machine
end

