-- ==== Sys2Proof/Machine/Sched.lean ====
section
/-! DEFINITION. The die task schedulers: tiles, dependences, versions and counters (R280 to R288), billets and their
lifetimes (R297, R298), offers and placement (R334 to R336), settles (R119, R286) and migration (R304, R337, R338). -/
namespace Sys2Proof.Machine

/-! Task types and tiles. -/

/-- The fields of a task-type header (R281). -/
def tyEntry (r : BitVec 512) : Word := word (rfld r 0 64)
def tyBillet (r : BitVec 512) : Nat := rfld r 64 5
def tyReg (r : BitVec 512) : Nat := rfld r 96 14
def tyScr (r : BitVec 512) : Nat := rfld r 128 24

/-- The fields of a binding record (R282). -/
def bdMode (r : BitVec 512) : Nat := rfld r 224 2
def bdRen (r : BitVec 512) : Bool := decide (rfld r 226 1 = 1)
def bdSize (r : BitVec 512) : Nat := rfld r 192 32
def bdPool (r : BitVec 512) : Nat := rfld r 320 64
def bdCount (r : BitVec 512) : Nat := rfld r 256 16
def bdStride (r : BitVec 512) (k : Nat) : Int := sext (rfld r (64 + 32 * k) 32) 32

/-- A binding reads, and writes, its tile. -/
def bdReads (r : BitVec 512) : Bool := decide (bdMode r % 2 = 1)
def bdWrites (r : BitVec 512) : Bool := decide (2 ≤ bdMode r)

/-- A well-formed binding record (R282). -/
def bdOk (r : BitVec 512) : Bool :=
  if bdMode r = 0 then decide (r = 0)
  else
    decide (rfld r 384 128 = 0 ∧ rfld r 272 48 = 0 ∧ rfld r 227 29 = 0 ∧ 1 ≤ bdSize r ∧ bdSize r ≤ 0x1000000
      ∧ (rfld r 60 4 = 0 ∨ rfld r 60 4 = 2 ∨ rfld r 60 4 = 4)) &&
    (if bdRen r then decide (bdMode r = 2 ∧ bdPool r % 64 = 0 ∧ bdPool r / 2 ^ 60 = 0 ∧ 1 ≤ bdCount r)
      else decide (bdPool r = 0 ∧ bdCount r = 0))

/-- A well-formed task-type header (R281, R291 code −2): SCR is judged against the launch's QUOTA, where there is one. -/
def hdOk (quota : Option Nat) (h : BitVec 512) : Bool :=
  decide (rfld h 152 360 = 0 ∧ rfld h 110 18 = 0 ∧ rfld h 69 27 = 0 ∧ rfld h 0 1 = 0 ∧ 16 ≤ tyReg h ∧ tyReg h ≤ 16383
    ∧ (rfld h 60 4 = 0 ∨ rfld h 60 4 = 3)) && quota.all fun q => decide (tyScr h ≤ q)

/-- The blocks of a task-type record that could be read are well formed: the header, then the bindings (R281, R282). -/
def tyOk (quota : Option Nat) (rs : List (Option (BitVec 512))) : Bool :=
  match rs with
  | h :: bs => h.all (hdOk quota) && bs.all fun b => b.all bdOk
  | [] => false

/-- The home address of a binding at coordinates, exact (R283). -/
def homeAddr (r : BitVec 512) (ts : List Nat) : Int :=
  ts.zipIdx.foldl (fun a t => a + (t.1 : Int) * bdStride r t.2) (rfld r 0 64 : Int)

/-- The home address stays on its binding's path (R283, R292 code −4). -/
def homeOk (r : BitVec 512) (ts : List Nat) : Bool :=
  let a := homeAddr r ts
  decide (0 ≤ a ∧ a.toNat / 2 ^ 60 = rfld r 60 4) && pathForm (wordI a)

/-- A tile (R283): its class, 0 for paths 0 and 4, 1 + logical cluster for path 2; its first offset; its end. -/
abbrev Tile := Nat × Nat × Nat

/-- The tile of an address and a size (R283). -/
def tileOf (a : Word) (n : Nat) : Tile :=
  if a.bits 60 4 = 2 then (1 + a.bits 40 8, a.bits 0 23, a.bits 0 23 + n) else (0, a.bits 0 48, a.bits 0 48 + n)

/-- Two tiles overlap (R283). -/
def tilesMeet (x y : Tile) : Bool := decide (x.1 = y.1 ∧ x.2.1 < y.2.2 ∧ y.2.1 < x.2.2)

/-- The records of a type of a launch. -/
def State.typeOf (s : State) (lid typ : Nat) : Option (List (BitVec 512)) := (s.launchOf lid).bind (·.types[typ]?)

/-- The header of a task's type. -/
def State.header (s : State) (t : Task) : BitVec 512 := ((s.typeOf t.lid t.typ).bind List.head?).getD 0

/-- The bindings of a task's type with the addresses they resolved to. -/
def State.bindings (s : State) (t : Task) : List (BitVec 512 × Word) :=
  (((s.typeOf t.lid t.typ).getD []).drop 1).zip t.binds

/-- The tiles of a task's bindings that f holds of, at their home addresses (R283). -/
def State.tiles (s : State) (t : Task) (f : BitVec 512 → Bool) : List Tile :=
  (((((s.typeOf t.lid t.typ).getD []).drop 1).zip t.homes).filter fun b => f b.1 && decide (bdMode b.1 ≠ 0)).map fun b =>
    tileOf b.2 (bdSize b.1)

/-! Live tasks. -/

/-- A live task of a die. -/
def State.taskAt (s : State) (d lid seq : Nat) : Option Task := (s.dieAt d).tasks.find? fun t => t.lid = lid ∧ t.seq = seq

/-- The task is live at some die's scheduler. -/
def State.taskLive (s : State) (lid seq : Nat) : Bool := (List.range 8).any fun d => (s.taskAt d lid seq).isSome

/-- The live tasks of a launch that a logical die numbered, on whatever die they are (R284, R292, R338). -/
def State.tasksOf (s : State) (lid ldie : Nat) : List Task :=
  ((List.range 8).flatMap fun d => (s.dieAt d).tasks).filter fun t => t.lid = lid ∧ t.seq / 2 ^ 48 = ldie

/-- Update a task of a die. -/
def State.updTask (s : State) (d lid seq : Nat) (f : Task → Task) : State :=
  s.updDie d fun x => { x with tasks := x.tasks.map fun t => if t.lid = lid ∧ t.seq = seq then f t else t }

/-! Versions (R285, R286). -/

/-- The home tile of a version. -/
def Version.tile (v : Version) : Tile := tileOf v.home v.size

/-- A version that its home tile does not hold yet. -/
def State.unsettled (s : State) (id : Nat) : Bool :=
  (List.range 8).any fun d => (s.dieAt d).versions.any fun v => v.id = id && !v.settled

/-- A live task is bound to a version's pool tile. -/
def State.versionBound (s : State) (v : Version) : Bool :=
  (List.range 8).any fun d => (s.dieAt d).tasks.any fun t => decide (t.lid = v.lid) && t.binds.contains v.pool

/-- Free the pool tiles whose versions have settled and whose bound tasks are done (R286). -/
def State.freePools (s : State) (d : Nat) : State :=
  s.updDie d fun x => { x with versions := x.versions.filter fun v => !v.settled || s.versionBound v }

/-- The lowest free tile of a rename pool (R285): its address. -/
def freeTile (lid : Nat) (vs : List Version) (r : BitVec 512) : Option Nat :=
  let n := (bdSize r + 63) / 64 * 64
  ((List.range (bdCount r)).map fun k => bdPool r + k * n).find? fun a =>
    !(vs.any fun v => decide (v.lid = lid) && meets a (bdSize r) v.pool.toNat v.size)

/-! Resolving a spawn (R283 to R285). -/

/-- What has been resolved of a spawn: addresses, dependences, versions to wait for, the die's versions and the number of
the next. -/
structure Resolved where
  binds : List Word := []
  deps : List Nat := []
  settles : List Nat := []
  versions : List Version
  next : Nat
deriving DecidableEq, Repr

/-- Resolve a binding of a spawn, with the older live tasks of its launch that the die numbered (R284, R285). Where two rows of
R285 hold, the address is that of the first and the waits are those of both (log 45). -/
def State.resolveOne (s : State) (d lid seq : Nat) (older : List Task) (r : Resolved) (b : BitVec 512) (home : Word) :
    Resolved :=
  if bdMode b = 0 then { r with binds := r.binds ++ [0] }
  else
    let h := tileOf home (bdSize b)
    let met := r.versions.filter fun v => decide (v.lid = lid) && !v.settled && tilesMeet v.tile h
    let same := met.filter fun v => v.tile = h
    let part := met.filter fun v => v.tile ≠ h
    let hits := fun (f : BitVec 512 → Bool) => (older.filter fun u => (s.tiles u f).any (tilesMeet · h)).map (·.seq)
    let raw := if bdReads b then hits bdWrites else []
    let anti := if bdWrites b then hits (fun _ => true) else []
    let plain := { r with
      binds := r.binds ++ [home], deps := r.deps ++ raw ++ anti, settles := r.settles ++ met.map (·.id) }
    let unset := (r.versions.filter fun v => !v.settled).length
    let pool := if bdMode b = 2 ∧ bdRen b ∧ (anti ≠ [] ∨ same ≠ []) ∧ unset < 1024 then freeTile lid r.versions b else none
    match pool, same.getLast? with
    | some a, _ =>
      let v : Version :=
        { id := 2 ^ 32 * d + r.next, lid, vf := s.core.vf, asid := s.core.asid, home, size := bdSize b, pool := word a
          writer := seq, before := hits fun _ => true, watch := d }
      { r with
        binds := r.binds ++ [word a], settles := r.settles ++ part.map (·.id), versions := r.versions ++ [v]
        next := r.next + 1 }
    | none, some v =>
      if bdMode b = 1 then
        { r with
          binds := r.binds ++ [v.pool], settles := r.settles ++ part.map (·.id)
          deps := r.deps ++ (if s.taskLive lid v.writer then [v.writer] else []) }
      else plain
    | none, none => plain

/-- Resolve the bindings of a spawn in order. -/
def State.resolveAll (s : State) (d lid seq : Nat) (older : List Task) (r : Resolved) : List (BitVec 512 × Word) → Resolved
  | [] => r
  | b :: bs => s.resolveAll d lid seq older (s.resolveOne d lid seq older r b.1 b.2) bs

/-! Counters and readiness (R284, R287). -/

/-- The view of a die's scheduler for a launch's addresses. -/
def schedView (d vf asid lid : Nat) : View :=
  { who := { die := d, vf, asid, sup := false, vcore := 0xFFFF }, cl := 64 * d, lid }

/-- Read a counter at its home or bank (R287): a failed read is treated as zero and logged. -/
def State.counterValue (s : State) (d : Nat) (t : Task) (a : Word) : Nat × State :=
  let v := schedView d t.vf t.asid t.lid
  match s.engLocate v .load a with
  | (.error _, s) => (0, s.logWho v.who a 1)
  | (.ok k, s) =>
    match (if isFar k then none else if a.bits 60 4 = 2 then s.scrErr k 8 else s.physErr k 8) with
    | some c => (0, s.logWho v.who a c)
    | none => let (bs, s) := if isFar k then s.farBytes 8 else (s.bytes k 8, s); (natOf bs, s)

/-- A waiting task may run: the tasks it depends on are done, its versions have settled, its counter is satisfied. -/
def State.canRun (s : State) (t : Task) : Bool :=
  decide (t.state = .waiting) && t.satisfied && t.deps.all (fun n => !s.taskLive t.lid n) &&
    t.settles.all (fun v => !s.unsettled v)

/-- Re-examine the tasks and versions of a die (R284, R286, R334). -/
def State.refreshDie (s : State) (d : Nat) : State :=
  let wake := fun (t : Task) => if s.canRun t then { t with state := .ready, readyTick := s.time } else t
  (s.updDie d fun x => { x with tasks := x.tasks.map wake }).freePools d

/-- Re-examine every die. -/
def State.refresh (s : State) : State := (List.range 8).foldl State.refreshDie s

/-- The scheduler of a die sees the counter of its task k (R287). -/
def execCounterSatisfied (die k : Nat) (s : State) : Out :=
  match (s.dieAt die).tasks[k]? with
  | none => .next s
  | some t =>
    match t.counter.filter fun _ => !t.satisfied with
    | some a =>
      let (n, s) := s.counterValue die t a
      .next (if n = 0 then (s.updTask die t.lid t.seq fun t => { t with satisfied := true }).refreshDie die else s)
    | none => .next s

/-! Billets (R297, R298). -/

/-- The number of billets in the parent chain of a window, to the depth the window table allows (R297). -/
def Core.chain (c : Core) : Nat → Win → Nat
  | 0, _ => 0
  | n + 1, w => if w.s then 1 + c.chain n (c.win w.parent) else 0

/-- Entry i of a core is struck from the billet b. -/
def Core.strikesOf (c : Core) (b : Nat) : Bool := (List.range 32).any fun i =>
  let w := c.win i
  w.v && w.s && decide (w.parent = b ∧ i ≠ b)

/-- A live task of a launch on a die has a type whose BILLET is entry i (R298). -/
def State.named (s : State) (d lid i : Nat) : Bool :=
  (s.dieAt d).tasks.any fun t => decide (t.lid = lid ∧ tyBillet (s.header t) = i)

/-- A struck billet that nothing needs any more (R298): the tasks are those of the die of the core that froze it; a copy of
a roaming launch stays while a task on any die may come to it (R304, log 46). -/
def State.billetOver (s : State) (loc i : Nat) : Bool :=
  let c := s.coreAt loc
  let w := c.win i
  let roams := (s.launchOf w.lid).any (·.roam)
  w.v && w.t && w.s && !s.taskLive w.lid w.task && !c.strikesOf i && !s.named (dieOf w.froze) w.lid i &&
    !(roams && decide (loc ≠ w.froze) && (List.range 8).any fun d => s.named d w.lid i)

/-- Clear the struck billets of a core that nothing needs; clearing one may release the one it was struck from. -/
def State.sweepCore (s : State) (loc : Nat) : State :=
  (List.range 3).foldl (fun s _ => (List.range 28).foldl (fun s i =>
    if s.billetOver loc i then s.updCoreAt loc fun c => c.setWin i { c.win i with v := false } else s) s) s

/-- Clear the struck billets of a launch that nothing needs (R298). -/
def State.sweepBillets (s : State) (lid : Nat) : State :=
  match s.launchOf lid with
  | some l => (s.launchCores l).foldl State.sweepCore s
  | none => s

/-! Placement (R336). -/

/-- The column and row of a cluster in the package grid (R300). -/
def gridOf (clu : Nat) : Nat × Nat :=
  let d := clu / 64
  let k := clu % 64
  (2 * (d % 4) + k % 2, 16 * (d / 4) + k / 2)

/-- The cluster at a column and a row. -/
def clusterAt (col row : Nat) : Nat := 64 * (4 * (row / 16) + col / 2) + 2 * (row % 16) + col % 2

/-- The edge neighbours of a cluster. -/
def neighbours (clu : Nat) : List Nat :=
  let (c, r) := gridOf clu
  (if 0 < c then [clusterAt (c - 1) r] else []) ++ (if c < 7 then [clusterAt (c + 1) r] else []) ++
    (if 0 < r then [clusterAt c (r - 1)] else []) ++ (if r < 31 then [clusterAt c (r + 1)] else [])

/-- A core of the cluster runs a struck task of any launch: the task's window stands in its window table, and no quench has
stopped it. -/
def State.clBusy (s : State) (clu : Nat) : Bool :=
  (s.dieAt (clu / 64)).tasks.any fun t =>
    let c := s.coreAt t.core
    let w := c.win t.win
    decide (t.state = .running ∧ s.clOf t.core = clu ∧ c.run ≠ .quenched ∧ w.task = t.seq ∧ w.lid = t.lid) && w.v && w.s

/-- The logical number of a cluster in its launch, or its own number. -/
def State.logicalOf (s : State) (clu : Nat) : Nat :=
  match s.launchOf (s.clAt clu).lid with
  | some l => s.clBase l + (l.clusters.findIdx? (· = clu)).getD 0
  | none => clu

/-- The key by which clusters are ranked (R336). -/
def State.rankKey (s : State) (clu : Nat) : Nat × Int × Nat :=
  (((neighbours clu).filter s.clBusy).length, -(sget 0 (s.dieAt (clu / 64)).headroom (clu % 64 / 2)), s.logicalOf clu)

/-- Order by three keys in turn. -/
def keyLe (a b : Nat × Int × Nat) : Bool :=
  decide (a.1 < b.1 ∨ a.1 = b.1 ∧ (a.2.1 < b.2.1 ∨ a.2.1 = b.2.1 ∧ a.2.2 ≤ b.2.2))

/-- Insert in order. -/
def insertBy {α : Type} (le : α → α → Bool) (x : α) : List α → List α
  | [] => [x]
  | y :: ys => if le x y then x :: y :: ys else y :: insertBy le x ys

/-- Sort, keeping the order of equal elements. -/
def sortBy {α : Type} (le : α → α → Bool) (xs : List α) : List α := xs.foldr (insertBy le) []

/-- The rank of a die's clusters is taken again (R336). -/
def State.rankDie (s : State) (d : Nat) : State :=
  let ks := (List.range 32).map fun k => (s.rankKey (64 * d + k), 64 * d + k)
  let rank := (sortBy (fun a b => keyLe a.1 b.1) ks).map (·.2)
  s.updDie d fun x => { x with rank }

/-- A cluster has changed between busy and not busy: every die's rank is taken again. -/
def State.rankAll (s : State) : State := (List.range 8).foldl State.rankDie s

/-- The place of a cluster in its die's rank. -/
def State.placeOf (s : State) (clu : Nat) : Nat := ((s.dieAt (clu / 64)).rank.findIdx? (· = clu)).getD (clu % 64)

/-- The rank is taken again every 10 µs (R336). A step makes the rounds of a tick itself, of every die (log 10). -/
def execPlacementRank (die : Nat) (s : State) : Out := .next (if s.time % 10000 = 0 then s.rankDie die else s)

/-! Offers (R334, R335). -/

/-- The effective level of a ready task (R334). -/
def State.level (s : State) (t : Task) : Nat := Nat.min 3 (t.pri + (s.time - t.readyTick) / 100000)

/-- A task is overdue (R334). -/
def State.overdue (s : State) (t : Task) : Bool := decide (t.readyTick + 400000 ≤ s.time)

/-- A task is older than another (R335). -/
def Task.older (a b : Task) : Bool := decide (a.readyTick < b.readyTick ∨ a.readyTick = b.readyTick ∧ a.seq < b.seq)

/-- The oldest of tasks. -/
def oldest (ts : List Task) : Option Task :=
  ts.foldl (fun b t => match b with
    | none => some t
    | some u => if t.older u then some t else some u) none

/-- A task is resident for a logical cluster (R335). -/
def State.resident (s : State) (t : Task) (k : Nat) : Bool :=
  let p2 := (s.bindings t).filter fun b => bdMode b.1 ≠ 0 ∧ b.2.bits 60 4 = 2
  (p2.any fun b => bdReads b.1 && decide (b.2.bits 40 8 = k)) && p2.all fun b => b.2.bits 40 8 = k

/-- The waiting `tnext` of a core: the sequence number offered to it, 0 for none (R293). -/
def State.tnextOf (s : State) (loc : Nat) : Option Wait := (s.coreAt loc).wait.filter fun w => w.kind = .tnext

/-- The cores of a die that wait in `tnext`. -/
def State.tnextCores (s : State) (d : Nat) : List Nat :=
  ((s.focus :: s.others.map (·.1)).filter fun loc => dieOf loc = d ∧ (s.tnextOf loc).isSome)

/-- A task is offered to some core. -/
def State.offered (s : State) (d : Nat) (t : Task) : Bool :=
  (s.tnextCores d).any fun loc =>
    decide ((s.coreAt loc).dom.launch = t.lid ∧ (s.tnextOf loc).map (·.addr) = some (word t.seq))

/-- The quota that tasks offered to cores of a cluster, and not struck yet, will take (R293). -/
def State.scrOffered (s : State) (clu lid : Nat) : Nat :=
  ((s.tnextCores (clu / 64)).filter fun loc => s.clOf loc = clu ∧ (s.coreAt loc).dom.launch = lid).foldl (fun n loc =>
    n + (((s.dieAt (clu / 64)).tasks.find? fun t => t.lid = lid ∧ (s.tnextOf loc).map (·.addr) = some (word t.seq)).map
      fun t => tyScr (s.header t)).getD 0) 0

/-- The choice of an offer for a core among the ready tasks of its launch on its die (R335). -/
def State.chooseTask (s : State) (loc : Nat) : Option Task :=
  let d := dieOf loc
  let clu := s.clOf loc
  let c := s.coreAt loc
  match s.launchOf c.dom.launch with
  | none => none
  | some l =>
    let cands := (s.dieAt d).tasks.filter fun t => decide (t.lid = l.lid ∧ t.state = .ready) && !s.offered d t
    let used := (s.clAt clu).scrUsed + s.scrOffered clu l.lid
    let fits := fun (t : Task) => decide (tyScr (s.header t) + used ≤ l.quota)
    let cs := cands.filter fits
    let cs := match oldest (cands.filter fun t => s.overdue t && !fits t) with
      | some u => cs.filter fun (t : Task) => t.older u
      | none => cs
    let top := cs.foldl (fun n t => Nat.max n (s.level t)) 0
    match oldest (cs.filter s.overdue) with
    | some t => some t
    | none =>
      let high := cs.filter fun t => s.level t = top
      match oldest (high.filter fun t => s.resident t c.dom.vcl) with
      | some t => some t
      | none => oldest high

/-- The waiting cores of a die without an offer, in placement order (R336). -/
def State.placement (s : State) (d : Nat) : List Nat :=
  let open_ := (s.tnextCores d).filter fun loc => (s.tnextOf loc).map (·.addr) = some 0
  let key := fun loc => (s.placeOf (s.clOf loc), (((s.tnextOf loc).map (·.since)).getD 0 : Int), posOf loc)
  sortBy (fun a b => keyLe (key a) (key b)) open_

/-- Offer a task to a core. -/
def State.offer (s : State) (loc : Nat) (t : Task) : State :=
  s.updCoreAt loc fun c => { c with wait := c.wait.map fun w => { w with addr := word t.seq } }

/-- One offer on a die: to the first waiting core that can receive one (R336). -/
def State.offerOne (s : State) (d : Nat) : State :=
  match (s.placement d).findSome? fun loc => (s.chooseTask loc).map (loc, ·) with
  | some (loc, t) => s.offer loc t
  | none => s

/-- Serve the waiting cores of a die, one offer at a time. -/
def State.serve (s : State) (d : Nat) : State := (s.placement d).foldl (fun s _ => s.offerOne d) s

/-- The scheduler of a die makes an offer (R335, R336). -/
def execTaskOffer (die : Nat) (s : State) : Out := .next (s.offerOne die)

/-! Settles (R119, R286). -/

/-- A version may settle now (R286). -/
def State.mayComplete (s : State) (d : Nat) (v : Version) : Bool :=
  !v.settled && !s.taskLive v.lid v.writer && v.before.all (fun n => !s.taskLive v.lid n) &&
    (((s.dieAt d).versions.takeWhile (·.id ≠ v.id)).all fun o =>
      o.settled || decide (o.lid ≠ v.lid ∨ o.tile ≠ v.tile))

/-- Update a version of a die. -/
def State.updVersion (s : State) (d id : Nat) (f : Version → Version) : State :=
  s.updDie d fun x => { x with versions := x.versions.map fun v => if v.id = id then f v else v }

/-- The scheduler of a die starts the settle copy of the first version that may settle (R286). -/
def State.settleStart (s : State) (d : Nat) : State :=
  match (s.dieAt d).versions.find? fun v => !v.settling && s.mayComplete d v with
  | some v => s.updVersion d v.id fun v => { v with settling := true, sw := s.switches }
  | none => s

/-- The record of a walk over n bytes from an address. -/
def byteWalk (a : Word) (n : Nat) : BitVec 512 :=
  BitVec.ofNat 512 (a.toNat + 7 * 2 ^ 64 + n * 2 ^ 128 + 2 ^ 160 + 2 ^ 192 + 2 ^ 224 + 2 ^ 256)

/-- The settle copy of a version (R119): its segments move in order, until one faults. The command as far as it came, its
fault, and the state. -/
def State.settleCopy (s : State) (c : Cmd) : List Nat → Cmd × Option EngFault × State
  | [] => (c, none, s)
  | j :: js =>
    match s.moveSegment c j with
    | (.error f, s) => (c, some f, s)
    | (.ok _, s) => s.settleCopy { c with segs := c.segs ++ [j] } js

/-- The settle copy of a started version is done, or faults with a record of ticket 0 (R119, R286, R345). One that has faulted
is made anew. -/
def State.settleDone (s : State) (d : Nat) (v : Version) : State :=
  let src := byteWalk v.pool v.size
  let dst := byteWalk v.home v.size
  let lc := fun (a : Word) =>
    if a.bits 60 4 = 2 then (s.clOfLogical v.lid (a.bits 40 8)).getD (64 * v.watch) else 64 * v.watch
  let c : Cmd :=
    { ticket := 0, form := .cpy, pc := 0, win := 0, vf := v.vf, asid := v.asid, vcore := 0xFFFF, die := v.watch, cl := lc v.pool
      lid := v.lid, sup := false, src, dst, sw := if v.faulted then s.switches else v.sw }
  match s.settleCopy c (List.range (segCount v.size)) with
  | (_, none, s) => (s.updVersion d v.id fun v => { v with settled := true }).refresh
  | (c, some f, s') =>
    if v.faulted then s
    else
      (s'.updVersion d v.id fun v => { v with faulted := true }).pushFault v.watch v.vf 0xFFFF
        (faultRecord s.time f.2 c.progress 0 0 0 0 f.1 v.vf 5 0 0 0 0)

/-- The scheduler of a die starts a settle (R286). -/
def execSettle (die : Nat) (s : State) : Out := .next (s.settleStart die)

/-- The settle copy of version k of a die is complete (R286). -/
def execSettleComplete (die k : Nat) (s : State) : Out :=
  match (s.dieAt die).versions[k]? with
  | some v => .next (if v.settling ∧ !v.settled then s.settleDone die v else s)
  | none => .next s

/-! Migration (R304, R337, R338). -/

/-- The team of a task: the logical die that numbered it, and its number. -/
def Task.teamKey (t : Task) : Nat × Nat := (t.seq / 2 ^ 48, t.team)

/-- The teams of a launch on a die. -/
def State.teamsOn (s : State) (d lid : Nat) : List (Nat × Nat) :=
  ((s.dieAt d).tasks.filter (·.lid = lid)).foldl (fun ks t => if ks.contains t.teamKey then ks else ks ++ [t.teamKey]) []

/-- The live tasks of a team on a die. -/
def State.teamOn (s : State) (d lid : Nat) (k : Nat × Nat) : List Task :=
  (s.dieAt d).tasks.filter fun t => t.lid = lid ∧ t.teamKey = k

/-- A team may migrate (R304): its tasks wait or are ready, on whatever die they are, and none of those here depends on a live
task of the die outside the team. A team with a yielded task stays: no register image crosses dies (R338, R362). -/
def State.eligible (s : State) (d lid : Nat) (k : Nat × Nat) : Bool :=
  ((List.range 8).all fun e => (s.teamOn e lid k).all fun t => decide (t.state = .waiting ∨ t.state = .ready)) &&
    (s.teamOn d lid k).all fun t =>
      t.deps.all fun n => !((s.dieAt d).tasks.any fun u => u.lid = lid ∧ u.seq = n ∧ u.teamKey ≠ k)

/-- A die's eligible teams, and its advertised free team slots (R337). -/
def State.spareTeams (s : State) (d lid : Nat) : List (Nat × Nat) := (s.teamsOn d lid).filter (s.eligible d lid)
def State.freeSlots (s : State) (d lid : Nat) : Nat :=
  ((s.tnextCores d).filter fun loc =>
    (s.coreAt loc).dom.launch = lid ∧ (s.tnextOf loc).map (·.addr) = some 0).length / 8

/-- The settles of the versions that these tasks write are watched from die e from now on (R338). A version stays in the list
of the die that made it, in the order of its home tile's versions. -/
def Die.rewatch (x : Die) (lid e : Nat) (ts : List Task) : Die :=
  { x with versions := x.versions.map fun v =>
      if v.lid = lid ∧ (ts.any fun t => t.seq = v.writer) then { v with watch := e } else v }

/-- Send a team to another die: its tasks, with the watch of their counters and of the settles of what they write (R338). -/
def State.sendTeam (s : State) (d e lid : Nat) (k : Nat × Nat) : State :=
  let mine := fun (t : Task) => decide (t.lid = lid ∧ t.teamKey = k)
  let ts := (s.dieAt d).tasks.filter mine
  let s := s.updDie d fun x => { x with tasks := x.tasks.filter fun t => !mine t }
  let s := s.updDie e fun x => { x with tasks := x.tasks ++ ts }
  (List.range 8).foldl (fun s i => if (s.dieAt i).versions = [] then s else s.updDie i fun x => x.rewatch lid e ts) s

/-- The youngest of teams: that of highest team number (R337). -/
def youngest (ks : List (Nat × Nat)) : Option (Nat × Nat) :=
  ks.foldl (fun b k => match b with
    | none => some k
    | some u => if u.2 < k.2 then some k else some u) none

/-- Match the senders in ascending logical-die order with receivers (R337): the teams to send, each sent once in a decision
(R340). -/
def State.matchTeams (s : State) (lid : Nat) (free : List (Nat × Nat)) (sent : List (Nat × Nat)) :
    List Nat → List (Nat × Nat × (Nat × Nat))
  | [] => []
  | d :: ds =>
    let ks := (s.spareTeams d lid).filter fun k => !sent.contains k
    let best := (free.filter fun f => f.1 ≠ d ∧ 1 ≤ f.2).foldl (fun (b : Option (Nat × Nat)) f => match b with
      | none => some f
      | some g => if g.2 < f.2 then some f else some g) none
    match (if 2 ≤ ks.length then youngest ks else none), best with
    | some k, some f => (d, f.1, k) :: s.matchTeams lid (free.filter (·.1 ≠ f.1)) (k :: sent) ds
    | _, _ => s.matchTeams lid free sent ds

/-- The migration decision of a roaming launch at a multiple of 50,000 ticks (R337): the send of a team with a task that has
been offered is abandoned (R338). -/
def State.migrate (s : State) (l : Launch) : State :=
  let ds := (List.range 8).filter fun d => l.clusters.any fun k => k / 64 = d
  let free := ds.map fun d => (d, s.freeSlots d l.lid)
  let sends := (s.matchTeams l.lid free [] ds).filter fun m => !((s.teamOn m.1 l.lid m.2.2).any (s.offered m.1))
  ((sends.foldl (fun s m => s.sendTeam m.1 m.2.1 l.lid m.2.2) s).refresh).sweepBillets l.lid

/-- A migration decision (R337): one at a tick, which a step makes itself for every roaming launch (log 10). -/
def execMigrationDecision (lid : Nat) (s : State) : Out :=
  match s.launchOf lid with
  | some l => .next (if l.roam ∧ l.started ∧ s.time % 50000 = 0 ∧ s.epoch ≠ s.time then s.migrate l else s)
  | none => .next s

/-- The migration decisions of every roaming launch at a tick (R337). -/
def State.migrateAll (s : State) : State :=
  s.launches.foldl (fun s l => match execMigrationDecision l.lid s with
    | .next s => s
    | _ => s) s

end Sys2Proof.Machine
end

