-- ==== Sys2Proof/Machine/Window.lean ====
section
/-! DEFINITION. The window instructions: major 0x21 (R139 to R145). -/
namespace Sys2Proof.Machine

/-- A window instruction has issued: its stall count holds back the next instruction the core issues (R139). -/
def Core.issuedAny (c : Core) (stl : Nat) : Core :=
  let t := c.cycle
  let c := c.issued 0
  { c with ready := t + stl }

/-- A window instruction is complete; the PC goes to a target. -/
def State.retireWin (s : State) (pc : Word) (stl : Nat) : Out := .next (s.updCore fun c => { c.issuedAny stl with pc })

/-- A window instruction with a result is complete. -/
def State.doneWin (s : State) (d : Nat) (v : Word) (stl : Nat) : Out :=
  (s.updCore fun c => c.setXVar d v).retireWin (s.core.pc + 4) stl

/-- A trip that has stopped in a window is given up with the window. -/
def Core.dropTrip (c : Core) (i : Nat) : Core :=
  let c := { c with eng := { c.eng with stops := c.eng.stops.filter (·.1 ≠ i) } }
  match c.eng.trip with
  | some t => if t.stopped ∧ t.widx = i then { c with eng := { c.eng with trip := none } } else c
  | none => c

/-- Naming entries 28 to 31 is privileged (R32, R139). -/
def supIdx (i : Nat) : Bool := decide (28 ≤ i)

/-- Entry i can be switched to (R142). -/
def Core.usable (c : Core) (i : Nat) : Bool := (c.win i).v && !(c.win i).h

/-- `wset` (R140). -/
def execWset (a idx stl : Nat) (s : State) : Out :=
  s.issue { mem := false, priv := supIdx idx, xs := [a] } fun s =>
    let v := s.core.x a
    let e := s.core.win idx
    let w := Win.ofDesc v
    if w.t ∨ w.s ∨ w.parent ≠ 0 ∨ e.v ∧ (e.t ∨ e.s) then s.trap 11 v
    else if !descOk v ∨ idx = s.core.cur ∨ e.h then s.trap 4 v
    else if !s.core.sup ∧ !w.within s.core.arena then s.trap 5 v
    else (s.updCore fun c => (c.setWin idx { w with ready := e.ready }).dropTrip idx).retireWin (s.core.pc + 4) stl

/-- `wget` (R141). -/
def execWget (d idx stl : Nat) (s : State) : Out :=
  s.issue { mem := false, priv := supIdx idx, xd := [d] } fun s => s.doneWin d (s.core.win idx).desc stl

/-- Enter a window: the task of a yielded struck window is running again (R295). -/
def State.enterWin (s : State) (i : Nat) : State :=
  let w := s.core.win i
  let s := s.updCore fun c => { c with cur := i }
  match (if w.s ∧ !w.t then s.taskAt s.die w.lid w.task else none) with
  | some t => if t.state = .yielded then
      (s.updTask s.die w.lid w.task fun t => { t with state := .running }).rankAll else s
  | none => s

/-- The instruction has issued in its own window, and the core goes on in window i at a target. -/
def State.leaveFor (s : State) (i : Nat) (pc : Word) (stl : Nat) : Out :=
  .next ((s.updCore fun c => { c.issuedAny stl with pc }).enterWin i)

/-- `wsw` (R142). -/
def execWsw (idx stl : Nat) (s : State) : Out :=
  s.issue { mem := false, priv := supIdx idx } fun s =>
    if !s.core.usable idx then s.trap 4 (word idx)
    else s.leaveFor idx (s.core.pc + 4) stl

/-- The slot from which the header of entry i is read. -/
def Core.headerSlot (c : Core) (i : Nat) : Nat := c.src (c.win i) 0

/-- The header slot that a switch to entry i reads, where the entry can be entered. -/
def Core.headerReads (c : Core) (i : Nat) : List Nat := if c.usable i then [c.headerSlot i] else []

/-- The PC a header holds, bit 0 cleared. -/
def Core.headerPc (c : Core) (i : Nat) : Word := c.slot (c.headerSlot i) &&& ~~~1#64

/-- Store PC + 4 in the current header, enter window i and go on at its header PC (R142). -/
def State.switchJump (s : State) (i stl : Nat) : Out :=
  let c := s.core
  let pc := if i = c.cur then c.pc + 4 else c.headerPc i
  let s := s.updCore fun c => c.writeNow [(0, c.pc + 4)]
  s.leaveFor i pc stl

/-- `wswj` (R142): both headers are checked as slots of the instruction (R129, R133, R135). -/
def execWswj (idx stl : Nat) (s : State) : Out :=
  s.issue { mem := false, priv := supIdx idx } fun s =>
    s.waitSlots (s.core.headerReads idx ++ [s.core.curWin.base]) fun s =>
    s.checkSlots (s.core.headerReads idx) [s.core.curWin.base] (s.core.copies s.core.curWin [0]) fun s =>
      if !s.core.usable idx then s.trap 4 (word idx) else s.switchJump idx stl

/-- `wshr` (R143). -/
def execWshr (d a idx stl : Nat) (s : State) : Out :=
  s.issue { mem := false, priv := supIdx idx, xs := [a], xd := [d] } fun s =>
    let w := s.core.win idx
    let n := (s.core.x a).toNat
    s.doneWin d (if w.v ∧ w.s ∧ n ≤ 1 then word (fld w.share.toNat (64 * n) 64) else 0) stl

/-- `wclr` (R144). -/
def execWclr (idx stl : Nat) (s : State) : Out :=
  s.issue { mem := false, priv := supIdx idx } fun s =>
    let w := s.core.win idx
    if idx = s.core.cur ∨ w.h then s.trap 4 (word idx)
    else if w.v ∧ (w.s ∨ w.t ∧ s.core.strikesOf idx) then s.trap 11 (word idx)
    else (s.updCore fun c => (c.setWin idx { w with v := false }).dropTrip idx).retireWin (s.core.pc + 4) stl

/-- The new arena a word describes is accepted (R145); one that takes in an unsaved half of another VF is not (R359, log
76). -/
def Core.arenaOk (c : Core) (v : Word) : Bool :=
  let a := Arena.ofWord v
  decide (v.bits 34 30 = 0 ∧ v.bits 31 1 = 0 ∧ v.bits 15 1 = 0) && a.ok && (decide (28 ≤ c.cur) || c.curWin.within a) &&
    !c.holdsOther c.vf a

/-- Install an arena: the user entries it does not hold are cleared (R145). A struck window so cleared ends its
strike: the ranks are taken again where its cluster is busy no longer (R336). -/
def State.setArena (s : State) (v : Word) : State :=
  let a := Arena.ofWord v
  let clear := fun (c : Core) (i : Nat) =>
    let w := c.win i
    if w.v ∧ !w.h ∧ !w.within a then (c.setWin i { w with v := false }).dropTrip i else c
  let busy := s.clBusy s.cl
  let s := s.updCore fun c => (List.range 28).foldl clear { c with arena := a }
  let s := if busy ∧ !s.clBusy s.cl then s.rankAll else s
  if s.core.dom.launch = 0 then s else s.sweepBillets s.core.dom.launch

/-- `warena` (R145). -/
def execWarena (d a stl : Nat) (s : State) : Out :=
  s.issue { mem := false, priv := true, xs := [a], xd := [d] } fun s =>
    let v := s.core.x a
    let old := s.core.arena.word
    if !s.core.arenaOk v then s.trap 5 v
    else (s.setArena v).doneWin d old stl

end Sys2Proof.Machine
end

