-- ==== Sys2Proof/Machine/Tasks.lean ====
section
/-! DEFINITION. The task instructions but for launches: major 0x3B (R290 to R298). -/
namespace Sys2Proof.Machine

/-! Reading records on path 0 (R291, R301, R303). -/

/-- Check n blocks of 64 bytes from an address on path 0 as plain loads: the trap's cause, or their model addresses. -/
def State.locateBlocks (s : State) (ea : Word) : Nat → Except Nat (List (Word × Nat)) × State
  | 0 => (.ok [], s)
  | n + 1 =>
    match (if ea.bits 60 4 ≠ 0 then (.error 9, s) else s.locate .load ea 64) with
    | (.error c, s) => (.error c, s)
    | (.ok k, s) =>
      match s.locateBlocks (ea + 64) n with
      | (.error c, s) => (.error c, s)
      | (.ok ks, s) => (.ok ((ea, k) :: ks), s)

/-- Read located blocks, each none where it receives an error response, which is logged. -/
def State.readBlocks (s : State) : List (Word × Nat) → List (Option (BitVec 512)) × State
  | [] => ([], s)
  | (ea, k) :: ks =>
    let (r, s) := s.recRead ea k
    let (rs, s) := s.readBlocks ks
    (r :: rs, s)

/-- An instruction that reads n blocks at X(A) (R291): the checks of its address, watchpoints (R394), then what it does with
them. -/
def State.withBlocks (s : State) (ea : Word) (n : Nat) (k : List (Option (BitVec 512)) → State → Out) : Out :=
  match s.locateBlocks ea n with
  | (.error c, s) => s.trap c ea
  | (.ok ks, s) => s.watchAccess true false [(ea.toNat, 64 * n)] fun s =>
    let (rs, s) := s.drained.readBlocks ks
    k rs s

/-! `tdef` (R291). -/

/-- Update a launch. -/
def State.updLaunch (s : State) (lid : Nat) (f : Launch → Launch) : State :=
  { s with launches := s.launches.map fun l => if l.lid = lid then f l else l }

/-- The failure code of a `tdef`, 0 where it is valid (R291, R426), from the blocks of its record that could be read:
conditions of a launch are not judged without one. -/
def State.tdefCode (s : State) (rs : List (Option (BitVec 512))) : Nat :=
  let l := s.launchOf s.core.dom.launch
  let bad := fun (r : BitVec 512) =>
    let w := s.core.win (tyBillet r)
    l.isSome && !(w.v && w.t && decide (w.size ≤ tyReg r))
  if l.any fun l => decide (4096 ≤ l.types.length) then 1
  else if !tyOk (l.map (·.quota)) rs then 2
  else if (rs.head?.join).any bad then 3
  else if rs.any (·.isNone) then 4
  else if l.isNone then 5
  else 0

/-- `tdef` (R291). -/
def execTdef (d a stl : Nat) (s : State) : Out :=
  s.issue { xs := [a], xd := [d], acc := true } fun s =>
    s.withBlocks (s.core.x a) 5 fun rs s =>
      match s.tdefCode rs, s.launchOf s.core.dom.launch with
      | 0, some l =>
        (s.updLaunch l.lid fun l => { l with types := l.types ++ [rs.filterMap id] }).doneX d (word l.types.length) stl
      | code, _ => s.doneX d (neg code) stl

/-! `tspawn` (R280, R292). -/

/-- The fields of a task record (R280): its high word and its low word. -/
def rcdType (hi : Word) : Nat := hi.bits 0 12
def rcdCoords (lo : Word) : List Nat := (List.range 4).map fun i => lo.bits (16 * i) 16
def rcdCounter (hi : Word) : Option Word :=
  match hi.bits 61 3 with
  | 0 => none
  | n => some (word (2 ^ 60 * (2 * (n - 1)) + 8 * hi.bits 16 45))

/-- A reserved field or value of a task record is set (R292 code −3). -/
def rcdBad (hi : Word) : Bool :=
  hi.bit 13 || decide (3 < hi.bits 61 3) || decide (hi.bits 61 3 = 0 ∧ hi.bits 16 45 ≠ 0)

/-- The failure code of a `tspawn`, 0 where it is valid (R292, R426). -/
def State.spawnCode (s : State) (hi lo : Word) : Nat :=
  let l := s.launchOf s.core.dom.launch
  let ty := s.typeOf s.core.dom.launch (rcdType hi)
  let off := fun (b : BitVec 512) => decide (bdMode b ≠ 0) && !homeOk b (rcdCoords lo)
  if 4096 ≤ (s.dieAt s.die).tasks.length then 1
  else if l.isSome && ty.isNone then 2
  else if rcdBad hi then 3
  else if ty.any fun rs => (rs.drop 1).any off then 4
  else if l.isNone then 5
  else 0

/-- The team a spawn joins, and the launch's scheduler state with it (R292): a team closes at 256 tasks or at CLOSE. -/
def DieLaunch.join (l : DieLaunch) (typ : Nat) (close : Bool) : Nat × DieLaunch :=
  let o := sget (0, 0) l.openTeams typ
  let t := if o.2 = 0 then l.teams else o.1
  let n := o.2 + 1
  (t, { spawned := l.spawned + 1, teams := if o.2 = 0 then l.teams + 1 else l.teams
        openTeams := sput (0, 0) l.openTeams typ (if close ∨ 256 ≤ n then (0, 0) else (t, n)) })

/-- A spawn reaches the die's scheduler (R283 to R287, R292): its sequence number. -/
def State.spawn (s : State) (hi lo : Word) (rs : List (BitVec 512)) : Word × State :=
  let d := s.die
  let lid := s.core.dom.launch
  let dl := sget {} (s.dieAt d).sched lid
  let seq := 2 ^ 48 * s.core.dom.ldie + dl.spawned + 1
  let older := s.tasksOf lid s.core.dom.ldie
  let homes := (rs.drop 1).map fun b => if bdMode b = 0 then 0 else wordI (homeAddr b (rcdCoords lo))
  let r := s.resolveAll d lid seq older { versions := (s.dieAt d).versions, next := (s.dieAt d).nextVersion }
    ((rs.drop 1).zip homes)
  let (team, dl) := dl.join (rcdType hi) (hi.bit 12)
  let t : Task :=
    { lid, vf := s.core.vf, asid := s.core.asid, seq, typ := rcdType hi, team, pri := hi.bits 14 2, rcd := hi ++ lo
      homes, binds := r.binds, deps := r.deps, settles := r.settles, counter := rcdCounter hi
      satisfied := (rcdCounter hi).isNone }
  let (t, s) := match t.counter with
    | some a => let (n, s) := s.counterValue d t a; ({ t with satisfied := decide (n = 0) }, s)
    | none => (t, s)
  let s := s.updDie d fun x => { x with
    tasks := x.tasks ++ [t], versions := r.versions, nextVersion := r.next, sched := sput {} x.sched lid dl }
  (word seq, s.refreshDie d)

/-- The dev-scope release of `tspawn` and `tdone` (R288). -/
def State.taskRelease (s : State) : State := s.drained.releaseDev s.focus

/-- `tspawn` (R292). -/
def execTspawn (d a stl : Nat) (s : State) : Out :=
  s.issue { xs := [a, d], xd := [d] } fun s =>
    let lo := s.core.x a
    let hi := s.core.x d
    let s := s.taskRelease
    match s.spawnCode hi lo, s.typeOf s.core.dom.launch (rcdType hi) with
    | 0, some rs => let (v, s) := s.spawn hi lo rs; s.doneX d v stl
    | code, _ => s.doneX d (neg code) stl

/-! `tnext` (R293). -/

/-- The window a strike makes (R293). -/
def strikeWin (h : BitVec 512) (t : Task) (b : Win) (base : Nat) : Win :=
  { base, size := tyReg h, voff := b.voff, parent := tyBillet h, v := true, s := true
    share := BitVec.ofNat 128 (2 ^ (b.size / 8) - 4), lid := t.lid, task := t.seq, team := t.team }

/-- The checks of a strike, in order: the trap's cause and value (R293). -/
def State.strikeCheck (s : State) (h : BitVec 512) (w : Win) (base : Nat) : Option (Nat × Word) :=
  let c := s.core
  let b := c.win (tyBillet h)
  let d := ({ w with base := base % 16384 } : Win).desc
  if !(b.v && b.t) then some (11, word (tyBillet h))
  else if 16384 < base + tyReg h then some (4, d)
  else if !c.sup ∧ !w.within c.arena then some (5, d)
  else if c.wins.any fun e => e.2.v && e.2.t && meets base (tyReg h) e.2.base e.2.size then some (11, d)
  else none

/-- Strike a task into entry i (R293): its window, its first sixteen slots, its quota. -/
def State.strike (s : State) (t : Task) (i base : Nat) : State :=
  let h := s.header t
  let b := s.core.win (tyBillet h)
  let w := { strikeWin h t b base with ready := (s.core.win i).ready }
  let vals := [tyEntry h, word t.seq, s.core.slot (s.core.src b 2), s.core.slot (s.core.src b 3)] ++
    (rcdCoords (t.rcd.setWidth 64)).map word ++ (t.binds ++ List.replicate 8 0).take 8
  let ws := vals.zipIdx.map fun v => (base + v.2, v.1)
  let s := s.updCore fun c => ((((c.landIf (·.touches (ws.map (·.1)))).setSlots ws).setWin i w).dropTrip i)
  let s := s.updTask s.die t.lid t.seq fun t => { t with state := .running, core := s.focus, win := i, quotaCl := s.cl }
  let s := s.updCl s.cl fun c => { c with scrUsed := c.scrUsed + tyScr h }
  ((s.acquire true).count 17 1).rankAll

/-- The task offered to the issuing core. -/
def State.myOffer (s : State) : Option Task :=
  match s.tnextOf s.focus with
  | some w => (s.dieAt s.die).tasks.find? fun t => t.lid = s.core.dom.launch ∧ word t.seq = w.addr
  | none => none

/-- `tnext` waits until an offer or its deadline (R293). -/
def execTnext (d a idx stl : Nat) (s : State) : Out :=
  s.issue { xs := [a], xd := [d], mem := false } fun s =>
    if (s.core.win idx).v then s.trap 4 (word idx)
    else
      match s.waiting .tnext (s.time + 1024) with
      | .next s =>
        let s := s.serve s.die
        let base := (s.core.x a).toNat
        match s.myOffer with
        | some t =>
          let h := s.header t
          s.waitSlots ((List.range 16).map (base + ·)) fun s =>
          let b := s.core.win (tyBillet h)
          match s.strikeCheck h (strikeWin h t b base) base with
          | some (c, v) => s.trap c v
          | none => s.checkGood ([2, 3].map (s.core.src b)) fun s => (s.strike t idx base).doneX d (word t.seq) stl
        | none =>
          if (s.core.wait.map (·.deadline)).getD 0 ≤ s.time then s.doneX d (neg 1) stl else .next s
      | o => o

/-- A `tnext` of a core that finds no offer at its deadline answers −1 (R293, R340); D and the stall count are those of the
instruction latched. -/
def execTnextTimeout (core : Nat) (s : State) : Out :=
  match s.tnextOf core with
  | none => .next s
  | some w =>
    if w.addr ≠ 0 ∨ s.time < w.deadline then .next s
    else
      let s := s.serve (dieOf core)
      if (s.tnextOf core).all (·.addr = 0) then
        .next (s.onCore core fun s =>
          let i := s.core.ibits.toNat
          s.updCore fun c => { (c.setXVar (fld i 10 6) (neg 1)).issued (fld i 7 3) with pc := c.pc + 4 })
      else .next s

/-! `tdone` and `tyield` (R294, R295). -/

/-- The first checks of `tdone` and `tyield` (R294). -/
def State.endCheck (s : State) (i : Nat) : Option (Nat × Word) :=
  if !s.core.curWin.s then some (11, word s.core.cur)
  else if !s.core.usable i ∨ i = s.core.cur then some (4, word i)
  else none

/-- A task of the issuing core's die is done (R294 step 3). -/
def State.taskDone (s : State) (lid seq : Nat) : State :=
  match s.taskAt s.die lid seq with
  | none => s
  | some t =>
    let scr := tyScr (s.header t)
    let s := s.updCl t.quotaCl fun c => { c with scrUsed := c.scrUsed - scr }
    let s := s.updDie s.die fun x => { x with tasks := x.tasks.filter fun u => ¬ (u.lid = lid ∧ u.seq = seq) }
    (s.refresh.rankAll)

/-- The slots of a window. -/
def Win.slots (w : Win) : List Nat := (List.range w.size).map (w.base + ·)

/-- `tdone` (R294). -/
def execTdone (idx stl : Nat) (s : State) : Out :=
  s.issue {} fun s =>
    s.waitSlots (s.core.headerReads idx) fun s =>
    s.checkSlots (s.core.headerReads idx) [] [] fun s =>
      match s.endCheck idx with
      | some (c, v) => s.trap c v
      | none =>
        let w := s.core.curWin
        s.waitSlots w.slots fun s =>
        let s := s.drained.updCore fun c => c.landIf (·.touches w.slots)
        let s := (s.taskRelease).taskDone w.lid w.task
        let pc := s.core.headerPc idx
        let s := s.updCore fun c =>
          let c := c.issued stl
          let c := if w.t then c else c.setWin c.cur { c.curWin with v := false }
          { c with cur := idx, pc }
        .next (s.sweepBillets w.lid)

/-- `tyield` (R295). -/
def execTyield (idx stl : Nat) (s : State) : Out :=
  s.issue { mem := false } fun s =>
    s.waitSlots (s.core.headerReads idx ++ [s.core.curWin.base]) fun s =>
    s.checkSlots (s.core.headerReads idx) [] [] fun s =>
      match s.endCheck idx with
      | some (c, v) => s.trap c v
      | none =>
        let w := s.core.curWin
        if w.t then s.trap 11 (word w.base)
        else
          s.checkSlots [] [w.base] (s.core.copies w [0]) fun s =>
            let pc := s.core.headerPc idx
            let s := s.updTask s.die w.lid w.task fun t => { t with state := .yielded }
            let s := s.updCore fun c =>
              let c := c.writeNow [(0, c.pc + 4)]
              { c.issued stl with pc }
            .next (s.rankAll.enterWin idx)

/-! `freeze` (R297). -/

/-- The checks of `freeze`, in order (R297). -/
def State.freezeCheck (s : State) (i : Nat) : Option (Nat × Word) :=
  let c := s.core
  let w := c.curWin
  match s.launchOf c.dom.launch with
  | none => some (11, word c.cur)
  | some l =>
    if 28 ≤ c.cur ∨ w.t then some (11, word c.cur)
    else if w.size % 8 ≠ 0 ∨ w.size < 16 ∨ 1024 < w.size then some (11, w.desc)
    else if w.base < l.tlo ∨ l.thi < w.base + w.size then some (11, w.desc)
    else if 3 ≤ c.chain 32 w then some (11, w.desc)
    else if !c.usable i ∨ i = c.cur then some (4, word i)
    else none

/-- Copy a billet to another core, or count its refusal (R297). -/
def State.sendBillet (w : Win) (i : Nat) (vals : List (Nat × Word)) (p : Nat × State) (loc : Nat) : Nat × State :=
  let c := p.2.coreAt loc
  let y := c.win i
  if c.cur = i ∨ y.v ∧ (y.h ∨ y.t ∨ y.s) then (p.1 + 1, p.2)
  else
    (p.1, p.2.updCoreAt loc fun c =>
      (((c.landIf (·.touches (vals.map (·.1)))).setSlots vals).setWin i { w with ready := y.ready }).dropTrip i)

/-- `freeze` (R297): its destination is named through window i, and may not lie in the frozen window (log 48). -/
def execFreeze (d idx stl : Nat) (s : State) : Out :=
  s.issue { mem := false } fun s =>
    let wi := s.core.win idx
    if s.core.usable idx ∧ d ≠ 0 ∧ wi.size ≤ d then s.trap 4 (word d)
    else
      s.waitSlots (s.core.curWin.slots ++ (if s.core.usable idx then (offX d).map (wi.base + ·) else [])) fun s =>
      s.checkSlots [] (if s.core.usable idx then (offX d).map (wi.base + ·) else [])
          (if s.core.usable idx then s.core.copies wi (offX d) else []) fun s =>
        let w := s.core.curWin
        match s.freezeCheck idx with
        | some (c, v) => s.trap c v
        | none =>
          if d ≠ 0 ∧ w.base ≤ wi.base + d ∧ wi.base + d < w.base + w.size then s.trap 11 (word (wi.base + d))
          else
            let i := s.core.cur
            let slots := w.slots
            if ((s.launchOf s.core.dom.launch).map s.launchCores).any fun ls =>
                ls.any fun loc => (s.coreAt loc).owed.any slots.contains then s.heldBack
            else
            let s := s.updCore fun c => c.landIf (·.touches w.slots)
            let own := (List.range w.size).filter fun k => !(w.s && w.share.getLsbD (k / 8))
            s.checkGood (own.map (w.base + ·)) fun s =>
            let b := { w with t := true, lid := s.core.dom.launch, froze := s.focus }
            let vals := own.map fun k => (w.base + k, s.core.slot (w.base + k))
            let others := match s.launchOf s.core.dom.launch with
              | some l => (s.launchCores l).filter (· ≠ s.focus)
              | none => []
            let (n, s) := others.foldl (State.sendBillet b i vals) (0, s)
            .next (s.updCore fun c =>
              let c := (c.issued stl).setWin i { b with ready := c.cycle + stl }
              let c := c.writeLaterIn idx wi.base .flight 0 (resX d (word n))
              { c with cur := idx, pc := c.pc + 4 })

/-! `tquery` (R296). -/

/-- A task state's code (R296). -/
def TaskState.code : TaskState → Nat
  | .waiting => 1 | .ready => 2 | .running => 3 | .yielded => 4 | .done => 5

/-- What `tquery` reports of a task (R296). -/
def State.taskWord (s : State) (t : Task) : Word :=
  let n := (t.deps.eraseDups.filter (s.taskLive t.lid)).length
  word (put t.state.code 56 8 + put t.team 40 16 + put t.typ 28 12 + put (Nat.min n 4095) 16 12 + b2n (!t.satisfied))

/-- `tquery` of a selector (R296). -/
def State.taskQuery (s : State) (v : Word) : Word :=
  let lid := s.core.dom.launch
  let d := s.dieAt s.die
  if v = neg 1 then
    let n := (((List.range 8).flatMap fun e => (s.dieAt e).versions).filter fun x =>
      x.lid = lid ∧ !x.settled ∧ x.watch = s.die).length
    let r := (d.tasks.filter fun t => t.lid = lid ∧ t.state = .ready).length
    word (put n 32 16 + put r 16 16 + put (4096 - d.tasks.length) 0 16)
  else if v = neg 2 then word (s.core.eng.copyFaults % 2 ^ 48)
  else if 1 ≤ v.toInt then
    if v.bits 48 16 ≠ s.core.dom.ldie then 0
    else
      match s.taskAt s.die lid v.toNat with
      | some t => s.taskWord t
      | none => if 1 ≤ v.bits 0 48 ∧ v.bits 0 48 ≤ (sget {} d.sched lid).spawned then word (put 5 56 8) else 0
  else neg 1

/-- `tquery` (R296). -/
def execTquery (d a stl : Nat) (s : State) : Out :=
  s.issue { xs := [a], xd := [d], mem := false } fun s => s.doneX d (s.taskQuery (s.core.x a)) stl

end Sys2Proof.Machine
end

