-- ==== Sys2Proof/Machine/Launch.lean ====
section
/-! DEFINITION. Launches: claims and releases (R300, R301) and starts (R302, R303). -/
namespace Sys2Proof.Machine

/-! Claims. -/

/-- The fields of a claim record (R300). -/
def clmPkgl (r : BitVec 512) : Word := word (rfld r 128 64)
def clmNpkg (r : BitVec 512) : Nat := rfld r 120 8
def clmRelease (r : BitVec 512) : Bool := decide (rfld r 112 1 = 1)
def clmLid (r : BitVec 512) : Nat := rfld r 96 16
def clmVf (r : BitVec 512) : Nat := rfld r 28 4

/-- A malformed claim record (R300, R301 code −2). -/
def clmBad (r : BitVec 512) : Bool :=
  decide (rfld r 192 320 ≠ 0 ∨ rfld r 113 7 ≠ 0 ∨ rfld r 32 64 ≠ 0 ∨ rfld r 0 11 ≠ 0 ∨ rfld r 22 5 < rfld r 17 5
    ∨ rfld r 14 3 < rfld r 11 3 ∨ clmNpkg r = 0 ∨ 64 < clmNpkg r ∨ (!clmRelease r ∧ clmLid r ≠ 0)
    ∨ (clmNpkg r = 1 ∧ clmPkgl r ≠ 0))

/-- The launch a claim record asks for, over the listed packages; a package that is not listed has no cluster in it. -/
def State.claimLaunch (s : State) (r : BitVec 512) (lid : Nat) (pkgs : List Nat) : Launch :=
  let here := pkgs.contains s.fabric.endpt
  { lid, vf := clmVf r, roam := decide (rfld r 27 1 = 1), pkgs
    colLo := if here then rfld r 11 3 else 1, colHi := if here then rfld r 14 3 else 0
    rowLo := rfld r 17 5, rowHi := rfld r 22 5 }

/-- A cluster may be claimed for a VF: no launch holds it and the VF owns it (R50, R301). -/
def State.claimable (s : State) (vf clu : Nat) : Bool :=
  !(s.launches.any fun l => l.clusters.contains clu) &&
    (sget {} (s.dieAt (clu / 64)).own vf).clusters.getLsbD (clu % 64)

/-- A package is reachable: this one, or one whose endpoint is routed (R398). -/
def State.reachable (s : State) (e : Nat) : Bool :=
  decide (e = s.fabric.endpt) || (decide (e < 256) && (sget none s.fabric.route e).isSome)

/-- The identifier a claim returns (R301): the first from the one after the last given that no launch holds. -/
def State.nextLid (s : State) : Option Nat :=
  ((List.range 65535).map fun i => (s.lastLid + i) % 65535 + 1).find? fun n => (s.launchOf n).isNone

/-- The failure code of a claim or a release, 0 where it is valid (R301, R426). A route between two clusters of a
rectangle keeps inside it, so code −3 does not arise. -/
def State.claimCode (s : State) (r : Option (BitVec 512)) (pkgs : Option (List Nat)) : Nat :=
  match r with
  | none => 4
  | some r =>
    let mine := match s.launchOf (clmLid r) with
      | some l => decide (l.vf = clmVf r)
      | none => false
    let taken := match pkgs with
      | some ps => !(s.claimLaunch r 0 ps).clusters.all (s.claimable (clmVf r))
      | none => false
    if clmRelease r then (if !mine then 1 else if clmBad r then 2 else 0)
    else if taken || s.nextLid.isNone then 1
    else if clmBad r then 2
    else match pkgs with
      | some ps => if ps.all s.reachable then 0 else 4
      | none => 4

/-- A core leaves its launch (R301): its billets and struck windows are cleared, and `cr.dom` and `cr.vcl` hold their
values outside a launch. -/
def Core.leave (c : Core) : Core :=
  let clear := fun (c : Core) (i : Nat) =>
    let w := c.win i
    if w.v ∧ (w.t ∨ w.s) then (c.setWin i { w with v := false }).dropTrip i else c
  { (List.range 32).foldl clear c with dom := {} }

/-- A die forgets a launch: its tasks, versions, teams and phasers (R301, R325). -/
def Die.forget (x : Die) (l : Launch) : Die :=
  { x with
    tasks := x.tasks.filter fun t => t.lid ≠ l.lid
    versions := x.versions.filter fun v => v.lid ≠ l.lid
    sched := sput {} x.sched l.lid {}
    phasers := x.phasers.filter fun p => match p.2 with
      | some q => decide (¬ (q.lid = l.lid ∧ q.vf = l.vf))
      | none => true }

/-- A release ends a launch (R301). -/
def State.endLaunch (s : State) (l : Launch) : State :=
  let s := (s.launchCores l).foldl (fun s loc => s.updCoreAt loc Core.leave) s
  let s := (List.range 8).foldl (fun s d => s.updDie d fun x => x.forget l) s
  let s := l.clusters.foldl (fun s k => s.updCl k fun c => { c with lid := 0, scrUsed := 0 }) s
  ({ s with launches := s.launches.filter fun x => x.lid ≠ l.lid } : State).rankAll

/-- Carry out a claim record (R301): X(D) and the state. -/
def State.claim (s : State) (r : Option (BitVec 512)) (pkgs : Option (List Nat)) : Word × State :=
  match s.claimCode r pkgs, r with
  | 0, some r =>
    if clmRelease r then
      match s.launchOf (clmLid r) with
      | some l => (0, s.endLaunch l)
      | none => (neg 1, s)
    else
      match s.nextLid with
      | none => (neg 1, s)
      | some lid =>
        let l := s.claimLaunch r lid (pkgs.getD [])
        let s := l.clusters.foldl (fun s k => s.updCl k fun c => { c with lid, away := c.away.filter (· ≠ l.vf) }) s
        (word lid, { s with launches := s.launches ++ [l], lastLid := lid })
  | code, _ => (neg code, s)

/-- Read n endpoint numbers of 16 bits on path 0 as the issuing core; a failed read is logged. -/
def State.readPkgs (s : State) (ea : Word) : Nat → Option (List Nat) × State
  | 0 => (some [], s)
  | n + 1 =>
    match (if ea.bits 60 4 ≠ 0 then (.error 9, s) else s.locate .load ea 1) with
    | (.error _, s) => (none, s)
    | (.ok k, s) =>
      match s.plainRead 0 k 2 with
      | (.error c, s) => (none, s.logErr ea c)
      | (.ok bs, s) => let (ps, s) := s.readPkgs (ea + 2) n; (ps.map (natOf bs :: ·), s)

/-- The package list of a claim record (R300): this package where NPKG is 1. -/
def State.pkgList (s : State) (r : BitVec 512) : Option (List Nat) × State :=
  let n := clmNpkg r
  if n = 1 then (some [s.fabric.endpt], s)
  else if n = 0 ∨ 64 < n ∨ clmRelease r then (some [], s)
  else s.readPkgs (clmPkgl r) n

/-- `tclaim` (R301). -/
def execTclaim (d a stl : Nat) (s : State) : Out :=
  s.issue { priv := true, xs := [a], xd := [d], acc := true } fun s =>
    s.withBlocks (s.core.x a) 1 fun rs s =>
      let r := rs.head?.join
      let (ps, s) := match r with
        | some r => s.pkgList r
        | none => (none, s)
      let (v, s) := s.claim r ps
      s.doneX d v stl

/-! Starts. -/

/-- The fields of a launch descriptor (R302). -/
def dscTw (r : BitVec 512) : Word := word (rfld r 416 64)
def dscTvec (r : BitVec 512) : Word := word (rfld r 352 64)
def dscQuota (r : BitVec 512) : Nat := rfld r 312 24
def dscCpc (r : BitVec 512) : Nat := rfld r 304 4
def dscThi (r : BitVec 512) : Nat := rfld r 288 16
def dscTlo (r : BitVec 512) : Nat := rfld r 272 16
def dscLid (r : BitVec 512) : Nat := rfld r 256 16
def dscArena (r : BitVec 512) : Word := word (rfld r 192 64)
def dscWin0 (r : BitVec 512) : Word := word (rfld r 128 64)
def dscArgs (r : BitVec 512) : Word := word (rfld r 64 64)
def dscEntry (r : BitVec 512) : Word := word (rfld r 0 64)

/-- A descriptor word that hardware-written fields leave alone (R302): well formed, with T, S and PARENT zero. -/
def descPlain (v : Word) : Bool := descOk v && decide (v.bits 56 2 = 0 ∧ v.bits 48 5 = 0)

/-- A malformed launch descriptor (R302, R303 code −2). -/
def dscBad (r : BitVec 512) : Bool :=
  let w := Win.ofDesc (dscWin0 r)
  let v := dscArena r
  let a := Arena.ofWord v
  decide (rfld r 480 32 ≠ 0 ∨ rfld r 308 4 ≠ 0 ∨ dscCpc r = 0 ∨ 8 < dscCpc r ∨ 0x600000 < dscQuota r ∨ dscThi r < dscTlo r
    ∨ 16384 < dscThi r ∨ w.size < 8 ∨ v.bits 34 30 ≠ 0 ∨ v.bits 31 1 ≠ 0 ∨ v.bits 15 1 ≠ 0
    ∨ (dscTvec r).bits 0 1 = 1 ∨ ¬ ((dscTvec r).bits 60 4 = 0 ∨ (dscTvec r).bits 60 4 = 3)) ||
  !descPlain (dscWin0 r) || !a.ok || !w.within a || ((dscTw r).bit 58 && !descPlain (dscTw r))

/-- A core is stopped by `halt` or in its reset state, with no pending result (R173, R303, R403), and no unsaved half of
another VF stands in the arena that a launch of VF vf gives it (R359, log 76). -/
def Core.launchable (c : Core) (vf : Nat) (a : Arena) : Bool :=
  decide (c.run = .stopped ∧ c.pend = []) && !c.curWin.h && c.m.atom.isNone && !c.holdsOther vf a

/-- The failure code of a `tlaunch` by a core of VF vf (any, where none is given), 0 where it is valid (R303, R426). -/
def State.launchCode (s : State) (vf : Option Nat) (r : Option (BitVec 512)) : Nat :=
  match r with
  | none => 4
  | some r =>
    match s.launchOf (dscLid r) with
    | none => 1
    | some l =>
      if l.started ∨ vf.any (· ≠ l.vf) then 1
      else if dscBad r then 2
      else if (s.launchCores l).all fun loc => (s.coreAt loc).launchable l.vf (.ofWord (dscArena r)) then 0
      else 3

/-- A stopped core issues again (R174). -/
def Core.go (c : Core) : Core := { c with run := .running, wait := none, held := false, seen := [], clk := { c.clk with gate := 0 } }

/-- What `tlaunch` sets on every core (R303). -/
def Core.prepare (c : Core) (r : BitVec 512) (dom : Dom) : Core :=
  let c := (List.range 28).foldl (fun c i => c.setWin i {}) c
  let c := if (dscTw r).bit 58 then
      { c.setWin 28 (Win.ofDesc (dscTw r)) with trap := { c.trap with twin := 0 } } else c
  { c with
    dom, asid := rfld r 336 16, arena := Arena.ofWord (dscArena r), eng := { c.eng with copyFaults := 0 }
    trap := { c.trap with tvec := if dscTvec r = 0 then c.trap.tvec else dscTvec r } }

/-- A context starts at position pos of its cluster (R303). -/
def Core.begin (c : Core) (r : BitVec 512) (pos : Nat) : Core :=
  let w := Win.ofDesc (dscWin0 r)
  let vals := [(0, dscEntry r), (3, dscArgs r), (4, word pos), (5, word c.dom.vcl), (6, word c.dom.ldie), (7, 0)]
  let c := ((c.setWin 0 w).setSlots (vals.map fun v => (w.base + v.1, v.2))).go
  { c with cur := 0, sup := false, pc := dscEntry r &&& ~~~1#64 }

/-- The dies of a launch on this package. -/
def Launch.dies (l : Launch) : List Nat := (List.range 8).filter fun d => l.clusters.any fun k => k / 64 = d

/-- The domain of the cores of a cluster in a launch (R277, R278). -/
def State.domOf (s : State) (l : Launch) (clu : Nat) : Dom :=
  let before := (l.pkgs.takeWhile (· ≠ s.fabric.endpt)).length
  let ds := l.dies
  { launch := l.lid, roam := l.roam, ldie := before * ds.length + (ds.findIdx? (· = clu / 64)).getD 0
    ncl := l.pkgs.length * l.clusters.length
    vcl := s.clBase l + (l.clusters.findIdx? (· = clu)).getD 0 }

/-- Start a core of a launch. -/
def State.launchCore (s : State) (l : Launch) (r : BitVec 512) (loc : Nat) : State :=
  let dom := s.domOf l (s.clOf loc)
  s.updCoreAt loc fun c =>
    let c := c.prepare r dom
    if posOf loc < dscCpc r then c.begin r (posOf loc) else c

/-- Carry out a launch descriptor (R303): X(D) and the state. -/
def State.launch (s : State) (vf : Option Nat) (r : Option (BitVec 512)) : Word × State :=
  match s.launchCode vf r, r with
  | 0, some r =>
    match s.launchOf (dscLid r) with
    | some l =>
      let s := (s.launchCores l).foldl (fun s loc => s.launchCore l r loc) s
      (0, s.updLaunch l.lid fun l => { l with
        started := true, asid := rfld r 336 16, quota := dscQuota r, tlo := dscTlo r, thi := dscThi r, types := [] })
    | none => (neg 1, s)
  | code, _ => (neg code, s)

/-- `tlaunch` (R303). -/
def execTlaunch (d a stl : Nat) (s : State) : Out :=
  s.issue { priv := true, xs := [a], xd := [d], acc := true } fun s =>
    s.withBlocks (s.core.x a) 1 fun rs s =>
      let (v, s) := s.launch (some s.core.vf) rs.head?.join
      s.doneX d v stl

end Sys2Proof.Machine
end

