-- ==== Sys2Proof/Machine/Csr.lean ====
section
/-! DEFINITION. Control registers: majors 0x1E and 0x1F (R164 to R167), with the field maps of R46, R63, R130, R131,
R135 to R137, R152, R227, R230, R231, R236, R277, R278, R372, R378, R380 and R393. -/
namespace Sys2Proof.Machine

/-! Reads. -/

/-- The fused divider, less 1, of a core at reset (R373). -/
def fusedDiv (loc : Nat) : Nat := Config.lowestDiv (Config.bootLevel (dieOf loc) (numOf loc / 16) % 8) % 16

/-- CORECLK.DIV of a core (R373). -/
def State.divOf (s : State) (loc : Nat) : Nat := ((s.coreAt loc).clk.div.getD (fusedDiv loc)) % 16

/-- `cr.duty` (R372). -/
def State.dutyWord (s : State) (loc : Nat) : Word := word (put (s.divOf loc + 1) 8 8 +
  put ((s.coreAt loc).clk.dutyIn (s.coreAt loc).cycle) 0 5)

/-- `cr.lease` (R236). -/
def State.leaseWord (s : State) (loc : Nat) : Word :=
  let l := (s.clAt (s.clOf loc)).lease
  let n := (s.coreAt loc).mat.leaseN
  match l.holder with
  | some (p, w) => if p = posOf loc then word (put 1 63 1 + put w 24 5 + put l.left 16 8 + put n 0 7) else word (put n 0 7)
  | none => word (put n 0 7)

/-- The team of the struck window that is current, 0xFFFF where it is not one (R277). -/
def Core.team (c : Core) : Nat := if c.curWin.s then c.curWin.team else 0xFFFF

/-- `cr.dom` (R277). -/
def Core.domWord (c : Core) : Word :=
  let d := c.dom
  word (put d.launch 48 16 + put (b2n d.roam) 47 1 + put d.ldie 32 9 + put c.team 16 16 + put d.ncl 0 16)

/-- `cr.mark` (R63). -/
def MarkReg.word (m : MarkReg) : Word :=
  Sys2Proof.word (put (b2n m.armed) 63 1 + put m.slot 48 4 + put m.misses 32 16 + put m.mark 0 32)

/-- `cr.accm` (R231). -/
def MatRegs.accm (m : MatRegs) : Word := word (put m.aty 0 2 + put (b2n m.fe) 8 1)

/-- The trap registers of a core, by number (R136, R137, R167). -/
def TrapRegs.get (t : TrapRegs) (n : Nat) : Word :=
  match n with
  | 0x010 => t.tvec
  | 0x011 => word t.twin
  | 0x012 => word t.tcause
  | 0x013 => t.tval
  | 0x014 => t.tpc
  | 0x015 => word t.tfrom
  | _ => word (b2n t.tstat)

/-- A control register that a core holds itself, by number (R166). -/
def Core.csrGet (c : Core) (n : Nat) : Word :=
  match n with
  | 0x000 => word c.fp.frm
  | 0x001 => c.fp.fflags.setWidth 64
  | 0x002 => c.fp.fenable.setWidth 64
  | 0x003 => word (b2n c.sbchk)
  | 0x004 => c.crWin
  | 0x005 => c.arena.word
  | 0x020 => c.mat.fmta.setWidth 64
  | 0x021 => c.mat.fmtb.setWidth 64
  | 0x022 => word c.mat.ofmt
  | 0x023 => c.mat.accm
  | 0x031 => word c.mat.vwt
  | 0x041 => word c.dom.vcl
  | 0x042 => c.domWord
  | 0x043 => word (put c.asid 16 16 + put c.vf 0 4)
  | 0x060 => c.eng.mark.word
  | n =>
    if n < 0x070 then c.trap.get n
    else if n < 0x078 then (sget 0 c.obs.pmc (n - 0x070)).setWidth 64
    else if n < 0x080 then sget 0 c.obs.pme (n - 0x078)
    else if n < 0x084 then sget 0 c.obs.wpa (n - 0x080)
    else sget 0 c.obs.wpc (n - 0x084)

/-- A counter that selects fabric-port events in a tenant's VF reads zero (R382). -/
def State.countHidden (s : State) (c : Core) (k : Nat) : Bool :=
  let ev := (sget 0 c.obs.pme k).bits 0 8
  (sget {} s.vfpol c.vf).tenant && decide (ev = 21 ∨ ev = 22)

/-- A control register of a core, but `cr.time` (R166). -/
def State.csrOf (s : State) (loc n : Nat) : Word :=
  let c := s.coreAt loc
  match n with
  | 0x030 => s.leaseWord loc
  | 0x040 => word (s.vcoreOf loc)
  | 0x051 => s.dutyWord loc
  | n => if 0x070 ≤ n ∧ n < 0x078 ∧ s.countHidden c (n - 0x070) then 0 else c.csrGet n

/-- A read of a control register by the issuing core. `cr.time` reads the timebase; two cores may read values one tick
apart at one instant, so the read is free between the two (R167). -/
def State.csrRead (s : State) (n : Nat) : Word × State :=
  if n = 0x050 then let (k, s) := s.free; (word (s.time + k % 2), s) else (s.csrOf s.focus n, s)

/-! Writes. -/

/-- Writes of the FP, scoreboard and matrix registers (R135, R152, R230, R231, R236, R227). -/
def MatRegs.set (m : MatRegs) (n : Nat) (v : Word) : MatRegs :=
  match n with
  | 0x020 => { m with fmta := v.setWidth 6 }
  | 0x021 => { m with fmtb := v.setWidth 6 }
  | 0x022 => { m with ofmt := if v.bits 0 2 = 3 then m.ofmt else v.bits 0 2 }
  | 0x023 => { m with aty := if v.bits 0 2 = 3 then m.aty else v.bits 0 2, fe := v.bit 8 }
  | 0x030 => { m with leaseN := if 1 ≤ v.bits 0 7 ∧ v.bits 0 7 ≤ 64 then v.bits 0 7 else m.leaseN }
  | 0x031 => { m with vwt := if v.bits 0 4 = 0 then 1 else v.bits 0 4 }
  | _ => m

def FpRegs.set (f : FpRegs) (n : Nat) (v : Word) : FpRegs :=
  match n with
  | 0x000 => { f with frm := if v.bits 0 3 = 0 ∨ v.bits 0 3 = 7 then f.frm else v.bits 0 3 }
  | 0x001 => { f with fflags := v.setWidth 6 }
  | 0x002 => { f with fenable := v.setWidth 6 }
  | _ => f

/-- Writes of the trap registers (R136, R137, R167). -/
def TrapRegs.set (t : TrapRegs) (n : Nat) (v : Word) : TrapRegs :=
  match n with
  | 0x010 => { t with tvec := v &&& ~~~1#64 }
  | 0x011 => { t with twin := v.bits 0 2 }
  | 0x012 => { t with tcause := v.bits 0 8 }
  | 0x013 => { t with tval := v }
  | 0x014 => { t with tpc := v &&& ~~~1#64 }
  | 0x015 => { t with tfrom := v.bits 0 5 }
  | 0x016 => { t with tstat := v.bit 0 }
  | _ => t

/-- A watchpoint control after a write (R393). -/
def wpcSet (old v : Word) : Word :=
  word (put (if 6 ≤ v.bits 0 3 then old.bits 0 3 else v.bits 0 3) 0 3 + put (v.bits 3 13) 3 13)

/-- Writes of the counters and watchpoints (R380, R393). -/
def Obs.set (o : Obs) (n : Nat) (v : Word) : Obs :=
  if n < 0x078 then { o with pmc := sput 0 o.pmc (n - 0x070) (v.setWidth 48) }
  else if n < 0x080 then { o with pme := sput 0 o.pme (n - 0x078) (v &&& 0xFF0FF#64) }
  else if n < 0x084 then { o with wpa := sput 0 o.wpa (n - 0x080) v }
  else { o with wpc := supd 0 o.wpc (n - 0x084) (wpcSet · v) }

/-- The core after a write of a control register other than `cr.arena`; a register or field that is not writable keeps
its value (R5, R164, R166). -/
def Core.csrSet (c : Core) (n : Nat) (v : Word) : Core :=
  if n ≤ 0x002 then { c with fp := c.fp.set n v }
  else if n = 0x003 then { c with sbchk := v.bit 0 }
  else if 0x010 ≤ n ∧ n ≤ 0x016 then { c with trap := c.trap.set n v }
  else if 0x020 ≤ n ∧ n ≤ 0x031 then { c with mat := c.mat.set n v }
  else if n = 0x043 then { c with asid := v.bits 16 16 }
  else if n = 0x060 then
    { c with eng := { c.eng with mark := { c.eng.mark with misses := v.bits 32 16, mark := v.bits 0 32 } } }
  else if 0x070 ≤ n then { c with obs := c.obs.set n v }
  else c

/-! The instructions. -/

/-- The access code of a register is SV, or RS or SV (R5, R166). -/
def csrSv (n : Nat) : Bool := decide (n = 0x005 ∨ (0x010 ≤ n ∧ n ≤ 0x016) ∨ (0x080 ≤ n ∧ n ≤ 0x087))
def csrRs (n : Nat) : Bool := csrSv n || decide (n = 0x030 ∨ n = 0x031 ∨ n = 0x043 ∨ n = 0x060)

/-- Wait until every earlier FP instruction of the core has set its flags (R165). -/
def Core.flagsSet (c : Core) : Core :=
  let due := fun (t : Nat) (p : Pend) => match p.kind with
    | .fixed r => if p.flags ≠ 0 then Nat.max t r else t
    | _ => t
  let c := c.advance (c.pend.foldl due c.cycle)
  c.landIf fun p => !p.queued && p.flags ≠ 0 || p.ripe c.cycle

/-- A write of a format register of the matrix unit waits until every earlier matrix command of the core has started
(R232). -/
def State.csrHeld (s : State) (n : Nat) : Bool :=
  decide (0x020 ≤ n ∧ n ≤ 0x023) && (s.clAt s.cl).array.any fun c => decide (c.core = s.focus) && !c.started

/-- An access to `cr.fflags` is held while a vector instruction that may set flags stands in the queue (R165); it does not wait
for what a running trip of another window has still to issue (log 80). -/
def State.flagsHeld (s : State) (n : Nat) : Bool :=
  decide (n = 0x001) && s.core.pend.any fun p => p.queued && (decide (p.flags ≠ 0) || p.late.isSome)

/-- An access to `cr.fflags` waits for the flags of earlier instructions (R165). -/
def State.csrWait (s : State) (n : Nat) : State := if n = 0x001 then s.updCore Core.flagsSet else s

/-- `csrr` (R164): a variable-latency result (R134). -/
def execCsrr (csr d stl : Nat) (s : State) : Out :=
  s.issue { priv := csrSv csr, xd := [d], mem := false } fun s =>
    if s.flagsHeld csr then s.heldBack else
    let (v, s) := (s.csrWait csr).csrRead csr
    s.doneX d v stl

/-- A write of a control register (R164): the new value is a function of the old value and X(S). A write of `cr.arena`
is a `warena` (R131). -/
def State.csrPut (f : Word → Word → Word) (csr x stl : Nat) (s : State) : Out :=
  s.issue { priv := csrRs csr, xs := [x], mem := false } fun s =>
    if s.csrHeld csr || s.flagsHeld csr then s.heldBack else
    let b := s.core.x x
    let s := s.csrWait csr
    let v := f (s.csrOf s.focus csr) b
    if csr = 0x005 then
      if !s.core.arenaOk v then s.trap 5 v else (s.setArena v).retire 4 stl
    else (s.updCore fun c => c.csrSet csr v).retire 4 stl

/-- `csrw` (R164). -/
def execCsrw (csr x stl : Nat) (s : State) : Out := s.csrPut (fun _ b => b) csr x stl

/-- `csrs` (R164). -/
def execCsrs (csr x stl : Nat) (s : State) : Out := s.csrPut (fun a b => a ||| b) csr x stl

/-- `csrc` (R164). -/
def execCsrc (csr x stl : Nat) (s : State) : Out := s.csrPut (fun a b => a &&& ~~~b) csr x stl

end Sys2Proof.Machine
end

