-- ==== Sys2Proof/Decode.lean ====
section
/-! DEFINITION. The decoder: from parcels to an instruction or a refusal by name (R16, R18 to R31), total on any
bits; after it the encoder, written from the same encoding tables. A word is a natural number, and `fld w lo n`
is its bits lo + n - 1 down to lo. -/
namespace Sys2Proof

/-- Why a bit pattern is not an instruction (R31). -/
inductive DecodeError where
  /-- MAJ 0x3F, or bit 0 of a word clear. -/
  | reservedMajor
  /-- A reserved FN, OP, SUB, CND, KIND, MODE, ROP, TY, scope or control-register value. -/
  | reservedCode
  /-- A non-zero field that must be zero (R30). -/
  | nonzeroField
  /-- A prefix before a word it may not stand before, or with a field its word does not honour (R21 to R23), or a
  form that needs its prefix and has none. -/
  | badPrefix
  /-- Fewer parcels than the instruction has. -/
  | truncated
deriving DecidableEq, Repr

/-- A decoder's answer. -/
abbrev Dec (α : Type) := Except DecodeError α

/-- Refuse a non-zero value of a field that must be zero (R30). -/
def needZero {α : Type} (v : Nat) (x : Dec α) : Dec α := if v = 0 then x else .error .nonzeroField

/-- Refuse an unassigned code (R26). -/
def withOpt {α β : Type} (o : Option α) (f : α → Dec β) : Dec β :=
  match o with
  | some a => f a
  | none => .error .reservedCode

/-- Refuse a value outside the instruction's list. -/
def guardOk {α : Type} (b : Bool) (x : Dec α) : Dec α := if b then x else .error .reservedCode

/-- The type of a 16-bit form: T = 1 is i32, T = 0 is f32 (R24). -/
def ty16 (int : Bool) : LaneTy := if int then .i32 else .f32

/-- The lane operation of an FN (R27). -/
def laneOpOf : Nat → LaneOp
  | 0 => .add | 1 => .sub | 2 => .mul | 3 => .mac | 4 => .min | 5 => .max | 6 => .minp | 7 => .maxp
  | 8 => .and | 9 => .or | 10 => .xor | 11 => .shl | 12 => .shr | 13 => .sra | 14 => .clt | _ => .ceq

/-- The lane type of majors 0x22 to 0x29 (R199). -/
def laneTyOf : Nat → LaneTy
  | 0x22 => .f32 | 0x23 => .i32 | 0x24 => .n32 | 0x25 => .bf16 | 0x26 => .f16 | 0x27 => .i16
  | 0x28 => .i8 | _ => .f64

/-- The unary operation of a SUB (R27). -/
def unOpOf : Nat → Option UnOp
  | 0 => some .mov | 1 => some .neg | 2 => some .abs | 3 => some .not | 4 => some .rcp
  | 5 => some .rsqrt | 6 => some .sqrt | 7 => some .exp2 | 8 => some .log2 | 9 => some .tanh
  | 10 => some .sigm | 11 => some .rnd | 12 => some .clz | 13 => some .popc | 14 => some .sumr
  | 15 => some .maxr | 16 => some .minr | 17 => some .mxs | 18 => some .rev | 19 => some .cls
  | _ => none

/-- Words of major 0x2C (R215). -/
def decodeVX (w : Nat) : Dec VOp :=
  match fld w 22 4 with
  | 0 => needZero (fld w 30 2) <| withOpt (LaneTy.ofCode (fld w 26 4)) fun ty => .ok (.bcast ty (fld w 10 6) (fld w 16 6))
  | 1 => match fld w 30 2 with
    | 0 => .ok (.ext false (fld w 10 6) (fld w 16 6) (fld w 26 4))
    | 1 => needZero (fld w 29 1) <| .ok (.ext true (fld w 10 6) (fld w 16 6) (fld w 26 3))
    | _ => .error .reservedCode
  | 2 => match fld w 30 2 with
    | 0 => .ok (.ins false (fld w 10 6) (fld w 16 6) (fld w 26 4))
    | 1 => needZero (fld w 29 1) <| .ok (.ins true (fld w 10 6) (fld w 16 6) (fld w 26 3))
    | _ => .error .reservedCode
  | 3 => needZero (fld w 30 2) <| withOpt (LaneTy.ofCode (fld w 26 4)) fun ty =>
      guardOk (decide (56 ≤ fld w 10 6 ∧ fld w 10 6 ≤ 62)) <| .ok (.pred ty (fld w 10 6) (fld w 16 6))
  | 4 => needZero (fld w 30 2) <| withOpt (LaneTy.ofCode (fld w 26 4)) fun ty =>
      guardOk (idxTyOk ty) <| .ok (.idx ty (fld w 10 6) (fld w 16 6))
  | _ => .error .reservedCode

/-- Words of major 0x2D (R27, R216, R219, R220). -/
def decodeVMem (w : Nat) : Dec VOp :=
  match fld w 28 4 with
  | 0 => .ok (.ld .w (fld w 10 6) (fld w 16 6) (fld w 22 6))
  | 1 => .ok (.ld .h (fld w 10 6) (fld w 16 6) (fld w 22 6))
  | 2 => .ok (.ld .b (fld w 10 6) (fld w 16 6) (fld w 22 6))
  | 3 => .ok (.ld .d (fld w 10 6) (fld w 16 6) (fld w 22 6))
  | 4 => .ok (.st .w (fld w 10 6) (fld w 16 6) (fld w 22 6))
  | 5 => .ok (.st .h (fld w 10 6) (fld w 16 6) (fld w 22 6))
  | 6 => .ok (.st .b (fld w 10 6) (fld w 16 6) (fld w 22 6))
  | 7 => .ok (.st .d (fld w 10 6) (fld w 16 6) (fld w 22 6))
  | 8 => .ok (.ldff false (fld w 10 6) (fld w 16 6) (fld w 22 6))
  | 9 => .ok (.ldff true (fld w 10 6) (fld w 16 6) (fld w 22 6))
  | 10 => .ok (.ldg (fld w 10 6) (fld w 16 6) (fld w 22 6))
  | 11 => .ok (.sts (fld w 10 6) (fld w 16 6) (fld w 22 6))
  | 12 => guardOk (decide (fld w 10 6 ≤ 48)) <| .ok (.ldt false (fld w 10 6) (fld w 16 6) (fld w 22 6))
  | 13 => guardOk (decide (fld w 10 6 ≤ 48)) <| .ok (.ldt true (fld w 10 6) (fld w 16 6) (fld w 22 6))
  | 14 => needZero (fld w 16 12) <| guardOk (decide (fld w 10 6 ≤ 48)) <| .ok (.swap (fld w 10 6))
  | _ => .error .reservedCode

/-- Words of major 0x30 (R27, R238). -/
def decodeMat (w : Nat) : Dec VOp :=
  needZero (fld w 26 6) <|
  match fld w 22 4 with
  | 0 => needZero (fld w 10 12) <| .ok (.mat .lease)
  | 1 => needZero (fld w 10 12) <| .ok (.mat .rel)
  | 2 => needZero (fld w 10 6) <| .ok (.mat (.bload (fld w 16 6)))
  | 3 => .ok (.mat (.mac (fld w 10 6) (fld w 16 6)))
  | 4 => needZero (fld w 10 12) <| .ok (.mat .rot)
  | 5 => needZero (fld w 16 6) <| .ok (.mat (.zero (fld w 10 6)))
  | 6 => .ok (.mat (.st (fld w 10 6) (fld w 16 6)))
  | 7 => .ok (.mat (.ld (fld w 10 6) (fld w 16 6)))
  | 8 => .ok (.mat (.acc (fld w 10 6) (fld w 16 6)))
  | 9 => .ok (.mat (.wait (fld w 16 6) (fld w 10 6)))
  | 10 => .ok (.mat (.claim (fld w 16 6) (fld w 10 6)))
  | 11 => .ok (.mat (.stat (fld w 16 6) (fld w 10 6)))
  | _ => .error .reservedCode

/-- Words of the prefixable majors 0x22 to 0x2D and 0x30 (R21), their stall count apart. -/
def decodeV (w : Nat) : Dec VOp :=
  if fld w 1 6 = 0x30 then decodeMat w
  else if fld w 1 6 = 0x2D then decodeVMem w
  else if fld w 1 6 = 0x2C then decodeVX w
  else if fld w 1 6 = 0x2B then
    withOpt (Ty.ofCode (fld w 28 4)) fun sty => withOpt (Ty.ofCode (fld w 22 4)) fun dty =>
    guardOk (cvtOk sty (fld w 26 2) dty) <| .ok (.cvt sty (fld w 26 2) dty (fld w 10 6) (fld w 16 6))
  else if fld w 1 6 = 0x2A then
    withOpt (unOpOf (fld w 22 6)) fun op => withOpt (LaneTy.ofCode (fld w 28 4)) fun ty =>
    guardOk (unTyOk op ty) <| .ok (.un op ty (fld w 10 6) (fld w 16 6))
  else if 0x22 ≤ fld w 1 6 ∧ fld w 1 6 ≤ 0x29 then
    .ok (.lane (laneTyOf (fld w 1 6)) (laneOpOf (fld w 28 4)) (fld w 10 6) (fld w 16 6) (fld w 22 6))
  else .error .reservedMajor

/-- The word a 16-bit vector parcel stands for (R24, R31). -/
def decodeV16 (w : Nat) : Dec VOp :=
  let ty := ty16 (decide (fld w 15 1 = 1))
  let d := fld w 5 5
  let b := fld w 10 5
  match fld w 1 4 with
  | 0 => if w = 0 then .error .reservedCode else .ok (.lane ty .add d d b)
  | 1 => .ok (.lane ty .sub d d b)
  | 2 => .ok (.lane ty .mul d d b)
  | 3 => .ok (.lane ty .min d d b)
  | 4 => .ok (.lane ty .max d d b)
  | 5 => .ok (.lane ty .and d d b)
  | 6 => .ok (.lane ty .or d d b)
  | 7 => .ok (.lane ty .xor d d b)
  | 8 => .ok (.un .mov ty d b)
  | 9 => .ok (.un .neg ty d b)
  | 10 => .ok (.un .abs ty d b)
  | 11 => if fld w 15 1 = 1 then .ok (.lane .i32 .shl d d b) else .error .reservedCode
  | 12 => if fld w 15 1 = 1 then .ok (.lane .i32 .sra d d b) else .error .reservedCode
  | 13 => .ok (.lane ty .clt d d b)
  | 14 => .ok (.lane ty .ceq d d b)
  | _ => if fld w 15 1 = 1 then .ok (.un .popc .i32 d b) else .ok (.un .rcp .f32 d b)

/-- The unprefixed row of a lane operation (R205). -/
noncomputable def laneInstr (ty : LaneTy) (op : LaneOp) (d a b stl : Nat) : Instr :=
  match ty, op with
  | .f32, .add => .vaddF32 d a b stl
  | .f32, .sub => .vsubF32 d a b stl
  | .f32, .mul => .vmulF32 d a b stl
  | .f32, .mac => .vmacF32 d a b stl
  | .f32, .min => .vminF32 d a b stl
  | .f32, .max => .vmaxF32 d a b stl
  | .f32, .minp => .vminpF32 d a b stl
  | .f32, .maxp => .vmaxpF32 d a b stl
  | .f32, .and => .vandF32 d a b stl
  | .f32, .or => .vorF32 d a b stl
  | .f32, .xor => .vxorF32 d a b stl
  | .f32, .shl => .vshlF32 d a b stl
  | .f32, .shr => .vshrF32 d a b stl
  | .f32, .sra => .vsraF32 d a b stl
  | .f32, .clt => .vcltF32 d a b stl
  | .f32, .ceq => .vceqF32 d a b stl
  | .i32, .add => .vaddI32 d a b stl
  | .i32, .sub => .vsubI32 d a b stl
  | .i32, .mul => .vmulI32 d a b stl
  | .i32, .mac => .vmacI32 d a b stl
  | .i32, .min => .vminI32 d a b stl
  | .i32, .max => .vmaxI32 d a b stl
  | .i32, .minp => .vminpI32 d a b stl
  | .i32, .maxp => .vmaxpI32 d a b stl
  | .i32, .and => .vandI32 d a b stl
  | .i32, .or => .vorI32 d a b stl
  | .i32, .xor => .vxorI32 d a b stl
  | .i32, .shl => .vshlI32 d a b stl
  | .i32, .shr => .vshrI32 d a b stl
  | .i32, .sra => .vsraI32 d a b stl
  | .i32, .clt => .vcltI32 d a b stl
  | .i32, .ceq => .vceqI32 d a b stl
  | .n32, .add => .vaddN32 d a b stl
  | .n32, .sub => .vsubN32 d a b stl
  | .n32, .mul => .vmulN32 d a b stl
  | .n32, .mac => .vmacN32 d a b stl
  | .n32, .min => .vminN32 d a b stl
  | .n32, .max => .vmaxN32 d a b stl
  | .n32, .minp => .vminpN32 d a b stl
  | .n32, .maxp => .vmaxpN32 d a b stl
  | .n32, .and => .vandN32 d a b stl
  | .n32, .or => .vorN32 d a b stl
  | .n32, .xor => .vxorN32 d a b stl
  | .n32, .shl => .vshlN32 d a b stl
  | .n32, .shr => .vshrN32 d a b stl
  | .n32, .sra => .vsraN32 d a b stl
  | .n32, .clt => .vcltN32 d a b stl
  | .n32, .ceq => .vceqN32 d a b stl
  | .bf16, .add => .vaddBf16 d a b stl
  | .bf16, .sub => .vsubBf16 d a b stl
  | .bf16, .mul => .vmulBf16 d a b stl
  | .bf16, .mac => .vmacBf16 d a b stl
  | .bf16, .min => .vminBf16 d a b stl
  | .bf16, .max => .vmaxBf16 d a b stl
  | .bf16, .minp => .vminpBf16 d a b stl
  | .bf16, .maxp => .vmaxpBf16 d a b stl
  | .bf16, .and => .vandBf16 d a b stl
  | .bf16, .or => .vorBf16 d a b stl
  | .bf16, .xor => .vxorBf16 d a b stl
  | .bf16, .shl => .vshlBf16 d a b stl
  | .bf16, .shr => .vshrBf16 d a b stl
  | .bf16, .sra => .vsraBf16 d a b stl
  | .bf16, .clt => .vcltBf16 d a b stl
  | .bf16, .ceq => .vceqBf16 d a b stl
  | .f16, .add => .vaddF16 d a b stl
  | .f16, .sub => .vsubF16 d a b stl
  | .f16, .mul => .vmulF16 d a b stl
  | .f16, .mac => .vmacF16 d a b stl
  | .f16, .min => .vminF16 d a b stl
  | .f16, .max => .vmaxF16 d a b stl
  | .f16, .minp => .vminpF16 d a b stl
  | .f16, .maxp => .vmaxpF16 d a b stl
  | .f16, .and => .vandF16 d a b stl
  | .f16, .or => .vorF16 d a b stl
  | .f16, .xor => .vxorF16 d a b stl
  | .f16, .shl => .vshlF16 d a b stl
  | .f16, .shr => .vshrF16 d a b stl
  | .f16, .sra => .vsraF16 d a b stl
  | .f16, .clt => .vcltF16 d a b stl
  | .f16, .ceq => .vceqF16 d a b stl
  | .i16, .add => .vaddI16 d a b stl
  | .i16, .sub => .vsubI16 d a b stl
  | .i16, .mul => .vmulI16 d a b stl
  | .i16, .mac => .vmacI16 d a b stl
  | .i16, .min => .vminI16 d a b stl
  | .i16, .max => .vmaxI16 d a b stl
  | .i16, .minp => .vminpI16 d a b stl
  | .i16, .maxp => .vmaxpI16 d a b stl
  | .i16, .and => .vandI16 d a b stl
  | .i16, .or => .vorI16 d a b stl
  | .i16, .xor => .vxorI16 d a b stl
  | .i16, .shl => .vshlI16 d a b stl
  | .i16, .shr => .vshrI16 d a b stl
  | .i16, .sra => .vsraI16 d a b stl
  | .i16, .clt => .vcltI16 d a b stl
  | .i16, .ceq => .vceqI16 d a b stl
  | .i8, .add => .vaddI8 d a b stl
  | .i8, .sub => .vsubI8 d a b stl
  | .i8, .mul => .vmulI8 d a b stl
  | .i8, .mac => .vmacI8 d a b stl
  | .i8, .min => .vminI8 d a b stl
  | .i8, .max => .vmaxI8 d a b stl
  | .i8, .minp => .vminpI8 d a b stl
  | .i8, .maxp => .vmaxpI8 d a b stl
  | .i8, .and => .vandI8 d a b stl
  | .i8, .or => .vorI8 d a b stl
  | .i8, .xor => .vxorI8 d a b stl
  | .i8, .shl => .vshlI8 d a b stl
  | .i8, .shr => .vshrI8 d a b stl
  | .i8, .sra => .vsraI8 d a b stl
  | .i8, .clt => .vcltI8 d a b stl
  | .i8, .ceq => .vceqI8 d a b stl
  | .f64, .add => .vaddF64 d a b stl
  | .f64, .sub => .vsubF64 d a b stl
  | .f64, .mul => .vmulF64 d a b stl
  | .f64, .mac => .vmacF64 d a b stl
  | .f64, .min => .vminF64 d a b stl
  | .f64, .max => .vmaxF64 d a b stl
  | .f64, .minp => .vminpF64 d a b stl
  | .f64, .maxp => .vmaxpF64 d a b stl
  | .f64, .and => .vandF64 d a b stl
  | .f64, .or => .vorF64 d a b stl
  | .f64, .xor => .vxorF64 d a b stl
  | .f64, .shl => .vshlF64 d a b stl
  | .f64, .shr => .vshrF64 d a b stl
  | .f64, .sra => .vsraF64 d a b stl
  | .f64, .clt => .vcltF64 d a b stl
  | .f64, .ceq => .vceqF64 d a b stl

/-- The row of a unary operation (R208). -/
noncomputable def unInstr (op : UnOp) (ty : LaneTy) (d a stl : Nat) : Instr :=
  match op with
  | .mov => .vmov ty d a stl
  | .neg => .vneg ty d a stl
  | .abs => .vabs ty d a stl
  | .not => .vnot ty d a stl
  | .rcp => .vrcp ty d a stl
  | .rsqrt => .vrsqrt ty d a stl
  | .sqrt => .vsqrt ty d a stl
  | .exp2 => .vexp2 ty d a stl
  | .log2 => .vlog2 ty d a stl
  | .tanh => .vtanh ty d a stl
  | .sigm => .vsigm ty d a stl
  | .rnd => .vrnd ty d a stl
  | .clz => .vclz ty d a stl
  | .popc => .vpopc ty d a stl
  | .sumr => .vsumr ty d a stl
  | .maxr => .vmaxr ty d a stl
  | .minr => .vminr ty d a stl
  | .mxs => .vmxs ty d a stl
  | .rev => .vrev ty d a stl
  | .cls => .vclass ty d a stl

/-- The row of a matrix command (R238). -/
noncomputable def matInstr (op : MatOp) (stl : Nat) : Instr :=
  match op with
  | .lease => .mlease stl
  | .rel => .mrel stl
  | .bload a => .mbload a stl
  | .mac d a => .mmac d a stl
  | .rot => .mrot stl
  | .zero d => .mzero d stl
  | .st d a => .mst d a stl
  | .ld d a => .mld d a stl
  | .acc d a => .macc d a stl
  | .wait a d => .mwait d a stl
  | .claim a d => .mclaim d a stl
  | .stat a d => .mstat d a stl

/-- The unprefixed row of a prefixable word; none for the forms that need a prefix. -/
noncomputable def ofVOp (v : VOp) (stl : Nat) : Option Instr :=
  match v with
  | .lane ty op d a b => some (laneInstr ty op d a b stl)
  | .un op ty d a => some (unInstr op ty d a stl)
  | .cvt sty mode dty d a => some (.vcvt sty mode dty d a stl)
  | .bcast ty d a => some (.vbcast ty d a stl)
  | .idx ty d a => some (.vidx ty d a stl)
  | .pred ty d a => some (.vpred ty d a stl)
  | .ext false d a k => some (.vextW d a k stl)
  | .ext true d a k => some (.vextD d a k stl)
  | .ins false d a k => some (.vinsW d a k stl)
  | .ins true d a k => some (.vinsD d a k stl)
  | .ld .w d a b => some (.vldW d a b stl)
  | .ld .h d a b => some (.vldH d a b stl)
  | .ld .b d a b => some (.vldB d a b stl)
  | .ld .d d a b => some (.vldD d a b stl)
  | .st .w d a b => some (.vstW d a b stl)
  | .st .h d a b => some (.vstH d a b stl)
  | .st .b d a b => some (.vstB d a b stl)
  | .st .d d a b => some (.vstD d a b stl)
  | .ldt false d a b => some (.vldtW d a b stl)
  | .ldt true d a b => some (.vldtH d a b stl)
  | .swap d => some (.vswap d stl)
  | .mat op => some (matInstr op stl)
  | .ldff .. => none
  | .ldg .. => none
  | .sts .. => none

/-- The row of an unprefixed word of a prefixable major (R23). -/
noncomputable def decodeVWord (w : Nat) : Dec Instr :=
  match decodeV w with
  | .ok v => match ofVOp v (fld w 7 3) with
    | some i => .ok i
    | none => .error .badPrefix
  | .error e => .error e

/-- Words of major 0x00 (R26). -/
noncomputable def decMaj00 (w : Nat) : Dec Instr :=
  match fld w 28 4 with
  | 0 => .ok (.add (fld w 10 6) (fld w 16 6) (fld w 22 6) (fld w 7 3))
  | 1 => .ok (.sub (fld w 10 6) (fld w 16 6) (fld w 22 6) (fld w 7 3))
  | 2 => .ok (.and (fld w 10 6) (fld w 16 6) (fld w 22 6) (fld w 7 3))
  | 3 => .ok (.or (fld w 10 6) (fld w 16 6) (fld w 22 6) (fld w 7 3))
  | 4 => .ok (.xor (fld w 10 6) (fld w 16 6) (fld w 22 6) (fld w 7 3))
  | 5 => .ok (.andn (fld w 10 6) (fld w 16 6) (fld w 22 6) (fld w 7 3))
  | 6 => .ok (.sll (fld w 10 6) (fld w 16 6) (fld w 22 6) (fld w 7 3))
  | 7 => .ok (.srl (fld w 10 6) (fld w 16 6) (fld w 22 6) (fld w 7 3))
  | 8 => .ok (.sra (fld w 10 6) (fld w 16 6) (fld w 22 6) (fld w 7 3))
  | 9 => .ok (.slt (fld w 10 6) (fld w 16 6) (fld w 22 6) (fld w 7 3))
  | 10 => .ok (.sltu (fld w 10 6) (fld w 16 6) (fld w 22 6) (fld w 7 3))
  | 11 => .ok (.seq (fld w 10 6) (fld w 16 6) (fld w 22 6) (fld w 7 3))
  | 12 => .ok (.min (fld w 10 6) (fld w 16 6) (fld w 22 6) (fld w 7 3))
  | 13 => .ok (.max (fld w 10 6) (fld w 16 6) (fld w 22 6) (fld w 7 3))
  | 14 => .ok (.minn (fld w 10 6) (fld w 16 6) (fld w 22 6) (fld w 7 3))
  | 15 => .ok (.maxn (fld w 10 6) (fld w 16 6) (fld w 22 6) (fld w 7 3))
  | _ => .error .reservedCode

/-- Words of major 0x01 (R26). -/
noncomputable def decMaj01 (w : Nat) : Dec Instr :=
  match fld w 28 4 with
  | 0 => .ok (.mul (fld w 10 6) (fld w 16 6) (fld w 22 6) (fld w 7 3))
  | 1 => .ok (.mulh (fld w 10 6) (fld w 16 6) (fld w 22 6) (fld w 7 3))
  | 2 => .ok (.mulhn (fld w 10 6) (fld w 16 6) (fld w 22 6) (fld w 7 3))
  | 4 => .ok (.div (fld w 10 6) (fld w 16 6) (fld w 22 6) (fld w 7 3))
  | 5 => .ok (.divn (fld w 10 6) (fld w 16 6) (fld w 22 6) (fld w 7 3))
  | 6 => .ok (.rem (fld w 10 6) (fld w 16 6) (fld w 22 6) (fld w 7 3))
  | 7 => .ok (.remn (fld w 10 6) (fld w 16 6) (fld w 22 6) (fld w 7 3))
  | 8 => needZero (fld w 22 6) <| .ok (.clz (fld w 10 6) (fld w 16 6) (fld w 7 3))
  | 9 => needZero (fld w 22 6) <| .ok (.ctz (fld w 10 6) (fld w 16 6) (fld w 7 3))
  | 10 => needZero (fld w 22 6) <| .ok (.popc (fld w 10 6) (fld w 16 6) (fld w 7 3))
  | 11 => needZero (fld w 22 6) <| .ok (.bswap (fld w 10 6) (fld w 16 6) (fld w 7 3))
  | 12 => .ok (.rotl (fld w 10 6) (fld w 16 6) (fld w 22 6) (fld w 7 3))
  | 13 => .ok (.rotr (fld w 10 6) (fld w 16 6) (fld w 22 6) (fld w 7 3))
  | 14 => needZero (fld w 22 6) <| .ok (.sextw (fld w 10 6) (fld w 16 6) (fld w 7 3))
  | 15 => needZero (fld w 22 6) <| .ok (.zextw (fld w 10 6) (fld w 16 6) (fld w 7 3))
  | _ => .error .reservedCode

/-- Words of major 0x02 (R26). -/
noncomputable def decMaj02 (w : Nat) : Dec Instr :=
  .ok (.addi (fld w 10 6) (fld w 16 6) (BitVec.ofNat 10 (fld w 22 10)) (fld w 7 3))

/-- Words of major 0x03 (R26). -/
noncomputable def decMaj03 (w : Nat) : Dec Instr :=
  .ok (.andi (fld w 10 6) (fld w 16 6) (BitVec.ofNat 10 (fld w 22 10)) (fld w 7 3))

/-- Words of major 0x04 (R26). -/
noncomputable def decMaj04 (w : Nat) : Dec Instr :=
  .ok (.ori (fld w 10 6) (fld w 16 6) (BitVec.ofNat 10 (fld w 22 10)) (fld w 7 3))

/-- Words of major 0x05 (R26). -/
noncomputable def decMaj05 (w : Nat) : Dec Instr :=
  .ok (.xori (fld w 10 6) (fld w 16 6) (BitVec.ofNat 10 (fld w 22 10)) (fld w 7 3))

/-- Words of major 0x06 (R26). -/
noncomputable def decMaj06 (w : Nat) : Dec Instr :=
  .ok (.slti (fld w 10 6) (fld w 16 6) (BitVec.ofNat 10 (fld w 22 10)) (fld w 7 3))

/-- Words of major 0x07 (R26). -/
noncomputable def decMaj07 (w : Nat) : Dec Instr :=
  .ok (.sltni (fld w 10 6) (fld w 16 6) (BitVec.ofNat 10 (fld w 22 10)) (fld w 7 3))

/-- Words of major 0x08 (R26). -/
noncomputable def decMaj08 (w : Nat) : Dec Instr :=
  match fld w 28 4 with
  | 0 => .ok (.slli (fld w 10 6) (fld w 16 6) (BitVec.ofNat 6 (fld w 22 6)) (fld w 7 3))
  | 1 => .ok (.srli (fld w 10 6) (fld w 16 6) (BitVec.ofNat 6 (fld w 22 6)) (fld w 7 3))
  | 2 => .ok (.srai (fld w 10 6) (fld w 16 6) (BitVec.ofNat 6 (fld w 22 6)) (fld w 7 3))
  | 3 => .ok (.rotli (fld w 10 6) (fld w 16 6) (BitVec.ofNat 6 (fld w 22 6)) (fld w 7 3))
  | _ => .error .reservedCode

/-- Words of major 0x09 (R26). -/
noncomputable def decMaj09 (w : Nat) : Dec Instr :=
  .ok (.lui (fld w 10 6) (BitVec.ofNat 16 (fld w 16 16)) (fld w 7 3))

/-- Words of major 0x0A (R26). -/
noncomputable def decMaj0A (w : Nat) : Dec Instr :=
  .ok (.lmid (fld w 10 6) (BitVec.ofNat 16 (fld w 16 16)) (fld w 7 3))

/-- Words of major 0x0B (R26). -/
noncomputable def decMaj0B (w : Nat) : Dec Instr :=
  .ok (.ltop (fld w 10 6) (BitVec.ofNat 16 (fld w 16 16)) (fld w 7 3))

/-- Words of major 0x0C (R26). -/
noncomputable def decMaj0C (w : Nat) : Dec Instr :=
  match fld w 28 4 with
  | 0 => .ok (.faddF64 (fld w 10 6) (fld w 16 6) (fld w 22 6) (fld w 7 3))
  | 1 => .ok (.fsubF64 (fld w 10 6) (fld w 16 6) (fld w 22 6) (fld w 7 3))
  | 2 => .ok (.fmulF64 (fld w 10 6) (fld w 16 6) (fld w 22 6) (fld w 7 3))
  | 3 => .ok (.fdivF64 (fld w 10 6) (fld w 16 6) (fld w 22 6) (fld w 7 3))
  | 4 => needZero (fld w 22 6) <| .ok (.fsqrtF64 (fld w 10 6) (fld w 16 6) (fld w 7 3))
  | 5 => .ok (.fminF64 (fld w 10 6) (fld w 16 6) (fld w 22 6) (fld w 7 3))
  | 6 => .ok (.fmaxF64 (fld w 10 6) (fld w 16 6) (fld w 22 6) (fld w 7 3))
  | 7 => .ok (.fmacF64 (fld w 10 6) (fld w 16 6) (fld w 22 6) (fld w 7 3))
  | 8 => .ok (.fltF64 (fld w 10 6) (fld w 16 6) (fld w 22 6) (fld w 7 3))
  | 9 => .ok (.fleF64 (fld w 10 6) (fld w 16 6) (fld w 22 6) (fld w 7 3))
  | 10 => .ok (.feqF64 (fld w 10 6) (fld w 16 6) (fld w 22 6) (fld w 7 3))
  | 11 => needZero (fld w 22 6) <| .ok (.fclassF64 (fld w 10 6) (fld w 16 6) (fld w 7 3))
  | 12 =>
    match fld w 22 6 with
    | 0 => .ok (.fcvtI64F64 (fld w 10 6) (fld w 16 6) (fld w 7 3))
    | 1 => .ok (.fcvtN64F64 (fld w 10 6) (fld w 16 6) (fld w 7 3))
    | 2 => .ok (.fcvtI32F64 (fld w 10 6) (fld w 16 6) (fld w 7 3))
    | 3 => .ok (.fcvtN32F64 (fld w 10 6) (fld w 16 6) (fld w 7 3))
    | _ => .error .reservedCode
  | 13 =>
    match fld w 22 6 with
    | 0 => .ok (.fcvtF64I64 (fld w 10 6) (fld w 16 6) (fld w 7 3))
    | 1 => .ok (.fcvtF64N64 (fld w 10 6) (fld w 16 6) (fld w 7 3))
    | 2 => .ok (.fcvtF64I32 (fld w 10 6) (fld w 16 6) (fld w 7 3))
    | 3 => .ok (.fcvtF64N32 (fld w 10 6) (fld w 16 6) (fld w 7 3))
    | 4 => .ok (.fcvtF64F32 (fld w 10 6) (fld w 16 6) (fld w 7 3))
    | _ => .error .reservedCode
  | 14 => .ok (.fminpF64 (fld w 10 6) (fld w 16 6) (fld w 22 6) (fld w 7 3))
  | 15 => .ok (.fmaxpF64 (fld w 10 6) (fld w 16 6) (fld w 22 6) (fld w 7 3))
  | _ => .error .reservedCode

/-- Words of major 0x0D (R26). -/
noncomputable def decMaj0D (w : Nat) : Dec Instr :=
  match fld w 28 4 with
  | 0 => .ok (.faddF32 (fld w 10 6) (fld w 16 6) (fld w 22 6) (fld w 7 3))
  | 1 => .ok (.fsubF32 (fld w 10 6) (fld w 16 6) (fld w 22 6) (fld w 7 3))
  | 2 => .ok (.fmulF32 (fld w 10 6) (fld w 16 6) (fld w 22 6) (fld w 7 3))
  | 3 => .ok (.fdivF32 (fld w 10 6) (fld w 16 6) (fld w 22 6) (fld w 7 3))
  | 4 => needZero (fld w 22 6) <| .ok (.fsqrtF32 (fld w 10 6) (fld w 16 6) (fld w 7 3))
  | 5 => .ok (.fminF32 (fld w 10 6) (fld w 16 6) (fld w 22 6) (fld w 7 3))
  | 6 => .ok (.fmaxF32 (fld w 10 6) (fld w 16 6) (fld w 22 6) (fld w 7 3))
  | 7 => .ok (.fmacF32 (fld w 10 6) (fld w 16 6) (fld w 22 6) (fld w 7 3))
  | 8 => .ok (.fltF32 (fld w 10 6) (fld w 16 6) (fld w 22 6) (fld w 7 3))
  | 9 => .ok (.fleF32 (fld w 10 6) (fld w 16 6) (fld w 22 6) (fld w 7 3))
  | 10 => .ok (.feqF32 (fld w 10 6) (fld w 16 6) (fld w 22 6) (fld w 7 3))
  | 11 => needZero (fld w 22 6) <| .ok (.fclassF32 (fld w 10 6) (fld w 16 6) (fld w 7 3))
  | 12 =>
    match fld w 22 6 with
    | 0 => .ok (.fcvtI64F32 (fld w 10 6) (fld w 16 6) (fld w 7 3))
    | 1 => .ok (.fcvtN64F32 (fld w 10 6) (fld w 16 6) (fld w 7 3))
    | 2 => .ok (.fcvtI32F32 (fld w 10 6) (fld w 16 6) (fld w 7 3))
    | 3 => .ok (.fcvtN32F32 (fld w 10 6) (fld w 16 6) (fld w 7 3))
    | _ => .error .reservedCode
  | 13 =>
    match fld w 22 6 with
    | 0 => .ok (.fcvtF32I64 (fld w 10 6) (fld w 16 6) (fld w 7 3))
    | 1 => .ok (.fcvtF32N64 (fld w 10 6) (fld w 16 6) (fld w 7 3))
    | 2 => .ok (.fcvtF32I32 (fld w 10 6) (fld w 16 6) (fld w 7 3))
    | 3 => .ok (.fcvtF32N32 (fld w 10 6) (fld w 16 6) (fld w 7 3))
    | 4 => .ok (.fcvtF32F64 (fld w 10 6) (fld w 16 6) (fld w 7 3))
    | _ => .error .reservedCode
  | 14 => .ok (.fminpF32 (fld w 10 6) (fld w 16 6) (fld w 22 6) (fld w 7 3))
  | 15 => .ok (.fmaxpF32 (fld w 10 6) (fld w 16 6) (fld w 22 6) (fld w 7 3))
  | _ => .error .reservedCode

/-- Words of major 0x0E (R26). -/
noncomputable def decMaj0E (w : Nat) : Dec Instr :=
  match fld w 16 3 with
  | 0 => .ok (.beqz (fld w 10 6) (BitVec.ofNat 13 (fld w 19 13)) (fld w 7 3))
  | 1 => .ok (.bnez (fld w 10 6) (BitVec.ofNat 13 (fld w 19 13)) (fld w 7 3))
  | 2 => .ok (.bltz (fld w 10 6) (BitVec.ofNat 13 (fld w 19 13)) (fld w 7 3))
  | 3 => .ok (.bgez (fld w 10 6) (BitVec.ofNat 13 (fld w 19 13)) (fld w 7 3))
  | 4 => .ok (.blez (fld w 10 6) (BitVec.ofNat 13 (fld w 19 13)) (fld w 7 3))
  | 5 => .ok (.bgtz (fld w 10 6) (BitVec.ofNat 13 (fld w 19 13)) (fld w 7 3))
  | 6 => .ok (.dbnz (fld w 10 6) (BitVec.ofNat 13 (fld w 19 13)) (fld w 7 3))
  | _ => .error .reservedCode

/-- Words of major 0x0F (R26). -/
noncomputable def decMaj0F (w : Nat) : Dec Instr :=
  match fld w 22 4 with
  | 0 => needZero (fld w 29 3) <| withOpt (Scope.ofCode (fld w 26 3)) fun sc => guardOk (decide (sc = .die ∨ sc = .dev)) <| .ok (.phnew (fld w 10 6) (fld w 16 6) sc (fld w 7 3))
  | 1 => needZero (fld w 26 6) <| .ok (.phfree (fld w 10 6) (fld w 16 6) (fld w 7 3))
  | 2 => needZero (fld w 28 4) <| withOpt (PhMode.ofCode (fld w 26 2)) fun md => .ok (.phreg (fld w 10 6) (fld w 16 6) md (fld w 7 3))
  | 3 => needZero (fld w 26 6) <| .ok (.phdrop (fld w 10 6) (fld w 16 6) (fld w 7 3))
  | 4 => needZero (fld w 26 6) <| .ok (.phsig (fld w 10 6) (fld w 16 6) (fld w 7 3))
  | 5 => needZero (fld w 26 6) <| .ok (.phwait (fld w 10 6) (fld w 16 6) (fld w 7 3))
  | 6 => needZero (fld w 26 6) <| .ok (.phnext (fld w 10 6) (fld w 16 6) (fld w 7 3))
  | 7 => needZero (fld w 26 6) <| .ok (.phq (fld w 10 6) (fld w 16 6) (fld w 7 3))
  | _ => .error .reservedCode

/-- Words of major 0x10 (R26). -/
noncomputable def decMaj10 (w : Nat) : Dec Instr :=
  .ok (.j (BitVec.ofNat 22 (fld w 10 22)) (fld w 7 3))

/-- Words of major 0x11 (R26). -/
noncomputable def decMaj11 (w : Nat) : Dec Instr :=
  .ok (.call (BitVec.ofNat 22 (fld w 10 22)) (fld w 7 3))

/-- Words of major 0x12 (R26). -/
noncomputable def decMaj12 (w : Nat) : Dec Instr :=
  match fld w 28 4 with
  | 0 => needZero (fld w 10 6) <| needZero (fld w 22 6) <| .ok (.jr (fld w 16 6) (fld w 7 3))
  | 1 => needZero (fld w 10 6) <| needZero (fld w 22 6) <| .ok (.callr (fld w 16 6) (fld w 7 3))
  | _ => .error .reservedCode

/-- Words of major 0x13 (R26). -/
noncomputable def decMaj13 (w : Nat) : Dec Instr :=
  .ok (.ldD (fld w 10 6) (fld w 16 6) (BitVec.ofNat 10 (fld w 22 10)) (fld w 7 3))

/-- Words of major 0x14 (R26). -/
noncomputable def decMaj14 (w : Nat) : Dec Instr :=
  .ok (.ldW (fld w 10 6) (fld w 16 6) (BitVec.ofNat 10 (fld w 22 10)) (fld w 7 3))

/-- Words of major 0x15 (R26). -/
noncomputable def decMaj15 (w : Nat) : Dec Instr :=
  .ok (.ldWn (fld w 10 6) (fld w 16 6) (BitVec.ofNat 10 (fld w 22 10)) (fld w 7 3))

/-- Words of major 0x16 (R26). -/
noncomputable def decMaj16 (w : Nat) : Dec Instr :=
  .ok (.ldH (fld w 10 6) (fld w 16 6) (BitVec.ofNat 10 (fld w 22 10)) (fld w 7 3))

/-- Words of major 0x17 (R26). -/
noncomputable def decMaj17 (w : Nat) : Dec Instr :=
  .ok (.ldHn (fld w 10 6) (fld w 16 6) (BitVec.ofNat 10 (fld w 22 10)) (fld w 7 3))

/-- Words of major 0x18 (R26). -/
noncomputable def decMaj18 (w : Nat) : Dec Instr :=
  .ok (.ldB (fld w 10 6) (fld w 16 6) (BitVec.ofNat 10 (fld w 22 10)) (fld w 7 3))

/-- Words of major 0x19 (R26). -/
noncomputable def decMaj19 (w : Nat) : Dec Instr :=
  .ok (.ldBn (fld w 10 6) (fld w 16 6) (BitVec.ofNat 10 (fld w 22 10)) (fld w 7 3))

/-- Words of major 0x1A (R26). -/
noncomputable def decMaj1A (w : Nat) : Dec Instr :=
  .ok (.stD (fld w 10 6) (fld w 16 6) (BitVec.ofNat 10 (fld w 22 10)) (fld w 7 3))

/-- Words of major 0x1B (R26). -/
noncomputable def decMaj1B (w : Nat) : Dec Instr :=
  .ok (.stW (fld w 10 6) (fld w 16 6) (BitVec.ofNat 10 (fld w 22 10)) (fld w 7 3))

/-- Words of major 0x1C (R26). -/
noncomputable def decMaj1C (w : Nat) : Dec Instr :=
  .ok (.stH (fld w 10 6) (fld w 16 6) (BitVec.ofNat 10 (fld w 22 10)) (fld w 7 3))

/-- Words of major 0x1D (R26). -/
noncomputable def decMaj1D (w : Nat) : Dec Instr :=
  .ok (.stB (fld w 10 6) (fld w 16 6) (BitVec.ofNat 10 (fld w 22 10)) (fld w 7 3))

/-- Words of major 0x1E (R26). -/
noncomputable def decMaj1E (w : Nat) : Dec Instr :=
  needZero (fld w 26 6) <| guardOk (csrKnown (fld w 16 10)) <| .ok (.csrr (fld w 16 10) (fld w 10 6) (fld w 7 3))

/-- Words of major 0x1F (R26). -/
noncomputable def decMaj1F (w : Nat) : Dec Instr :=
  match fld w 26 6 with
  | 0 => guardOk (csrKnown (fld w 16 10)) <| .ok (.csrw (fld w 16 10) (fld w 10 6) (fld w 7 3))
  | 1 => guardOk (csrKnown (fld w 16 10)) <| .ok (.csrs (fld w 16 10) (fld w 10 6) (fld w 7 3))
  | 2 => guardOk (csrKnown (fld w 16 10)) <| .ok (.csrc (fld w 16 10) (fld w 10 6) (fld w 7 3))
  | _ => .error .reservedCode

/-- Words of major 0x20 (R26). -/
noncomputable def decMaj20 (w : Nat) : Dec Instr :=
  match fld w 22 4 with
  | 0 => needZero (fld w 10 12) <| .ok (.trap (BitVec.ofNat 6 (fld w 26 6)) (fld w 7 3))
  | 1 => needZero (fld w 10 12) <| needZero (fld w 26 6) <| .ok (.rett (fld w 7 3))
  | 2 => needZero (fld w 10 12) <| needZero (fld w 26 6) <| .ok (.halt (fld w 7 3))
  | 3 => needZero (fld w 10 6) <| needZero (fld w 26 6) <| .ok (.sleep (fld w 16 6) (fld w 7 3))
  | 4 => needZero (fld w 10 12) <| needZero (fld w 26 6) <| .ok (.ibar (fld w 7 3))
  | 5 => needZero (fld w 26 3) <| withOpt (Scope.ofCode (fld w 29 3)) fun sc => .ok (.iinv (fld w 10 6) (fld w 16 6) sc (fld w 7 3))
  | 6 => needZero (fld w 10 12) <| .ok (.brk (BitVec.ofNat 6 (fld w 26 6)) (fld w 7 3))
  | 7 => needZero (fld w 26 6) <| .ok (.resume (fld w 10 6) (fld w 16 6) (fld w 7 3))
  | _ => .error .reservedCode

/-- Words of major 0x21 (R26). -/
noncomputable def decMaj21 (w : Nat) : Dec Instr :=
  match fld w 22 4 with
  | 0 => needZero (fld w 10 6) <| needZero (fld w 26 1) <| .ok (.wset (fld w 16 6) (fld w 27 5) (fld w 7 3))
  | 1 => needZero (fld w 16 6) <| needZero (fld w 26 1) <| .ok (.wget (fld w 10 6) (fld w 27 5) (fld w 7 3))
  | 2 => needZero (fld w 10 12) <| needZero (fld w 26 1) <| .ok (.wsw (fld w 27 5) (fld w 7 3))
  | 3 => needZero (fld w 10 12) <| needZero (fld w 26 1) <| .ok (.wswj (fld w 27 5) (fld w 7 3))
  | 4 => needZero (fld w 26 1) <| .ok (.wshr (fld w 10 6) (fld w 16 6) (fld w 27 5) (fld w 7 3))
  | 5 => needZero (fld w 10 12) <| needZero (fld w 26 1) <| .ok (.wclr (fld w 27 5) (fld w 7 3))
  | 6 => needZero (fld w 26 6) <| .ok (.warena (fld w 10 6) (fld w 16 6) (fld w 7 3))
  | _ => .error .reservedCode

/-- Words of major 0x2E (R26). -/
noncomputable def decMaj2E (w : Nat) : Dec Instr :=
  guardOk (decide (fld w 14 2 < 3)) <| .ok (.vtrip (fld w 16 6) (fld w 10 4) (fld w 14 2) (fld w 22 4) (fld w 26 6) (fld w 7 3))

/-- Words of major 0x2F (R26). -/
noncomputable def decMaj2F (w : Nat) : Dec Instr :=
  match fld w 22 4 with
  | 0 => .ok (.vstrm (fld w 10 6) (fld w 16 6) (fld w 26 6) (fld w 7 3))
  | 1 => needZero (fld w 26 6) <| .ok (.vsunb (fld w 10 6) (fld w 16 6) (fld w 7 3))
  | 2 => needZero (fld w 26 6) <| .ok (.vsq (fld w 10 6) (fld w 16 6) (fld w 7 3))
  | _ => .error .reservedCode

/-- Words of major 0x31 (R26). -/
noncomputable def decMaj31 (w : Nat) : Dec Instr :=
  match fld w 28 3 with
  | 0 => .ok (.atomAddBlk (decide (fld w 31 1 = 1)) (fld w 10 6) (fld w 16 6) (fld w 22 6) (fld w 7 3))
  | 1 => .ok (.atomAndBlk (decide (fld w 31 1 = 1)) (fld w 10 6) (fld w 16 6) (fld w 22 6) (fld w 7 3))
  | 2 => .ok (.atomOrBlk (decide (fld w 31 1 = 1)) (fld w 10 6) (fld w 16 6) (fld w 22 6) (fld w 7 3))
  | 3 => .ok (.atomXorBlk (decide (fld w 31 1 = 1)) (fld w 10 6) (fld w 16 6) (fld w 22 6) (fld w 7 3))
  | 4 => .ok (.atomMinBlk (decide (fld w 31 1 = 1)) (fld w 10 6) (fld w 16 6) (fld w 22 6) (fld w 7 3))
  | 5 => .ok (.atomMaxBlk (decide (fld w 31 1 = 1)) (fld w 10 6) (fld w 16 6) (fld w 22 6) (fld w 7 3))
  | 6 => .ok (.atomSwapBlk (decide (fld w 31 1 = 1)) (fld w 10 6) (fld w 16 6) (fld w 22 6) (fld w 7 3))
  | 7 => .ok (.atomCasBlk (decide (fld w 31 1 = 1)) (fld w 10 6) (fld w 16 6) (fld w 22 6) (fld w 7 3))
  | _ => .error .reservedCode

/-- Words of major 0x32 (R26). -/
noncomputable def decMaj32 (w : Nat) : Dec Instr :=
  match fld w 28 3 with
  | 0 => .ok (.atomAddCls (decide (fld w 31 1 = 1)) (fld w 10 6) (fld w 16 6) (fld w 22 6) (fld w 7 3))
  | 1 => .ok (.atomAndCls (decide (fld w 31 1 = 1)) (fld w 10 6) (fld w 16 6) (fld w 22 6) (fld w 7 3))
  | 2 => .ok (.atomOrCls (decide (fld w 31 1 = 1)) (fld w 10 6) (fld w 16 6) (fld w 22 6) (fld w 7 3))
  | 3 => .ok (.atomXorCls (decide (fld w 31 1 = 1)) (fld w 10 6) (fld w 16 6) (fld w 22 6) (fld w 7 3))
  | 4 => .ok (.atomMinCls (decide (fld w 31 1 = 1)) (fld w 10 6) (fld w 16 6) (fld w 22 6) (fld w 7 3))
  | 5 => .ok (.atomMaxCls (decide (fld w 31 1 = 1)) (fld w 10 6) (fld w 16 6) (fld w 22 6) (fld w 7 3))
  | 6 => .ok (.atomSwapCls (decide (fld w 31 1 = 1)) (fld w 10 6) (fld w 16 6) (fld w 22 6) (fld w 7 3))
  | 7 => .ok (.atomCasCls (decide (fld w 31 1 = 1)) (fld w 10 6) (fld w 16 6) (fld w 22 6) (fld w 7 3))
  | _ => .error .reservedCode

/-- Words of major 0x33 (R26). -/
noncomputable def decMaj33 (w : Nat) : Dec Instr :=
  match fld w 28 3 with
  | 0 => .ok (.atomAddDev (decide (fld w 31 1 = 1)) (fld w 10 6) (fld w 16 6) (fld w 22 6) (fld w 7 3))
  | 1 => .ok (.atomAndDev (decide (fld w 31 1 = 1)) (fld w 10 6) (fld w 16 6) (fld w 22 6) (fld w 7 3))
  | 2 => .ok (.atomOrDev (decide (fld w 31 1 = 1)) (fld w 10 6) (fld w 16 6) (fld w 22 6) (fld w 7 3))
  | 3 => .ok (.atomXorDev (decide (fld w 31 1 = 1)) (fld w 10 6) (fld w 16 6) (fld w 22 6) (fld w 7 3))
  | 4 => .ok (.atomMinDev (decide (fld w 31 1 = 1)) (fld w 10 6) (fld w 16 6) (fld w 22 6) (fld w 7 3))
  | 5 => .ok (.atomMaxDev (decide (fld w 31 1 = 1)) (fld w 10 6) (fld w 16 6) (fld w 22 6) (fld w 7 3))
  | 6 => .ok (.atomSwapDev (decide (fld w 31 1 = 1)) (fld w 10 6) (fld w 16 6) (fld w 22 6) (fld w 7 3))
  | 7 => .ok (.atomCasDev (decide (fld w 31 1 = 1)) (fld w 10 6) (fld w 16 6) (fld w 22 6) (fld w 7 3))
  | _ => .error .reservedCode

/-- Words of major 0x34 (R26). -/
noncomputable def decMaj34 (w : Nat) : Dec Instr :=
  match fld w 28 3 with
  | 0 => .ok (.atomAddSys (decide (fld w 31 1 = 1)) (fld w 10 6) (fld w 16 6) (fld w 22 6) (fld w 7 3))
  | 1 => .ok (.atomAndSys (decide (fld w 31 1 = 1)) (fld w 10 6) (fld w 16 6) (fld w 22 6) (fld w 7 3))
  | 2 => .ok (.atomOrSys (decide (fld w 31 1 = 1)) (fld w 10 6) (fld w 16 6) (fld w 22 6) (fld w 7 3))
  | 3 => .ok (.atomXorSys (decide (fld w 31 1 = 1)) (fld w 10 6) (fld w 16 6) (fld w 22 6) (fld w 7 3))
  | 4 => .ok (.atomMinSys (decide (fld w 31 1 = 1)) (fld w 10 6) (fld w 16 6) (fld w 22 6) (fld w 7 3))
  | 5 => .ok (.atomMaxSys (decide (fld w 31 1 = 1)) (fld w 10 6) (fld w 16 6) (fld w 22 6) (fld w 7 3))
  | 6 => .ok (.atomSwapSys (decide (fld w 31 1 = 1)) (fld w 10 6) (fld w 16 6) (fld w 22 6) (fld w 7 3))
  | 7 => .ok (.atomCasSys (decide (fld w 31 1 = 1)) (fld w 10 6) (fld w 16 6) (fld w 22 6) (fld w 7 3))
  | _ => .error .reservedCode

/-- Words of major 0x35 (R26). -/
noncomputable def decMaj35 (w : Nat) : Dec Instr :=
  match fld w 10 4 with
  | 0 => needZero (fld w 28 4) <| .ok (.redAddW (fld w 16 6) (fld w 22 6) (AtScope.ofCode (fld w 14 2)) (fld w 7 3))
  | 1 => needZero (fld w 28 4) <| .ok (.redAddD (fld w 16 6) (fld w 22 6) (AtScope.ofCode (fld w 14 2)) (fld w 7 3))
  | 2 => needZero (fld w 28 4) <| .ok (.redAndW (fld w 16 6) (fld w 22 6) (AtScope.ofCode (fld w 14 2)) (fld w 7 3))
  | 3 => needZero (fld w 28 4) <| .ok (.redAndD (fld w 16 6) (fld w 22 6) (AtScope.ofCode (fld w 14 2)) (fld w 7 3))
  | 4 => needZero (fld w 28 4) <| .ok (.redOrW (fld w 16 6) (fld w 22 6) (AtScope.ofCode (fld w 14 2)) (fld w 7 3))
  | 5 => needZero (fld w 28 4) <| .ok (.redOrD (fld w 16 6) (fld w 22 6) (AtScope.ofCode (fld w 14 2)) (fld w 7 3))
  | 6 => needZero (fld w 28 4) <| .ok (.redXorW (fld w 16 6) (fld w 22 6) (AtScope.ofCode (fld w 14 2)) (fld w 7 3))
  | 7 => needZero (fld w 28 4) <| .ok (.redXorD (fld w 16 6) (fld w 22 6) (AtScope.ofCode (fld w 14 2)) (fld w 7 3))
  | 8 => needZero (fld w 28 4) <| .ok (.redMinW (fld w 16 6) (fld w 22 6) (AtScope.ofCode (fld w 14 2)) (fld w 7 3))
  | 9 => needZero (fld w 28 4) <| .ok (.redMinD (fld w 16 6) (fld w 22 6) (AtScope.ofCode (fld w 14 2)) (fld w 7 3))
  | 10 => needZero (fld w 28 4) <| .ok (.redMaxW (fld w 16 6) (fld w 22 6) (AtScope.ofCode (fld w 14 2)) (fld w 7 3))
  | 11 => needZero (fld w 28 4) <| .ok (.redMaxD (fld w 16 6) (fld w 22 6) (AtScope.ofCode (fld w 14 2)) (fld w 7 3))
  | 12 => needZero (fld w 28 4) <| .ok (.redFaddF32 (fld w 16 6) (fld w 22 6) (AtScope.ofCode (fld w 14 2)) (fld w 7 3))
  | 13 => needZero (fld w 28 4) <| .ok (.redFaddF64 (fld w 16 6) (fld w 22 6) (AtScope.ofCode (fld w 14 2)) (fld w 7 3))
  | _ => .error .reservedCode

/-- Words of major 0x36 (R26). -/
noncomputable def decMaj36 (w : Nat) : Dec Instr :=
  match fld w 22 4 with
  | 0 => needZero (fld w 26 6) <| .ok (.ldSync (fld w 10 6) (fld w 16 6) (fld w 7 3))
  | 1 => needZero (fld w 26 6) <| .ok (.take (fld w 10 6) (fld w 16 6) (fld w 7 3))
  | 2 => .ok (.put (fld w 10 6) (fld w 16 6) (fld w 26 6) (fld w 7 3))
  | 3 => needZero (fld w 26 6) <| .ok (.feSet (fld w 16 6) (fld w 10 6) (fld w 7 3))
  | 4 => needZero (fld w 26 6) <| .ok (.feClr (fld w 16 6) (fld w 10 6) (fld w 7 3))
  | 5 => needZero (fld w 26 6) <| .ok (.feQ (fld w 10 6) (fld w 16 6) (fld w 7 3))
  | 6 => needZero (fld w 26 6) <| .ok (.feWait (fld w 16 6) (fld w 10 6) (fld w 7 3))
  | _ => .error .reservedCode

/-- Words of major 0x37 (R26). -/
noncomputable def decMaj37 (w : Nat) : Dec Instr :=
  match fld w 22 4 with
  | 0 => needZero (fld w 26 6) <| .ok (.bcfgC (fld w 10 6) (fld w 16 6) (fld w 7 3))
  | 1 => needZero (fld w 26 6) <| .ok (.bcfgS (fld w 10 6) (fld w 16 6) (fld w 7 3))
  | 2 => needZero (fld w 26 6) <| .ok (.bcfgF (fld w 10 6) (fld w 16 6) (fld w 7 3))
  | 3 => needZero (fld w 26 6) <| .ok (.bq (fld w 10 6) (fld w 16 6) (fld w 7 3))
  | _ => .error .reservedCode

/-- Words of major 0x38 (R26). -/
noncomputable def decMaj38 (w : Nat) : Dec Instr :=
  match fld w 22 4 with
  | 0 => .ok (.fpush (fld w 10 6) (fld w 16 6) (fld w 26 6) (fld w 7 3))
  | 1 => needZero (fld w 26 6) <| .ok (.fpop (fld w 10 6) (fld w 16 6) (fld w 7 3))
  | 2 => needZero (fld w 26 6) <| .ok (.fq (fld w 10 6) (fld w 16 6) (fld w 7 3))
  | _ => .error .reservedCode

/-- Words of major 0x39 (R26). -/
noncomputable def decMaj39 (w : Nat) : Dec Instr :=
  match fld w 28 4 with
  | 0 => .ok (.cpy (fld w 10 6) (fld w 16 6) (fld w 22 6) (fld w 7 3))
  | 1 => .ok (.cpyFe (fld w 10 6) (fld w 16 6) (fld w 22 6) (fld w 7 3))
  | 2 => .ok (.mcast (fld w 10 6) (fld w 16 6) (fld w 22 6) (fld w 7 3))
  | 3 => .ok (.putsig (fld w 10 6) (fld w 16 6) (fld w 22 6) (fld w 7 3))
  | 4 => .ok (.cpyPh (fld w 10 6) (fld w 16 6) (fld w 22 6) (fld w 7 3))
  | 5 => needZero (fld w 22 6) <| .ok (.cpwait (fld w 10 6) (fld w 16 6) (fld w 7 3))
  | 6 => needZero (fld w 22 6) <| .ok (.cpq (fld w 10 6) (fld w 16 6) (fld w 7 3))
  | 7 => .ok (.cpcan (fld w 10 6) (fld w 16 6) (fld w 22 6) (fld w 7 3))
  | _ => .error .reservedCode

/-- Words of major 0x3A (R26). -/
noncomputable def decMaj3A (w : Nat) : Dec Instr :=
  match fld w 22 4 with
  | 0 => needZero (fld w 10 6) <| .ok (.mark (fld w 16 6) (BitVec.ofNat 6 (fld w 26 6)) (fld w 7 3))
  | 1 => needZero (fld w 26 6) <| .ok (.ttarm (fld w 10 6) (fld w 16 6) (fld w 7 3))
  | 2 => needZero (fld w 26 6) <| .ok (.ttq (fld w 10 6) (fld w 16 6) (fld w 7 3))
  | 3 => needZero (fld w 26 6) <| .ok (.ttreplay (fld w 10 6) (fld w 16 6) (fld w 7 3))
  | 4 => needZero (fld w 16 6) <| needZero (fld w 26 6) <| .ok (.ttoff (fld w 10 6) (fld w 7 3))
  | _ => .error .reservedCode

/-- Words of major 0x3B (R26). -/
noncomputable def decMaj3B (w : Nat) : Dec Instr :=
  match fld w 22 4 with
  | 0 => needZero (fld w 26 6) <| .ok (.tdef (fld w 10 6) (fld w 16 6) (fld w 7 3))
  | 1 => needZero (fld w 26 6) <| .ok (.tspawn (fld w 10 6) (fld w 16 6) (fld w 7 3))
  | 2 => needZero (fld w 26 1) <| guardOk (decide (fld w 27 5 < 28)) <| .ok (.tnext (fld w 10 6) (fld w 16 6) (fld w 27 5) (fld w 7 3))
  | 3 => needZero (fld w 10 12) <| needZero (fld w 26 1) <| guardOk (decide (fld w 27 5 < 28)) <| .ok (.tdone (fld w 27 5) (fld w 7 3))
  | 4 => needZero (fld w 16 6) <| needZero (fld w 26 1) <| guardOk (decide (fld w 27 5 < 28)) <| .ok (.freeze (fld w 10 6) (fld w 27 5) (fld w 7 3))
  | 5 => needZero (fld w 26 6) <| .ok (.tquery (fld w 10 6) (fld w 16 6) (fld w 7 3))
  | 6 => needZero (fld w 26 6) <| .ok (.tclaim (fld w 10 6) (fld w 16 6) (fld w 7 3))
  | 7 => needZero (fld w 26 6) <| .ok (.tlaunch (fld w 10 6) (fld w 16 6) (fld w 7 3))
  | 8 => needZero (fld w 10 12) <| needZero (fld w 26 1) <| guardOk (decide (fld w 27 5 < 28)) <| .ok (.tyield (fld w 27 5) (fld w 7 3))
  | _ => .error .reservedCode

/-- Words of major 0x3C (R26). -/
noncomputable def decMaj3C (w : Nat) : Dec Instr :=
  match fld w 22 4 with
  | 0 => needZero (fld w 10 12) <| needZero (fld w 29 3) <| withOpt (Scope.ofCode (fld w 26 3)) fun sc => .ok (.fence sc (fld w 7 3))
  | 1 => needZero (fld w 29 3) <| withOpt (Scope.ofCode (fld w 26 3)) fun sc => .ok (.ldAcq (fld w 10 6) (fld w 16 6) sc (fld w 7 3))
  | 2 => needZero (fld w 29 3) <| withOpt (Scope.ofCode (fld w 26 3)) fun sc => .ok (.stRel (fld w 10 6) (fld w 16 6) sc (fld w 7 3))
  | _ => .error .reservedCode

/-- Words of major 0x3D (R26). -/
noncomputable def decMaj3D (w : Nat) : Dec Instr :=
  match fld w 28 4 with
  | 0 => .ok (.acqpDev (fld w 10 6) (fld w 16 6) (fld w 22 6) (fld w 7 3))
  | 1 => .ok (.acqpSys (fld w 10 6) (fld w 16 6) (fld w 22 6) (fld w 7 3))
  | _ => .error .reservedCode

/-- A 32-bit word with bit 0 set, other than a prefix (R18, R26). -/
noncomputable def decodeWord (w : Nat) : Dec Instr :=
  match fld w 1 6 with
  | 0x00 => decMaj00 w
  | 0x01 => decMaj01 w
  | 0x02 => decMaj02 w
  | 0x03 => decMaj03 w
  | 0x04 => decMaj04 w
  | 0x05 => decMaj05 w
  | 0x06 => decMaj06 w
  | 0x07 => decMaj07 w
  | 0x08 => decMaj08 w
  | 0x09 => decMaj09 w
  | 0x0A => decMaj0A w
  | 0x0B => decMaj0B w
  | 0x0C => decMaj0C w
  | 0x0D => decMaj0D w
  | 0x0E => decMaj0E w
  | 0x0F => decMaj0F w
  | 0x10 => decMaj10 w
  | 0x11 => decMaj11 w
  | 0x12 => decMaj12 w
  | 0x13 => decMaj13 w
  | 0x14 => decMaj14 w
  | 0x15 => decMaj15 w
  | 0x16 => decMaj16 w
  | 0x17 => decMaj17 w
  | 0x18 => decMaj18 w
  | 0x19 => decMaj19 w
  | 0x1A => decMaj1A w
  | 0x1B => decMaj1B w
  | 0x1C => decMaj1C w
  | 0x1D => decMaj1D w
  | 0x1E => decMaj1E w
  | 0x1F => decMaj1F w
  | 0x20 => decMaj20 w
  | 0x21 => decMaj21 w
  | 0x22 => decodeVWord w
  | 0x23 => decodeVWord w
  | 0x24 => decodeVWord w
  | 0x25 => decodeVWord w
  | 0x26 => decodeVWord w
  | 0x27 => decodeVWord w
  | 0x28 => decodeVWord w
  | 0x29 => decodeVWord w
  | 0x2A => decodeVWord w
  | 0x2B => decodeVWord w
  | 0x2C => decodeVWord w
  | 0x2D => decodeVWord w
  | 0x2E => decMaj2E w
  | 0x2F => decMaj2F w
  | 0x30 => decodeVWord w
  | 0x31 => decMaj31 w
  | 0x32 => decMaj32 w
  | 0x33 => decMaj33 w
  | 0x34 => decMaj34 w
  | 0x35 => decMaj35 w
  | 0x36 => decMaj36 w
  | 0x37 => decMaj37 w
  | 0x38 => decMaj38 w
  | 0x39 => decMaj39 w
  | 0x3A => decMaj3A w
  | 0x3B => decMaj3B w
  | 0x3C => decMaj3C w
  | 0x3D => decMaj3D w
  | 0x3E => .error .badPrefix
  | _ => .error .reservedMajor

/-- A 16-bit parcel with bit 0 clear (R24, R25, R31). -/
noncomputable def decode16 (w : Nat) : Dec Instr :=
  if w = 0 then .ok .brk16 else
  match fld w 1 4 with
  | 0 => .ok (.vadd16 (decide (fld w 15 1 = 1)) (fld w 5 5) (fld w 10 5))
  | 1 => .ok (.vsub16 (decide (fld w 15 1 = 1)) (fld w 5 5) (fld w 10 5))
  | 2 => .ok (.vmul16 (decide (fld w 15 1 = 1)) (fld w 5 5) (fld w 10 5))
  | 3 => .ok (.vmin16 (decide (fld w 15 1 = 1)) (fld w 5 5) (fld w 10 5))
  | 4 => .ok (.vmax16 (decide (fld w 15 1 = 1)) (fld w 5 5) (fld w 10 5))
  | 5 => .ok (.vand16 (decide (fld w 15 1 = 1)) (fld w 5 5) (fld w 10 5))
  | 6 => .ok (.vor16 (decide (fld w 15 1 = 1)) (fld w 5 5) (fld w 10 5))
  | 7 => .ok (.vxor16 (decide (fld w 15 1 = 1)) (fld w 5 5) (fld w 10 5))
  | 8 => .ok (.vmov16 (decide (fld w 15 1 = 1)) (fld w 5 5) (fld w 10 5))
  | 9 => .ok (.vneg16 (decide (fld w 15 1 = 1)) (fld w 5 5) (fld w 10 5))
  | 10 => .ok (.vabs16 (decide (fld w 15 1 = 1)) (fld w 5 5) (fld w 10 5))
  | 11 => if fld w 15 1 = 1 then .ok (.vshl16 (fld w 5 5) (fld w 10 5)) else .error .reservedCode
  | 12 => if fld w 15 1 = 1 then .ok (.vsra16 (fld w 5 5) (fld w 10 5)) else .error .reservedCode
  | 13 => .ok (.vclt16 (decide (fld w 15 1 = 1)) (fld w 5 5) (fld w 10 5))
  | 14 => .ok (.vceq16 (decide (fld w 15 1 = 1)) (fld w 5 5) (fld w 10 5))
  | 15 => if fld w 15 1 = 1 then .ok (.vpopc16 (fld w 5 5) (fld w 10 5)) else .ok (.vrcp16 (fld w 5 5) (fld w 10 5))
  | _ => .error .reservedCode

/-- A word behind a prefix: of a prefixable major and with a zero stall count (R21, R22). -/
def decodeVOp (w : Nat) : Dec VOp :=
  if fld w 7 3 = 0 ∧ (0x22 ≤ fld w 1 6 ∧ fld w 1 6 ≤ 0x2D ∨ fld w 1 6 = 0x30) then decodeV w
  else .error .badPrefix

/-- The fields of a prefix word (R21). -/
def decodePfx (w : Nat) : Dec Pfx :=
  needZero (fld w 24 8) <|
  .ok { cv := decide (fld w 23 1 = 1), c := fld w 17 6, z := decide (fld w 16 1 = 1), rm := fld w 13 3,
        pm := fld w 10 3, stl := fld w 7 3 }

/-- A prefix pair as its prefix and word, when they may stand together (R21 to R23, R204). -/
def decodePV (pw w : Nat) : Dec (Pfx × VOp) :=
  match decodePfx pw, decodeVOp w with
  | .ok p, .ok v => if pfxOk p v then .ok (p, v) else .error .badPrefix
  | .error e, _ => .error e
  | _, .error e => .error e

/-- The row of a prefix pair: the first-fault, gather and scatter forms have rows of their own. -/
noncomputable def pairInstr (p : Pfx) (v : VOp) : Instr :=
  match v with
  | .ldff false d a b => .vldffW p d a b
  | .ldff true d a b => .vldffB p d a b
  | .ldg d a b => .vldgW p d a b
  | .sts d a b => .vstsW p d a b
  | v => .pfx p v

/-- A prefix and the word after it (R21 to R23, R204). -/
noncomputable def decodePair (pw w : Nat) : Dec Instr :=
  match decodePV pw w with
  | .ok pv => .ok (pairInstr pv.1 pv.2)
  | .error e => .error e

/-- The instruction at the head of a list of parcels, and how many parcels it has (R16). -/
noncomputable def decodeParcels : List Nat → Dec (Instr × Nat)
  | [] => .error .truncated
  | p0 :: r0 =>
    if p0 % 2 = 0 then
      match decode16 p0 with
      | .ok i => .ok (i, 1)
      | .error e => .error e
    else match r0 with
    | [] => .error .truncated
    | p1 :: r1 =>
      if fld p0 1 6 ≠ 0x3E then
        match decodeWord (p0 + p1 * 2 ^ 16) with
        | .ok i => .ok (i, 2)
        | .error e => .error e
      else match r1 with
      | [] => .error .truncated
      | p2 :: r2 =>
        if p2 % 2 = 0 then .error .badPrefix
        else match r2 with
        | [] => .error .truncated
        | p3 :: _ =>
          match decodePair (p0 + p1 * 2 ^ 16) (p2 + p3 * 2 ^ 16) with
          | .ok i => .ok (i, 4)
          | .error e => .error e

/-- How many parcels are examined to decode an instruction whose first parcels these are (R16, R34). -/
def parcelsNeeded : List Nat → Nat
  | [] => 1
  | p0 :: r0 =>
    if p0 % 2 = 0 then 1
    else if fld p0 1 6 ≠ 0x3E then 2
    else match r0 with
      | _ :: p2 :: _ => if p2 % 2 = 0 then 3 else 4
      | _ => 3

/-- The four parcels of a bit string numbered from the first parcel's bit 0. -/
def parcelsOf (w : Nat) : List Nat := [fld w 0 16, fld w 16 16, fld w 32 16, fld w 48 16]

/-- The instruction the decoder reads from bits w numbered as spec/opcode_table.json numbers them; bits above
nbits are zero. -/
noncomputable def decodeTableWord (nbits w : Nat) : Option Instr :=
  match decodeParcels (parcelsOf (w % 2 ^ nbits)) with
  | .ok (i, _) => some i
  | .error _ => none

/-- The length of an instruction in bytes (R16). -/
def instrLen : Instr → Nat
  | .brk16 => 2
  | .vadd16 _ _ _ => 2
  | .vsub16 _ _ _ => 2
  | .vmul16 _ _ _ => 2
  | .vmin16 _ _ _ => 2
  | .vmax16 _ _ _ => 2
  | .vand16 _ _ _ => 2
  | .vor16 _ _ _ => 2
  | .vxor16 _ _ _ => 2
  | .vmov16 _ _ _ => 2
  | .vneg16 _ _ _ => 2
  | .vabs16 _ _ _ => 2
  | .vshl16 _ _ => 2
  | .vsra16 _ _ => 2
  | .vclt16 _ _ _ => 2
  | .vceq16 _ _ _ => 2
  | .vrcp16 _ _ => 2
  | .vpopc16 _ _ => 2
  | .pfx _ _ => 8
  | .vldffW _ _ _ _ => 8
  | .vldffB _ _ _ _ => 8
  | .vldgW _ _ _ _ => 8
  | .vstsW _ _ _ _ => 8
  | _ => 4

/-! ### The encoder -/

/-- Formats RR and V over a row's fixed bits m (R18). -/
def enRR (m d a b stl : Nat) : Nat := m + d * 2 ^ 10 + a * 2 ^ 16 + b * 2 ^ 22 + stl * 2 ^ 7

/-- Formats RI and M (R18). -/
def enI (m d a : Nat) (imm : BitVec 10) (stl : Nat) : Nat :=
  m + d * 2 ^ 10 + a * 2 ^ 16 + imm.toNat * 2 ^ 22 + stl * 2 ^ 7

/-- An atomic (R259). -/
def enAt (m : Nat) (dbl : Bool) (d a b stl : Nat) : Nat := enRR m d a b stl + b2n dbl * 2 ^ 31

/-- A reduction (R261). -/
def enRed (m a b : Nat) (sc : AtScope) (stl : Nat) : Nat :=
  m + a * 2 ^ 16 + b * 2 ^ 22 + sc.code * 2 ^ 14 + stl * 2 ^ 7

/-- The word of a lane operation (R205) (R18, R26 to R29). -/
def encodeLane : Instr → Option Nat
  | .vaddF32 d a b stl => some (enRR 0x00000045 d a b stl)
  | .vsubF32 d a b stl => some (enRR 0x10000045 d a b stl)
  | .vmulF32 d a b stl => some (enRR 0x20000045 d a b stl)
  | .vmacF32 d a b stl => some (enRR 0x30000045 d a b stl)
  | .vminF32 d a b stl => some (enRR 0x40000045 d a b stl)
  | .vmaxF32 d a b stl => some (enRR 0x50000045 d a b stl)
  | .vminpF32 d a b stl => some (enRR 0x60000045 d a b stl)
  | .vmaxpF32 d a b stl => some (enRR 0x70000045 d a b stl)
  | .vandF32 d a b stl => some (enRR 0x80000045 d a b stl)
  | .vorF32 d a b stl => some (enRR 0x90000045 d a b stl)
  | .vxorF32 d a b stl => some (enRR 0xA0000045 d a b stl)
  | .vshlF32 d a b stl => some (enRR 0xB0000045 d a b stl)
  | .vshrF32 d a b stl => some (enRR 0xC0000045 d a b stl)
  | .vsraF32 d a b stl => some (enRR 0xD0000045 d a b stl)
  | .vcltF32 d a b stl => some (enRR 0xE0000045 d a b stl)
  | .vceqF32 d a b stl => some (enRR 0xF0000045 d a b stl)
  | .vaddI32 d a b stl => some (enRR 0x00000047 d a b stl)
  | .vsubI32 d a b stl => some (enRR 0x10000047 d a b stl)
  | .vmulI32 d a b stl => some (enRR 0x20000047 d a b stl)
  | .vmacI32 d a b stl => some (enRR 0x30000047 d a b stl)
  | .vminI32 d a b stl => some (enRR 0x40000047 d a b stl)
  | .vmaxI32 d a b stl => some (enRR 0x50000047 d a b stl)
  | .vminpI32 d a b stl => some (enRR 0x60000047 d a b stl)
  | .vmaxpI32 d a b stl => some (enRR 0x70000047 d a b stl)
  | .vandI32 d a b stl => some (enRR 0x80000047 d a b stl)
  | .vorI32 d a b stl => some (enRR 0x90000047 d a b stl)
  | .vxorI32 d a b stl => some (enRR 0xA0000047 d a b stl)
  | .vshlI32 d a b stl => some (enRR 0xB0000047 d a b stl)
  | .vshrI32 d a b stl => some (enRR 0xC0000047 d a b stl)
  | .vsraI32 d a b stl => some (enRR 0xD0000047 d a b stl)
  | .vcltI32 d a b stl => some (enRR 0xE0000047 d a b stl)
  | .vceqI32 d a b stl => some (enRR 0xF0000047 d a b stl)
  | .vaddN32 d a b stl => some (enRR 0x00000049 d a b stl)
  | .vsubN32 d a b stl => some (enRR 0x10000049 d a b stl)
  | .vmulN32 d a b stl => some (enRR 0x20000049 d a b stl)
  | .vmacN32 d a b stl => some (enRR 0x30000049 d a b stl)
  | .vminN32 d a b stl => some (enRR 0x40000049 d a b stl)
  | .vmaxN32 d a b stl => some (enRR 0x50000049 d a b stl)
  | .vminpN32 d a b stl => some (enRR 0x60000049 d a b stl)
  | .vmaxpN32 d a b stl => some (enRR 0x70000049 d a b stl)
  | .vandN32 d a b stl => some (enRR 0x80000049 d a b stl)
  | .vorN32 d a b stl => some (enRR 0x90000049 d a b stl)
  | .vxorN32 d a b stl => some (enRR 0xA0000049 d a b stl)
  | .vshlN32 d a b stl => some (enRR 0xB0000049 d a b stl)
  | .vshrN32 d a b stl => some (enRR 0xC0000049 d a b stl)
  | .vsraN32 d a b stl => some (enRR 0xD0000049 d a b stl)
  | .vcltN32 d a b stl => some (enRR 0xE0000049 d a b stl)
  | .vceqN32 d a b stl => some (enRR 0xF0000049 d a b stl)
  | .vaddBf16 d a b stl => some (enRR 0x0000004B d a b stl)
  | .vsubBf16 d a b stl => some (enRR 0x1000004B d a b stl)
  | .vmulBf16 d a b stl => some (enRR 0x2000004B d a b stl)
  | .vmacBf16 d a b stl => some (enRR 0x3000004B d a b stl)
  | .vminBf16 d a b stl => some (enRR 0x4000004B d a b stl)
  | .vmaxBf16 d a b stl => some (enRR 0x5000004B d a b stl)
  | .vminpBf16 d a b stl => some (enRR 0x6000004B d a b stl)
  | .vmaxpBf16 d a b stl => some (enRR 0x7000004B d a b stl)
  | .vandBf16 d a b stl => some (enRR 0x8000004B d a b stl)
  | .vorBf16 d a b stl => some (enRR 0x9000004B d a b stl)
  | .vxorBf16 d a b stl => some (enRR 0xA000004B d a b stl)
  | .vshlBf16 d a b stl => some (enRR 0xB000004B d a b stl)
  | .vshrBf16 d a b stl => some (enRR 0xC000004B d a b stl)
  | .vsraBf16 d a b stl => some (enRR 0xD000004B d a b stl)
  | .vcltBf16 d a b stl => some (enRR 0xE000004B d a b stl)
  | .vceqBf16 d a b stl => some (enRR 0xF000004B d a b stl)
  | .vaddF16 d a b stl => some (enRR 0x0000004D d a b stl)
  | .vsubF16 d a b stl => some (enRR 0x1000004D d a b stl)
  | .vmulF16 d a b stl => some (enRR 0x2000004D d a b stl)
  | .vmacF16 d a b stl => some (enRR 0x3000004D d a b stl)
  | .vminF16 d a b stl => some (enRR 0x4000004D d a b stl)
  | .vmaxF16 d a b stl => some (enRR 0x5000004D d a b stl)
  | .vminpF16 d a b stl => some (enRR 0x6000004D d a b stl)
  | .vmaxpF16 d a b stl => some (enRR 0x7000004D d a b stl)
  | .vandF16 d a b stl => some (enRR 0x8000004D d a b stl)
  | .vorF16 d a b stl => some (enRR 0x9000004D d a b stl)
  | .vxorF16 d a b stl => some (enRR 0xA000004D d a b stl)
  | .vshlF16 d a b stl => some (enRR 0xB000004D d a b stl)
  | .vshrF16 d a b stl => some (enRR 0xC000004D d a b stl)
  | .vsraF16 d a b stl => some (enRR 0xD000004D d a b stl)
  | .vcltF16 d a b stl => some (enRR 0xE000004D d a b stl)
  | .vceqF16 d a b stl => some (enRR 0xF000004D d a b stl)
  | .vaddI16 d a b stl => some (enRR 0x0000004F d a b stl)
  | .vsubI16 d a b stl => some (enRR 0x1000004F d a b stl)
  | .vmulI16 d a b stl => some (enRR 0x2000004F d a b stl)
  | .vmacI16 d a b stl => some (enRR 0x3000004F d a b stl)
  | .vminI16 d a b stl => some (enRR 0x4000004F d a b stl)
  | .vmaxI16 d a b stl => some (enRR 0x5000004F d a b stl)
  | .vminpI16 d a b stl => some (enRR 0x6000004F d a b stl)
  | .vmaxpI16 d a b stl => some (enRR 0x7000004F d a b stl)
  | .vandI16 d a b stl => some (enRR 0x8000004F d a b stl)
  | .vorI16 d a b stl => some (enRR 0x9000004F d a b stl)
  | .vxorI16 d a b stl => some (enRR 0xA000004F d a b stl)
  | .vshlI16 d a b stl => some (enRR 0xB000004F d a b stl)
  | .vshrI16 d a b stl => some (enRR 0xC000004F d a b stl)
  | .vsraI16 d a b stl => some (enRR 0xD000004F d a b stl)
  | .vcltI16 d a b stl => some (enRR 0xE000004F d a b stl)
  | .vceqI16 d a b stl => some (enRR 0xF000004F d a b stl)
  | .vaddI8 d a b stl => some (enRR 0x00000051 d a b stl)
  | .vsubI8 d a b stl => some (enRR 0x10000051 d a b stl)
  | .vmulI8 d a b stl => some (enRR 0x20000051 d a b stl)
  | .vmacI8 d a b stl => some (enRR 0x30000051 d a b stl)
  | .vminI8 d a b stl => some (enRR 0x40000051 d a b stl)
  | .vmaxI8 d a b stl => some (enRR 0x50000051 d a b stl)
  | .vminpI8 d a b stl => some (enRR 0x60000051 d a b stl)
  | .vmaxpI8 d a b stl => some (enRR 0x70000051 d a b stl)
  | .vandI8 d a b stl => some (enRR 0x80000051 d a b stl)
  | .vorI8 d a b stl => some (enRR 0x90000051 d a b stl)
  | .vxorI8 d a b stl => some (enRR 0xA0000051 d a b stl)
  | .vshlI8 d a b stl => some (enRR 0xB0000051 d a b stl)
  | .vshrI8 d a b stl => some (enRR 0xC0000051 d a b stl)
  | .vsraI8 d a b stl => some (enRR 0xD0000051 d a b stl)
  | .vcltI8 d a b stl => some (enRR 0xE0000051 d a b stl)
  | .vceqI8 d a b stl => some (enRR 0xF0000051 d a b stl)
  | .vaddF64 d a b stl => some (enRR 0x00000053 d a b stl)
  | .vsubF64 d a b stl => some (enRR 0x10000053 d a b stl)
  | .vmulF64 d a b stl => some (enRR 0x20000053 d a b stl)
  | .vmacF64 d a b stl => some (enRR 0x30000053 d a b stl)
  | .vminF64 d a b stl => some (enRR 0x40000053 d a b stl)
  | .vmaxF64 d a b stl => some (enRR 0x50000053 d a b stl)
  | .vminpF64 d a b stl => some (enRR 0x60000053 d a b stl)
  | .vmaxpF64 d a b stl => some (enRR 0x70000053 d a b stl)
  | .vandF64 d a b stl => some (enRR 0x80000053 d a b stl)
  | .vorF64 d a b stl => some (enRR 0x90000053 d a b stl)
  | .vxorF64 d a b stl => some (enRR 0xA0000053 d a b stl)
  | .vshlF64 d a b stl => some (enRR 0xB0000053 d a b stl)
  | .vshrF64 d a b stl => some (enRR 0xC0000053 d a b stl)
  | .vsraF64 d a b stl => some (enRR 0xD0000053 d a b stl)
  | .vcltF64 d a b stl => some (enRR 0xE0000053 d a b stl)
  | .vceqF64 d a b stl => some (enRR 0xF0000053 d a b stl)
  | _ => none

/-- The word of a unprefixed word of majors 0x2A to 0x2D and 0x30 (R18, R26 to R29). -/
def encodeVec : Instr → Option Nat
  | .vmov ty d a stl => some (enRR 0x00000055 d a 0 stl + ty.code * 2 ^ 28)
  | .vneg ty d a stl => some (enRR 0x00400055 d a 0 stl + ty.code * 2 ^ 28)
  | .vabs ty d a stl => some (enRR 0x00800055 d a 0 stl + ty.code * 2 ^ 28)
  | .vnot ty d a stl => some (enRR 0x00C00055 d a 0 stl + ty.code * 2 ^ 28)
  | .vrcp ty d a stl => some (enRR 0x01000055 d a 0 stl + ty.code * 2 ^ 28)
  | .vrsqrt ty d a stl => some (enRR 0x01400055 d a 0 stl + ty.code * 2 ^ 28)
  | .vsqrt ty d a stl => some (enRR 0x01800055 d a 0 stl + ty.code * 2 ^ 28)
  | .vexp2 ty d a stl => some (enRR 0x01C00055 d a 0 stl + ty.code * 2 ^ 28)
  | .vlog2 ty d a stl => some (enRR 0x02000055 d a 0 stl + ty.code * 2 ^ 28)
  | .vtanh ty d a stl => some (enRR 0x02400055 d a 0 stl + ty.code * 2 ^ 28)
  | .vsigm ty d a stl => some (enRR 0x02800055 d a 0 stl + ty.code * 2 ^ 28)
  | .vrnd ty d a stl => some (enRR 0x02C00055 d a 0 stl + ty.code * 2 ^ 28)
  | .vclz ty d a stl => some (enRR 0x03000055 d a 0 stl + ty.code * 2 ^ 28)
  | .vpopc ty d a stl => some (enRR 0x03400055 d a 0 stl + ty.code * 2 ^ 28)
  | .vsumr ty d a stl => some (enRR 0x03800055 d a 0 stl + ty.code * 2 ^ 28)
  | .vmaxr ty d a stl => some (enRR 0x03C00055 d a 0 stl + ty.code * 2 ^ 28)
  | .vminr ty d a stl => some (enRR 0x04000055 d a 0 stl + ty.code * 2 ^ 28)
  | .vmxs ty d a stl => some (enRR 0x04400055 d a 0 stl + ty.code * 2 ^ 28)
  | .vrev ty d a stl => some (enRR 0x04800055 d a 0 stl + ty.code * 2 ^ 28)
  | .vclass ty d a stl => some (enRR 0x04C00055 d a 0 stl + ty.code * 2 ^ 28)
  | .vcvt sty mode dty d a stl => some (enRR 0x00000057 d a 0 stl + sty.code * 2 ^ 28 + mode * 2 ^ 26 + dty.code * 2 ^ 22)
  | .vbcast ty d a stl => some (enRR 0x00000059 d a 0 stl + ty.code * 2 ^ 26)
  | .vextW d a k stl => some (enRR 0x00400059 d a 0 stl + k * 2 ^ 26)
  | .vextD d a k stl => some (enRR 0x40400059 d a 0 stl + k * 2 ^ 26)
  | .vinsW d a k stl => some (enRR 0x00800059 d a 0 stl + k * 2 ^ 26)
  | .vinsD d a k stl => some (enRR 0x40800059 d a 0 stl + k * 2 ^ 26)
  | .vpred ty d a stl => some (enRR 0x00C00059 d a 0 stl + ty.code * 2 ^ 26)
  | .vidx ty d a stl => some (enRR 0x01000059 d a 0 stl + ty.code * 2 ^ 26)
  | .vldW d a b stl => some (enRR 0x0000005B d a b stl)
  | .vldH d a b stl => some (enRR 0x1000005B d a b stl)
  | .vldB d a b stl => some (enRR 0x2000005B d a b stl)
  | .vldD d a b stl => some (enRR 0x3000005B d a b stl)
  | .vstW d a b stl => some (enRR 0x4000005B d a b stl)
  | .vstH d a b stl => some (enRR 0x5000005B d a b stl)
  | .vstB d a b stl => some (enRR 0x6000005B d a b stl)
  | .vstD d a b stl => some (enRR 0x7000005B d a b stl)
  | .vldtW d a b stl => some (enRR 0xC000005B d a b stl)
  | .vldtH d a b stl => some (enRR 0xD000005B d a b stl)
  | .vswap d stl => some (enRR 0xE000005B d 0 0 stl)
  | .mlease stl => some (enRR 0x00000061 0 0 0 stl)
  | .mrel stl => some (enRR 0x00400061 0 0 0 stl)
  | .mbload a stl => some (enRR 0x00800061 0 a 0 stl)
  | .mmac d a stl => some (enRR 0x00C00061 d a 0 stl)
  | .mrot stl => some (enRR 0x01000061 0 0 0 stl)
  | .mzero d stl => some (enRR 0x01400061 d 0 0 stl)
  | .mst d a stl => some (enRR 0x01800061 d a 0 stl)
  | .mld d a stl => some (enRR 0x01C00061 d a 0 stl)
  | .macc d a stl => some (enRR 0x02000061 d a 0 stl)
  | .mwait d a stl => some (enRR 0x02400061 d a 0 stl)
  | .mclaim d a stl => some (enRR 0x02800061 d a 0 stl)
  | .mstat d a stl => some (enRR 0x02C00061 d a 0 stl)
  | _ => none

/-- The word of a atomic or reduction (R259, R261) (R18, R26 to R29). -/
def encodeAt : Instr → Option Nat
  | .atomAddBlk dbl d a b stl => some (enAt 0x00000063 dbl d a b stl)
  | .atomAndBlk dbl d a b stl => some (enAt 0x10000063 dbl d a b stl)
  | .atomOrBlk dbl d a b stl => some (enAt 0x20000063 dbl d a b stl)
  | .atomXorBlk dbl d a b stl => some (enAt 0x30000063 dbl d a b stl)
  | .atomMinBlk dbl d a b stl => some (enAt 0x40000063 dbl d a b stl)
  | .atomMaxBlk dbl d a b stl => some (enAt 0x50000063 dbl d a b stl)
  | .atomSwapBlk dbl d a b stl => some (enAt 0x60000063 dbl d a b stl)
  | .atomCasBlk dbl d a b stl => some (enAt 0x70000063 dbl d a b stl)
  | .atomAddCls dbl d a b stl => some (enAt 0x00000065 dbl d a b stl)
  | .atomAndCls dbl d a b stl => some (enAt 0x10000065 dbl d a b stl)
  | .atomOrCls dbl d a b stl => some (enAt 0x20000065 dbl d a b stl)
  | .atomXorCls dbl d a b stl => some (enAt 0x30000065 dbl d a b stl)
  | .atomMinCls dbl d a b stl => some (enAt 0x40000065 dbl d a b stl)
  | .atomMaxCls dbl d a b stl => some (enAt 0x50000065 dbl d a b stl)
  | .atomSwapCls dbl d a b stl => some (enAt 0x60000065 dbl d a b stl)
  | .atomCasCls dbl d a b stl => some (enAt 0x70000065 dbl d a b stl)
  | .atomAddDev dbl d a b stl => some (enAt 0x00000067 dbl d a b stl)
  | .atomAndDev dbl d a b stl => some (enAt 0x10000067 dbl d a b stl)
  | .atomOrDev dbl d a b stl => some (enAt 0x20000067 dbl d a b stl)
  | .atomXorDev dbl d a b stl => some (enAt 0x30000067 dbl d a b stl)
  | .atomMinDev dbl d a b stl => some (enAt 0x40000067 dbl d a b stl)
  | .atomMaxDev dbl d a b stl => some (enAt 0x50000067 dbl d a b stl)
  | .atomSwapDev dbl d a b stl => some (enAt 0x60000067 dbl d a b stl)
  | .atomCasDev dbl d a b stl => some (enAt 0x70000067 dbl d a b stl)
  | .atomAddSys dbl d a b stl => some (enAt 0x00000069 dbl d a b stl)
  | .atomAndSys dbl d a b stl => some (enAt 0x10000069 dbl d a b stl)
  | .atomOrSys dbl d a b stl => some (enAt 0x20000069 dbl d a b stl)
  | .atomXorSys dbl d a b stl => some (enAt 0x30000069 dbl d a b stl)
  | .atomMinSys dbl d a b stl => some (enAt 0x40000069 dbl d a b stl)
  | .atomMaxSys dbl d a b stl => some (enAt 0x50000069 dbl d a b stl)
  | .atomSwapSys dbl d a b stl => some (enAt 0x60000069 dbl d a b stl)
  | .atomCasSys dbl d a b stl => some (enAt 0x70000069 dbl d a b stl)
  | .redAddW a b sc stl => some (enRed 0x0000006B a b sc stl)
  | .redAddD a b sc stl => some (enRed 0x0000046B a b sc stl)
  | .redAndW a b sc stl => some (enRed 0x0000086B a b sc stl)
  | .redAndD a b sc stl => some (enRed 0x00000C6B a b sc stl)
  | .redOrW a b sc stl => some (enRed 0x0000106B a b sc stl)
  | .redOrD a b sc stl => some (enRed 0x0000146B a b sc stl)
  | .redXorW a b sc stl => some (enRed 0x0000186B a b sc stl)
  | .redXorD a b sc stl => some (enRed 0x00001C6B a b sc stl)
  | .redMinW a b sc stl => some (enRed 0x0000206B a b sc stl)
  | .redMinD a b sc stl => some (enRed 0x0000246B a b sc stl)
  | .redMaxW a b sc stl => some (enRed 0x0000286B a b sc stl)
  | .redMaxD a b sc stl => some (enRed 0x00002C6B a b sc stl)
  | .redFaddF32 a b sc stl => some (enRed 0x0000306B a b sc stl)
  | .redFaddF64 a b sc stl => some (enRed 0x0000346B a b sc stl)
  | _ => none

/-- The word of a word of majors 0x00 to 0x1F (R18, R26 to R29). -/
def encodeLow : Instr → Option Nat
  | .add d a b stl => some (enRR 0x00000001 d a b stl)
  | .sub d a b stl => some (enRR 0x10000001 d a b stl)
  | .and d a b stl => some (enRR 0x20000001 d a b stl)
  | .or d a b stl => some (enRR 0x30000001 d a b stl)
  | .xor d a b stl => some (enRR 0x40000001 d a b stl)
  | .andn d a b stl => some (enRR 0x50000001 d a b stl)
  | .sll d a b stl => some (enRR 0x60000001 d a b stl)
  | .srl d a b stl => some (enRR 0x70000001 d a b stl)
  | .sra d a b stl => some (enRR 0x80000001 d a b stl)
  | .slt d a b stl => some (enRR 0x90000001 d a b stl)
  | .sltu d a b stl => some (enRR 0xA0000001 d a b stl)
  | .seq d a b stl => some (enRR 0xB0000001 d a b stl)
  | .min d a b stl => some (enRR 0xC0000001 d a b stl)
  | .max d a b stl => some (enRR 0xD0000001 d a b stl)
  | .minn d a b stl => some (enRR 0xE0000001 d a b stl)
  | .maxn d a b stl => some (enRR 0xF0000001 d a b stl)
  | .mul d a b stl => some (enRR 0x00000003 d a b stl)
  | .mulh d a b stl => some (enRR 0x10000003 d a b stl)
  | .mulhn d a b stl => some (enRR 0x20000003 d a b stl)
  | .div d a b stl => some (enRR 0x40000003 d a b stl)
  | .divn d a b stl => some (enRR 0x50000003 d a b stl)
  | .rem d a b stl => some (enRR 0x60000003 d a b stl)
  | .remn d a b stl => some (enRR 0x70000003 d a b stl)
  | .clz d a stl => some (enRR 0x80000003 d a 0 stl)
  | .ctz d a stl => some (enRR 0x90000003 d a 0 stl)
  | .popc d a stl => some (enRR 0xA0000003 d a 0 stl)
  | .bswap d a stl => some (enRR 0xB0000003 d a 0 stl)
  | .rotl d a b stl => some (enRR 0xC0000003 d a b stl)
  | .rotr d a b stl => some (enRR 0xD0000003 d a b stl)
  | .sextw d a stl => some (enRR 0xE0000003 d a 0 stl)
  | .zextw d a stl => some (enRR 0xF0000003 d a 0 stl)
  | .addi d a imm stl => some (enI 0x00000005 d a imm stl)
  | .andi d a imm stl => some (enI 0x00000007 d a imm stl)
  | .ori d a imm stl => some (enI 0x00000009 d a imm stl)
  | .xori d a imm stl => some (enI 0x0000000B d a imm stl)
  | .slti d a imm stl => some (enI 0x0000000D d a imm stl)
  | .sltni d a imm stl => some (enI 0x0000000F d a imm stl)
  | .slli d a amt stl => some (enRR 0x00000011 d a 0 stl + amt.toNat * 2 ^ 22)
  | .srli d a amt stl => some (enRR 0x10000011 d a 0 stl + amt.toNat * 2 ^ 22)
  | .srai d a amt stl => some (enRR 0x20000011 d a 0 stl + amt.toNat * 2 ^ 22)
  | .rotli d a amt stl => some (enRR 0x30000011 d a 0 stl + amt.toNat * 2 ^ 22)
  | .lui d imm stl => some (enRR 0x00000013 d 0 0 stl + imm.toNat * 2 ^ 16)
  | .lmid d imm stl => some (enRR 0x00000015 d 0 0 stl + imm.toNat * 2 ^ 16)
  | .ltop d imm stl => some (enRR 0x00000017 d 0 0 stl + imm.toNat * 2 ^ 16)
  | .faddF64 d a b stl => some (enRR 0x00000019 d a b stl)
  | .fsubF64 d a b stl => some (enRR 0x10000019 d a b stl)
  | .fmulF64 d a b stl => some (enRR 0x20000019 d a b stl)
  | .fdivF64 d a b stl => some (enRR 0x30000019 d a b stl)
  | .fsqrtF64 d a stl => some (enRR 0x40000019 d a 0 stl)
  | .fminF64 d a b stl => some (enRR 0x50000019 d a b stl)
  | .fmaxF64 d a b stl => some (enRR 0x60000019 d a b stl)
  | .fmacF64 d a b stl => some (enRR 0x70000019 d a b stl)
  | .fltF64 d a b stl => some (enRR 0x80000019 d a b stl)
  | .fleF64 d a b stl => some (enRR 0x90000019 d a b stl)
  | .feqF64 d a b stl => some (enRR 0xA0000019 d a b stl)
  | .fclassF64 d a stl => some (enRR 0xB0000019 d a 0 stl)
  | .fcvtI64F64 d a stl => some (enRR 0xC0000019 d a 0 stl)
  | .fcvtN64F64 d a stl => some (enRR 0xC0400019 d a 0 stl)
  | .fcvtI32F64 d a stl => some (enRR 0xC0800019 d a 0 stl)
  | .fcvtN32F64 d a stl => some (enRR 0xC0C00019 d a 0 stl)
  | .fcvtF64I64 d a stl => some (enRR 0xD0000019 d a 0 stl)
  | .fcvtF64N64 d a stl => some (enRR 0xD0400019 d a 0 stl)
  | .fcvtF64I32 d a stl => some (enRR 0xD0800019 d a 0 stl)
  | .fcvtF64N32 d a stl => some (enRR 0xD0C00019 d a 0 stl)
  | .fcvtF64F32 d a stl => some (enRR 0xD1000019 d a 0 stl)
  | .fminpF64 d a b stl => some (enRR 0xE0000019 d a b stl)
  | .fmaxpF64 d a b stl => some (enRR 0xF0000019 d a b stl)
  | .faddF32 d a b stl => some (enRR 0x0000001B d a b stl)
  | .fsubF32 d a b stl => some (enRR 0x1000001B d a b stl)
  | .fmulF32 d a b stl => some (enRR 0x2000001B d a b stl)
  | .fdivF32 d a b stl => some (enRR 0x3000001B d a b stl)
  | .fsqrtF32 d a stl => some (enRR 0x4000001B d a 0 stl)
  | .fminF32 d a b stl => some (enRR 0x5000001B d a b stl)
  | .fmaxF32 d a b stl => some (enRR 0x6000001B d a b stl)
  | .fmacF32 d a b stl => some (enRR 0x7000001B d a b stl)
  | .fltF32 d a b stl => some (enRR 0x8000001B d a b stl)
  | .fleF32 d a b stl => some (enRR 0x9000001B d a b stl)
  | .feqF32 d a b stl => some (enRR 0xA000001B d a b stl)
  | .fclassF32 d a stl => some (enRR 0xB000001B d a 0 stl)
  | .fcvtI64F32 d a stl => some (enRR 0xC000001B d a 0 stl)
  | .fcvtN64F32 d a stl => some (enRR 0xC040001B d a 0 stl)
  | .fcvtI32F32 d a stl => some (enRR 0xC080001B d a 0 stl)
  | .fcvtN32F32 d a stl => some (enRR 0xC0C0001B d a 0 stl)
  | .fcvtF32I64 d a stl => some (enRR 0xD000001B d a 0 stl)
  | .fcvtF32N64 d a stl => some (enRR 0xD040001B d a 0 stl)
  | .fcvtF32I32 d a stl => some (enRR 0xD080001B d a 0 stl)
  | .fcvtF32N32 d a stl => some (enRR 0xD0C0001B d a 0 stl)
  | .fcvtF32F64 d a stl => some (enRR 0xD100001B d a 0 stl)
  | .fminpF32 d a b stl => some (enRR 0xE000001B d a b stl)
  | .fmaxpF32 d a b stl => some (enRR 0xF000001B d a b stl)
  | .beqz a imm stl => some (enRR 0x0000001D 0 0 0 stl + a * 2 ^ 10 + imm.toNat * 2 ^ 19)
  | .bnez a imm stl => some (enRR 0x0001001D 0 0 0 stl + a * 2 ^ 10 + imm.toNat * 2 ^ 19)
  | .bltz a imm stl => some (enRR 0x0002001D 0 0 0 stl + a * 2 ^ 10 + imm.toNat * 2 ^ 19)
  | .bgez a imm stl => some (enRR 0x0003001D 0 0 0 stl + a * 2 ^ 10 + imm.toNat * 2 ^ 19)
  | .blez a imm stl => some (enRR 0x0004001D 0 0 0 stl + a * 2 ^ 10 + imm.toNat * 2 ^ 19)
  | .bgtz a imm stl => some (enRR 0x0005001D 0 0 0 stl + a * 2 ^ 10 + imm.toNat * 2 ^ 19)
  | .dbnz a imm stl => some (enRR 0x0006001D 0 0 0 stl + a * 2 ^ 10 + imm.toNat * 2 ^ 19)
  | .j imm stl => some (enRR 0x00000021 0 0 0 stl + imm.toNat * 2 ^ 10)
  | .call imm stl => some (enRR 0x00000023 0 0 0 stl + imm.toNat * 2 ^ 10)
  | .jr a stl => some (enRR 0x00000025 0 a 0 stl)
  | .callr a stl => some (enRR 0x10000025 0 a 0 stl)
  | .ldD d a imm stl => some (enI 0x00000027 d a imm stl)
  | .ldW d a imm stl => some (enI 0x00000029 d a imm stl)
  | .ldWn d a imm stl => some (enI 0x0000002B d a imm stl)
  | .ldH d a imm stl => some (enI 0x0000002D d a imm stl)
  | .ldHn d a imm stl => some (enI 0x0000002F d a imm stl)
  | .ldB d a imm stl => some (enI 0x00000031 d a imm stl)
  | .ldBn d a imm stl => some (enI 0x00000033 d a imm stl)
  | .stD d a imm stl => some (enI 0x00000035 d a imm stl)
  | .stW d a imm stl => some (enI 0x00000037 d a imm stl)
  | .stH d a imm stl => some (enI 0x00000039 d a imm stl)
  | .stB d a imm stl => some (enI 0x0000003B d a imm stl)
  | .csrr csr d stl => some (enRR 0x0000003D d 0 0 stl + csr * 2 ^ 16)
  | .csrw csr x stl => some (enRR 0x0000003F 0 0 0 stl + csr * 2 ^ 16 + x * 2 ^ 10)
  | .csrs csr x stl => some (enRR 0x0400003F 0 0 0 stl + csr * 2 ^ 16 + x * 2 ^ 10)
  | .csrc csr x stl => some (enRR 0x0800003F 0 0 0 stl + csr * 2 ^ 16 + x * 2 ^ 10)
  | .phnew d a sc stl => some (enRR 0x0000001F d a 0 stl + sc.code * 2 ^ 26)
  | .phfree d a stl => some (enRR 0x0040001F d a 0 stl)
  | .phreg d a md stl => some (enRR 0x0080001F d a 0 stl + md.code * 2 ^ 26)
  | .phdrop d a stl => some (enRR 0x00C0001F d a 0 stl)
  | .phsig d a stl => some (enRR 0x0100001F d a 0 stl)
  | .phwait d a stl => some (enRR 0x0140001F d a 0 stl)
  | .phnext d a stl => some (enRR 0x0180001F d a 0 stl)
  | .phq d a stl => some (enRR 0x01C0001F d a 0 stl)
  | _ => none

/-- The word of a word of the other majors (R18, R26 to R29). -/
def encodeSys : Instr → Option Nat
  | .trap code stl => some (enRR 0x00000041 0 0 0 stl + code.toNat * 2 ^ 26)
  | .rett stl => some (enRR 0x00400041 0 0 0 stl)
  | .halt stl => some (enRR 0x00800041 0 0 0 stl)
  | .sleep a stl => some (enRR 0x00C00041 0 a 0 stl)
  | .ibar stl => some (enRR 0x01000041 0 0 0 stl)
  | .iinv d a sc stl => some (enRR 0x01400041 d a 0 stl + sc.code * 2 ^ 29)
  | .brk code stl => some (enRR 0x01800041 0 0 0 stl + code.toNat * 2 ^ 26)
  | .resume d a stl => some (enRR 0x01C00041 d a 0 stl)
  | .wset a idx stl => some (enRR 0x00000043 0 a 0 stl + idx * 2 ^ 27)
  | .wget d idx stl => some (enRR 0x00400043 d 0 0 stl + idx * 2 ^ 27)
  | .wsw idx stl => some (enRR 0x00800043 0 0 0 stl + idx * 2 ^ 27)
  | .wswj idx stl => some (enRR 0x00C00043 0 0 0 stl + idx * 2 ^ 27)
  | .wshr d a idx stl => some (enRR 0x01000043 d a 0 stl + idx * 2 ^ 27)
  | .wclr idx stl => some (enRR 0x01400043 0 0 0 stl + idx * 2 ^ 27)
  | .warena d a stl => some (enRR 0x01800043 d a 0 stl)
  | .vtrip a n1 mode ns bs stl => some (enRR 0x0000005D 0 a 0 stl + n1 * 2 ^ 10 + mode * 2 ^ 14 + ns * 2 ^ 22 + bs * 2 ^ 26)
  | .vstrm d a v stl => some (enRR 0x0000005F d a 0 stl + v * 2 ^ 26)
  | .vsunb d a stl => some (enRR 0x0040005F d a 0 stl)
  | .vsq d a stl => some (enRR 0x0080005F d a 0 stl)
  | .ldSync d a stl => some (enRR 0x0000006D d a 0 stl)
  | .take d a stl => some (enRR 0x0040006D d a 0 stl)
  | .put d a src stl => some (enRR 0x0080006D d a 0 stl + src * 2 ^ 26)
  | .feSet a l stl => some (enRR 0x00C0006D 0 a 0 stl + l * 2 ^ 10)
  | .feClr a l stl => some (enRR 0x0100006D 0 a 0 stl + l * 2 ^ 10)
  | .feQ d a stl => some (enRR 0x0140006D d a 0 stl)
  | .feWait a l stl => some (enRR 0x0180006D 0 a 0 stl + l * 2 ^ 10)
  | .bcfgC d a stl => some (enRR 0x0000006F d a 0 stl)
  | .bcfgS d a stl => some (enRR 0x0040006F d a 0 stl)
  | .bcfgF d a stl => some (enRR 0x0080006F d a 0 stl)
  | .bq d a stl => some (enRR 0x00C0006F d a 0 stl)
  | .fpush d a src stl => some (enRR 0x00000071 d a 0 stl + src * 2 ^ 26)
  | .fpop d a stl => some (enRR 0x00400071 d a 0 stl)
  | .fq d a stl => some (enRR 0x00800071 d a 0 stl)
  | .cpy d a b stl => some (enRR 0x00000073 d a b stl)
  | .cpyFe d a b stl => some (enRR 0x10000073 d a b stl)
  | .mcast d a b stl => some (enRR 0x20000073 d a b stl)
  | .putsig d a b stl => some (enRR 0x30000073 d a b stl)
  | .cpyPh d a b stl => some (enRR 0x40000073 d a b stl)
  | .cpwait d a stl => some (enRR 0x50000073 d a 0 stl)
  | .cpq d a stl => some (enRR 0x60000073 d a 0 stl)
  | .cpcan d a b stl => some (enRR 0x70000073 d a b stl)
  | .mark a off stl => some (enRR 0x00000075 0 a 0 stl + off.toNat * 2 ^ 26)
  | .ttarm d a stl => some (enRR 0x00400075 d a 0 stl)
  | .ttq d a stl => some (enRR 0x00800075 d a 0 stl)
  | .ttreplay d a stl => some (enRR 0x00C00075 d a 0 stl)
  | .ttoff d stl => some (enRR 0x01000075 d 0 0 stl)
  | .tdef d a stl => some (enRR 0x00000077 d a 0 stl)
  | .tspawn d a stl => some (enRR 0x00400077 d a 0 stl)
  | .tnext d a idx stl => some (enRR 0x00800077 d a 0 stl + idx * 2 ^ 27)
  | .tdone idx stl => some (enRR 0x00C00077 0 0 0 stl + idx * 2 ^ 27)
  | .freeze d idx stl => some (enRR 0x01000077 d 0 0 stl + idx * 2 ^ 27)
  | .tquery d a stl => some (enRR 0x01400077 d a 0 stl)
  | .tclaim d a stl => some (enRR 0x01800077 d a 0 stl)
  | .tlaunch d a stl => some (enRR 0x01C00077 d a 0 stl)
  | .tyield idx stl => some (enRR 0x02000077 0 0 0 stl + idx * 2 ^ 27)
  | .fence sc stl => some (enRR 0x00000079 0 0 0 stl + sc.code * 2 ^ 26)
  | .ldAcq d a sc stl => some (enRR 0x00400079 d a 0 stl + sc.code * 2 ^ 26)
  | .stRel d a sc stl => some (enRR 0x00800079 d a 0 stl + sc.code * 2 ^ 26)
  | .acqpDev d a b stl => some (enRR 0x0000007B d a b stl)
  | .acqpSys d a b stl => some (enRR 0x1000007B d a b stl)
  | _ => none

/-- The word of a 32-bit row. -/
def encodeWord (i : Instr) : Option Nat :=
  (encodeLow i).or <| (encodeSys i).or <| (encodeLane i).or <| (encodeVec i).or (encodeAt i)

/-- The parcel of a 16-bit row (R24, R25). -/
def encode16 : Instr → Option Nat
  | .brk16 => some 0
  | .vadd16 int d b => some (0x0000 + b2n int * 2 ^ 15 + d * 2 ^ 5 + b * 2 ^ 10)
  | .vsub16 int d b => some (0x0002 + b2n int * 2 ^ 15 + d * 2 ^ 5 + b * 2 ^ 10)
  | .vmul16 int d b => some (0x0004 + b2n int * 2 ^ 15 + d * 2 ^ 5 + b * 2 ^ 10)
  | .vmin16 int d b => some (0x0006 + b2n int * 2 ^ 15 + d * 2 ^ 5 + b * 2 ^ 10)
  | .vmax16 int d b => some (0x0008 + b2n int * 2 ^ 15 + d * 2 ^ 5 + b * 2 ^ 10)
  | .vand16 int d b => some (0x000A + b2n int * 2 ^ 15 + d * 2 ^ 5 + b * 2 ^ 10)
  | .vor16 int d b => some (0x000C + b2n int * 2 ^ 15 + d * 2 ^ 5 + b * 2 ^ 10)
  | .vxor16 int d b => some (0x000E + b2n int * 2 ^ 15 + d * 2 ^ 5 + b * 2 ^ 10)
  | .vmov16 int d b => some (0x0010 + b2n int * 2 ^ 15 + d * 2 ^ 5 + b * 2 ^ 10)
  | .vneg16 int d b => some (0x0012 + b2n int * 2 ^ 15 + d * 2 ^ 5 + b * 2 ^ 10)
  | .vabs16 int d b => some (0x0014 + b2n int * 2 ^ 15 + d * 2 ^ 5 + b * 2 ^ 10)
  | .vshl16 d b => some (0x8016 + d * 2 ^ 5 + b * 2 ^ 10)
  | .vsra16 d b => some (0x8018 + d * 2 ^ 5 + b * 2 ^ 10)
  | .vclt16 int d b => some (0x001A + b2n int * 2 ^ 15 + d * 2 ^ 5 + b * 2 ^ 10)
  | .vceq16 int d b => some (0x001C + b2n int * 2 ^ 15 + d * 2 ^ 5 + b * 2 ^ 10)
  | .vrcp16 d b => some (0x001E + d * 2 ^ 5 + b * 2 ^ 10)
  | .vpopc16 d b => some (0x801E + d * 2 ^ 5 + b * 2 ^ 10)
  | _ => none


/-- The second word of a pair (R22: its STL is zero). -/
noncomputable def encodeVOp (v : VOp) : Option Nat :=
  match v with
  | .ldff byte d a b => some (0x8000005B + b2n byte * 2 ^ 28 + d * 2 ^ 10 + a * 2 ^ 16 + b * 2 ^ 22)
  | .ldg d a b => some (0xA000005B + d * 2 ^ 10 + a * 2 ^ 16 + b * 2 ^ 22)
  | .sts d a b => some (0xB000005B + d * 2 ^ 10 + a * 2 ^ 16 + b * 2 ^ 22)
  | v => (ofVOp v 0).bind encodeWord

/-- The prefix word (R21). -/
def encodePfx (p : Pfx) : Nat :=
  0x7D + b2n p.cv * 2 ^ 23 + p.c * 2 ^ 17 + b2n p.z * 2 ^ 16 + p.rm * 2 ^ 13 + p.pm * 2 ^ 10 + p.stl * 2 ^ 7

/-- The two words of a pair. -/
noncomputable def encodePair (p : Pfx) (v : VOp) : Option (List Nat) :=
  (encodeVOp v).map fun w =>
    [fld (encodePfx p) 0 16, fld (encodePfx p) 16 16, fld w 0 16, fld w 16 16]

/-- The parcels of an encoded instruction, in memory order; none for an event of the opcode table. -/
noncomputable def encode (i : Instr) : Option (List Nat) :=
  match i with
  | .pfx p v => encodePair p v
  | .vldffW p d a b => encodePair p (.ldff false d a b)
  | .vldffB p d a b => encodePair p (.ldff true d a b)
  | .vldgW p d a b => encodePair p (.ldg d a b)
  | .vstsW p d a b => encodePair p (.sts d a b)
  | i =>
    match encode16 i with
    | some h => some [h]
    | none => (encodeWord i).map fun w => [fld w 0 16, fld w 16 16]

end Sys2Proof
end

