-- ==== Sys2Proof/Machine/Fetch.lean ====
section
/-! DEFINITION. Fetching an instruction's parcels (R16, R17, R160, R170). -/
namespace Sys2Proof.Machine

/-- The line of the instruction cache that holds an address under an ASID (R170). -/
def Core.iline (c : Core) (va : Nat) : Option ILine :=
  c.m.icache.find? fun l => l.va = va / 64 * 64 ∧ (l.global ∨ l.asid = c.asid)

/-- Keep a line in the instruction cache of 32 KiB (R14), taken as 512 lines of 64 bytes (log 77). -/
def Core.keepLine (c : Core) (l : ILine) : Core :=
  let kept := c.m.icache.filter fun k => ¬ (k.va = l.va ∧ (k.global ∨ k.asid = l.asid))
  { c with m := { c.m with icache := (kept ++ [l]).drop (kept.length - 511) } }

/-- The translation of a fetch is global (R43). -/
def State.fetchGlobal (s : State) (va : Nat) : Bool :=
  ((s.dieAt s.die).tlb.find? fun e => e.hits s.who va).elim false fun e => e.pte.bit 6

/-- Read a parcel at a translated address: from the instruction cache, or as a path-0 load would (R160, R170). A cached
line may be stale; where it differs from memory, which of the two is executed is free. -/
def State.parcelAt (s : State) (va : Word) (pa : Nat) : Except Nat Nat × State :=
  let (r, s) := s.dieRead s.core.vf s.die pa 2 s.core.m.floor
  match s.core.iline va.toNat, r with
  | some l, r =>
    let old := natOf ((l.bytes.drop (va.toNat % 64)).take 2)
    match r with
    | .error _ => (.ok old, s)
    | .ok bs =>
      let (v, s) := s.choose old (natOf bs)
      (.ok v, s)
  | none, .error c => (.error c, s)
  | none, .ok bs =>
    match s.dieRead s.core.vf s.die (pa / 64 * 64) 64 s.core.m.floor with
    | (.ok ls, s) =>
      let l : ILine :=
        { asid := s.core.asid, global := s.fetchGlobal (va.bits 0 48), va := va.toNat / 64 * 64, bytes := ls }
      (.ok (natOf bs), s.updCore (·.keepLine l))
    | (.error _, s) => (.ok (natOf bs), s)

/-- Fetch a parcel: the parcel, or the cause of the trap (R17, R160). -/
def State.parcel (s : State) (va : Word) : Except Nat Nat × State :=
  let p := va.bits 60 4
  if (p ≠ 0 ∧ p ≠ 3) ∨ va.bits 57 3 ≠ 0 then (.error 9, s)
  else
    match s.translate s.who .fetch va with
    | (none, s) => (.error 8, s)
    | (some pa, s) =>
      match s.parcelAt va pa with
      | (.ok v, s) => (.ok v, s)
      | (.error c, s) => (.error 8, s.logErr (word pa) c)

/-- The bits of parcels in memory order, the first lowest (R34). -/
def bitsOf : List Nat → Nat
  | [] => 0
  | p :: ps => p + 2 ^ 16 * bitsOf ps

/-- Latch the parcels examined, at least one, for the messages of R34 (log 31). -/
def State.latch (s : State) (ps : List Nat) : State :=
  s.updCore fun c => { c with ibits := BitVec.ofNat 64 (bitsOf ps), ilen := Nat.max 1 ps.length }

/-- Fetch the parcels of the instruction at the PC, at most n more (R16); a failure latches those it follows and gives the
cause and the address of the parcel. -/
def State.fetchFrom (s : State) : Nat → List Nat → Except (Nat × Word) (List Nat) × State
  | 0, ps => (.ok ps, s)
  | n + 1, ps =>
    if ps ≠ [] ∧ parcelsNeeded ps ≤ ps.length then (.ok ps, s)
    else
      let va := s.core.pc + BitVec.ofNat 64 (2 * ps.length)
      match s.parcel va with
      | (.error c, s) => (.error (c, va), s.latch ps)
      | (.ok p, s) => s.fetchFrom n (ps ++ [p])

/-- Fetch the instruction at the PC. -/
def State.fetch (s : State) : Except (Nat × Word) (List Nat) × State := s.fetchFrom 4 []

/-- A fetch that failed: the trap of R17 or R160. -/
def State.fetchTrap (s : State) (e : Nat × Word) : Out :=
  ({ s with core := s.core.toIssue } : State).trap e.1 e.2

end Sys2Proof.Machine
end

