-- ==== Sys2Proof/Machine/Anvil.lean ====
section
/-! DEFINITION. The Anvil: operand kinds, exact chunk sums, leases and the matrix commands of major 0x30 (R187, R188,
R195, R196, R229 to R252). -/
namespace Sys2Proof.Machine

/-! Operand kinds (R187, R188, R233). -/

/-- The groups of R187. -/
inductive Group where
  | f64 | f32 | h | n | i
deriving DecidableEq, Repr

/-- A format register: FMT and SM (R230). -/
def fmtCode (r : BitVec 6) : Nat := r.toNat % 16
def fmtScale (r : BitVec 6) : Nat := r.toNat / 16

/-- The group of a legal operand kind, none of an illegal one (R187). -/
def kindGroup (r : BitVec 6) : Option Group :=
  match fmtCode r, fmtScale r with
  | 0, 0 => some .f64
  | 1, 0 => some .f32
  | 2, 0 | 3, 0 => some .h
  | 4, 0 | 5, 0 | 6, 0 | 7, 0 | 8, 0 => some .n
  | 4, 1 | 5, 1 | 6, 1 | 7, 1 | 8, 1 | 9, 1 => some .n
  | 9, 0 | 10, 0 => some .i
  | 11, 2 => some .n
  | _, _ => none

/-- The width of a format (R187). -/
def fmtWidth (r : BitVec 6) : Nat :=
  match fmtCode r with
  | 0 => 64 | 1 => 32 | 2 | 3 => 16 | 4 | 5 | 9 => 8 | 6 | 7 => 6 | _ => 4

/-- The group, K and chunk size of a legal pair (R188). -/
def pairOf (a b : BitVec 6) : Option (Group × Nat × Nat) :=
  match kindGroup a, kindGroup b with
  | some g, some g2 =>
    if g ≠ g2 then none
    else
      let w := Nat.max (fmtWidth a) (fmtWidth b)
      match g with
      | .f64 => some (g, 8, 4)
      | .f32 => some (g, 32, 8)
      | .h => some (g, 128, 16)
      | .n | .i => some (g, (if w = 8 then 256 else 512), 32)
  | _, _ => none

/-- A tile's bytes for a kind and K (R233). -/
def tileBytes (r : BitVec 6) (k : Nat) : Nat :=
  64 * k * fmtWidth r / 8 +
    (match fmtScale r with
      | 1 => 64 * k / 32
      | 2 => 64 * k / 64 + 4 * ((64 * k + 16383) / 16384)
      | _ => 0)

/-- The accumulator type of a group (R188, R243). -/
def Group.aty : Group → Nat
  | .f64 => 1 | .i => 2 | .f32 | .h | .n => 0

/-- The format of a floating-point accumulator. -/
def atyFmt (aty : Nat) : Fmt := if aty = 1 then .f64 else .f32

/-- The bytes of an accumulator element, and of its 64 × 64 tile (R245). -/
def atyBytes (aty : Nat) : Nat := if aty = 1 then 8 else 4
def accBytes (aty : Nat) : Nat := 4096 * atyBytes aty

/-! Element values. -/

/-- The levels of NQ4 as binary16 (R185). -/
def nqLevels : List Nat :=
  [0xBC00, 0xB997, 0xB838, 0xB65A, 0xB493, 0xB1F2, 0xADDC, 0x0000,
   0x2D03, 0x3112, 0x33C1, 0x3553, 0x36F3, 0x3871, 0x39B9, 0x3C00]

/-- The format of a floating-point operand code (R187). -/
def codeFmt : Nat → Fmt
  | 0 => .f64 | 1 => .f32 | 2 => .bf16 | 3 => .f16 | 4 => .e4m3 | 5 => .e5m2 | 6 => .e3m2 | 7 => .e2m3 | _ => .e2m1

/-- An exact product of values: a NaN of it is marked where it arises from 0 × ∞ (R195). -/
def prodV : FVal → FVal → FVal
  | .nan _, _ | _, .nan _ => .nan false
  | .inf n, .inf k => .inf (n != k)
  | .inf n, .num k m _ | .num k m _, .inf n => if m = 0 then .nan true else .inf (n != k)
  | .num n m e, .num k l x => .num (n != k) (m * l) (e + x)

/-- A value under an E8M0 scale (R183). -/
def scaleV (v : FVal) (e : Nat) : FVal :=
  if e = 255 then .nan false
  else
    match v with
    | .num n m x => .num n m (x + e - 127)
    | v => v

/-- The block scale of NQ4, RNE (S × c / 255) in f32 (R186). -/
def nqScale (s c : Nat) : FVal :=
  match Fmt.f32.decode s with
  | .nan _ => .nan false
  | .inf n => if c = 0 then .nan false else .inf n
  | .num n m e =>
    let k : Nat := 40
    Fmt.f32.decode (Fmt.f32.round 1 n (m * c * 2 ^ k / 255) (e - k) (decide (m * c * 2 ^ k % 255 ≠ 0))).1

/-- The value of element i of a tile of 64 · K elements laid out in memory as a number (R181 to R186). -/
def elemVal (r : BitVec 6) (k : Nat) (t : Nat) (i : Nat) : FVal :=
  let w := fmtWidth r
  let x := fld t (w * i) w
  let base := 64 * k * w
  match fmtScale r with
  | 1 =>
    let v : FVal := if fmtCode r = 9 then
        let j := sext x 8
        .num (decide (j < 0)) j.natAbs (-6)
      else (codeFmt (fmtCode r)).decode x
    scaleV v (fld t (base + 8 * (i / 32)) 8)
  | 2 =>
    let c := fld t (base + 8 * (i / 64)) 8
    let s := fld t (base + 8 * (64 * k / 64) + 32 * (i / 16384)) 32
    match prodV (Fmt.f16.decode ((nqLevels[x]?).getD 0)) (nqScale s c) with
    | .nan _ => .nan false
    | v => v
  | _ => (codeFmt (fmtCode r)).decode x

/-- The value of element i of an integer tile (group I). -/
def elemInt (r : BitVec 6) (t : Nat) (i : Nat) : Int :=
  let w := fmtWidth r
  sext (fld t (w * i) w) w

/-! Sums. -/

/-- The flags NV, OF and SAT that sums leave in a slot. -/
structure SumFlags where
  nv : Bool := false
  ovf : Bool := false
  sat : Bool := false
deriving DecidableEq, Repr

def SumFlags.or (a b : SumFlags) : SumFlags := ⟨a.nv || b.nv, a.ovf || b.ovf, a.sat || b.sat⟩

/-- The least exponent of the numbers among values. -/
def minExp (vs : List FVal) : Int :=
  (vs.foldl (fun (e : Option Int) v => match v, e with
    | .num _ _ x, some y => some (min x y)
    | .num _ _ x, none => some x
    | _, e => e) none).getD 0

/-- Fin of the sum of values, rounded once (R190, R195). -/
def finSum (f : Fmt) (vs : List FVal) : Nat × SumFlags :=
  if vs.any FVal.isNan then (f.dnan, { nv := vs.all fun v => v ≠ .nan false })
  else
    let pos := vs.any fun v => v = .inf false
    let neg := vs.any fun v => v = .inf true
    if pos && neg then (f.dnan, { nv := true })
    else if pos || neg then (f.signed neg f.infMag, {})
    else
      let e := minExp vs
      let i := vs.foldl (fun (a : Int) v => match v with
        | .num n m x => a + scaled n m x e
        | _ => a) 0
      if i = 0 then
        (f.signed (vs.all fun v => match v with
          | .num n m _ => n && decide (m = 0)
          | _ => false) 0, {})
      else
        let r := f.round 1 (decide (i < 0)) i.natAbs e
        (r.1, { ovf := decide (r.2 &&& fOF ≠ 0) })

/-- An accumulator element as a term of a sum. -/
def accTerm (f : Fmt) (x : Nat) : FVal :=
  match f.decode x with
  | .nan _ => .nan false
  | v => v

/-- Fin of an integer sum (R196). -/
def finInt (i : Int) : Nat × SumFlags :=
  let lo : Int := -(2 ^ 31)
  let hi : Int := 2 ^ 31 - 1
  (intBits 32 (max lo (min i hi)), { sat := decide (i < lo ∨ hi < i) })

/-- One output of an `mmac` from its chunks on (R195, R196): `term c` is the list of the products of chunk c. -/
def chunkSum (fin : Nat → Nat → Nat × SumFlags) : Nat → Nat → Nat × SumFlags → Nat × SumFlags
  | 0, _, acc => acc
  | n + 1, c, acc =>
    let r := fin acc.1 c
    chunkSum fin n (c + 1) (r.1, acc.2.or r.2)

/-- C(i, j) after an `mmac` of floating-point kinds. -/
def outF (f : Fmt) (k n : Nat) (a b : Array FVal) (c i j : Nat) : Nat × SumFlags :=
  chunkSum (fun acc ch => finSum f (accTerm f acc :: (List.range n).map fun q =>
    prodV ((a[i * k + ch * n + q]?).getD (.nan false)) ((b[j * k + ch * n + q]?).getD (.nan false)))) (k / n) 0 (c, {})

/-- C(i, j) after an `mmac` of integer kinds. -/
def outI (k n : Nat) (a b : Array Int) (c i j : Nat) : Nat × SumFlags :=
  chunkSum (fun acc ch => finInt ((List.range n).foldl (fun (s : Int) q =>
    s + ((a[i * k + ch * n + q]?).getD 0) * ((b[j * k + ch * n + q]?).getD 0)) (sext acc 32))) (k / n) 0 (c, {})

/-- All the outputs of an accumulator: its new elements, and the flags they raise. -/
def mapAcc (f : Nat → Nat × SumFlags) : Sparse Nat × SumFlags :=
  let rs := (List.range 4096).map fun x => (x, f x)
  ((rs.filter fun r => r.2.1 ≠ 0).map fun r => (r.1, r.2.1), rs.foldl (fun g r => g.or r.2.2) {})

/-- The elements after an `mmac` (R195, R196). -/
def mmacElems (a b : BitVec 6) (g : Group) (k n : Nat) (ta tb : Nat) (old : Sparse Nat) : Sparse Nat × SumFlags :=
  match g with
  | .i =>
    let xa := ((List.range (64 * k)).map (elemInt a ta)).toArray
    let xb := ((List.range (64 * k)).map (elemInt b tb)).toArray
    mapAcc fun x => outI k n xa xb (sget 0 old x) (x / 64) (x % 64)
  | _ =>
    let f := atyFmt g.aty
    let xa := ((List.range (64 * k)).map (elemVal a k ta)).toArray
    let xb := ((List.range (64 * k)).map (elemVal b k tb)).toArray
    mapAcc fun x => outF f k n xa xb (sget 0 old x) (x / 64) (x % 64)

/-- The elements after a `macc` of a partial tile (R247). -/
def maccElems (aty : Nat) (t : Nat) (old : Sparse Nat) : Sparse Nat × SumFlags :=
  let w := 8 * atyBytes aty
  mapAcc fun x =>
    let p := fld t (w * x) w
    let c := sget 0 old x
    if aty = 2 then finInt (sext p 32 + sext c 32)
    else finSum (atyFmt aty) [accTerm (atyFmt aty) p, accTerm (atyFmt aty) c]

/-- The bytes an `mst` writes, and whether a conversion overflowed (R246). -/
def mstBytes (aty ofmt : Nat) (els : Sparse Nat) : List Byte × Bool :=
  if ofmt = 0 then ((List.range 4096).flatMap fun x => bytesOf (sget 0 els x) (atyBytes aty), false)
  else
    let dst := if ofmt = 1 then Fmt.bf16 else Fmt.f16
    let rs := (List.range 4096).map fun x =>
      let v := sget 0 els x
      if aty = 2 then dst.ofInt 1 false (sext v 32) else (atyFmt aty).cvt dst 1 false v
    (rs.flatMap fun r => bytesOf r.1 2, rs.any fun r => r.2 &&& fOF ≠ 0)

/-! Slots. -/

/-- An accumulator slot of a cluster. -/
def State.acc (s : State) (clu n : Nat) : Acc := sget {} (s.clAt clu).accs n

/-- Update an accumulator slot. -/
def State.updAcc (s : State) (clu n : Nat) (f : Acc → Acc) : State :=
  s.updCl clu fun c => { c with accs := supd {} c.accs n f }

/-- The accumulator slot a command names. -/
def slotOf : MatOp → Option Nat
  | .mac d _ | .zero d | .st d _ | .ld d _ | .acc d _ => some d
  | _ => none

/-- A command naming the slot is accepted and not complete (R235). -/
def State.accBusy (s : State) (clu n : Nat) : Bool := (s.clAt clu).array.any fun c => slotOf c.op = some n

/-- The state word of a slot (R235). -/
def State.accWord (s : State) (clu n : Nat) : Word :=
  let a := s.acc clu n
  word (put (b2n (s.accBusy clu n)) 63 1 + put (b2n a.orphan) 62 1 + put a.aty 60 2 + put a.vf 56 4 + put a.vcore 40 16
    + put a.win 32 5 + put (b2n a.merr) 4 1 + put (b2n a.kerr) 3 1 + put (b2n a.sat) 2 1 + put (b2n a.nv) 1 1
    + b2n a.ovf)

/-- Tag a slot with a command's issuer. -/
def Acc.tagged (a : Acc) (c : MCmd) : Acc := { a with vf := c.vf, vcore := c.vcore, win := c.win }

/-- OR the flags of sums into a slot. -/
def Acc.raise (a : Acc) (g : SumFlags) : Acc :=
  { a with nv := a.nv || g.nv, ovf := a.ovf || g.ovf, sat := a.sat || g.sat }

/-! Reads and writes of the array (R252). -/

/-- Log the failure of a command at an offset of a cluster, on that cluster's die (log 29). -/
def State.logMat (s : State) (clu : Nat) (c : MCmd) (off code : Nat) : State :=
  s.logAt (clu / 64) c.vf c.vcore (word (2 ^ 60 * c.ea.bits 60 4 + put (c.ea.bits 40 8) 40 8 + off)) code

/-- Read a tile of a cluster's scratch: its bytes as a number, or none with the failure logged (R252). A tile that reaches
offset 0x60_0000, because the slot's type is not the one judged at issue (R239), fails there as at a bank that is not
scratchpad. -/
def State.tileRead (s : State) (clu : Nat) (c : MCmd) (off n : Nat) : Option Nat × State :=
  let s := s.settleBanks clu off n
  match s.firstOffence clu (word off) n with
  | some a => (none, s.logMat clu c a.toNat 1)
  | none =>
    match s.poison.find? fun w => meets w 8 (scratchKey clu off) n with
    | some w => (none, s.logMat clu c (scrOff w) 2)
    | none => (some (natOf (s.bytes (scratchKey clu off) n)), s)

/-- What a command has read of a tile counts as no value where the memory of the accumulator slot that it adds to has an
uncorrectable error (R252, R409). -/
def State.accRead (s : State) (clu : Nat) (c : MCmd) (d : Nat) (t : Option Nat × State) : Option Nat × State :=
  if (s.acc clu d).bad ∧ t.1.isSome then (none, t.2.logMat clu c (c.ea.bits 0 23) 2) else t

/-- Write the part of a tile that lies in one bank; where the bank is not scratchpad it is discarded and logged. -/
def State.tileWriteBank (s : State) (clu : Nat) (c : MCmd) (off : Nat) (bs : List Byte) (b : Nat) : State × Bool :=
  let s := s.settleBank clu b
  let lo := Nat.max off (b * 0x40000)
  let hi := Nat.min (off + bs.length) ((b + 1) * 0x40000)
  if (s.bank clu b).role ≠ .scratch then (s.logMat clu c lo 1, false)
  else
    let part := (bs.drop (lo - off)).take (hi - lo)
    let s := (s.write (cellsAt (scratchKey clu lo) part)).1
    (if c.fe then s.fillRange clu lo (hi - lo) else s, true)

/-- Write a tile: whether every bank took its part. What reaches offset 0x60_0000 is discarded and logged. -/
def State.tileWrite (s : State) (clu : Nat) (c : MCmd) (off : Nat) (bs : List Byte) : State × Bool :=
  let (s, ok) := (banksIn off bs.length).foldl (fun p b =>
    let (s, ok) := p.1.tileWriteBank clu c off bs b
    (s, p.2 && ok)) (s, true)
  if 0x600000 < off + bs.length then (s.logMat clu c (Nat.max off 0x600000) 1, false) else (s, ok)

/-! The ring (R234, R244). -/

/-- The clusters of a cluster's ring, ascending. -/
def State.ring (s : State) (clu : Nat) : List Nat :=
  match s.launchOf (s.clAt clu).lid with
  | some l =>
    let cs := l.clusters.filter fun k => k / 64 = clu / 64
    if cs.contains clu then cs else [clu]
  | none => [clu]

/-- A cluster's predecessor in its ring. -/
def State.predecessor (s : State) (clu : Nat) : Nat :=
  let r := s.ring clu
  match r.findIdx? (· = clu) with
  | some i => (r[(i + r.length - 1) % r.length]?).getD clu
  | none => clu

/-- The head of a cluster's array. -/
def State.headCmd (s : State) (clu : Nat) : Option MCmd := (s.clAt clu).array.head?

/-- Replace the head of a cluster's array. -/
def State.setHead (s : State) (clu : Nat) (c : MCmd) : State :=
  s.updCl clu fun k => { k with array := c :: k.array.drop 1 }

/-- The tile a predecessor's started `mrot` sends arrives in a cluster's incoming buffer, where that is free (R244): a buffer
whose contents are in the VF's cluster image is not, until that is restored (R251). -/
def State.tileArrival (s : State) (clu : Nat) : State :=
  let p := s.predecessor clu
  match s.headCmd p, (s.clAt clu).latchIn with
  | some c, none =>
    if c.op = .rot ∧ c.started ∧ !c.sent ∧ !(s.clAt clu).away.contains c.vf then
      let t := (s.clAt p).latchCur
      (s.setHead p { c with sent := true }).updCl clu fun k => { k with latchIn := some t }
    else s
  | _, _ => s

/-! Carrying a command out. -/

/-- The head command starts (R240); one of another VF waits while a cluster image is not saved (R360), and one of a VF whose
image is to come back waits for that (R251). -/
def State.cmdStart (s : State) (clu : Nat) : State :=
  match s.headCmd clu with
  | some c =>
    let k := s.clAt clu
    if (k.spill.any fun p => p.vf ≠ c.vf) || k.staged.any fun i => i.1 = c.vf then s
    else s.setHead clu { c with started := true }
  | none => s

/-- The event that counts the busy cycles of the array in a group, K elements deep (R229, R369). -/
def macEvent : Group → Nat → Nat
  | .f64, _ | .f32, _ => 16
  | .h, _ => 17
  | .n, k | .i, k => if k = 256 then 18 else 19

/-- `mbload` (R242, R252). -/
def State.doBload (s : State) (clu : Nat) (c : MCmd) : State :=
  match pairOf c.fmta c.fmtb with
  | none => s.updCl clu fun k => { k with latchCur := none }
  | some (_, k, _) =>
    let n := tileBytes c.fmtb k
    let (t, s) := s.tileRead clu c (c.ea.bits 0 23) n
    s.updCl clu fun k => { k with latchCur := t.map fun x => bytesOf x n }

/-- `mmac` (R243, R252): one that computes occupies the array for 64 arithmetic cycles (R229). -/
def State.doMac (s : State) (clu : Nat) (c : MCmd) (d : Nat) : State :=
  let a := s.acc clu d
  let cur := (s.clAt clu).latchCur
  match pairOf c.fmta c.fmtb, cur with
  | some (g, k, n), some tb =>
    if a.aty ≠ g.aty ∨ tb.length ≠ tileBytes c.fmtb k then
      s.updAcc clu d fun a => { a.tagged c with kerr := true }
    else
      match s.accRead clu c d (s.tileRead clu c (c.ea.bits 0 23) (tileBytes c.fmta k)) with
      | (none, s) => s.updAcc clu d fun a => { a.tagged c with merr := true }
      | (some ta, s) =>
        let (els, fl) := mmacElems c.fmta c.fmtb g k n ta (natOf tb) a.elems
        let e := macEvent g k
        (s.updCl clu fun k => { k with macBusy := supd 0 k.macBusy e (· + 64) }).updAcc clu d fun a =>
          { (a.tagged c).raise fl with elems := els }
  | _, _ => s.updAcc clu d fun a => { a.tagged c with kerr := true }

/-- A slot written anew by `mzero` or `mld` (R245). -/
def Acc.fresh (c : MCmd) (els : Sparse Nat) : Acc :=
  { aty := c.aty, vf := c.vf, vcore := c.vcore, win := c.win, elems := els }

/-- `mld` (R245, R252). -/
def State.doLd (s : State) (clu : Nat) (c : MCmd) (d : Nat) : State :=
  let w := atyBytes c.aty
  match s.tileRead clu c (c.ea.bits 0 23) (accBytes c.aty) with
  | (none, s) => s.updAcc clu d fun a => { a.tagged c with merr := true }
  | (some t, s) =>
    s.updAcc clu d fun _ => Acc.fresh c (((List.range 4096).map fun x => (x, fld t (8 * w * x) (8 * w))).filter
      fun e => e.2 ≠ 0)

/-- `mst` (R246, R252). -/
def State.doSt (s : State) (clu : Nat) (c : MCmd) (d : Nat) : State :=
  let a := s.acc clu d
  if a.aty = 3 then s.updAcc clu d fun a => { a with kerr := true }
  else if a.bad then (s.logMat clu c (c.ea.bits 0 23) 2).updAcc clu d fun a => { a with merr := true }
  else
    let (bs, ovf) := mstBytes a.aty c.ofmt a.elems
    let s := s.updAcc clu d fun a => { a with ovf := a.ovf || ovf }
    let off := c.ea.bits 0 23
    match (if c.ea.bits 60 4 = 1 then some clu else s.clOfLogical c.lid (c.ea.bits 40 8)) with
    | none =>
      if s.inLaunch c.lid (c.ea.bits 40 8) then s
      else (s.logMat clu c off 1).updAcc clu d fun a => { a with merr := true }
    | some k =>
      let (s, ok) := s.tileWrite k c off bs
      if ok then s else s.updAcc clu d fun a => { a with merr := true }

/-- `macc` at the array (R247, R252): the tile's granules become empty after it is read. -/
def State.doAcc (s : State) (clu : Nat) (c : MCmd) (d : Nat) : State :=
  let a := s.acc clu d
  if a.aty = 3 then s.updAcc clu d fun a => { a with kerr := true }
  else
    let off := c.ea.bits 0 23
    let n := accBytes a.aty
    let (t, s) := s.tileRead clu c off n
    let s := (List.range (n / 16)).foldl (fun s i =>
      let g := off / 16 + i
      if (s.bank clu (bankNo (16 * g))).role = .scratch then s.setGran clu g false else s) s
    let (t, s) := s.accRead clu c d (t, s)
    match t with
    | none => s.updAcc clu d fun a => { a.tagged c with merr := true }
    | some t =>
      let (els, g) := maccElems a.aty t a.elems
      s.updAcc clu d fun a => { (a.tagged c).raise g with elems := els }

/-- The head command is complete (R240): its effect on slots, latch and memory is made. An `mrot` completes only when
its tile has gone and its new tile has arrived (R244). -/
def State.cmdComplete (s : State) (clu : Nat) : State :=
  match s.headCmd clu with
  | none => s
  | some c =>
    if !c.started then s
    else
      let done := fun (s : State) => s.updCl clu fun k => { k with array := k.array.drop 1 }
      match c.op with
      | .bload _ => done (s.doBload clu c)
      | .mac d _ => done (s.doMac clu c d)
      | .zero d => done (s.updAcc clu d fun _ => Acc.fresh c [])
      | .ld d _ => done (s.doLd clu c d)
      | .st d _ => done (s.doSt clu c d)
      | .acc d _ => done (s.doAcc clu c d)
      | .rot =>
        match (s.clAt clu).latchIn with
        | some t =>
          if c.sent then
            done (s.updCl clu fun k => { k with latchCur := t, latchIn := none, rot := k.rot + 1 })
          else s
        | none => s
      | _ => done s

/-- One step of a cluster's array: its head starts, its tile arrives, it completes. -/
def State.arrayStep (s : State) (clu : Nat) : State :=
  match s.headCmd clu with
  | none => s
  | some c =>
    if !c.started then s.cmdStart clu
    else if c.op = .rot then
      let s := (s.ring clu).foldl (fun s k => s.tileArrival k) s
      s.cmdComplete clu
    else s.cmdComplete clu

/-! Issuing a command. -/

/-- The issuing core's cluster holds a lease for this window of the core. -/
def State.holdsLease (s : State) (win : Nat) : Bool :=
  decide ((s.clAt s.cl).lease.holder = some (posOf s.focus, win))

/-- The type of a slot as the issuing core's own earlier commands leave it (R239): one that only reads or adds to the slot
leaves it as it was judged. The earlier commands are the counting ones that name the slot (log 29). -/
def State.judgedAty (s : State) (d : Nat) : Nat := (sget none s.core.mat.own d).getD (s.acc s.cl d).aty

/-- The bytes of the tile at X(A) that the last check of R239 covers; none where only X(A) itself is checked. -/
def State.matBytes (s : State) (op : MatOp) : Option Nat :=
  let m := s.core.mat
  let sized := fun (aty : Nat) => if aty = 3 then none else some (accBytes aty)
  match op with
  | .bload _ => (pairOf m.fmta m.fmtb).map fun p => tileBytes m.fmtb p.2.1
  | .mac _ _ => (pairOf m.fmta m.fmtb).map fun p => tileBytes m.fmta p.2.1
  | .ld _ _ => some (accBytes m.aty)
  | .st d _ => (sized (s.judgedAty d)).map fun n => if m.ofmt = 0 then n else 8192
  | .acc d _ => sized (s.judgedAty d)
  | _ => none

/-- The path of the address of a command is one the command takes (R242 to R247). -/
def State.matPath (s : State) (op : MatOp) (ea : Word) : Bool :=
  let p := ea.bits 60 4
  pathForm ea && (decide (p = 1) || (match op with
    | .st _ _ => decide (p = 2 ∧ ea.bits 40 8 < s.core.dom.ncl)
    | _ => false))

/-- The check of the address of a command and the range of its tile (R239): the trap's cause and value. -/
def State.matAddr (s : State) (op : MatOp) (ea : Word) : Option (Nat × Word) × State :=
  if !s.matPath op ea then (some (9, ea), s)
  else if ea.toNat % 64 ≠ 0 then (some (6, ea), s)
  else
    let off := ea.bits 0 23
    let n := (s.matBytes op).getD 1
    if ea.bits 60 4 = 2 then
      (if 0x600000 < off + n then some (9, ea + BitVec.ofNat 64 (Nat.max off 0x600000 - off)) else none, s)
    else
      let s := (banksIn off n).foldl (fun s b => s.settleBank s.cl b) s
      ((s.firstOffence s.cl ea n).map fun a => (9, a), s)

/-- The checks of a counting command at issue (R239). -/
def State.matCheck (s : State) (win : Nat) (op : MatOp) (ea : Word) : Option (Nat × Word) × State :=
  if !s.holdsLease win then (some (14, 0), s)
  else
    match (slotOf op).filter fun d => (s.acc s.cl d).orphan with
    | some d => (some (14, word (0x100 + d)), s)
    | none =>
      match op with
      | .rot | .zero _ => (none, s)
      | _ => s.matAddr op ea

/-- A command goes to a cluster of another die (R250). -/
def State.matFar (s : State) (op : MatOp) (ea : Word) : Bool :=
  match op with
  | .st _ _ => decide (ea.bits 60 4 = 2 ∧ (s.clOfLogical s.core.dom.launch (ea.bits 40 8)).map (· / 64) ≠ some s.die)
  | _ => false

/-- Send a counting command to the array, counted against the lease (R236, R240). The values of the format registers are
those at its place in program order, which a later write of them waits to change (R232). The core's view of the slot's type
follows a command that names the slot (R239, log 29). -/
def State.matSend (s : State) (win : Nat) (op : MatOp) (ea : Word) : State :=
  let m := s.core.mat
  let clu := s.cl
  let c : MCmd :=
    { op, ea, core := s.focus, vf := s.core.vf, vcore := s.vcore, win, lid := s.core.dom.launch, fmta := m.fmta
      fmtb := m.fmtb, ofmt := m.ofmt, aty := m.aty, fe := m.fe }
  let s := s.drained
  let s := s.updCore fun k => (k.count (some win) 7 1)
  let own := fun (d aty : Nat) =>
    s.updCore fun k => { k with mat := { k.mat with own := sput none k.mat.own d (some aty) } }
  let far := s.matFar op ea
  let s := match op with
    | .zero d | .ld d _ => own d m.aty
    | .mac d _ | .st d _ | .acc d _ => own d (s.judgedAty d)
    | _ => s
  let s := if far then s.updCore fun k => { k with eng := { k.eng with mstFar := true } } else s
  let left := (s.clAt clu).lease.left - 1
  let s := s.updCl clu fun k => { k with
    array := k.array ++ [c], lease := { k.lease with left, lastCmd := s.time } }
  if left = 0 then s.endLease clu else s

/-- What a matrix command does at issue: it is done, with a scalar result; it waits; it is held at issue, since the array
accepts nothing; or it traps. -/
inductive MatRes where
  | done (s : State) (v : Option Word)
  | wait (s : State) (k : WaitKind) (n : Nat)
  | held (s : State)
  | trap (s : State) (cause : Nat) (val : Word)

/-- `mlease` (R241): whether the context holds the lease now, and the state with its request made. -/
def State.leaseReq (s : State) (win : Nat) : Bool × State :=
  if s.holdsLease win then (true, s)
  else
    let pos := posOf s.focus
    let s := s.updCl s.cl fun k => { k with lease := { k.lease with
      reqs := k.lease.reqs.filter (fun r => r.1 ≠ pos) ++ [(pos, win)] } }
    let s := s.grantLease s.cl
    (s.holdsLease win, s)

/-- `mrel` (R241). -/
def State.leaseRel (s : State) (win : Nat) : State :=
  let mine := match (s.clAt s.cl).lease.holder with
    | some h => decide (h.1 = posOf s.focus) && (decide (h.2 = win) || s.core.sup)
    | none => false
  if mine then s.endLease s.cl else s

/-- `mclaim` (R249). -/
def State.claimSlot (s : State) (win d : Nat) : Word × State :=
  let a := s.acc s.cl d
  if !a.orphan then (neg 1, s)
  else if a.vf = s.core.vf ∧ a.vcore = s.vcore ∧ a.win = win then
    (0, s.updAcc s.cl d fun a => { a with orphan := false })
  else if s.core.sup ∧ a.vf = s.core.vf then
    (0, s.updAcc s.cl d fun a => { a with orphan := false, vcore := s.vcore, win := s.core.trap.tfrom })
  else (neg 2, s)

/-- The issuing core has a matrix command that is not complete. -/
def State.matPending (s : State) : Bool := (s.clAt s.cl).array.any fun c => c.core = s.focus

/-- The array accepts no command until an `mrot` it holds completes (R244). -/
def State.rotPending (s : State) : Bool := (s.clAt s.cl).array.any fun c => c.op = .rot

/-- A checked command is sent where the array accepts it. -/
def State.matAccept (s : State) (win : Nat) (op : MatOp) (ea : Word) : MatRes :=
  if s.rotPending then .held s else .done (s.matSend win op ea) none

/-- `macc` in the issuing core: it waits for the granules of its tile (R247), and is then sent. -/
def State.accIssue (s : State) (win d : Nat) (ea : Word) : MatRes :=
  let n := (s.matBytes (.acc d 0)).getD 0
  let off := ea.bits 0 23
  if n = 0 then s.matAccept win (.acc d 0) ea
  else
    let s := s.drained
    if s.allFull s.cl off n then
      if s.rotPending then .held s else (s.acquire false).matAccept win (.acc d 0) ea
    else
      match s.asyncFault s.cl off n with
      | some v => .trap s 13 v
      | none => .wait s .macc n

/-- The time that a core's context spent in a wait of `macc` or `mwait` is not counted against its lease (R237). -/
def State.leaseResume (s : State) : State :=
  let l := (s.clAt s.cl).lease
  match l.paused.filter fun _ => l.holder.any fun h => h.1 = posOf s.focus with
  | some t => s.updCl s.cl fun k => { k with lease := { k.lease with lastCmd := k.lease.lastCmd + (s.time - t), paused := none } }
  | none => s

/-- The holder of the lease stands in a wait of `macc` or `mwait` from now on. -/
def State.leasePause (s : State) (win : Nat) : State :=
  if s.holdsLease win then s.updCl s.cl fun k => { k with lease := { k.lease with paused := some s.time } } else s

/-- A matrix command issued by a window of the core, with its address (R238 to R249). -/
def State.matDo (s : State) (win : Nat) (op : MatOp) (ea : Word) : MatRes :=
  match op with
  | .lease => let (ok, s) := s.leaseReq win; if ok then .done s none else .wait s .mlease 0
  | .rel => .done (s.leaseRel win) none
  | .wait _ d =>
    if s.matPending then .wait s .mwait 0
    else
      let far := s.core.eng.mstFar
      let s := (s.acquire far).updCore fun k => { k with eng := { k.eng with mstFar := false } }
      .done s (some (s.accWord s.cl d))
  | .claim _ d => let (v, s) := s.claimSlot win d; .done s (some v)
  | .stat _ d => .done s (some (s.accWord s.cl d))
  | op =>
    match s.matCheck win op ea with
    | (some t, s) => .trap s t.1 t.2
    | (none, s) =>
      match op with
      | .acc d _ => s.accIssue win d ea
      | op => s.matAccept win op ea

/-- The scalar name a command writes. -/
def matDest : MatOp → Nat
  | .wait a _ | .claim a _ | .stat a _ => a
  | _ => 0

/-- The scalar name of a command's address. -/
def matSrc : MatOp → Nat
  | .bload a | .mac _ a | .st _ a | .ld _ a | .acc _ a => a
  | _ => 0

/-- The failed work that a `macc` in its wait depends on (R346). -/
def State.maccWork (s : State) (op : MatOp) : Option (Nat × Nat) :=
  match op with
  | .acc _ a =>
    let n := (s.matBytes op).getD 0
    let off := (s.core.x a).bits 0 23
    if s.core.inWait .macc ∧ !s.allFull s.cl off n then s.asyncWork s.cl off n else none
  | _ => none

/-- A matrix instruction of len bytes (R238): an error response that reached a waiting `macc` is reported first (R247). -/
def State.matrix (len : Nat) (op : MatOp) (stl : Nat) (s : State) : Out :=
  let macc := match op with | .acc _ _ => true | _ => false
  s.issue { xs := op.xs, xd := op.xd, own := macc } fun s =>
    let s := s.leaseResume
    State.async (if s.tripFault.isSome then s.maccWork op else none) (s := s) fun s =>
    match (if s.core.inWait .macc then s.core.feErr else none) with
    | some a => s.feReport a
    | none =>
      let s := s.updCore fun c => { c with feErr := none }
      let ea := s.core.x (matSrc op)
      match s.matDo s.core.cur op ea with
      | .trap s c v => s.trap c v
      | .wait s k n => (if k = .mlease then s else s.leasePause s.core.cur).waiting k 0 ea n
      | .held s => s.heldBack
      | .done s none => s.retire len stl
      | .done s (some v) => (s.updCore fun c => c.setXVar (matDest op) v).retire len stl

/-- `mlease` (R241). -/
def execMlease (stl : Nat) (s : State) : Out := s.matrix 4 .lease stl

/-- `mrel` (R241). -/
def execMrel (stl : Nat) (s : State) : Out := s.matrix 4 .rel stl

/-- `mbload` (R242). -/
def execMbload (a stl : Nat) (s : State) : Out := s.matrix 4 (.bload a) stl

/-- `mmac` (R243). -/
def execMmac (d a stl : Nat) (s : State) : Out := s.matrix 4 (.mac d a) stl

/-- `mrot` (R244). -/
def execMrot (stl : Nat) (s : State) : Out := s.matrix 4 .rot stl

/-- `mzero` (R245). -/
def execMzero (d stl : Nat) (s : State) : Out := s.matrix 4 (.zero d) stl

/-- `mst` (R246). -/
def execMst (d a stl : Nat) (s : State) : Out := s.matrix 4 (.st d a) stl

/-- `mld` (R245). -/
def execMld (d a stl : Nat) (s : State) : Out := s.matrix 4 (.ld d a) stl

/-- `macc` (R247). -/
def execMacc (d a stl : Nat) (s : State) : Out := s.matrix 4 (.acc d a) stl

/-- `mwait` (R248). -/
def execMwait (d a stl : Nat) (s : State) : Out := s.matrix 4 (.wait a d) stl

/-- `mclaim` (R249). -/
def execMclaim (d a stl : Nat) (s : State) : Out := s.matrix 4 (.claim a d) stl

/-- `mstat` (R248). -/
def execMstat (d a stl : Nat) (s : State) : Out := s.matrix 4 (.stat a d) stl

/-- The array starts its next command (R232, R240). -/
def execMatrixCommandStart (die cl : Nat) (s : State) : Out := .next (s.cmdStart (64 * die + cl))

/-- The array completes its command (R240). -/
def execMatrixCommandComplete (die cl : Nat) (s : State) : Out := .next (s.cmdComplete (64 * die + cl))

/-- A rotated tile arrives in a cluster's incoming buffer (R244). -/
def execRotationTileArrival (die cl : Nat) (s : State) : Out := .next (s.tileArrival (64 * die + cl))

/-- A lease whose holder has sent no command for 4,096 arithmetic cycles ends where another core waits (R237). -/
def execLeaseIdleTimeout (die cl : Nat) (s : State) : Out :=
  let clu := 64 * die + cl
  let l := (s.clAt clu).lease
  match l.holder with
  | none => .next s
  | some h =>
    if (l.reqs.any fun r => r.1 ≠ h.1) ∧ l.paused.isNone ∧ l.lastCmd + 4096 ≤ s.time then .next (s.endLease clu) else .next s

end Sys2Proof.Machine
end

