-- ==== Sys2Proof/Machine/Integer.lean ====
section
/-! DEFINITION. Scalar integer instructions: majors 0x00 to 0x0B (R147 to R151). -/
namespace Sys2Proof.Machine

/-! The results. -/

/-- Leading zero bits of the low w bits of n. -/
def clzN (w n : Nat) : Nat := w - bitLen (n % 2 ^ w)

/-- Trailing zero bits of the low w bits of n, w for zero. -/
def ctzN : Nat → Nat → Nat
  | 0, _ => 0
  | w + 1, n => if n % 2 = 1 then 0 else 1 + ctzN w (n / 2)

/-- One bits of the low w bits of n. -/
def popN : Nat → Nat → Nat
  | 0, _ => 0
  | w + 1, n => n % 2 + popN w (n / 2)

/-- The bytes of a word in reverse order (R147). -/
def bswapW (a : Word) : Word := word (natOf (bytesOf a.toNat 8).reverse)

/-- Rotations by b[5:0] (R147). -/
def rotlW (a b : Word) : Word := a.rotateLeft (b.toNat % 64)
def rotrW (a b : Word) : Word := a.rotateRight (b.toNat % 64)

/-- The high 64 bits of the signed product, and of the unsigned product. -/
def mulhW (a b : Word) : Word := wordI (a.toInt * b.toInt / 2 ^ 64)
def mulhnW (a b : Word) : Word := word (a.toNat * b.toNat / 2 ^ 64)

/-- Signed quotient and remainder, truncated towards zero; −2^63 / −1 is −2^63 with remainder 0 (R148). -/
def divW (a b : Word) : Word := wordI (a.toInt.tdiv b.toInt)
def remW (a b : Word) : Word := wordI (a.toInt.tmod b.toInt)

/-- A comparison's result. -/
def flagW (b : Bool) : Word := if b then 1 else 0

/-- Replace bits [lo + 15, lo] of a word. -/
def setHalf (a : Word) (lo : Nat) (imm : BitVec 16) : Word :=
  (a &&& ~~~(0xFFFF#64 <<< lo)) ||| ((imm.setWidth 64) <<< lo)

/-! The shapes. -/

/-- X(D) := f (X(A), X(B)) with latency lat (R134, R147). -/
def State.binX (lat : Nat) (f : Word → Word → Word) (d a b stl : Nat) (s : State) : Out :=
  s.issue { xs := [a, b], xd := [d], gate := false } fun s =>
    (s.updCore fun c => let v := f (c.x a) (c.x b); if lat = 1 then c.setX d v else c.setXIn lat d v).retire 4 stl

/-- X(D) := f (X(A)) with latency 1 (R147, R149, R150). -/
def State.unX (f : Word → Word) (d a stl : Nat) (s : State) : Out :=
  s.issue { xs := [a], xd := [d], gate := false } fun s =>
    (s.updCore fun c => c.setX d (f (c.x a))).retire 4 stl

/-- A division (R148): DIVZ for a zero divisor; a variable-latency result. -/
def State.divX (f : Word → Word → Word) (d a b stl : Nat) (s : State) : Out :=
  s.issue { xs := [a, b], xd := [d], gate := false } fun s =>
    if s.core.x b = 0 then s.trap 7 0
    else (s.updCore fun c => c.setXVar d (f (c.x a) (c.x b))).retire 4 stl

/-- X(D) := f (X(D)), for `lmid` and `ltop` (R151). -/
def State.keepX (f : Word → Word) (d stl : Nat) (s : State) : Out :=
  s.issue { xs := [d], xd := [d], gate := false } fun s =>
    (s.updCore fun c => c.setX d (f (c.x d))).retire 4 stl

/-! The instructions. -/

/-- `add` (R147). -/
def execAdd (d a b stl : Nat) (s : State) : Out := s.binX 1 (fun a b => a + b) d a b stl

/-- `sub` (R147). -/
def execSub (d a b stl : Nat) (s : State) : Out := s.binX 1 (fun a b => a - b) d a b stl

/-- `and` (R147). -/
def execAnd (d a b stl : Nat) (s : State) : Out := s.binX 1 (fun a b => a &&& b) d a b stl

/-- `or` (R147). -/
def execOr (d a b stl : Nat) (s : State) : Out := s.binX 1 (fun a b => a ||| b) d a b stl

/-- `xor` (R147). -/
def execXor (d a b stl : Nat) (s : State) : Out := s.binX 1 (fun a b => a ^^^ b) d a b stl

/-- `andn` (R147). -/
def execAndn (d a b stl : Nat) (s : State) : Out := s.binX 1 (fun a b => a &&& ~~~b) d a b stl

/-- `sll` (R147). -/
def execSll (d a b stl : Nat) (s : State) : Out := s.binX 1 (fun a b => a <<< (b.toNat % 64)) d a b stl

/-- `srl` (R147). -/
def execSrl (d a b stl : Nat) (s : State) : Out := s.binX 1 (fun a b => a >>> (b.toNat % 64)) d a b stl

/-- `sra` (R147). -/
def execSra (d a b stl : Nat) (s : State) : Out := s.binX 1 (fun a b => a.sshiftRight (b.toNat % 64)) d a b stl

/-- `slt` (R147). -/
def execSlt (d a b stl : Nat) (s : State) : Out := s.binX 1 (fun a b => flagW (a.slt b)) d a b stl

/-- `sltu` (R147). -/
def execSltu (d a b stl : Nat) (s : State) : Out := s.binX 1 (fun a b => flagW (a.ult b)) d a b stl

/-- `seq` (R147). -/
def execSeq (d a b stl : Nat) (s : State) : Out := s.binX 1 (fun a b => flagW (a == b)) d a b stl

/-- `min` (R147). -/
def execMin (d a b stl : Nat) (s : State) : Out := s.binX 1 (fun a b => if a.slt b then a else b) d a b stl

/-- `max` (R147). -/
def execMax (d a b stl : Nat) (s : State) : Out := s.binX 1 (fun a b => if a.slt b then b else a) d a b stl

/-- `minn` (R147). -/
def execMinn (d a b stl : Nat) (s : State) : Out := s.binX 1 (fun a b => if a.ult b then a else b) d a b stl

/-- `maxn` (R147). -/
def execMaxn (d a b stl : Nat) (s : State) : Out := s.binX 1 (fun a b => if a.ult b then b else a) d a b stl

/-- `mul` (R147). -/
def execMul (d a b stl : Nat) (s : State) : Out := s.binX 2 (fun a b => a * b) d a b stl

/-- `mulh` (R147). -/
def execMulh (d a b stl : Nat) (s : State) : Out := s.binX 2 (fun a b => mulhW a b) d a b stl

/-- `mulhn` (R147). -/
def execMulhn (d a b stl : Nat) (s : State) : Out := s.binX 2 (fun a b => mulhnW a b) d a b stl

/-- `rotl` (R147). -/
def execRotl (d a b stl : Nat) (s : State) : Out := s.binX 1 (fun a b => rotlW a b) d a b stl

/-- `rotr` (R147). -/
def execRotr (d a b stl : Nat) (s : State) : Out := s.binX 1 (fun a b => rotrW a b) d a b stl

/-- `div` (R148). -/
def execDiv (d a b stl : Nat) (s : State) : Out := s.divX (fun a b => divW a b) d a b stl

/-- `divn` (R148). -/
def execDivn (d a b stl : Nat) (s : State) : Out := s.divX (fun a b => word (a.toNat / b.toNat)) d a b stl

/-- `rem` (R148). -/
def execRem (d a b stl : Nat) (s : State) : Out := s.divX (fun a b => remW a b) d a b stl

/-- `remn` (R148). -/
def execRemn (d a b stl : Nat) (s : State) : Out := s.divX (fun a b => word (a.toNat % b.toNat)) d a b stl

/-- `clz` (R147). -/
def execClz (d a stl : Nat) (s : State) : Out := s.unX (fun a => word (clzN 64 a.toNat)) d a stl

/-- `ctz` (R147). -/
def execCtz (d a stl : Nat) (s : State) : Out := s.unX (fun a => word (ctzN 64 a.toNat)) d a stl

/-- `popc` (R147). -/
def execPopc (d a stl : Nat) (s : State) : Out := s.unX (fun a => word (popN 64 a.toNat)) d a stl

/-- `bswap` (R147). -/
def execBswap (d a stl : Nat) (s : State) : Out := s.unX (fun a => bswapW a) d a stl

/-- `sextw` (R147). -/
def execSextw (d a stl : Nat) (s : State) : Out := s.unX (fun a => (a.setWidth 32).signExtend 64) d a stl

/-- `zextw` (R147). -/
def execZextw (d a stl : Nat) (s : State) : Out := s.unX (fun a => (a.setWidth 32).setWidth 64) d a stl

/-- `addi` (R149). -/
def execAddi (d a : Nat) (imm : BitVec 10) (stl : Nat) (s : State) : Out :=
  let i := imm.signExtend 64
  s.unX (fun a => a + i) d a stl

/-- `andi` (R149). -/
def execAndi (d a : Nat) (imm : BitVec 10) (stl : Nat) (s : State) : Out :=
  let i := imm.signExtend 64
  s.unX (fun a => a &&& i) d a stl

/-- `ori` (R149). -/
def execOri (d a : Nat) (imm : BitVec 10) (stl : Nat) (s : State) : Out :=
  let i := imm.signExtend 64
  s.unX (fun a => a ||| i) d a stl

/-- `xori` (R149). -/
def execXori (d a : Nat) (imm : BitVec 10) (stl : Nat) (s : State) : Out :=
  let i := imm.signExtend 64
  s.unX (fun a => a ^^^ i) d a stl

/-- `slti` (R149). -/
def execSlti (d a : Nat) (imm : BitVec 10) (stl : Nat) (s : State) : Out :=
  let i := imm.signExtend 64
  s.unX (fun a => flagW (a.slt i)) d a stl

/-- `sltni` (R149). -/
def execSltni (d a : Nat) (imm : BitVec 10) (stl : Nat) (s : State) : Out :=
  let i := imm.signExtend 64
  s.unX (fun a => flagW (a.ult i)) d a stl

/-- `slli` (R150). -/
def execSlli (d a : Nat) (amt : BitVec 6) (stl : Nat) (s : State) : Out := s.unX (fun a => a <<< amt.toNat) d a stl

/-- `srli` (R150). -/
def execSrli (d a : Nat) (amt : BitVec 6) (stl : Nat) (s : State) : Out := s.unX (fun a => a >>> amt.toNat) d a stl

/-- `srai` (R150). -/
def execSrai (d a : Nat) (amt : BitVec 6) (stl : Nat) (s : State) : Out := s.unX (fun a => a.sshiftRight amt.toNat) d a stl

/-- `rotli` (R150). -/
def execRotli (d a : Nat) (amt : BitVec 6) (stl : Nat) (s : State) : Out := s.unX (fun a => rotlW a (amt.setWidth 64)) d a stl

/-- `lui` (R151). -/
def execLui (d : Nat) (imm : BitVec 16) (stl : Nat) (s : State) : Out :=
  s.unX (fun _ => ((imm.setWidth 32) <<< 16).signExtend 64) d 0 stl

/-- `lmid` (R151). -/
def execLmid (d : Nat) (imm : BitVec 16) (stl : Nat) (s : State) : Out := s.keepX (fun a => setHalf a 32 imm) d stl

/-- `ltop` (R151). -/
def execLtop (d : Nat) (imm : BitVec 16) (stl : Nat) (s : State) : Out := s.keepX (fun a => setHalf a 48 imm) d stl

end Sys2Proof.Machine
end

