-- ==== Sys2Proof/Machine/Vector.lean ====
section
/-! DEFINITION. Vector arithmetic: lanes and predicates (R199, R203), lane operations (R205, R206), the unary major and
the reductions (R208 to R211), conversions (R212 to R214), vector and scalar (R215), and the operands a vector word
reads, streams among them (R122, R200). -/
namespace Sys2Proof.Machine

/-! Lanes. -/

/-- The lanes of width w of a vector (R199). -/
def lanesOf (w : Nat) (v : BitVec 512) : List Nat := (List.range (512 / w)).map fun i => fld v.toNat (w * i) w

/-- The number whose w-bit lanes these are, lane 0 lowest. -/
def joinLanes (w : Nat) (ls : List Nat) : Nat := ls.foldr (fun x acc => x % 2 ^ w + 2 ^ w * acc) 0

/-- The vector whose w-bit lanes these are. -/
def vecLanes (w : Nat) (ls : List Nat) : BitVec 512 := BitVec.ofNat 512 (joinLanes w ls)

/-- The number of active lanes of L: a count of the predicate slot (R203). -/
def activeCount (pm : Nat) (pred : Word) (L : Nat) : Nat := if pm = 0 then L else Nat.min L pred.toNat

/-- The first n lanes new; the others kept, or zero under Z (R203). -/
def mergeLanes (n : Nat) (z : Bool) (new old : List Nat) : List Nat :=
  new.take n ++ (if z then (old.drop n).map fun _ => 0 else old.drop n)

/-! One lane. -/

/-- The format of a floating-point lane type. -/
def laneFmt (ty : LaneTy) : Fmt := Fmt.ofTy ty.ty

/-- A lane of an integer type as an integer: n32 unsigned, the others signed (R180). -/
def laneInt (ty : LaneTy) (x : Nat) : Int := if ty = .n32 then (x % 2 ^ ty.width : Nat) else sext x ty.width

/-- All ones or zero (R205). -/
def laneMask (w : Nat) (b : Bool) : Nat := if b then 2 ^ w - 1 else 0

/-- FN 8 to 13 on bit patterns (R205). -/
def laneBits (op : LaneOp) (w a b : Nat) : Nat :=
  let k := b % w
  match op with
  | .and => a &&& b
  | .or => a ||| b
  | .xor => a ^^^ b
  | .shl => a * 2 ^ k % 2 ^ w
  | .shr => a / 2 ^ k
  | _ => intBits w (sext a w / 2 ^ k)

/-- A lane operation on an integer type (R205). -/
def laneOpI (ty : LaneTy) (op : LaneOp) (a b c : Nat) : Nat :=
  let w := ty.width
  let x := laneInt ty a
  let y := laneInt ty b
  match op with
  | .add => intBits w (x + y)
  | .sub => intBits w (x - y)
  | .mul => intBits w (x * y)
  | .mac => intBits w (laneInt ty c + x * y)
  | .min | .minp => if x ≤ y then a else b
  | .max | .maxp => if x ≤ y then b else a
  | .clt => laneMask w (decide (x < y))
  | .ceq => laneMask w (decide (x = y))
  | _ => laneBits op w a b

/-- A lane operation on a floating-point type (R205, R206). -/
def laneOpF (f : Fmt) (op : LaneOp) (rm a b c : Nat) : FRes :=
  match op with
  | .add => f.add rm a b
  | .sub => f.sub rm a b
  | .mul => f.mul rm a b
  | .mac => f.mac rm c a b
  | .min => f.minMax false false a b
  | .max => f.minMax true false a b
  | .minp => f.minMax false true a b
  | .maxp => f.minMax true true a b
  | .clt => let r := f.lt a b; (laneMask f.width r.1, r.2)
  | .ceq => let r := f.eq a b; (laneMask f.width r.1, r.2)
  | _ => (laneBits op f.width a b, 0)

/-- A lane operation (R205): a, b and the addend c. -/
def laneOp (ty : LaneTy) (op : LaneOp) (rm a b c : Nat) : FRes :=
  if ty.isFloat then laneOpF (laneFmt ty) op rm a b c else (laneOpI ty op a b c, 0)

/-- A unary operation on a lane (R208, R209). -/
def laneUn (op : UnOp) (ty : LaneTy) (rm a : Nat) : FRes :=
  let w := ty.width
  let f := laneFmt ty
  match op with
  | .neg => (if ty.isFloat then f.neg a else intBits w (-laneInt ty a), 0)
  | .abs => (if ty.isFloat then a % f.signBit else intBits w (laneInt ty a).natAbs, 0)
  | .not => (2 ^ w - 1 - a, 0)
  | .rcp => f.rcp rm a
  | .rsqrt => f.rsqrt rm a
  | .sqrt => f.sqrt rm a
  | .exp2 => f.exp2 rm a
  | .log2 => f.log2 rm a
  | .tanh => f.tanh rm a
  | .sigm => f.sigm rm a
  | .rnd => f.rnd rm a
  | .clz => (clzN w a, 0)
  | .popc => (popN w a, 0)
  | .cls => (f.classify a, 0)
  | _ => (a, 0)

/-- Apply an operation to the first n lanes of inputs, ORing the flags (R202). -/
def mapFlags {α : Type} (f : α → FRes) (n : Nat) (xs : List α) : List Nat × Flags :=
  let rs := (xs.take n).map f
  (rs.map (·.1), rs.foldl (fun g r => g ||| r.2) 0)

/-! Reductions (R210). -/

/-- comb of two lanes, either of which may be absent. -/
def reduceComb (comb : Nat → Nat → FRes) : Option Nat → Option Nat → Option Nat × Flags
  | some x, some y => let r := comb x y; (some r.1, r.2)
  | some x, none => (some x, 0)
  | none, y => (y, 0)

/-- The tree: each level combines lane i with lane i + h. -/
def reduceTree (comb : Nat → Nat → FRes) : Nat → List (Option Nat) × Flags → List (Option Nat) × Flags
  | 0, p => p
  | n + 1, (ts, fl) =>
    let h := ts.length / 2
    let rs := ((ts.take h).zip (ts.drop h)).map fun e => reduceComb comb e.1 e.2
    reduceTree comb n (rs.map (·.1), rs.foldl (fun g r => g ||| r.2) fl)

/-- The identity of a reduction (R210). -/
def reduceId (op : UnOp) (ty : LaneTy) : Nat :=
  let w := ty.width
  match op with
  | .sumr => 0
  | .maxr => if ty.isFloat then (laneFmt ty).signed true (laneFmt ty).infMag else if ty = .n32 then 0 else 2 ^ (w - 1)
  | _ => if ty.isFloat then (laneFmt ty).infMag else if ty = .n32 then 2 ^ w - 1 else 2 ^ (w - 1) - 1

/-- A reduction of the first n lanes (R210). -/
def reduceLanes (op : UnOp) (ty : LaneTy) (rm n : Nat) (xs : List Nat) : FRes :=
  let comb := laneOp ty (match op with | .sumr => .add | .maxr => .max | _ => .min) rm
  let ts := xs.zipIdx.map fun e => if e.2 < n then some e.1 else none
  let r := reduceTree (fun x y => comb x y 0) (bitLen xs.length - 1) (ts, 0)
  match r.1 with
  | some x :: _ => (x, r.2)
  | _ => (reduceId op ty, r.2)

/-! The shared scale (R184, R211). -/

/-- emax of the element format of `cr.fmta`[3:0] (R184, R211). -/
def emaxOf : Nat → Option Nat
  | 4 => some 8 | 5 => some 15 | 6 => some 4 | 7 => some 2 | 8 => some 2 | 9 => some 0
  | _ => none

/-- ⌊log₂⌋ of a non-zero magnitude. -/
def floorLog (v : FVal) : Option Int :=
  match v with
  | .num _ m e => if m = 0 then none else some ((bitLen m : Int) - 1 + e)
  | _ => none

/-- The shared scale of values (R184). -/
def sharedScale (emax : Nat) (vs : List FVal) : Nat :=
  if vs.any fun v => match v with | .num _ _ _ => false | _ => true then 0xFF
  else
    match vs.foldl (fun (m : Option Int) v => match m, floorLog v with
      | some a, some b => some (max a b)
      | none, b => b
      | a, none => a) none with
    | none => 0
    | some x => (min (max (x - emax) (-127)) 127 + 127).toNat

/-- `vmxs` (R211); a signalling NaN in the block sets no flag (log 80). -/
def vmxsByte (fmt : Nat) (ty : LaneTy) (vs : List Nat) : FRes :=
  match emaxOf fmt with
  | none => (0xFF, fNV)
  | some e => (sharedScale e (vs.map (laneFmt ty).decode), 0)

/-! Conversions (R212 to R214). -/

/-- Unsigned element types. -/
def tyUnsigned : Ty → Bool
  | .n32 | .n16 | .n8 => true
  | _ => false

/-- An element of an integer type as an integer. -/
def tyInt (ty : Ty) (x : Nat) : Int := if tyUnsigned ty then (x % 2 ^ ty.width : Nat) else sext x ty.width

/-- Convert one element (R214). -/
def cvtElem (sty dty : Ty) (rm : Nat) (sat : Bool) (x : Nat) : FRes :=
  let w := dty.width
  if sty.isFloat then
    if dty.isFloat then (Fmt.ofTy sty).cvt (Fmt.ofTy dty) rm sat x
    else
      let r := (Fmt.ofTy sty).toInt rm sat (!tyUnsigned dty) w x
      (intBits w r.1, r.2)
  else
    let i := tyInt sty x
    if dty.isFloat then (Fmt.ofTy dty).ofInt rm sat i
    else
      let lo := intMin (!tyUnsigned dty) w
      let hi := intMax (!tyUnsigned dty) w
      if sat ∧ sty.width ≥ w ∧ (i < lo ∨ hi < i) then (intBits w (if i < lo then lo else hi), fSAT ||| fNX)
      else (intBits w i, 0)

/-- The number of elements a conversion converts (R213). -/
def cvtCount (sty dty : Ty) : Nat := 512 / Nat.max sty.width dty.width

/-- A conversion of a vector (R213): n of its elements are active. -/
def cvtVec (sty dty : Ty) (mode rm n : Nat) (z : Bool) (a old : BitVec 512) : BitVec 512 × Flags :=
  let k := cvtCount sty dty
  let ratio2 := decide (sty.width ≠ dty.width)
  let narrow := decide (dty.width < sty.width)
  let sat := decide (mode = 1) || (narrow && decide (2 ≤ mode))
  let lo := if ratio2 ∧ !narrow ∧ mode = 3 then 256 else 0
  let xs := (List.range k).map fun i => fld a.toNat (lo + sty.width * i) sty.width
  let (rs, fl) := mapFlags (cvtElem sty dty rm sat) n xs
  let w := dty.width
  if !narrow then
    let os := (List.range k).map fun i => fld old.toNat (w * i) w
    (vecLanes w (mergeLanes n z rs os), fl)
  else
    let at_ := if mode = 3 then 256 else 0
    let os := (List.range k).map fun i => fld old.toNat (at_ + w * i) w
    let half := joinLanes w (mergeLanes n z rs os)
    let keep := fld old.toNat (256 - at_) 256
    (BitVec.ofNat 512 (half * 2 ^ at_ + if 2 ≤ mode then keep * 2 ^ (256 - at_) else 0), fl)

/-! The operands of a vector word. -/

/-- A vector word's context: its window-table entry, that window as it resolves names, the scalar values, the vector
sources, and what its address offset gains (R200, R223, R224). -/
structure VEnv where
  widx : Nat
  win : Win
  x : Nat → Word
  v : Nat → BitVec 512
  old : Nat → BitVec 512
  off : Word := 0

/-- The vector names a word reads as sources (R122, R205 to R220). -/
def vSrcs (p : Pfx) : VOp → List Nat
  | .lane _ op _ a b => [a, b] ++ (if op = .mac ∧ p.cv then [p.c] else [])
  | .un op ty _ a => if op = .mxs ∧ ty = .f32 then [a, a + 1] else [a]
  | .cvt _ _ _ _ a => [a]
  | .ext _ _ a _ => [a]
  | .st _ d _ _ => [d]
  | .ldg _ _ _ => [p.c]
  | .sts d _ _ => [d, p.c]
  | .swap d => names16 d
  | _ => []

/-- `vmac` without C reads V(D) as a source (R207). -/
def vSrcs' (p : Pfx) (op : VOp) : List Nat :=
  vSrcs p op ++ (match op with
    | .lane _ .mac d _ _ => if p.cv then [] else [d]
    | _ => [])

/-- The vector a name gives as a source: the next word of its stream (R122), or what its slots hold. -/
def Core.source (c : Core) (bs : List (Nat × Nat)) (v : Nat → BitVec 512) (n : Nat) : BitVec 512 :=
  match bs.find? (·.1 = n) with
  | some b => c.nextWord b.2
  | none => v n

/-- The context of a word issued in the current window, its sources read, those of the streams bs among them. -/
def Core.venv (c : Core) (bs : List (Nat × Nat)) : VEnv :=
  { widx := c.cur, win := c.curWin, x := c.x, old := c.vec, v := c.source bs c.vec }

/-! Calculating. -/

/-- The result of a calculating word: its cost (R228), flags, and the offsets and values it writes. -/
structure VRes where
  cost : Nat
  flags : Flags
  vals : List (Nat × Word)

/-- The cost of a unary operation (R228). -/
def unCost (op : UnOp) (ty : LaneTy) : Nat :=
  match op with
  | .rcp | .rsqrt | .sqrt | .exp2 | .log2 | .tanh | .sigm => if ty = .f64 then 8 else 4
  | .sumr | .maxr | .minr => if ty = .f64 then 8 else 4
  | .mxs => 4
  | _ => 1

/-- The rounding mode of a word: the prefix's RM, or `cr.frm` (R21, R206). -/
def rmOf (p : Pfx) (frm : Nat) : Nat := if p.rm = 0 then frm else p.rm

/-- A lane operation's result. -/
def calcLane (p : Pfx) (rm : Nat) (e : VEnv) (ty : LaneTy) (op : LaneOp) (d a b : Nat) : VRes :=
  let w := ty.width
  let n := activeCount p.pm (e.x (55 + p.pm)) (512 / w)
  let cs := if op = .mac then lanesOf w (e.v (if p.cv then p.c else d)) else List.replicate (512 / w) 0
  let ins := (lanesOf w (e.v a)).zip ((lanesOf w (e.v b)).zip cs)
  let (rs, fl) := mapFlags (fun i => laneOp ty op rm i.1 i.2.1 i.2.2) n ins
  { cost := if ty = .f64 ∧ (op = .mul ∨ op = .mac) then 2 else 1, flags := fl
    vals := resV e.win d (vecLanes w (mergeLanes n p.z rs (lanesOf w (e.old d)))) }

/-- A unary operation's result. -/
def calcUn (p : Pfx) (rm fmt : Nat) (e : VEnv) (op : UnOp) (ty : LaneTy) (d a : Nat) : VRes :=
  let w := ty.width
  let L := 512 / w
  let n := activeCount p.pm (e.x (55 + p.pm)) L
  let xs := lanesOf w (e.v a)
  let r : BitVec 512 × Flags :=
    match op with
    | .sumr | .maxr | .minr => let r := reduceLanes op ty rm n xs; (BitVec.ofNat 512 r.1, r.2)
    | .mxs =>
      let r := vmxsByte fmt ty (if ty = .f32 then xs ++ lanesOf w (e.v (a + 1)) else xs)
      (BitVec.ofNat 512 r.1, r.2)
    | _ =>
      let (rs, fl) := mapFlags (laneUn op ty rm) n (if op = .rev then xs.reverse else xs)
      (vecLanes w (mergeLanes n p.z rs (lanesOf w (e.old d))), fl)
  { cost := unCost op ty, flags := r.2, vals := resV e.win d r.1 }

/-- A splat's result: lane i is (X(A) + i·step) mod 2^w (R215). -/
def calcSplat (p : Pfx) (e : VEnv) (ty : LaneTy) (step d a : Nat) : VRes :=
  let w := ty.width
  let L := 512 / w
  let n := activeCount p.pm (e.x (55 + p.pm)) L
  let rs := (List.range L).map fun i => ((e.x a).toNat + step * i) % 2 ^ w
  { cost := 1, flags := 0, vals := resV e.win d (vecLanes w (mergeLanes n p.z rs (lanesOf w (e.old d)))) }

/-- Replace bits [lo + w − 1, lo] of a vector. -/
def setBits (v : BitVec 512) (lo w x : Nat) : BitVec 512 :=
  BitVec.ofNat 512 (v.toNat - fld v.toNat lo w * 2 ^ lo + x % 2 ^ w * 2 ^ lo)

/-- The result of a calculating word; none for memory, exchange and matrix words. -/
def calcV (p : Pfx) (frm fmt : Nat) (e : VEnv) (op : VOp) : Option VRes :=
  let rm := rmOf p frm
  match op with
  | .lane ty op d a b => some (calcLane p rm e ty op d a b)
  | .un op ty d a => some (calcUn p rm fmt e op ty d a)
  | .cvt sty mode dty d a =>
    let n := activeCount p.pm (e.x (55 + p.pm)) (cvtCount sty dty)
    let (r, fl) := cvtVec sty dty mode rm n p.z (e.v a) (e.old d)
    some { cost := 1, flags := fl, vals := resV e.win d r }
  | .bcast ty d a => some (calcSplat p e ty 0 d a)
  | .idx ty d a => some (calcSplat p e ty 1 d a)
  | .pred ty d a => some { cost := 0, flags := 0, vals := resX d (word (Nat.min (e.x a).toNat (512 / ty.width))) }
  | .ext dbl d a k =>
    let w := if dbl then 64 else 32
    some { cost := 1, flags := 0, vals := resX d (wordI (sext (fld (e.v a).toNat (w * k) w) w)) }
  | .ins dbl d a k =>
    let w := if dbl then 64 else 32
    some { cost := 1, flags := 0, vals := resV e.win d (setBits (e.old d) (w * k) w (e.x a).toNat) }
  | _ => none

/-- Enter a calculated result in the vector queue; one of cost 0 is a scalar result in flight (R200, R215). -/
def Core.enterV (c : Core) (i base : Nat) (r : VRes) : Core :=
  if r.cost = 0 then c.writeLaterIn i base .flight r.flags r.vals
  else c.enqueue i base r.cost r.flags r.vals

/-- What a word that takes stream words at the head of the queue keeps until then. -/
def VEnv.late (e : VEnv) (p : Pfx) (op : VOp) (frm fmt : Nat) (bs : List (Nat × Nat)) : Late :=
  { p, op, win := e.win, streams := bs, xs := (op.uses p).xs.map fun n => (n, e.x n)
    vs := (op.uses p).vs.map fun n => (n, e.old n), frm, fmt }

/-- The context of a word at the head of the queue, with the next words of its streams (R122). -/
def Late.env (l : Late) (c : Core) : VEnv :=
  { widx := 0, win := l.win, x := fun n => sget 0 l.xs n, old := fun n => sget 0 l.vs n
    v := c.source l.streams fun n => sget 0 l.vs n }

/-- Issue a calculating word of a context: into the queue, where it may have to wait for stream words (R122, R200). -/
def Core.issueV (c : Core) (e : VEnv) (p : Pfx) (op : VOp) (bs : List (Nat × Nat)) (r : VRes) : Core :=
  if bs = [] then c.enterV e.widx e.win.base r
  else c.enqueue e.widx e.win.base r.cost 0 (r.vals.map fun v => (v.1, 0))
    (some (e.late p op c.fp.frm (fmtCode c.mat.fmta) bs))

/-- The value of the head of the queue, its stream words taken: the pending result it becomes (R122, R132). -/
def Pend.decided (p : Pend) (c : Core) (l : Late) : Pend :=
  match calcV l.p l.frm l.fmt (l.env c) l.op with
  | some r => { p with writes := (p.writes.map (·.1)).zip (r.vals.map (·.2)), flags := r.flags, late := none }
  | none => { p with late := none }

/-- The head of a core's vector queue. -/
def Core.vhead (c : Core) : Option Pend := c.pend.find? Pend.queued

/-- The head of a core's queue waits for a stream word (R122, R339). -/
def Core.headWaits (c : Core) : Bool := c.vhead.any fun p => p.late.any fun l => !c.wordsReady l.streams

/-- Change the head of the queue. -/
def atHead (f : Pend → Pend) : List Pend → List Pend
  | [] => []
  | p :: ps => if p.queued then f p :: ps else p :: atHead f ps

/-- Bind the head of a core's vector queue (R200, R228), which takes its stream words then (R122). -/
def Core.bindHead (c : Core) : Core :=
  match c.vhead.bind (·.late) with
  | none => { c with pend := bindFirst c.pend }
  | some l =>
    { c.takeWords l.streams with pend := bindFirst (atHead (fun p => p.decided c l) c.pend) }

/-- A calculating word (R200 to R215). -/
def State.vcalc (len stl : Nat) (p : Pfx) (op : VOp) (s : State) : Out :=
  s.issue (op.uses p) fun s =>
    let bs := s.core.boundTo s.core.cur (vSrcs' p op)
    let e := s.core.venv bs
    match calcV p s.core.fp.frm (fmtCode s.core.mat.fmta) e op with
    | none => .next s
    | some r => (s.updCore fun c => c.issueV e p op bs r).retire len stl

/-- Every instruction of a core's queue is bound, in order, the Tongs delivering the words it waits for: at most n more. -/
def State.flushV (s : State) (loc : Nat) : Nat → State
  | 0 => s
  | n + 1 =>
    match (s.coreAt loc).vhead with
    | none => s
    | some p =>
      let need := (p.late.map (·.streams)).getD []
      let s := need.foldl (fun s b => match (s.coreAt loc).stream b.2 with
        | some x => if x.ready then s else s.deliver loc b.2
        | none => s) s
      (s.updCoreAt loc Core.bindHead).flushV loc n

end Sys2Proof.Machine
end

