-- ==== Sys2Proof/Machine/VectorMem.lean ====
section
/-! DEFINITION. Vector memory and exchange (R216 to R221). -/
namespace Sys2Proof.Machine

/-- The size of an element in bytes (R216). -/
def vsizeBytes : VSize → Nat
  | .w => 4 | .h => 2 | .b => 1 | .d => 8

/-- The accesses a word makes, in the order of their checks: address, alignment, bytes (R216, R217, R219). -/
def vAccesses (p : Pfx) (e : VEnv) (op : VOp) : List (Word × Nat × Nat) :=
  let pred := e.x (55 + p.pm)
  let off := fun b => e.x b + e.off
  let block := fun (sz : VSize) a b =>
    let n := activeCount p.pm pred (64 / vsizeBytes sz)
    if n = 0 then [] else [(e.x a + off b, 64, n * vsizeBytes sz)]
  let lanes := fun a b => ((lanesOf 32 (e.v p.c)).take (activeCount p.pm pred 16)).map fun o =>
    (e.x a + off b + wordI (sext o 32), 4, 4)
  match op with
  | .ld sz _ a b => block sz a b
  | .st sz _ a b => block sz a b
  | .ldg _ a b => lanes a b
  | .sts _ a b => lanes a b
  | .ldt half _ a b =>
    let n := if half then 32 else 64
    (List.range 16).map fun r => (e.x a + word (r * (off b).toNat), n, n)
  | _ => []

/-- A word that stores. -/
def vStores : VOp → Bool
  | .st .. | .sts .. => true
  | _ => false

/-- Check one access (R38, R217): paths 8 and 9 raise PATH. -/
def State.vlocate (s : State) (a : Access) (ea : Word) (align : Nat) : Except Nat Nat × State :=
  if ea.bits 60 4 = 8 ∨ ea.bits 60 4 = 9 then (.error 9, s) else s.locate a ea align

/-- Check accesses in order, up to the first that fails: the model addresses of those before it, and its cause and
address. -/
def State.vchecks (s : State) (a : Access) : List (Word × Nat × Nat) → List Nat × Option (Nat × Word) × State
  | [] => ([], none, s)
  | (ea, al, _) :: rest =>
    match s.vlocate a ea al with
    | (.error c, s) => ([], some (c, ea), s)
    | (.ok k, s) => let (ks, f, s) := s.vchecks a rest; (k :: ks, f, s)

/-- Read one access as a plain load; an error response gives zero and is logged (R217). -/
def State.vread (s : State) (ea : Word) (k n : Nat) : Bool × List Byte × State :=
  match s.plainRead (ea.bits 60 4) k n with
  | (.ok bs, s) => (true, bs, s.count 8 1)
  | (.error c, s) => (false, List.replicate n 0, s.logErr ea c)

/-- Read accesses in order. -/
def State.vreads (s : State) : List (Nat × Word × Nat × Nat) → List (List Byte) × State
  | [] => ([], s)
  | (k, ea, _, n) :: rest =>
    let (_, bs, s) := s.vread ea k n
    let (bss, s) := s.vreads rest
    (bs :: bss, s)

/-- Enter the bytes of a vector store of a window in the store buffer (R221). -/
def State.vstore (s : State) (win : Nat) (ea : Word) (k : Nat) (bs : List Byte) : State :=
  s.enterBuffer { path := ea.bits 60 4, key := k, size := bs.length, vf := s.core.vf, ea, op := .store (cellsAt k bs)
                  sup := s.core.sup, win }

/-- The vectors of a transposed block of rows (R219). -/
def transposed (half : Bool) (rows : List (List Byte)) : List (BitVec 512) :=
  let w := if half then 2 else 4
  (List.range 16).map fun j => vecLanes (8 * w) (rows.map fun r => natOf ((r.drop (w * j)).take w))

/-- The effect of a word whose accesses have passed their checks at model addresses ks: the offsets and values it
writes. -/
def State.vperform (s : State) (p : Pfx) (e : VEnv) (op : VOp) (ks : List Nat) : List (Nat × Word) × State :=
  let acc := ks.zip (vAccesses p e op)
  let merged := fun (w d : Nat) (ls : List Nat) =>
    resV e.win d (vecLanes w (mergeLanes ls.length p.z ls (lanesOf w (e.old d))))
  match op with
  | .ld sz d _ _ =>
    let (bss, s) := s.vreads acc
    let n := vsizeBytes sz
    let bs := bss.flatten
    (merged (8 * n) d ((List.range (bs.length / n)).map fun i => natOf ((bs.drop (n * i)).take n)), s)
  | .st _ d _ _ => ([], acc.foldl (fun s x => s.vstore e.widx x.2.1 x.1 (bytesOf (e.v d).toNat x.2.2.2)) s)
  | .ldg d _ _ =>
    let (bss, s) := s.vreads acc
    (merged 32 d (bss.map natOf), s)
  | .sts d _ _ =>
    ([], (acc.zip (lanesOf 32 (e.v d))).foldl (fun s x => s.vstore e.widx x.1.2.1 x.1.1 (bytesOf x.2 4)) s)
  | .ldt half d _ _ =>
    let (rows, s) := s.vreads acc
    (((transposed half rows).zipIdx).flatMap fun v => resV e.win (d + v.2) v.1, s)
  | _ => ([], s)

/-- The result of a load, of n requests beyond the cluster, lands as a variable-latency result (R49, R134). -/
def State.vland (s : State) (e : VEnv) (vals : List (Nat × Word)) (n : Nat) : State :=
  s.updCore fun c => c.writeLaterIn e.widx e.win.base .flight 0 vals n

/-- A vector memory word (R49, R216, R217, R219, R221). -/
def State.vmem (len stl : Nat) (p : Pfx) (op : VOp) (s : State) : Out :=
  s.issue { op.uses p with acc := true } fun s =>
    let bs := s.core.boundTo s.core.cur (vSrcs' p op)
    let e := s.core.venv bs
    let st := vStores op
    let far := s.misses ((vAccesses p e op).map (·.1))
    match s.vchecks (if st then .store else .load) (vAccesses p e op) with
    | (_, some f, s) => s.trap f.1 f.2
    | (ks, none, s) =>
      s.watchAccess (!st) st ((vAccesses p e op).map fun x => (x.1.toNat, x.2.2)) fun s =>
        let s := s.leave s.core.pc s.core.cur far
        let (vals, s) := (s.updCore (·.takeWords bs)).vperform p e op ks
        (s.vland e vals (if st then 0 else far.length)).retire len stl

/-! First-fault loads (R218). -/

/-- Read the lanes of 64-byte blocks, one access a block (R221), until one receives an error response: the values of the lanes
before it, and whether one did. -/
def State.ffBlocks (s : State) (n : Nat) : List (List (Nat × Word)) → List Nat × Bool × State
  | [] => ([], false, s)
  | [] :: rest => s.ffBlocks n rest
  | ((k, ea) :: more) :: rest =>
    let m := more.length + 1
    match s.vread ea k (n * m) with
    | (false, _, s) => ([], true, s)
    | (true, bs, s) =>
      let (vs, f, s) := s.ffBlocks n rest
      ((List.range m).map (fun i => natOf ((bs.drop (n * i)).take n)) ++ vs, f, s)

/-- Lanes grouped by the 64-byte block they lie in. -/
def laneBlocks (ls : List (Nat × Word)) : List (List (Nat × Word)) :=
  ls.foldr (fun x bs => match bs with
    | (y :: ys) :: rest => if x.2.toNat / 64 = y.2.toNat / 64 then (x :: y :: ys) :: rest else [x] :: bs
    | bs => [x] :: bs) []

/-- `vldff.w` and `vldff.b` (R218). -/
def State.vldff (len : Nat) (byte : Bool) (p : Pfx) (d a b : Nat) (s : State) : Out :=
  let op := VOp.ldff byte d a b
  s.issue { op.uses p with acc := true } fun s =>
    let e := s.core.venv []
    let n := if byte then 1 else 4
    let w := 8 * n
    let ea := e.x a + e.x b
    let lanes := (List.range (activeCount p.pm (e.x (55 + p.pm)) (64 / n))).map fun i => (ea + word (n * i), n, n)
    let far := s.misses (lanes.map (·.1))
    match s.vchecks .load lanes with
    | ([], some f, s) => s.trap f.1 f.2
    | (ks, f, s) =>
      let acc := ks.zip (lanes.map (·.1))
      s.watchAccess true false (acc.map fun x => (x.2.toNat, n)) fun s =>
        let blocks := laneBlocks acc
        let out := (blocks.filterMap (·.head?)).filter fun x => far.any fun y => x.2.toNat / 64 = y.toNat / 64
        let (vs, bad, s) := (s.leave s.core.pc s.core.cur (out.map (·.2))).ffBlocks n blocks
        if bad ∧ vs = [] then s.retire len p.stl
        else
          let v := resV e.win d (vecLanes w (mergeLanes vs.length p.z vs (lanesOf w (e.old d))))
          let pr := if bad ∨ f.isSome then resX (55 + p.pm) (word vs.length) else []
          (s.vland e (v ++ pr) out.length).retire len p.stl

/-! The exchange (R220). -/

/-- The core a core exchanges vectors with (R220). -/
def State.partner (s : State) (loc : Nat) : Nat := s.coreOf (s.clOf loc) (7 - posOf loc)

/-- The virtual core number of the context of VF vf that a core holds, running, or captured there and not restored since
(R363). -/
def State.contextOf (s : State) (loc vf : Nat) : Nat :=
  let mine := fun (p : Parked) => decide (p.vf = vf ∧ p.loc = loc)
  match (if (s.coreAt loc).vf = vf then none else (s.dieAt (dieOf loc)).parked.reverse.find? mine) with
  | some k => k.vcore
  | none => s.vcoreOf loc

/-- Sixteen vectors arrive at a core; they are held where its tenant is another or is stopped by a quench (R363). -/
def State.sendSwap (s : State) (loc : Nat) (vs : List (BitVec 512)) : State :=
  let v := s.contextOf loc s.core.vf
  if s.runs loc s.core.vf v then
    s.updCoreAt loc fun c => { c with eng := { c.eng with swapIn := c.eng.swapIn ++ [vs] } }
  else { s with held := s.held ++ [{ vf := s.core.vf, vcore := v, src := s.vcore, addr := 0
                                     data := vs, swap := true, since := s.time }] }

/-- `vswap` (R220): the core's own vectors go to its partner once; it waits for the partner's. -/
def State.vswap (len stl : Nat) (p : Pfx) (d : Nat) (s : State) : Out :=
  let op := VOp.swap d
  s.issue (op.uses p) fun s =>
    let bs := s.core.boundTo s.core.cur (names16 d)
    if !s.core.eng.swapSent && !s.core.wordsFree bs then s.heldBack
    else
    let s :=
      if s.core.eng.swapSent then s
      else
        let s := s.sendSwap (s.partner s.focus) ((names16 d).map (s.core.venv bs).v)
        s.updCore fun c => { c.takeWords bs with eng := { (c.takeWords bs).eng with swapSent := true } }
    match s.core.eng.swapIn with
    | [] => s.waiting .vswap
    | vs :: rest =>
      let w := s.core.curWin
      let vals := (vs.zipIdx).flatMap fun v => resV w (d + v.2) v.1
      (s.updCore fun c =>
        { c with eng := { c.eng with swapSent := false, swapIn := rest } }.writeLater .flight 0 vals).retire len stl

/-- A vector or matrix word under its prefix, of len bytes (R21, R200). -/
def State.vexec (len stl : Nat) (p : Pfx) (op : VOp) (s : State) : Out :=
  match op with
  | .mat m => s.matrix len m stl
  | .swap d => s.vswap len stl p d
  | .ldff byte d a b => s.vldff len byte p d a b
  | .ld .. => s.vmem len stl p op
  | .st .. => s.vmem len stl p op
  | .ldg .. => s.vmem len stl p op
  | .sts .. => s.vmem len stl p op
  | .ldt .. => s.vmem len stl p op
  | .lane .. => s.vcalc len stl p op
  | .un .. => s.vcalc len stl p op
  | .cvt .. => s.vcalc len stl p op
  | .bcast .. => s.vcalc len stl p op
  | .idx .. => s.vcalc len stl p op
  | .pred .. => s.vcalc len stl p op
  | .ext .. => s.vcalc len stl p op
  | .ins .. => s.vcalc len stl p op

end Sys2Proof.Machine
end

