-- ==== Sys2Proof/Machine/Trip.lean ====
section
/-! DEFINITION. The trip buffer (R222 to R226) and the vector arbiter (R228). -/
namespace Sys2Proof.Machine

/-! The body. -/

/-- A word a body may hold (R222). -/
def bodyOk : VOp → Bool
  | .lane .. | .un .. | .cvt .. | .bcast .. | .idx .. | .ld .. | .st .. | .ldg .. | .sts .. | .ldt .. | .mat _ => true
  | .pred .. | .ext .. | .ins .. | .ldff .. | .swap _ => false

/-- An issuing copy form as a word of a body (R104, R222). -/
def bodyCopy (w : Nat) : Option BodyOp :=
  let f : Option CopyForm := match fld w 28 4 with
    | 0 => some .cpy | 1 => some .cpyFe | 2 => some .mcast | 3 => some .putsig | 4 => some .cpyPh | _ => none
  f.map fun f => .copy f (fld w 10 6) (fld w 16 6) (fld w 22 6)

/-- A body instruction under a prefix, where R222 admits it. -/
def bodyV (p : Pfx) (v : VOp) : Option BodyOp := if bodyOk v && pfxOk p v then some (.v p v) else none

/-- The body instruction of parcels (R222); none where it is none. -/
def bodyDecode : List Nat → Option BodyOp
  | [p0] => match decodeV16 p0 with
    | .ok v => bodyV {} v
    | .error _ => none
  | [p0, p1] =>
    let w := p0 + p1 * 2 ^ 16
    if fld w 1 6 = 0x39 then bodyCopy w
    else match decodeV w with
      | .ok v => bodyV {} v
      | .error _ => none
  | [p0, p1, p2, p3] => match decodePV (p0 + p1 * 2 ^ 16) (p2 + p3 * 2 ^ 16) with
    | .ok pv => bodyV pv.1 pv.2
    | .error _ => none
  | _ => none

/-- The parcels of the instruction at an address, at most n more (R16). -/
def State.parcelsAt (s : State) (va : Word) : Nat → List Nat → Except (Nat × Word) (List Nat) × State
  | 0, ps => (.ok ps, s)
  | n + 1, ps =>
    if ps ≠ [] ∧ parcelsNeeded ps ≤ ps.length then (.ok ps, s)
    else
      let a := va + BitVec.ofNat 64 (2 * ps.length)
      match s.parcel a with
      | (.error c, s) => (.error (c, a), s)
      | (.ok p, s) => s.parcelsAt va n (ps ++ [p])

/-- What stands in for a body: its parcels, instructions, their byte offsets from the `vtrip`, and its end. -/
structure Body where
  raw : List Nat := []
  ops : List BodyOp := []
  offs : List Nat := []
  size : Nat := 4
deriving DecidableEq, Repr

/-- Capture a body of n more instructions (R222): none where one of them is not admitted. -/
def State.capture (s : State) (b : Body) : Nat → Except (Nat × Word) (Option Body) × State
  | 0 => (.ok (some b), s)
  | n + 1 =>
    match s.parcelsAt (s.core.pc + word b.size) 4 [] with
    | (.error e, s) => (.error e, s)
    | (.ok ps, s) =>
      match bodyDecode ps with
      | none => (.ok none, s)
      | some op =>
        s.capture { raw := b.raw ++ ps, ops := b.ops ++ [op], offs := b.offs ++ [b.size], size := b.size + 2 * ps.length } n

/-! The checks of `vtrip` (R224). -/

/-- The names of a body instruction as written, with their staggered forms at name offset k: vectors, then
accumulators. -/
def bodyNames (mode k : Nat) (b : BodyOp) : List (Nat × Nat) :=
  let u := b.uses
  let t := (b.stag mode k).uses
  (u.vs ++ u.vd).zip (t.vs ++ t.vd) ++ b.acc.zip (b.stag mode k).acc

/-- What `cr.tval` reports for the names of a body instruction that fail their check (R127, R224). -/
def bodyBad (w : Win) (mode k : Nat) (b : BodyOp) : List Nat :=
  match ((bodyNames mode k b).filter fun n => 63 < n.2).map fun n => 0x200 + n.1 with
  | [] => (b.stag mode k).uses.beyond w
  | bad => bad

/-- The first failing name of a body, with those of the same instruction. -/
def bodiesBad (w : Win) (mode k : Nat) : List BodyOp → List Nat
  | [] => []
  | b :: bs => match bodyBad w mode k b with
    | [] => bodiesBad w mode k bs
    | bad => bad

/-- The groups of a window whose reads resolve to an ancestor, with the slot of the group's first offset (R128). -/
def Core.sharedGroups (c : Core) (w : Win) : List (Nat × Nat) :=
  if w.s then ((List.range 128).filter w.share.getLsbD).map fun g => (g, c.src w (8 * g)) else []

/-- The trip a `vtrip` starts, before its scalar operands are read. -/
def Core.newTrip (c : Core) (b : Body) (mode ns bs count : Nat) : Trip :=
  { pc := c.pc, widx := c.cur, win := c.curWin, sup := c.sup, shared := c.sharedGroups c.curWin, body := b.ops
    raw := b.raw, offs := b.offs, mode, ns, bs, count, scal := [] }

/-- The scalar names a body reads, and writes. -/
def Body.xs (b : Body) : List Nat := b.ops.flatMap fun o => o.uses.xs
def Body.xd (b : Body) : List Nat := b.ops.flatMap fun o => o.uses.xd

/-- The trip buffer is free for a `vtrip`: no trip is issuing. -/
def State.tripFree (s : State) : Bool := s.core.eng.trip.all (·.stopped)

/-- What is left of a stopped trip that a new one displaces: its window goes on to report it (R226, R346). -/
def Engines.displace (e : Engines) : List (Nat × Nat) :=
  match e.trip with
  | some t => e.stops ++ [(t.widx, t.fseq)]
  | none => e.stops

/-- `vtrip` at a non-zero count (R224). -/
def State.tripStart (s : State) (b : Body) (mode ns bs count stl : Nat) : Out :=
  match bodiesBad s.core.curWin mode ((count - 1) * ns) b.ops with
  | n :: rest => let (n, s) := s.pick n (n :: rest); s.trap 4 (word n)
  | [] =>
    let t := s.core.newTrip b mode ns bs count
    match t.pending.filter s.core.inBillet with
    | n :: rest => let (n, s) := s.pick n (n :: rest); s.trap 11 (word n)
    | [] =>
      s.checkNames { xs := b.xs, xd := b.xd } fun slots s =>
        if !s.tripFree ∨ s.core.m.atom.any (fun m => slots.any fun n => m.slot = some n) then s.heldBack
        else
          let scal := b.xs.map fun n => (n, s.core.x n)
          (s.updCore fun c => { c with eng := { c.eng with trip := some { t with scal }, stops := c.eng.displace } }).retire b.size stl

/-- `vtrip` (R222, R224): the body is captured from the parcels that follow. -/
def execVtrip (a n1 mode ns bs stl : Nat) (s : State) : Out :=
  match s.capture {} (n1 + 1) with
  | (.error e, s) => s.watchExec fun s => ({ s with core := s.core.toIssue } : State).trap e.1 e.2
  | (.ok none, s) => s.watchExec fun s => s.haltFault 1
  | (.ok (some b), s) =>
    s.issue { xs := [a], mem := false } fun s =>
      let c := (s.core.x a).toNat
      if c = 0 then s.retire b.size stl else s.tripStart b mode ns bs c stl

/-! Issuing the trip. -/

/-- The slot that offset k reads in a trip: resolved at the `vtrip` (R224). -/
def Trip.src (t : Trip) (k : Nat) : Nat :=
  match t.shared.find? fun g => g.1 = k / 8 with
  | some g => g.2 + k % 8
  | none => t.win.base + k

/-- The vector of a name in a trip. -/
def Trip.vec (t : Trip) (c : Core) (n : Nat) : BitVec 512 := vecOf ((offV t.win n).map fun k => c.slot (t.src k))

/-- The context of a word of a trip, with the next words of the streams bs (R122, R223, R224). -/
def Core.tripEnv (c : Core) (t : Trip) (bs : List (Nat × Nat)) : VEnv :=
  { widx := t.widx, win := t.win, x := fun n => sget 0 t.scal n, old := t.vec c
    v := c.source bs (t.vec c), off := word (64 * t.bs * t.iter) }

/-- Replace the trip. -/
def State.setTrip (s : State) (t : Option Trip) : State := s.updCore fun c => { c with eng := { c.eng with trip := t } }

/-- The trip has issued an instruction (event 2, R381), and goes on to the next, or that was its last. A group that the trip
has written reads from the window's own slots from now on (R128, log 23). -/
def State.tripNext (s : State) (t : Trip) : State :=
  let s := s.count 2 1
  let ws := (t.writesOf t.iter ((t.body[t.pos]?).getD (.v {} (.mat .rel)))).map fun n => (n - t.win.base) / 8
  let t := { t with shared := t.shared.filter (fun g => !ws.contains g.1), awaits := none }
  if t.pos + 1 < t.body.length then s.setTrip (some { t with pos := t.pos + 1 })
  else if t.iter + 1 < t.count then s.setTrip (some { t with iter := t.iter + 1, pos := 0 })
  else s.setTrip none

/-- The code of a trap's cause (R226). -/
def tripCode (cause : Nat) : Nat := match cause with | 9 => 0x60 | 6 => 0x61 | 8 => 0x62 | _ => 0x63

/-- The trip stops, with its fault record (R226, R345). -/
def State.tripStop (s : State) (t : Trip) (cause : Nat) (ea : Word) : State :=
  let s := { s with seq := s.seq + 1 }
  let s := s.setTrip (some { t with stopped := true, fseq := s.seq })
  s.pushFault s.die s.core.vf s.vcore
    (faultRecord s.time ea 0 t.pc 0xC0000000 t.iter t.pos (tripCode cause) s.core.vf 4 s.vcore t.widx 0 0)

/-- A scalar result of a trip's instruction (R224). -/
def State.tripX (s : State) (t : Trip) (d : Nat) (v : Word) : State :=
  s.updCore fun c => c.writeLaterIn t.widx t.win.base .flight 0 (resX d v)

/-- The `macc` of a trip has met failed work: its window reports it (R226, R247). It goes on waiting. -/
def State.tripAsync (s : State) (t : Trip) (v : Word) : State :=
  s.updCore fun c =>
    if c.eng.raised.any fun r => r.1 = t.widx ∧ r.2.1 = 13 then c
    else { c with eng := { c.eng with raised := c.eng.raised ++ [(t.widx, 13, v)] } }

/-- The `macc` of a trip is sent: failed work that it met in its wait is not reported any more (R95). -/
def Core.maccDone (c : Core) (t : Trip) : Core :=
  { c with eng := { c.eng with raised := c.eng.raised.filter fun r => ¬ (r.1 = t.widx ∧ r.2.1 = 13) } }

/-- Issue a matrix command of a trip (R226, R247). The lease counts the time of a wait of `macc` or `mwait` of its holder as
long as the trip stands in it (R237). -/
def State.tripMat (s : State) (t : Trip) (m : MatOp) : State :=
  let ea := sget 0 t.scal (matSrc m)
  let macc := match m with | .acc _ _ => true | _ => false
  match s.leaseResume.matDo t.widx m ea with
  | .done s none => (if macc then s.updCore (·.maccDone t) else s).tripNext t
  | .done s (some v) => (s.tripX t (matDest m) v).tripNext t
  | .wait s k n =>
    if k = .mlease then s
    else
      let s := s.leasePause t.widx
      if k = .macc then s.setTrip (some { t with awaits := some (ea, n) }) else s
  | .held s => s
  | .trap s c v => if c = 13 then (s.leasePause t.widx).tripAsync t v else s.tripStop t c (if c = 14 then ea else v)

/-- The PC of a trip's current instruction (R224). -/
def Trip.at_ (t : Trip) : Word := t.pc + word ((t.offs[t.pos]?).getD 0)

/-- Issue a vector word of a trip. -/
def State.tripV (s : State) (t : Trip) (p : Pfx) (op : VOp) : State :=
  match op with
  | .mat m => s.tripMat t m
  | _ =>
    let bs := s.core.boundTo t.widx (vSrcs' p op)
    let e := s.core.tripEnv t bs
    match calcV p s.core.fp.frm (fmtCode s.core.mat.fmta) e op with
    | some r =>
      if 16 ≤ s.core.queued ∧ r.cost ≠ 0 then s else (s.updCore fun c => c.issueV e p op bs r).tripNext t
    | none =>
      if !s.core.wordsFree bs then s
      else
      let far := s.misses ((vAccesses p e op).map (·.1))
      match s.vchecks (if vStores op then .store else .load) (vAccesses p e op) with
      | (_, some f, s) => s.tripStop t f.1 f.2
      | (ks, none, s) =>
        let s := s.leave t.at_ t.widx far
        let (vals, s) := (s.updCore (·.takeWords bs)).vperform p e op ks
        (s.vland e vals (if vStores op then 0 else far.length)).tripNext t

/-- Issue a copy form of a trip; a 33rd live command waits (R105). -/
def State.tripCopy (s : State) (t : Trip) (f : CopyForm) (d a b : Nat) : State :=
  let ea := sget 0 t.scal a
  let eb := sget 0 t.scal b
  if 32 ≤ s.core.eng.cmds.length then s
  else
    match s.recLocate ea with
    | (.error c, s) => s.tripStop t c ea
    | (.ok ka, s) =>
      match s.recLocate eb with
      | (.error c, s) => s.tripStop t c eb
      | (.ok kb, s) =>
        let (v, s) := s.copyIssue f t.at_ t.widx ea eb ka kb
        (s.tripX t d v).tripNext t

/-- The slots the next instruction of a trip reads: vectors alone, since scalars were read at the `vtrip`. -/
def Trip.reads (t : Trip) (b : BodyOp) : List Nat := (b.uses.vs.flatMap (offV t.win)).map t.src

/-- An instruction of a trip waits: a queued vector instruction (R200) or an atomic (R133) is to write one of its slots, or
an atomic comes before its access to memory (R269). -/
def Trip.waits (t : Trip) (c : Core) (b : BodyOp) (wr : List Nat) : Bool :=
  let slots := t.reads b ++ wr
  c.queuedOn (slots ++ c.copies (c.win t.widx) (wr.map (· - t.win.base))) ||
    c.m.atom.any fun f => b.uses.mem || slots.any fun n => f.slot = some n

/-- Issue an instruction of a trip (R224), once the scoreboard lets it. -/
def State.tripIssue (s : State) (t : Trip) (b : BodyOp) : State :=
  let rd := t.reads b
  let wr := t.writesOf t.iter ((t.body[t.pos]?).getD b)
  let cp := s.core.copies (s.core.win t.widx) (wr.map (· - t.win.base))
  if t.waits s.core b wr then s
  else
  let s := { s with core := (s.core.settle (rd ++ wr ++ cp)).await (rd ++ wr ++ cp) }
  match (rd ++ cp).filter s.core.bad.contains with
  | n :: _ => if s.core.run = .stopped ∨ s.core.queued ≠ 0 then s else s.badSlot n
  | [] =>
    match b with
    | .v p op => s.tripV t p op
    | .copy f d a b => s.tripCopy t f d a b

/-- One issue of a core's trip buffer, in the mode and for the window of its `vtrip` (R225, R380); a quench stops it. -/
def State.tripStep (s : State) : State :=
  match s.core.eng.trip with
  | none => s
  | some t =>
    if t.stopped ∨ s.core.run = .quenched then s
    else
      match t.body[t.pos]? with
      | none => s.setTrip none
      | some b =>
        let sup := s.core.sup
        let cur := s.core.cur
        let s := s.updCore fun c => { c with sup := t.sup, cur := t.widx }
        (s.tripIssue t (b.stag t.mode (t.iter * t.ns))).updCore fun c => { c with sup, cur }

/-- The trip buffer of a core issues its next instruction (R224). -/
def execTripIssue (core : Nat) (s : State) : Out :=
  if isCore core then .next (s.onCore core State.tripStep) else .next s

/-! The arbiter (R228). -/

/-- The cost of the head of a core's vector queue. -/
def Core.headCost (c : Core) : Option Nat :=
  c.pend.findSome? fun p => match p.kind with
    | .queued n => some n
    | _ => none

/-- A free lane group binds a head by deficit round robin (R228): at most n more visits of the pointer. A head that waits for
a stream word is passed over, and its core keeps its credit (R339). -/
def State.arbitrateV (s : State) (clu : Nat) : Nat → State
  | 0 => s
  | n + 1 =>
    let k := s.clAt clu
    let loc := s.coreOf clu k.vptr
    let c := s.coreAt loc
    let move := fun (cr : Nat) => s.updCl clu fun k =>
      { k with credit := sput 0 k.credit k.vptr cr, vptr := (k.vptr + 1) % 8 }
    let cr := sget 0 k.credit k.vptr
    match c.headCost with
    | none => (move 0).arbitrateV clu n
    | some cost =>
      if c.headWaits then (move cr).arbitrateV clu n
      else if cost ≤ cr then
        (s.updCl clu fun k => { k with credit := sput 0 k.credit k.vptr (cr - cost) }).updCoreAt loc Core.bindHead
      else (move (cr + c.mat.vwt)).arbitrateV clu n

/-- The arbiter of a cluster binds a head (R228). -/
def execVectorBind (die cl : Nat) (s : State) : Out := .next (s.arbitrateV (64 * die + cl) 16)

end Sys2Proof.Machine
end

