-- ==== Sys2Proof/Machine/System.lean ====
section
/-! DEFINITION. The system major 0x20, `brk16`, and encodings that are not instructions (R25, R31, R33, R138, R168 to
R174, R395). -/
namespace Sys2Proof.Machine

/-- `trap` (R169): the saved PC is that of the next instruction. -/
def execTrap (code : BitVec 6) (stl : Nat) (s : State) : Out :=
  s.issue { mem := false } fun s =>
    .next ((s.updCore fun c => c.issued stl).enterTrap (s.core.pc + 4) 0x15 (code.setWidth 64))

/-- `rett` (R138). -/
def execRett (stl : Nat) (s : State) : Out :=
  s.issue { priv := true, mem := false } fun s =>
    if s.core.rettOk then .next (s.updCore fun c => (c.issued stl).rett)
    else s.trap 4 (word s.core.trap.tfrom)

/-- Every pending result of the core has landed and its store buffer has drained (R171). -/
def State.barrier (s : State) : State := (s.updCore Core.settleAll).drained

/-- `halt` (R173). -/
def execHalt (stl : Nat) (s : State) : Out :=
  s.issue { priv := true, drain := true } fun s =>
    .next (s.barrier.updCore fun c =>
      ({ c.issued stl with pc := c.pc + 4 } : Core).stop s.time)

/-- `sleep` (R172). -/
def execSleep (a stl : Nat) (s : State) : Out :=
  s.issue { xs := [a], mem := false } fun s =>
    let n := (s.core.x a).toNat
    let run := Run.asleep (if n = 0 then none else some (s.time + n))
    .next (s.updCore fun c => { c.issued stl with pc := c.pc + 4, run, clk := { c.clk with gate := 0, idleSince := s.time } })

/-- `ibar` (R171). -/
def execIbar (stl : Nat) (s : State) : Out := s.issue { drain := true } fun s => s.barrier.retire 4 stl

/-- Whether a core lies within a scope of the issuing core (R170). -/
def State.inScope (s : State) (sc : Scope) (loc : Nat) : Bool :=
  match sc with
  | .core => decide (loc = s.focus)
  | .cluster => decide (s.clOf loc = s.cl)
  | .die => decide (dieOf loc = s.die)
  | .dev | .sys => true

/-- Drop the instruction-cache lines of a core that overlap a range under an ASID, and global ones (R170). An instruction held
at issue, of which some bytes lie in the range, has been fetched and not issued: it is fetched anew (R395). -/
def Core.dropLines (c : Core) (asid lo n : Nat) : Core :=
  { c with
    m := { c.m with icache := c.m.icache.filter fun l => !(meets l.va 64 lo n && (l.global || decide (l.asid = asid))) }
    held := c.held && !(meets c.pc.toNat (2 * c.ilen) lo n) }

/-- Every die writes its dirty copies home and refuses its copies from now on, and the path-3 lines of the cluster ways are
refused (R395). The model refuses the copies of every line, as an eviction may. -/
def State.refuseCopies (s : State) : State :=
  let s := (List.range 8).foldl (fun s d =>
    ((s.dieAt d).l2.map (·.line)).foldl (fun s l => (s.writeHome d l).dropCopy d l) s) s
  { s with clusters := s.clusters.map fun k => (k.1, { k.2 with ways := k.2.ways.filter (·.ro.isNone) }) }

/-- Normalise the sparse table of clusters. -/
def State.tidyClusters (s : State) : State := { s with clusters := s.clusters.filter fun k => k.2 ≠ {} }

/-- The invalidation of an `iinv` (R170, R395). -/
def State.invalidate (s : State) (sc : Scope) (lo n : Nat) : State :=
  let asid := s.core.asid
  let s := (s.focus :: s.others.map (·.1)).foldl (fun s loc =>
    if s.inScope sc loc then s.updCoreAt loc fun c => c.dropLines asid lo n else s) s
  if sc = .dev ∨ sc = .sys then s.refuseCopies.tidyClusters else s

/-- `iinv` (R170): X(D) is the length. -/
def execIinv (d a : Nat) (sc : Scope) (stl : Nat) (s : State) : Out :=
  s.issue { xs := [a, d], mem := false } fun s =>
    let lo := s.core.x a
    let n := (s.core.x d).toNat
    if lo.bits 60 4 ≠ 0 ∧ lo.bits 60 4 ≠ 3 then s.trap 9 lo
    else if n = 0 then s.retire 4 stl
    else (s.drained.invalidate sc lo.toNat n).retire 4 stl

/-- `brk` (R169). -/
def execBrk (code : BitVec 6) (_stl : Nat) (s : State) : Out :=
  s.issue { mem := false } fun s => s.trap 3 (code.setWidth 64)

/-- `brk16` (R25). -/
def execBrk16 (s : State) : Out := s.issue { mem := false } fun s => s.trap 3 0

/-- Clear the halted mark of an entry. -/
def Core.unhalt (c : Core) (i : Nat) : Core := c.setWin i { c.win i with h := false }

/-- A stopped core issues again in its current window, at its header PC (R174). -/
def Core.restart (c : Core) : Core :=
  let c := c.unhalt c.cur
  let c := c.settle [c.headerSlot c.cur]
  { c.go with pc := c.headerPc c.cur }

/-- Carry out a `resume` of entry w of a core (R174): X(D) and the state. A `resume` is a wake event (R172). -/
def State.resume (s : State) (loc w : Nat) : Word × State :=
  let c := s.coreAt loc
  if c.run = .stopped ∧ w = c.cur then (0, (s.flushV loc c.queued).updCoreAt loc Core.restart)
  else if (c.win w).v ∧ (c.win w).h then (0, s.updCoreAt loc fun c => (c.unhalt w).wake)
  else (neg 1, s.updCoreAt loc Core.wake)

/-- The target of a `resume`: its core, or the failure code (R174). -/
def State.resumeTarget (s : State) (v : Word) : Except Nat Nat :=
  if v.bits 48 16 ≠ 0 ∨ v.bits 5 27 ≠ 0 then .error 3
  else
    match s.locOf (v.bits 32 16) with
    | none => .error 3
    | some loc => if (s.coreAt loc).vf ≠ s.core.vf then .error 2 else .ok loc

/-- `resume` (R174). -/
def execResume (d a stl : Nat) (s : State) : Out :=
  s.issue { priv := true, xs := [a], xd := [d], mem := false } fun s =>
    let v := s.core.x a
    match s.resumeTarget v with
    | .error n => s.doneX d (neg n) stl
    | .ok loc =>
      let (r, s) := s.drained.resume loc (v.bits 0 5)
      s.doneX d r stl

/-- An encoding that is not an instruction (R31, R33): its parcels, and how many were examined. -/
def execIllegalEncoding (ibits len : Nat) (s : State) : Out :=
  (s.updCore fun c => { c with ibits := BitVec.ofNat 64 ibits, ilen := len }).watchExec fun s =>
    ({ s with core := s.core.toIssue } : State).haltFault 1

end Sys2Proof.Machine
end

