-- ==== Sys2Proof/Machine/Quench.lean ====
section
/-! DEFINITION. The quench, context images, save areas and restores (R348 to R364). -/
namespace Sys2Proof.Machine

/-! The image header (R353). -/

/-- The registers of the doubles from 0x320, in order; the next ticket number follows them. -/
def imageCsrs : List Nat :=
  [0x000, 0x001, 0x002, 0x003, 0x005, 0x010, 0x011, 0x012, 0x013, 0x014, 0x015, 0x016, 0x020, 0x021, 0x022, 0x023,
    0x030, 0x031, 0x043, 0x060] ++ (List.range 24).map (0x070 + ·)

/-- The bytes of pieces (offset, size in bytes, value), n in all; every byte not listed is zero. -/
def pack (n : Nat) (ps : List (Nat × Nat × Nat)) : List Byte :=
  bytesOf (ps.foldl (fun a p => a + put p.2.2 (8 * p.1) (8 * p.2.1)) 0) n

/-- The number in n bytes from an offset. -/
def peek (h : List Byte) (off n : Nat) : Nat := natOf ((h.drop off).take n)

/-- Pieces of one size laid out from an offset. -/
def rowOf (off size : Nat) (vs : List Nat) : List (Nat × Nat × Nat) :=
  vs.zipIdx.map fun v => (off + size * v.2, size, v.1)

/-- The record of an ended or live ticket: its number, then what `cpq` reports (R112, R353). -/
def ticketRec (t : Nat) (st : CmdState) (progress : Nat) : List Nat := [t, put st.code 56 8 + put progress 0 32]

/-- The records of the live commands of a context, in ticket order: the state each has come to (R118). -/
def liveRecs (e : Engines) (tickets : List Nat) : List Nat :=
  tickets.flatMap fun t => match e.cmds.find? (·.ticket = t) with
    | some c => ticketRec t c.state c.progress
    | none => match e.ended.find? (·.ticket = t) with
      | some x => ticketRec t x.state x.progress
      | none => ticketRec t .done 0

/-- The stream records: record address, words taken, bound name and window, state (R353). -/
def streamRecs (e : Engines) : List (Nat × Nat × Nat) :=
  (List.range 4).flatMap fun k => match sget none e.streams k with
    | some x => rowOf (0x9A0 + 64 * k) 8 [x.recAddr.toNat, x.taken, put x.name 0 8 + put x.win 8 8, 1 + b2n x.faulted]
    | none => []

/-- The trip record: count, iteration, position, and the captured instructions (R353). -/
def tripRec (t : Trip) : List (Nat × Nat × Nat) :=
  rowOf 0xAA0 8 [t.count, t.iter, t.pos] ++
    (t.offs.zip (t.offs.drop 1 ++ [4 + 2 * t.raw.length])).zipIdx.map fun o =>
      let ps := (t.raw.drop ((o.1.1 - 4) / 2)).take ((o.1.2 - o.1.1) / 2)
      (0xAB8 + 8 * o.2, 8, ps.foldr (fun p a => p + 2 ^ 16 * a) 0)

/-- The header of a core's image, but its group map (R353). -/
def State.imageHeader (s : State) (loc : Nat) (tickets : List Nat) : List Byte :=
  let c := s.coreAt loc
  let e := c.eng
  let wins := (List.range 32).map c.win
  pack 4096 ([(0, 8, 1 + put c.vf 16 4 + put (dieOf loc) 20 4 + put (s.vcoreOf loc) 32 16), (8, 8, s.time),
      (0x10, 8, c.pc.toNat), (0x18, 8, c.crWin.toNat)]
    ++ rowOf 0x20 8 (wins.map fun w => w.desc.toNat)
    ++ rowOf 0x120 16 (wins.map fun w => w.share.toNat)
    ++ rowOf 0x320 8 (imageCsrs.map fun n => (if n = 0x030 then s.leaseWord loc else c.csrGet n).toNat)
    ++ [(0x320 + 8 * imageCsrs.length, 8, e.nextTicket)]
    ++ rowOf 0x5A0 8 ((e.ended.drop (e.ended.length - 64)).flatMap fun x => ticketRec x.ticket x.state x.progress)
    ++ streamRecs e ++ (match e.trip with | some t => tripRec t | none => [])
    ++ rowOf 0xB40 8 (liveRecs e tickets))

/-- The header's fields. -/
def hdrVf (h : List Byte) : Nat := peek h 2 1 % 16
def hdrDie (h : List Byte) : Nat := peek h 2 1 / 16
def hdrPc (h : List Byte) : Word := word (peek h 0x10 8)
def hdrWin (h : List Byte) : Word := word (peek h 0x18 8)
def hdrCsr (h : List Byte) (k : Nat) : Word := word (peek h (0x320 + 8 * k) 8)
def hdrArena (h : List Byte) : Arena := Arena.ofWord (hdrCsr h 4)

/-- Window-table entry i of a header. -/
def hdrEntry (h : List Byte) (i : Nat) : Win :=
  let v := word (peek h (0x20 + 8 * i) 8)
  if v.bit 58 then { Win.ofDesc v with share := BitVec.ofNat 128 (peek h (0x120 + 16 * i) 16) } else {}

/-- The window table of a header; a struck window's task is what the die holds of it. -/
def hdrWins (h : List Byte) (pk : Option Parked) : Sparse Win :=
  (List.range 32).foldl (fun m i =>
    let w := hdrEntry h i
    let o := (pk.map fun p => sget {} p.wins i).getD {}
    sput {} m i (if w.s ∨ w.t then { w with lid := o.lid, task := o.task, team := o.team, froze := o.froze } else w)) []

/-- The ended tickets of a header; the length of a command is what the die holds of it. -/
def hdrEnded (h : List Byte) (held : List Ended) : List Ended :=
  (List.range 64).filterMap fun i =>
    let t := peek h (0x5A0 + 16 * i) 8
    let v := word (peek h (0x5A8 + 16 * i) 8)
    if t = 0 then none
    else some { ticket := t, state := if v.bits 56 8 = 4 then .cancelled else .done, progress := v.bits 0 32
                len := ((held.find? (·.ticket = t)).map (·.len)).getD (v.bits 0 32) }

/-- The ended tickets of a restored context: the records of its image, behind the older ones (R106, R111, R112). -/
def mergeEnded (h : List Byte) (held : List Ended) : List Ended :=
  let es := hdrEnded h held
  (held.filter fun e => !(es.any fun x => x.ticket = e.ticket)) ++ es

/-! Save areas (R357). -/

/-- A VF's save area, as a die translates it: under SASID, in supervisor mode. -/
def State.saveWho (s : State) (d vf vcore : Nat) : Who :=
  { die := d, vf, asid := (sget {} s.save vf).sasid, sup := true, vcore }

/-- Read n bytes of a save area on path 0: the bytes, or 1 a translation fault, 3 an error response. -/
def State.saveRead (s : State) (w : Who) (ea : Word) (n : Nat) : Except Nat (List Byte) × State :=
  if ea.bits 57 7 ≠ 0 then (.error 1, s)
  else
    match s.translate w .load ea with
    | (none, s) => (.error 1, s)
    | (some pa, s) =>
      match s.dieRead w.vf w.die pa n s.time with
      | (.ok bs, s) => (.ok bs, s)
      | (.error c, s) => (.error 3, s.logWho w ea c)

/-- Read k pieces of n bytes. -/
def State.saveReads (s : State) (w : Who) (ea : Word) (n : Nat) : Nat → Except (Nat × Word) (List Byte) × State
  | 0 => (.ok [], s)
  | k + 1 =>
    match s.saveRead w ea n with
    | (.error c, s) => (.error (c, ea), s)
    | (.ok bs, s) =>
      match s.saveReads w (ea + word n) n k with
      | (.error e, s) => (.error e, s)
      | (.ok cs, s) => (.ok (bs ++ cs), s)

/-- Write bytes within a line of a save area: the cause of its fault, if any. -/
def State.saveWrite (s : State) (w : Who) (ea : Word) (bs : List Byte) : Option Nat × State :=
  if ea.bits 57 7 ≠ 0 then (some 1, s)
  else
    match s.translate w .store ea with
    | (none, s) => (some 1, s)
    | (some pa, s) =>
      let (s, e) := s.engWrite w.die 0 pa (cellsAt pa bs)
      (if e then some 3 else none, s)

/-- The addresses of the save-control blocks of a virtual core and of a cluster (R357, R360). -/
def State.coreBlock (s : State) (vf vcore : Nat) : Word := (sget {} s.save vf).sbase + word (64 * vcore)
def State.clBlock (s : State) (vf clu : Nat) : Word :=
  (sget {} s.save vf).sbase + word (0x20000 + 64 * (32 * (clu / 64) + clu % 64))

/-- The fields of a save-control block. -/
def blkImage (r : BitVec 512) : Word := word (rfld r 448 64)
def blkLimit (r : BitVec 512) : Nat := rfld r 416 32
def blkDone (r : BitVec 512) : Nat := rfld r 384 32
def blkMbox (r : BitVec 512) : Word := word (rfld r 320 64)
def blkCap (r : BitVec 512) : Nat := rfld r 304 16
def blkCount (r : BitVec 512) : Nat := rfld r 288 16
def blkState (r : BitVec 512) : Nat := rfld r 0 4

/-- A well-formed save-control block. -/
def blkOk (r : BitVec 512) : Bool :=
  decide (rfld r 16 208 = 0 ∧ rfld r 4 4 = 0) && ttPlace (blkImage r) && ttPlace (blkMbox r)
where
  ttPlace (a : Word) : Bool := decide (a.bits 57 7 = 0 ∧ a.toNat % 64 = 0)

/-- Set a field of a block. -/
def blkSet (r : BitVec 512) (lo w v : Nat) : BitVec 512 :=
  BitVec.ofNat 512 (r.toNat - put (rfld r lo w) lo w + put v lo w)

/-- Read a save-control block; none where it is unreadable or malformed. -/
def State.readBlock (s : State) (w : Who) (a : Word) : Option (BitVec 512) × State :=
  match s.saveRead w a 64 with
  | (.ok bs, s) => let r := recOf bs; (if blkOk r then some r else none, s)
  | (.error _, s) => (none, s)

/-- Write a save-control block. -/
def State.writeBlock (s : State) (w : Who) (a : Word) (r : BitVec 512) : State :=
  (s.saveWrite w a (bytesOf r.toNat 64)).2

/-- Set STATE of a block that can be read. -/
def State.blockState (s : State) (w : Who) (a : Word) (st : Nat) : State :=
  match s.readBlock w a with
  | (some r, s) => s.writeBlock w a (blkSet r 0 4 st)
  | (none, s) => s

/-! The spill. -/

/-- A fault of a spill: its cause and address. -/
abbrev SpillFault := Nat × Word

/-- Write the pieces of an image from DONE on, in order (R358): the fault, and the bytes written. -/
def State.spillPieces (s : State) (w : Who) (r : BitVec 512) :
    List (Nat × List Byte) → Nat → Option SpillFault × Nat × State
  | [], done => (none, done, s)
  | (off, bs) :: ps, done =>
    if off < done then s.spillPieces w r ps done
    else
      let a := blkImage r + word off
      if blkLimit r < off + bs.length then (some (2, a), done, s)
      else
        match s.saveWrite w a bs with
        | (some c, s) => (some (c, a), done, s)
        | (none, s) => s.spillPieces w r ps (off + bs.length)

/-- Spill an image under its save-control block, which receives DONE, STATE, CAUSE and FADDR (R358): the fault, and the
bytes written. A block that cannot be read or is malformed is reported with code 1 (log 76). -/
def State.spillTo (s : State) (w : Who) (a : Word) (ps : List (Nat × List Byte)) (done : Nat) :
    Option SpillFault × Nat × State :=
  match s.readBlock w a with
  | (none, s) => (some (4, a), done, s.logWho w a 1)
  | (some r, s) =>
    let (f, n, s) := s.spillPieces w r ps done
    let r := blkSet r 384 32 n
    let r := match f with
      | none => blkSet (blkSet (blkSet r 0 4 2) 8 8 0) 224 64 0
      | some e => blkSet (blkSet (blkSet r 0 4 3) 8 8 e.1) 224 64 e.2.toNat
    (f, n, s.writeBlock w a r)

/-- Bytes in pieces of 64, from an offset. -/
def piecesOf (off : Nat) (bs : List Byte) : List (Nat × List Byte) :=
  (List.range ((bs.length + 63) / 64)).map fun i => (off + 64 * i, (bs.drop (64 * i)).take 64)

/-- An entry of the live table (R355): its PC and its mask. -/
abbrev LiveEntry := Word × Nat

/-- The entries of a live table's bytes. -/
def liveEntries (bs : List Byte) (n : Nat) : List LiveEntry :=
  (List.range n).map fun i => (word (peek bs (24 * i) 8), peek bs (24 * i + 8) 16)

/-- The live table ascends. -/
def ascending : List LiveEntry → Bool
  | a :: b :: es => decide (a.1.toNat < b.1.toNat) && ascending (b :: es)
  | _ => true

/-- Read the VF's live table (R355); where it cannot be read or is malformed every group is live and the address is
logged. -/
def State.liveTable (s : State) (w : Who) : List LiveEntry × State :=
  let a := (sget {} s.save w.vf).livetab
  if a = 0 then ([], s)
  else if a.toNat % 8 ≠ 0 then ([], s.logWho w a 9)
  else
    match s.saveRead w a 8 with
    | (.error _, s) => ([], s.logWho w a 9)
    | (.ok n, s) =>
      if 2 ^ 24 ≤ natOf n then ([], s.logWho w a 9)
      else
        match s.saveReads w (a + 8) 8 (3 * natOf n) with
        | (.error e, s) => ([], s.logWho w e.2 9)
        | (.ok bs, s) =>
          let es := liveEntries bs (natOf n)
          if ascending es then (es, s) else ([], s.logWho w a 9)

/-- The continuation PC of entry i of a captured core (R354). -/
def Core.contPc (c : Core) (h : List Byte) (i : Nat) : Word :=
  if i = (hdrWin h).bits 0 5 then hdrPc h else c.headerPc i

/-- Group g of the store is live in a window that reaches it (R354). -/
def groupLive (w : Win) (mask : Option Nat) (g : Nat) : Bool :=
  (List.range ((w.size + 7) / 8)).any fun i =>
    meets (w.base + 8 * i) (Nat.min 8 (w.size - 8 * i)) (8 * g) 8 && !(w.s && w.share.getLsbD i) &&
      (match mask with
        | some m => m.testBit i
        | none => true)

/-- An absolute slot lies in [LO, HI). -/
def Arena.has (a : Arena) (n : Nat) : Bool := decide (a.lo ≤ n ∧ n < a.hi)

/-- The groups an image saves (R354), for a core whose window table is that of the capture: a slot outside [LO, HI) is not
saved, and makes no group one that is. -/
def Core.savedGroups (c : Core) (h : List Byte) (live : List LiveEntry) : List Nat :=
  let a := hdrArena h
  let ws := (List.range 32).filterMap fun i =>
    let w := c.win i
    if w.v then
      some (w, if w.h then none else (live.find? fun e => e.1 = c.contPc h i).map (·.2))
    else none
  (List.range 2048).filter fun g =>
    ((List.range 8).any fun k => a.has (8 * g + k) && decide (c.slot (8 * g + k) ≠ 0)) && ws.any fun w => groupLive w.1 w.2 g

/-- The group map of a header. -/
def mapOf (gs : List Nat) : List Byte := bytesOf (gs.foldl (fun a g => a + 2 ^ g) 0) 256

/-- The double that an image holds of an absolute slot: zero outside [LO, HI) (R354). -/
def Core.saved (c : Core) (h : List Byte) (n : Nat) : Word := if (hdrArena h).has n then c.slot n else 0

/-- The pieces of a core image (R353). -/
def Core.imagePieces (c : Core) (h : List Byte) (gs : List Nat) : List (Nat × List Byte) :=
  piecesOf 0 (h.take 0x4A0 ++ mapOf gs ++ h.drop 0x5A0) ++
    gs.zipIdx.map fun g => (4096 + 64 * g.2, (List.range 8).flatMap fun k => bytesOf (c.saved h (8 * g.1 + k)).toNat 8)

/-- Replace the capture of a half. -/
def Core.setCapture (c : Core) (k : Capture) : Core :=
  { c with ctx := { c.ctx with captures := c.ctx.captures.map fun x => if x.half = k.half then k else x } }

/-- Remove the capture of a half. -/
def Core.dropCapture (c : Core) (half : Nat) : Core :=
  { c with ctx := { c.ctx with captures := c.ctx.captures.filter fun x => x.half ≠ half } }

/-- Choose the groups of a capture, once. -/
def State.chooseGroups (s : State) (loc : Nat) (w : Who) (k : Capture) : List Nat × State :=
  match k.groups with
  | some gs => (gs, s)
  | none =>
    let (live, s) := s.liveTable w
    let pk := (s.dieAt (dieOf loc)).parked.find? fun p => p.vf = k.vf ∧ p.vcore = k.vcore
    ({ s.coreAt loc with wins := hdrWins k.header pk }.savedGroups k.header live, s)

/-- The spill engine writes what is left of a capture: whether it faulted, and the state after it. -/
def State.spill (s : State) (loc : Nat) (k : Capture) : Bool × State :=
  let s := s.updCoreAt loc Core.settleAll
  let w := s.saveWho (dieOf loc) k.vf k.vcore
  let (gs, s) := s.chooseGroups loc w k
  let (f, n, s) := s.spillTo w (s.coreBlock k.vf k.vcore) ((s.coreAt loc).imagePieces k.header gs) k.done
  match f with
  | none => (false, s.updCoreAt loc fun c => c.dropCapture k.half)
  | some _ =>
    (true, s.updCoreAt loc fun c => c.setCapture { k with groups := some gs, done := n, spilling := false, unsaved := true })

/-- The capture a core's spill engine works on. -/
def Core.spilling (c : Core) : Option Capture := c.ctx.captures.find? (·.spilling)

/-- The spill of a core's image ends (R358). -/
def execSpillDone (core : Nat) (s : State) : Out :=
  match (s.coreAt core).spilling with
  | none => .next s
  | some k => match s.spill core k with
    | (false, t) => .next t
    | (true, _) => .next s

/-- The spill of a core's image stops at a fault (R358). -/
def execSpillFault (core : Nat) (s : State) : Out :=
  match (s.coreAt core).spilling with
  | none => .next s
  | some k => match s.spill core k with
    | (true, t) => .next t
    | (false, _) => .next s

/-! The cluster image (R251, R360). -/

/-- A byte count of the image: the tile, or its code. -/
def tileCount : Option (Option (List Byte)) → Nat
  | some (some t) => t.length
  | some none => 0xFFFFFFFFFFFFFFFF
  | none => 0xFFFFFFFFFFFFFFFE

/-- The bytes of a tile in the image. -/
def tileOfImage (t : Option (Option (List Byte))) : List Byte := (t.bind id).getD []

/-- The cluster image of a VF (R360). -/
def State.clusterImage (s : State) (clu vf : Nat) (pending : Option MCmd) : List (Nat × List Byte) :=
  let k := s.clAt clu
  let rot := match pending with
    | some c => 1 + put (b2n c.sent) 1 1
    | none => 0
  piecesOf 0 (pack 64 [(0, 8, 1 + put vf 16 4 + put (clu / 64) 20 4 + put (clu % 64) 24 5), (8, 8, k.rot),
      (16, 8, tileCount (some k.latchCur)), (24, 8, tileCount k.latchIn), (32, 8, rot)])
    ++ piecesOf 0x40 (tileOfImage (some k.latchCur)) ++ piecesOf 0x6440 (tileOfImage k.latchIn)

/-- n rounds of the arrays of clusters, a step each (R251 step 2): a tile that one sends comes to the next. -/
def State.arrayRounds (s : State) (clus : List Nat) : Nat → State
  | 0 => s
  | n + 1 => (clus.foldl State.arrayStep s).arrayRounds clus n

/-- The rounds that the accepted commands of clusters may take. -/
def State.arrayWork (s : State) (clus : List Nat) : Nat := clus.foldl (fun n k => n + 3 * (s.clAt k).array.length) 0

/-- A slot whose tag carries the VF, with no command pending, becomes an orphan (R251 step 3): the zero tag of a slot that
nothing has written carries VF 0 (R235, log 54). -/
def Cluster.orphans (k : Cluster) (vf : Nat) : Cluster :=
  (List.range 64).foldl (fun k n =>
    let a := sget {} k.accs n
    if a.vf = vf ∧ !(k.array.any fun c => slotOf c.op = some n) then
      { k with accs := sput {} k.accs n { a with orphan := true } }
    else k) k

/-- A cluster image: its header, and the bytes of its two tiles (R360). -/
abbrev ClImage := List Byte × List Byte × List Byte

/-- The bytes of an image's pieces from an offset. -/
def pieceBytes (ps : List (Nat × List Byte)) (lo hi : Nat) : List Byte :=
  (ps.filter fun p => lo ≤ p.1 ∧ p.1 < hi).flatMap (·.2)

/-- The parts of an image laid out in pieces. -/
def clParts (ps : List (Nat × List Byte)) : ClImage :=
  (pieceBytes ps 0 0x40, pieceBytes ps 0x40 0x6440, pieceBytes ps 0x6440 0xC840)

/-- An image comes back to a cluster at its VF's next swap, for a core that CORECMD named. -/
def Cluster.stage (k : Cluster) (vf loc : Nat) (i : ClImage) : Cluster :=
  { k with staged := k.staged.filter (fun x => x.1 ≠ vf) ++ [(vf, loc, i)] }

/-- Accepted commands of a VF have still to run (R251 step 2): an `mrot` stays pending. -/
def Cluster.runsOn (k : Cluster) (vf : Nat) : Bool := k.array.any fun c => decide (c.vf = vf ∧ c.op ≠ .rot)

/-- A cluster holds matrix state that a cluster image saves (R360). -/
def Cluster.hasState (k : Cluster) (vf : Nat) : Bool :=
  k.latchCur.isSome || k.latchIn.isSome || decide (k.rot ≠ 0) || k.array.any fun c => decide (c.op = .rot ∧ c.vf = vf)

/-- The cluster without the state that an image of the VF holds. -/
def Cluster.withoutState (k : Cluster) (vf : Nat) : Cluster :=
  { k with latchCur := none, latchIn := none, rot := 0, array := k.array.filter fun c => ¬ (c.op = .rot ∧ c.vf = vf)
           away := k.away.filter (· ≠ vf) ++ [vf] }

/-- The matrix state of a cluster after a quench of VF vf (R251): slots become orphans, and once the accepted commands of the
VF have run and no other image is being saved there, the latch buffers, the rotation count and a pending `mrot` go into a
cluster image. One that is to come back at the VF's next swap is not spilled first (log 54). -/
def State.saveCluster (s : State) (vf clu : Nat) : State :=
  let k := (s.clAt clu).orphans vf
  if k.runsOn vf || k.spill.isSome then s.setCl clu { k with toSave := k.toSave.filter (· ≠ vf) ++ [vf] }
  else
    let k := { k with toSave := k.toSave.filter (· ≠ vf) }
    let back := k.staged.find? fun i => i.1 = vf
    if !k.hasState vf then s.setCl clu { k with staged := k.staged.filter fun i => i.1 ≠ vf }
    else
      let image := s.clusterImage clu vf (k.array.find? fun c => c.op = .rot ∧ c.vf = vf)
      match back with
      | some i => s.setCl clu ((k.withoutState vf).stage vf i.2.1 (clParts image))
      | none =>
        (s.setCl clu { k.withoutState vf with spill := some { vf, image } }).blockState
          (s.saveWho (clu / 64) vf 0xFFFF) (s.clBlock vf clu) 1

/-- The matrix state that is still to be saved is saved, as far as it can be (R251). -/
def State.saveOwed (s : State) (clu : Nat) : State := (s.clAt clu).toSave.foldl (fun s v => s.saveCluster v clu) s

/-- Put a cluster image back (R251 step 4). The image of another VF that is not saved yet stays. A pending `mrot` comes back
as one of core `loc` and its current window (log 54). -/
def State.loadCluster (s : State) (loc vf clu : Nat) (img : ClImage) : State :=
  let h := img.1
  let n := peek h 16 8
  let m := peek h 24 8
  let c := s.coreAt loc
  let rot : List MCmd := if peek h 32 1 % 2 = 1 then
      [{ op := .rot, ea := 0, core := loc, vf, vcore := s.vcoreOf loc, win := c.cur, lid := c.dom.launch
         fmta := c.mat.fmta, fmtb := c.mat.fmtb, ofmt := c.mat.ofmt, aty := c.mat.aty, fe := c.mat.fe, started := true
         sent := decide (peek h 32 1 / 2 % 2 = 1) }]
    else []
  s.updCl clu fun k => { k with
    spill := k.spill.filter fun p => decide (p.vf ≠ vf)
    away := k.away.filter (· ≠ vf), staged := k.staged.filter fun i => i.1 ≠ vf
    rot := peek h 8 8, array := rot ++ k.array
    latchCur := if n = 0xFFFFFFFFFFFFFFFF then none else some img.2.1
    latchIn := if m = 0xFFFFFFFFFFFFFFFE then none else if m = 0xFFFFFFFFFFFFFFFF then some none else some (some img.2.2) }

/-- A context of the VF stands on a core of a cluster, and not only in its shadow half. -/
def State.entered (s : State) (clu vf : Nat) : Bool :=
  (s.coresOf clu).any fun loc =>
    let c := s.coreAt loc
    decide (c.vf = vf ∧ c.run ≠ .quenched) && !(c.ctx.staged.any fun g => g.vf = vf) &&
      (decide (c.run ≠ .stopped) || (List.range 28).any fun i => (c.win i).v)

/-- An image that is to come back is put back once a context of its VF has entered a core of the cluster, and nothing there
is still to be saved (R360). -/
def State.loadStaged (s : State) (clu : Nat) : State :=
  let k := s.clAt clu
  match k.staged.find? fun i => s.entered clu i.1 with
  | some i => if k.toSave = [] then s.loadCluster i.2.1 i.1 clu i.2.2 else s
  | none => s

/-- A cluster's array takes a step; what its quench left to do follows (R240, R251). -/
def State.arrayTurn (s : State) (clu : Nat) : State := ((s.arrayStep clu).saveOwed clu).loadStaged clu

/-- The cluster spill writes what is left of its image, or stops at a fault (R360). -/
def State.spillCluster (s : State) (clu : Nat) : State :=
  let s := s.saveOwed clu
  match (s.clAt clu).spill with
  | none => s.loadStaged clu
  | some p =>
    if !p.spilling then s
    else
      let (f, n, s) := s.spillTo (s.saveWho (clu / 64) p.vf 0xFFFF) (s.clBlock p.vf clu) p.image p.done
      match f with
      | none => ((s.updCl clu fun k => { k with spill := none }).saveOwed clu).loadStaged clu
      | some _ => s.updCl clu fun k => { k with spill := some { p with done := n, spilling := false, unsaved := true } }

/-- The cluster spill of a cluster (R360). -/
def execClusterSpill (die cl : Nat) (s : State) : Out := .next (s.spillCluster (64 * die + cl))

/-- Read n bytes of a save area in pieces of 64 and a remainder. -/
def State.saveBytes (s : State) (w : Who) (a : Word) (n : Nat) : Option (List Byte) × State :=
  match s.saveReads w a 64 (n / 64) with
  | (.error _, s) => (none, s)
  | (.ok bs, s) =>
    if n % 64 = 0 then (some bs, s)
    else
      match s.saveRead w (a + word (n / 64 * 64)) (n % 64) with
      | (.error _, s) => (none, s)
      | (.ok cs, s) => (some (bs ++ cs), s)

/-- A tile's bytes in an image: none where its count is a code. -/
def imageCount (n : Nat) : Nat := if 0xFFFFFFFFFFFFFFFE ≤ n then 0 else Nat.min n 25600

/-- Read the tiles of a saved cluster image. -/
def State.readTiles (s : State) (w : Who) (a : Word) : Option ClImage × State :=
  match s.saveBytes w a 64 with
  | (none, s) => (none, s)
  | (some h, s) =>
    match s.saveBytes w (a + 0x40) (imageCount (peek h 16 8)) with
    | (none, s) => (none, s)
    | (some cur, s) =>
      match s.saveBytes w (a + 0x6440) (imageCount (peek h 24 8)) with
      | (none, s) => (none, s)
      | (some inc, s) => (some (h, cur, inc), s)

/-- The cluster image of a VF for a core's cluster, where one is held or saved (R360): none where it cannot be read. A
malformed block is rejected like an unreadable one, and logged (R6, R358, log 76). State that is still to be saved has no
image. -/
def State.readCluster (s : State) (loc vf : Nat) : Option (Option ClImage) × State :=
  let clu := s.clOf loc
  let w := s.saveWho (clu / 64) vf (s.vcoreOf loc)
  match (s.clAt clu).spill.filter fun p => decide (p.vf = vf) with
  | some p => (some (some (clParts p.image)), s)
  | none =>
    if (s.clAt clu).toSave.contains vf then (some none, s)
    else
      match s.readBlock w (s.clBlock vf clu) with
      | (none, s) => (none, s.logWho w (s.clBlock vf clu) 1)
      | (some r, s) =>
        if blkState r ≠ 2 then (some none, s)
        else
          match s.readTiles w (blkImage r) with
          | (none, s) => (none, s)
          | (some i, s) => (some (some i), s)

/-- Restore a cluster image, where there is one (R360): at once in exclusive mode; in sliced mode, and while state of another
VF in the cluster is still to be saved, at the VF's next swap (log 54). State that is still to be saved stays where it is. -/
def State.putCluster (s : State) (loc vf : Nat) (img : Option ClImage) : State :=
  let clu := s.clOf loc
  let k := s.clAt clu
  let later := (s.coreAt loc).arena.sliced || k.toSave.any fun v => v ≠ vf
  match img with
  | some i =>
    (if later then s.setCl clu { k.stage vf loc i with spill := k.spill.filter fun p => decide (p.vf ≠ vf) }
     else s.loadCluster loc vf clu i).blockState (s.saveWho (clu / 64) vf (s.vcoreOf loc)) (s.clBlock vf clu) 5
  | none =>
    if !k.toSave.contains vf then s
    else s.setCl clu (if later then k.stage vf loc ([], [], []) else { k with toSave := k.toSave.filter (· ≠ vf) })

/-! Held packets and the mailbox (R363, R383). -/

/-- Write bytes at a byte offset of a core's store: a part of a double keeps the rest of it. -/
def Core.storeBytes (c : Core) (off : Nat) (bs : List Byte) : Core :=
  bs.zipIdx.foldl (fun c b =>
    let n := (off + b.2) / 8
    let k := (off + b.2) % 8
    c.setSlot n (natOf ((bytesOf (c.slot n).toNat 8).set k b.1) |> word)) c

/-- A path-8 store of bytes reaches its core (R129, R133). The answer is the code of its error response. -/
def State.storeAt (s : State) (loc off : Nat) (bs : List Byte) : Option Nat × State :=
  let n := off / 8
  let s := s.settleFar loc n
  let c := s.coreAt loc
  if c.inBillet n then (some 6, s)
  else if c.bad.contains n ∧ bs.length < 8 then (some 2, s)
  else (none, s.updCoreAt loc fun c => c.storeBytes off bs)

/-- The size of a held path-8 store stands above its bytes. -/
def heldStore (size : Nat) (v : Word) : BitVec 512 := BitVec.ofNat 512 (v.toNat + put size 64 8)

/-- A held packet is delivered to its core. -/
def State.deliverTo (s : State) (loc : Nat) (p : Held) : State :=
  if p.data = [] then s
  else if p.swap then s.updCoreAt loc fun c => { c with eng := { c.eng with swapIn := c.eng.swapIn ++ [p.data] } }
  else
    let r := (p.data[0]?).getD 0
    match s.storeAt loc (p.addr.bits 0 17) ((bytesOf r.toNat 8).take (rfld r 64 8)) with
    | (none, s) => s
    | (some c, s) => s.logAt (dieOf loc) p.vf p.src p.addr c

/-- Packets leave the list of those held: one that a core waits for stays there as one that has met its fate. -/
def State.unhold (s : State) (f : Held → Bool) : State :=
  { s with held := s.held.filterMap fun p =>
      if !f p then some p else if p.awaited then some { p with met := true } else none }

/-- The packets held for a context are delivered to its core, and the credits of R383. A path-8 access whose slot awaits a result
of the core stays held until that has landed (R133, R225). -/
def State.deliverHeld (s : State) (loc vf vcore : Nat) : State :=
  let owed := s.owedBy loc
  let mine := fun (p : Held) => decide (p.vf = vf ∧ p.vcore = vcore) && !p.met &&
    (p.swap || !owed.contains (p.addr.bits 0 17 / 8))
  let s := (s.held.filter mine).foldl (fun s p => s.deliverTo loc p) (s.unhold mine)
  let due := fun (k : Nat × Nat × Nat × Nat × Bool) => decide (k.1 = vcore ∧ k.2.1 = vf)
  (s.credits.filter due).foldl (fun s k => s.updCoreAt loc fun c => c.countAs k.2.2.2.2 none k.2.2.1 k.2.2.2.1)
    { s with credits := s.credits.filter fun k => !due k }

/-- The 80-byte mailbox entries of a packet (R363): kind in [7:0], size in [15:8], source in [31:16] of the first double,
then the address, then 64 bytes. -/
def mailEntries (p : Held) : List (List Byte) :=
  let size := if p.swap then 0 else rfld ((p.data[0]?).getD 0) 64 8
  p.data.map fun v => bytesOf (put (if p.swap then 2 else 1) 0 8 + put size 8 8 + put p.src 16 16) 8 ++
    bytesOf p.addr.toNat 8 ++ bytesOf (if p.swap then v.toNat else v.toNat % 2 ^ 64) 64

/-- Write mailbox bytes in pieces of 16. -/
def State.mailWrite (s : State) (w : Who) (a : Word) : List Byte → Nat → Option Nat × State
  | _, 0 => (none, s)
  | bs, n + 1 =>
    match s.saveWrite w a (bs.take 16) with
    | (some c, s) => (some c, s)
    | (none, s) => s.mailWrite w (a + 16) (bs.drop 16) n

/-- Append a packet to its context's mailbox: whether it could be (R363). -/
def State.mailAppend (s : State) (d : Nat) (p : Held) : Bool × State :=
  let w := s.saveWho d p.vf p.vcore
  let a := s.coreBlock p.vf p.vcore
  match s.readBlock w a with
  | (none, s) => (false, s)
  | (some r, s) =>
    let es := mailEntries p
    if blkCap r < blkCount r + es.length then (false, s)
    else
      match s.mailWrite w (blkMbox r + word (80 * blkCount r)) es.flatten (5 * es.length) with
      | (some _, s) => (false, s)
      | (none, s) => (true, s.writeBlock w a (blkSet r 288 16 (blkCount r + es.length)))

/-- The packets of mailbox bytes; sixteen entries of vectors form one. -/
def mailPackets (vf vcore now : Nat) : Nat → List Byte → List (BitVec 512) → List Held
  | 0, _, _ => []
  | n + 1, bs, vs =>
    let h := peek bs 0 8
    let a := word (peek bs 8 8)
    let v := BitVec.ofNat 512 (peek bs 16 64)
    let mk := fun (data : List (BitVec 512)) (swap : Bool) =>
      ({ vf, vcore, src := fld h 16 16, addr := a, data, swap, since := now } : Held)
    if fld h 0 8 = 2 then
      let vs := vs ++ [v]
      if vs.length = 16 then mk vs true :: mailPackets vf vcore now n (bs.drop 80) []
      else mailPackets vf vcore now n (bs.drop 80) vs
    else mk [heldStore (fld h 8 8) (word (v.toNat % 2 ^ 64))] false :: mailPackets vf vcore now n (bs.drop 80) vs

/-- Read a context's mailbox and empty it (R362, R363). -/
def State.mailTake (s : State) (w : Who) (a : Word) (r : BitVec 512) (vf vcore : Nat) : List Held × State :=
  match s.saveReads w (blkMbox r) 16 (5 * blkCount r) with
  | (.error _, s) => ([], s)
  | (.ok bs, s) => (mailPackets vf vcore s.time (blkCount r) bs [], s.writeBlock w a (blkSet r 288 16 0))

/-- The packets of a running context are delivered to it; one held for 2,000 ticks goes to its context's mailbox, or is
refused with its address logged on its sender's die (R363). -/
def State.holdExpiry (s : State) (p : Held) : State :=
  match s.locOf p.vcore with
  | none => s
  | some loc =>
    if s.runs loc p.vf p.vcore then s.deliverHeld loc p.vf p.vcore
    else if s.time < p.since + 2000 ∨ p.data = [] ∨ p.met then s
    else
      match (s.unhold (· = p)).mailAppend (dieOf loc) p with
      | (true, s) => s
      | (false, s) => s.logAt (dieOf ((s.locOf p.src).getD loc)) p.vf p.src p.addr 1

/-- A packet held for 2,000 ticks goes to its context's mailbox, or is refused (R363). -/
def execPacketHoldExpiry (k : Nat) (s : State) : Out :=
  match s.held[k]? with
  | none => .next s
  | some p => .next (s.holdExpiry p)

/-! Memory samples (R392). -/

/-- The data of record 4 + m of a memory sample: four hops, saturating (R385, R392). -/
def hopWord (hops : List Nat) (m : Nat) : Word :=
  word ((List.range 4).foldl (fun a i => a + put (Nat.min 0xFFFF ((hops[4 * m + i]?).getD 0)) (16 * i) 16) 0)

/-- The oldest sampled request of a core has completed, having queued so long at each hop: the core writes its five
records. -/
def State.memSample (s : State) (loc : Nat) (hops : List Nat) : State :=
  let c := s.coreAt loc
  match c.obs.sampled with
  | [] => s
  | (pc, ea, win) :: rest =>
    let s := s.updCoreAt loc fun c => { c with obs := { c.obs with sampled := rest } }
    [(2, pc), (3, ea), (4, hopWord hops 0), (5, hopWord hops 1), (6, hopWord hops 2)].foldl
      (fun s r => s.trace (dieOf loc) c.vf (s.vcoreOf loc) win r.1 r.2 0) s

/-- n free values. -/
def State.frees (s : State) : Nat → List Nat × State
  | 0 => ([], s)
  | n + 1 =>
    let (k, s) := s.free
    let (ks, s) := s.frees n
    (k :: ks, s)

/-- Every sampled request of a core completes: what it queued at the hops is free. -/
def State.flushSamples (s : State) (loc : Nat) : State :=
  (s.coreAt loc).obs.sampled.foldl (fun s _ => let (hops, s) := s.frees 12; s.memSample loc hops) s

/-! Capture and swap. -/

/-- Run a core's copies to their ends (R118); a command has fewer than 2^16 segments more than it has ends. -/
def State.copySteps (s : State) (loc : Nat) : Nat → State
  | 0 => s
  | n + 1 =>
    if (s.coreAt loc).eng.cmds.any fun c => c.state = .queued ∨ c.state = .running then
      (s.copyStep loc).copySteps loc n
    else s

/-- The steps the live commands of a core may take. -/
def Core.copyWork (c : Core) : Nat := c.eng.cmds.foldl (fun n k => n + segCount (recLen k.dst) + 3) 0

/-- A core leaves every deferred list (R97). -/
def State.withdraw (s : State) (loc : Nat) : State :=
  s.clusters.foldl (fun s k =>
    (List.range 24).foldl (fun s b =>
      if (s.bank k.1 b).deferred.any (·.core = loc) then
        s.updBank k.1 b fun x => { x with deferred := x.deferred.filter (·.core ≠ loc) }
      else s) s) s

/-- A served `take` or `fpop` has completed (R97), an acquire from its bank (R96, R100): its core goes on behind it. -/
def State.finishServed (s : State) (loc : Nat) : State :=
  let c := s.coreAt loc
  match c.wait with
  | some w =>
    let still := s.clusters.any fun k => (List.range 24).any fun b => (s.bank k.1 b).deferred.any (·.core = loc)
    if (w.kind = .take ∨ w.kind = .fpop) ∧ !still ∧ c.feErr.isNone then
      s.onCore loc fun s =>
        let a := s.scratchOf w.addr
        if isFar a then s else (s.acquireFrom (scrCl a)).updCore fun c => { c with pc := c.pc + 4 }
    else s
  | none => s

/-- A path-8 store that its core still waits for completes (R349): the packet stays held, where it has not met its fate. -/
def State.finishStore (s : State) (loc : Nat) : State :=
  let mine := fun (p : Held) => p.awaited && decide (p.src = s.vcoreOf loc)
  if s.held.any mine then
    ({ s with held := (s.held.filter fun p => !(mine p && p.met)).map fun p =>
        if mine p then { p with awaited := false } else p } : State).updCoreAt loc fun c => { c with pc := c.pc + 4 }
  else s

/-- The leases and requests of a core end (R251 step 1). -/
def State.quenchLease (s : State) (loc : Nat) : State :=
  let clu := s.clOf loc
  let pos := posOf loc
  let s := s.updCl clu fun k => { k with lease := { k.lease with reqs := k.lease.reqs.filter fun r => r.1 ≠ pos } }
  if (s.clAt clu).lease.holder.any fun h => h.1 = pos then s.endLease clu else s

/-- What the die holds of a captured context. -/
def State.park (s : State) (loc : Nat) : State :=
  let c := s.coreAt loc
  let v := s.vcoreOf loc
  let p : Parked :=
    { vf := c.vf, vcore := v, loc, stopped := decide (c.run = .stopped), wins := c.wins, eng := c.eng, own := c.mat.own
      dom := c.dom }
  (s.updDie (dieOf loc) fun d => { d with parked := d.parked.filter (fun p => ¬ (p.vf = c.vf ∧ p.vcore = v)) ++ [p] }).updCoreAt
    loc fun c => { c with eng := {} }

/-- The die gives up what it holds of a context. -/
def State.unpark (s : State) (d vf vcore : Nat) : Option Parked × State :=
  let mine := fun (p : Parked) => decide (p.vf = vf ∧ p.vcore = vcore)
  ((s.dieAt d).parked.find? mine, s.updDie d fun x => { x with parked := x.parked.filter fun p => !mine p })

/-- The core a header and what the die holds of its context give, in a half of the store (R352, R362): bit 0 of the PC reads 0
(R16), and the core begins to idle at this tick, if it does (R376). -/
def Core.ofImage (c : Core) (h : List Byte) (pk : Option Parked) (half now : Nat) : Core :=
  let sliced := c.arena.sliced
  let c := imageCsrs.zipIdx.foldl (fun c n => c.csrSet n.1 (hdrCsr h n.2)) c
  let mark := hdrCsr h 19
  let e := (pk.map (·.eng)).getD {}
  let a := hdrArena h
  let wins := hdrWins h pk
  let cur := (hdrWin h).bits 0 5
  { c with
    vf := hdrVf h, pc := hdrPc h &&& ~~~1, cur, sup := (hdrWin h).bit 8, wins, wait := none, held := false, seen := [], feErr := none
    arena := { lo := a.lo, hi := a.hi, sliced, side := sliced && decide (half = 1) }
    dom := (pk.map (·.dom)).getD c.dom
    mat := { c.mat with own := (pk.map (·.own)).getD [] }
    clk := { c.clk with gate := 0, idleSince := now }
    eng := { e with
      mark := { armed := mark.bit 63, slot := mark.bits 48 4, misses := mark.bits 32 16, mark := mark.bits 0 32 }
      ended := mergeEnded h e.ended, nextTicket := peek h (0x320 + 8 * imageCsrs.length) 8 }
    run := if (pk.map (·.stopped)).getD false || (sget {} wins cur).h then .stopped else .running }

/-- The struck tasks of a core's windows run there now (R299, R336). -/
def State.claimTasks (s : State) (loc : Nat) : State :=
  ((List.range 28).foldl (fun s i =>
    let w := (s.coreAt loc).win i
    if w.v ∧ w.s then s.updTask (dieOf loc) w.lid w.task fun t => { t with core := loc, win := if t.win = i then i else t.win }
    else s) s).rankAll

/-- A context takes over a core (R352, R362), in a half of the store. -/
def State.enterContext (s : State) (loc : Nat) (h : List Byte) (vf vcore half : Nat) : State :=
  let (pk, s) := s.unpark (dieOf loc) vf vcore
  let s := s.updCoreAt loc fun c => { c.ofImage h pk half s.time with ctx := { c.ctx with vcore := some vcore } }
  (s.deliverHeld loc vf vcore).claimTasks loc

/-- The core after a swap to a half with no staged image (R352). -/
def Core.emptyHalf (c : Core) (now : Nat) : Core :=
  { ((List.range 28).foldl (fun c i => c.setWin i {}) c).stop now with cur := 28, sup := true }

/-- The arena swap of a sliced core (R352). -/
def State.swapArena (s : State) (loc : Nat) : State :=
  let c := s.coreAt loc
  let half := 1 - b2n c.arena.side
  match c.ctx.staged.filter fun g => decide (g.half = half) with
  | some g =>
    let s := s.updCoreAt loc fun c => { c with ctx := { c.ctx with staged := none } }
    s.enterContext loc g.header g.vf g.vcore half
  | none => s.updCoreAt loc fun c => { c.emptyHalf s.time with arena := { c.arena with side := decide (half = 1) } }

/-- Engines whose trip's `macc` no longer waits (R349, R360): it executes again after a restore. -/
def Engines.interrupted (e : Engines) : Engines :=
  { e with raised := [], trip := e.trip.map fun t => { t with awaits := none } }

/-- A core of a quenched VF stops: it settles, is captured, and in sliced mode swaps arenas (R349, R352, R353). -/
def State.captureCore (s : State) (loc : Nat) : State :=
  let s := (s.performAtom loc).flushV loc (s.coreAt loc).queued
  let s := ((((s.finishServed loc).finishStore loc).withdraw loc).dropPromos loc).updCoreAt loc fun c =>
    { c.settleAll with wait := none, held := false, seen := [], feErr := none, eng := c.eng.interrupted }
  let s := { s with held := s.held.filter fun p => ¬ (p.data = [] ∧ p.src = s.vcoreOf loc) }
  let s := ((((s.drainAll loc).drainLog loc fun _ => true).flushSamples loc).quenchLease loc).updCl (s.clOf loc) fun k =>
    { k with credit := sput 0 k.credit (posOf loc) 0 }
  let c := s.coreAt loc
  let tickets := c.eng.cmds.map (·.ticket)
  let s := s.copySteps loc c.copyWork
  let k : Capture :=
    { vf := c.vf, vcore := s.vcoreOf loc, half := if c.arena.sliced then b2n c.arena.side else 0, sliced := c.arena.sliced
      header := s.imageHeader loc tickets }
  let s := (s.park loc).updCoreAt loc fun c =>
    { c with run := .quenched, ctx := { c.ctx with captures := c.ctx.captures ++ [k] } }
  let s := s.blockState (s.saveWho (dieOf loc) k.vf k.vcore) (s.coreBlock k.vf k.vcore) 1
  (if c.arena.sliced then s.swapArena loc else s).rankAll

/-- The enabled and spare cores of the package (R12). -/
def allCores : List Nat := (List.range 8).flatMap fun d => (List.range 272).map (512 * d + ·)

/-- The cores that a quench of a VF stops: those of the VF that are not stopped by one already. -/
def State.coresOfVf (s : State) (vf : Nat) : List Nat :=
  allCores.filter fun loc => decide ((s.coreAt loc).vf = vf ∧ (s.coreAt loc).run ≠ .quenched)

/-- The quench of a VF is due (R349). -/
def State.quenchDue (s : State) (vf : Nat) : Bool :=
  let q := sget {} s.quench vf
  decide (q.status = 1 ∧ q.tick.toNat ≤ s.time)

/-- QCTL.GO (R348). -/
def State.quenchGo (s : State) (vf tick : Nat) : State :=
  let q := sget {} s.quench vf
  if q.status = 2 then s
  else
    let q : Quench := if tick < s.time + 20000 then { q with tick := word tick, go := false, status := 3 }
      else { q with tick := word tick, go := true, status := 1 }
    { s with quench := sput {} s.quench vf q }

/-- What firmware does, which runs from the end of the boot on (R402). -/
def State.firmware (s : State) (f : State → State) : State := if s.boot.stat = 2 then f s else s

/-- The hypervisor arms a quench (R348). -/
def execQctlGo (vf tick : Nat) (s : State) : Out := .next (s.firmware (·.quenchGo vf tick))

/-- STATUS follows the dies that still owe a flush (R350). -/
def State.quenchStatus (s : State) (vf : Nat) (dies : List Nat) : State :=
  let q := sget {} s.quench vf
  { s with quench := sput {} s.quench vf { q with dies, status := if dies = [] then 4 else 2, go := decide (dies ≠ []) } }

/-- Every core of the VF stops at QTICK (R251, R275, R349). -/
def execQuenchTick (vf : Nat) (s : State) : Out :=
  if !s.quenchDue vf then .next s
  else
    let locs := s.coresOfVf vf
    let clus := (locs.map s.clOf).eraseDups
    let s := locs.foldl State.captureCore s
    let s := s.arrayRounds clus (s.arrayWork clus)
    let s := clus.foldl (fun s k => (s.saveCluster vf k).loadStaged k) s
    let s := s.sendCombs fun c => c.vf = vf
    .next (s.quenchStatus vf (locs.map dieOf).eraseDups)

/-- The flush token of a die has crossed it: what the VF's cores there sent before has arrived (R350). -/
def execFlushToken (die vf : Nat) (s : State) : Out :=
  let q := sget {} s.quench vf
  if q.status ≠ 2 ∨ !q.dies.contains die then .next s
  else
    let s := s.applyReds fun r => r.vf = vf ∧ dieOf r.core = die
    let s := s.applyFStores fun r => r.vf = vf ∧ dieOf r.core = die
    .next (s.quenchStatus vf (q.dies.filter (· ≠ die)))

/-! CORECMD (R358 to R362). -/

/-- The last CORECMD of a core and its result. -/
def State.cmdResult (s : State) (loc op code : Nat) : State :=
  s.updCoreAt loc fun c => { c with ctx := { c.ctx with cmdOp := op, cmdCode := code, cmdBusy := false } }

/-- CORECMD op 1: unsaved spills of the core and of its cluster go on (R358, R360). -/
def State.continueSpill (s : State) (core : Nat) : State :=
  if !isCore core then s
  else
    let c := s.coreAt core
    let clu := s.clOf core
    let mine := c.ctx.captures.filter (·.unsaved)
    let cls := (s.clAt clu).spill.any (·.unsaved)
    if mine = [] ∧ !cls then (s.cmdResult core 1 1)
    else
      let s := mine.foldl (fun s k =>
        (s.updCoreAt core fun c => c.setCapture { k with spilling := true }).blockState
          (s.saveWho (dieOf core) k.vf k.vcore) (s.coreBlock k.vf k.vcore) 1) s
      let s := s.updCl clu fun k => { k with spill := k.spill.map fun p => if p.unsaved then { p with spilling := true } else p }
      (s.cmdResult core 1 0)

/-- CORECMD op 1: unsaved spills of the core and of its cluster go on (R358, R360). -/
def execCorecmdContinueSpill (core : Nat) (s : State) : Out := .next (s.firmware (·.continueSpill core))

/-- The data of the groups of an image, in order. -/
def State.readGroups (s : State) (w : Who) (a : Word) : List Nat → Option (List (Nat × Word)) × State
  | [] => (some [], s)
  | g :: gs =>
    match s.saveBytes w a 64 with
    | (none, s) => (none, s)
    | (some bs, s) =>
      match s.readGroups w (a + 64) gs with
      | (none, s) => (none, s)
      | (some rest, s) => (some ((List.range 8).map (fun k => (8 * g + k, word (peek bs (8 * k) 8))) ++ rest), s)

/-- An image: its header and the slots it holds. -/
abbrev Image := List Byte × List (Nat × Word)

/-- Read an image (R362): its header and its slots, each none where a read of it failed. -/
def State.readImage (s : State) (w : Who) (r : BitVec 512) : (Option (List Byte) × Option (List (Nat × Word))) × State :=
  match s.saveBytes w (blkImage r) 4096 with
  | (none, s) => ((none, none), s)
  | (some h, s) =>
    let gs := (List.range 2048).filter fun g => (peek h (0x4A0 + g / 8) 1).testBit (g % 8)
    let (d, s) := s.readGroups w (blkImage r + 4096) gs
    ((some h, d), s)

/-- Orphans tagged with a virtual core of a VF stand in a cluster other than one (R361 code 3). -/
def State.orphansElsewhere (s : State) (vf vcore clu : Nat) : Bool :=
  s.clusters.any fun k => decide (k.1 ≠ clu) && k.2.accs.any fun a => a.2.orphan && decide (a.2.vf = vf ∧ a.2.vcore = vcore)

/-- The half a restore aims at: the shadow half, or the whole store in exclusive mode. -/
def Core.targetHalf (c : Core) : Nat := if c.arena.sliced then 1 - b2n c.arena.side else 0

/-- The result code of CORECMD op 2 (R361, R426), from the block, the header as far as it could be read, and whether all of
the image and the cluster image can be read (R360). A malformed block has the code of an unreadable one (log 76). -/
def State.restoreCode (s : State) (loc vf vcore : Nat) (r : Option (BitVec 512)) (h : Option (List Byte)) (whole : Bool) :
    Nat :=
  let c := s.coreAt loc
  if c.ctx.captures.any fun k => k.half = c.targetHalf then 1
  else if h.any fun h => hdrDie h ≠ dieOf loc then 2
  else if s.orphansElsewhere vf vcore (s.clOf loc) then 3
  else if r.any fun r => blkState r ≠ 2 then 4
  else if !whole then 5
  else if !c.arena.sliced ∧ c.run ≠ .stopped ∧ c.run ≠ .quenched then 6
  else 0

/-- The VF whose save area holds a saved image of a virtual core (R361 names none): a free choice among them. -/
def State.imageVf (s : State) (loc vcore : Nat) : Nat × State :=
  let (vs, s) := (List.range 16).foldl (fun (p : List Nat × State) v =>
    match p.2.readBlock (p.2.saveWho (dieOf loc) v vcore) (p.2.coreBlock v vcore) with
    | (some r, s) => (if blkState r = 2 then p.1 ++ [v] else p.1, s)
    | (none, s) => (p.1, s)) ([], s)
  s.pick (s.coreAt loc).vf vs

/-- Slots of an arena lie in a half of the store of a sliced core, or anywhere in that of a core in exclusive mode. -/
def inHalf (sliced : Bool) (a : Arena) (half n : Nat) : Bool :=
  a.has n && (!sliced || decide (8192 * half ≤ n ∧ n < 8192 * half + 8192))

/-- The store after a restore of an image into a half (R354, R362). -/
def Core.loadSlots (c : Core) (half : Nat) (img : Image) : Core :=
  let mine := inHalf c.arena.sliced (hdrArena img.1) half
  { c with
    store := (img.2.filter fun w => mine w.1).foldl (fun m w => sput 0 m w.1 w.2)
      (c.store.filter fun w => !mine w.1)
    bad := c.bad.filter fun n => !mine n }

/-- Point the remap entry of a virtual core to a core (R362). -/
def State.pointRemap (s : State) (vcore loc : Nat) : State :=
  let v := s.vcoreOf loc
  let s := s.updCoreAt loc fun c => { c with ctx := { c.ctx with vcore := if v < 2048 then some v else none } }
  { s with remap := sput none s.remap vcore (some ⟨true, loc⟩) }

/-- CORECMD op 2 of an image (R362). -/
def State.restoreCtx (s : State) (loc vf vcore : Nat) (w : Who) (a : Word) (r : BitVec 512) (img : Image) : State :=
  let half := (s.coreAt loc).targetHalf
  let sliced := (s.coreAt loc).arena.sliced
  let s := (s.pointRemap vcore loc).updCoreAt loc fun c => c.loadSlots half img
  let r := blkSet r 0 4 5
  let s := s.writeBlock w a r
  let (mail, s) := s.mailTake w a r vf vcore
  let s := { s with held := mail ++ s.held }
  if sliced then s.updCoreAt loc fun c => { c with ctx := { c.ctx with staged := some ⟨half, vf, vcore, img.1⟩ } }
  else s.enterContext loc img.1 vf vcore half

/-- CORECMD op 2 (R361, R362). -/
def State.restore (s : State) (core vcore : Nat) : State :=
  if !isCore core then s
  else
    let (vf, s) := s.imageVf core vcore
    let w := s.saveWho (dieOf core) vf vcore
    let a := s.coreBlock vf vcore
    let (r, s) := s.readBlock w a
    let (img, s) := match r with
      | some r => s.readImage w r
      | none => ((none, none), s)
    let (cl, s) := s.readCluster core vf
    match s.restoreCode core vf vcore r img.1 (img.2.isSome && cl.isSome), r, img, cl with
    | 0, some r, (some h, some d), some cl =>
      (((s.putCluster core vf cl).restoreCtx core vf vcore w a r (h, d)).cmdResult core 2 0)
    | code, _, _, _ => (s.cmdResult core 2 code)

/-- CORECMD op 2 (R361, R362). -/
def execCorecmdRestore (core vcore : Nat) (s : State) : Out := .next (s.firmware (·.restore core vcore))

/-- CORECMD op 3: the resident owner runs again in place, from its capture (R359). -/
def State.runInPlace (s : State) (core vcore : Nat) : State :=
  if !isCore core then s
  else
    match (s.coreAt core).ctx.captures.find? (·.vcore = vcore) with
    | none => (s.cmdResult core 3 1)
    | some k =>
      match s.readCluster core k.vf with
      | (none, s) => (s.cmdResult core 3 5)
      | (some cl, s) =>
        let s := (s.putCluster core k.vf cl).blockState (s.saveWho (dieOf core) k.vf k.vcore) (s.coreBlock k.vf k.vcore) 5
        let s := s.updCoreAt core fun c => c.dropCapture k.half
        let s := if (s.coreAt core).arena.sliced then
            s.updCoreAt core fun c => { c with ctx := { c.ctx with staged := some ⟨k.half, k.vf, k.vcore, k.header⟩ } }
          else s.enterContext core k.header k.vf k.vcore k.half
        (s.cmdResult core 3 0)

/-- CORECMD op 3: the resident owner runs again in place, from its capture (R359). -/
def execCorecmdRunInPlace (core vcore : Nat) (s : State) : Out := .next (s.firmware (·.runInPlace core vcore))

/-- ORPHREL releases orphan slots of a cluster (R364). -/
def State.orphrel (s : State) (die cl : Nat) (mask : BitVec 64) : State :=
  (s.updCl (64 * die + cl) fun k => (List.range 64).foldl (fun k n =>
    if mask.getLsbD n ∧ (sget {} k.accs n).orphan then { k with accs := sput {} k.accs n {} } else k) k)

/-- ORPHREL releases orphan slots of a cluster (R364). -/
def execOrphrel (die cl : Nat) (mask : BitVec 64) (s : State) : Out := .next (s.firmware (·.orphrel die cl mask))

end Sys2Proof.Machine
end

