-- ==== Sys2Proof/Machine/Power.lean ====
section
/-! DEFINITION. Power and thermal control, clocks, gating and the residency timer (R369 to R377), wake events (R172,
R401). -/
namespace Sys2Proof.Machine

/-! The activity estimate (R369, R370). -/

/-- The weight of an event of a cluster among weights, those not written being fused (R370). -/
def weightIn (ws : Sparse (Option (BitVec 16))) (clu e : Nat) : BitVec 16 :=
  (sget none ws e).getD (Config.fuseWeight (clu / 64) (clu % 64) e)

/-- The count of event e in the running window (R369): the instructions issued by core position e, 64 busy cycles for every
`mmac` of a group (R229), or a free value, since the spec does not say how many cycles or accesses the other work takes; a
lane group is busy for 128 cycles at most (log 59). -/
def State.activityCount (s : State) (clu e : Nat) : Nat × State :=
  if e < 8 then ((s.coreAt (s.coreOf clu e)).obs.issues, s)
  else if 16 ≤ e ∧ e < 20 then (sget 0 (s.clAt clu).macBusy e, s)
  else
    let (k, s) := s.free
    (if e < 16 then k % 129 else k, s)

/-- The sum of weights times event counts over n events from e on (R369), under the weights in force. -/
def State.activity (s : State) (clu : Nat) : Nat → Nat → Nat × State
  | 0, _ => (0, s)
  | n + 1, e =>
    let (k, s) := s.activityCount clu e
    let (rest, s) := s.activity clu n (e + 1)
    ((weightIn (s.clAt clu).inForce clu e).toNat * k + rest, s)

/-- The counts of a new window begin. -/
def State.clearIssues (s : State) (clu : Nat) : State :=
  (s.coresOf clu).foldl (fun s loc =>
    if (s.coreAt loc).obs.issues = 0 then s
    else s.updCoreAt loc fun c => { c with obs := { c.obs with issues := 0 } }) s

/-- A window of 128 arithmetic cycles of a nanosecond each ends (R13): the cluster forms its estimate, and the weights as they
stand are those of the next window (R369, R370). -/
def execActivityWindow (die cl : Nat) (s : State) : Out :=
  let clu := 64 * die + cl
  if s.time < (s.clAt clu).winAt + 128 then .next s
  else
    let (e, s) := s.activity clu 48 0
    .next ((s.clearIssues clu).updCl clu fun k => { k with
      estimate := BitVec.ofNat 32 (Nat.min e 0xFFFFFFFF), energy := k.energy + e, windows := k.windows + 1
      inForce := k.weights, winAt := k.winAt + 128, macBusy := [] })

/-! The budget tree (R371). Powers are in picojoules per 128 ns, and exact. -/

/-- The power of a cluster, averaged over the windows of the interval. -/
def Cluster.power (k : Cluster) : Rat := if k.windows = 0 then 0 else (k.energy : Rat) / k.windows

/-- Watts in picojoules per 128 ns. -/
def watts (w : Nat) : Rat := w * 128000

/-- The demand of a leaf: a mesh row of two clusters. -/
def State.demand (s : State) (d row : Nat) : Rat :=
  (s.clAt (64 * d + 2 * row)).power + (s.clAt (64 * d + 2 * row + 1)).power

/-- The demand of a die. -/
def State.dieDemand (s : State) (d : Nat) : Rat := (List.range 16).foldl (fun n r => n + s.demand d r) 0

/-- A total divided in proportion to demands; equally where there is none (log 60). -/
def portion (total part sum : Rat) (n : Nat) : Rat := if sum = 0 then total / n else total * part / sum

/-- The lowest headroom of the rows of a die (R375). -/
def Die.headroomMin (x : Die) : Int :=
  (List.range 16).foldl (fun m r => min m (sget 0 x.headroom r)) (sget 0 x.headroom 0)

/-- The share of each die: in proportion to demand, capped, with surpluses shared once among the others (steps 2, 3). -/
def State.dieShares (s : State) : List Rat :=
  let ds := (List.range 8).map s.dieDemand
  let sum := ds.foldl (· + ·) 0
  let cap := fun (d : Nat) => watts (Config.dieCeiling d)
  let first := (List.range 8).map fun d => portion (watts s.budget) ((ds[d]?).getD 0) sum 8
  let surplus := (first.zipIdx.map fun f => if f.1 ≤ cap f.2 then 0 else f.1 - cap f.2).foldl (· + ·) 0
  let others := (List.range 8).filter fun d => (first[d]?).getD 0 < cap d
  let osum := (others.map fun d => (ds[d]?).getD 0).foldl (· + ·) 0
  (List.range 8).map fun d =>
    let f := (first[d]?).getD 0
    let b := if others.contains d then min (cap d) (f + portion surplus ((ds[d]?).getD 0) osum others.length) else cap d
    if (s.dieAt d).headroomMin ≤ 0 then min b ((s.dieAt d).share / 2) else b

/-- The duty a leaf of share b and demand d writes (step 4). -/
def dutyFor (b d : Rat) : Nat := if d ≤ b then 16 else Nat.max 1 (16 * b / d).floor.toNat

/-- A new duty takes effect at the next 16-cycle boundary of the core (R372). -/
def Core.setDuty (c : Core) (duty : Nat) : Core :=
  { c with clk := { c.clk with duty := c.clk.dutyIn c.cycle, dutyNew := duty, dutyAt := (c.cycle / 16 + 1) * 16 } }

/-- The tree divides a die's share among its leaves and writes the duty of every core of each row. -/
def State.powerDie (s : State) (d : Nat) (share : Rat) : State :=
  let sum := s.dieDemand d
  let s := s.updDie d fun x => { x with share }
  (List.range 16).foldl (fun s r =>
    let dem := s.demand d r
    let duty := dutyFor (portion share dem sum 16) dem
    (s.coresOf (64 * d + 2 * r) ++ s.coresOf (64 * d + 2 * r + 1)).foldl (fun s loc =>
      if (s.coreAt loc).clk.dutyNew = duty then s else s.updCoreAt loc (·.setDuty duty)) s) s

/-- The end of a budget interval (R371): every 10,000 ticks, once a tick; a step makes the rounds of a tick itself (log 10). -/
def execBudgetInterval (s : State) : Out :=
  if s.time % 10000 ≠ 0 ∨ s.epoch = s.time then .next s
  else
    let s := s.dieShares.zipIdx.foldl (fun s b => s.powerDie b.2 b.1) s
    .next { s with clusters := (s.clusters.map fun k => (k.1, { k.2 with energy := 0, windows := 0 })).filter fun k => k.2 ≠ {} }

/-! Clocks and voltage (R373, R374). -/

/-- The mesh row whose supply feeds a core (R13): a spare in use stands in the row of the cluster it replaces (R411). -/
def State.rowOfCore (s : State) (loc : Nat) : Nat := if numOf loc < 256 then numOf loc / 16 else s.clNum loc / 2

/-- ROWV.LVL of a row. -/
def State.level8 (s : State) (d row : Nat) : Nat :=
  ((sget none (s.dieAt d).rowv row).getD (Config.bootLevel d row)) % 8

/-- The lowest divider, less 1, of a core at a voltage level. -/
def divFloor (lvl : Nat) : Nat := Config.lowestDiv lvl % 16

/-- A clock hop to a divider starts (R374). -/
def State.hopTo (s : State) (loc div : Nat) : State :=
  let old := s.divOf loc
  s.updCoreAt loc fun c => { c with clk := { c.clk with div := some div, hop := some (old, s.time), pend := none } }

/-- A write of CORECLK: none where it is refused (R373, R374). -/
def State.coreclk (s : State) (loc : Nat) (v : Word) : Option State :=
  let c := s.coreAt loc
  let div := v.bits 0 4
  if div < divFloor (s.level8 (dieOf loc) (s.rowOfCore loc)) ∨ (v.bit 8 ∧ c.run ≠ .stopped) then none
  else
    let s := s.updCoreAt loc fun c => { c with clk := { c.clk with off := v.bit 8 } }
    match c.clk.pend with
    | some p => some (s.updCoreAt loc fun c => { c with clk := { c.clk with pend := some (div, p.2) } })
    | none => some (if div = s.divOf loc then s else s.hopTo loc div)

/-- A write of ROWV: none where the level is too low for a core of the row (R373). -/
def State.rowvPut (s : State) (d row : Nat) (v : Word) : Option State :=
  let lvl := v.bits 0 3
  let bad := (s.coresOf (64 * d + 2 * row) ++ s.coresOf (64 * d + 2 * row + 1)).any fun loc =>
    decide (s.divOf loc < divFloor lvl) || (s.coreAt loc).clk.pend.any fun p => p.1 < divFloor lvl
  if bad then none else some (s.updDie d fun x => { x with rowv := sput none x.rowv row (some lvl) })

/-- The droop detector fires during a hop, which lasts until the tick after its start (log 10): it is aborted, and retried
2,000 ticks later (R374). -/
def execHopAbort (core : Nat) (s : State) : Out :=
  let c := s.coreAt core
  match c.clk.hop with
  | some (old, t) =>
    if t + 1 < s.time then .next s
    else .next (s.updCoreAt core fun c => { c with clk := { c.clk with
      div := some old, hop := none, pend := some (c.clk.div.getD old, s.time + 2000) } })
  | none => .next s

/-- An aborted hop is retried (R374). -/
def execHopRetry (core : Nat) (s : State) : Out :=
  match (s.coreAt core).clk.pend with
  | some (div, t) => .next (if s.time < t then s else s.hopTo core div)
  | none => .next s

/-! Gating, residency and wake events (R172, R376, R377, R401). -/

/-- Since when a core stays in a waiting instruction, in `sleep` or in `halt` (R376). -/
def Core.idleFrom (c : Core) : Option Nat :=
  match c.run, c.wait with
  | .running, some w => some w.since
  | .running, none => none
  | .quenched, _ => none
  | _, _ => some c.clk.idleSince

/-- A core is gated: the gate applies while it idles. -/
def Core.gated (c : Core) : Bool := decide (c.clk.gate ≠ 0) && c.idleFrom.isSome

/-- A gate closes on a core that has idled for n ticks since the last reset (R376, R403). -/
def State.gate (s : State) (core level n : Nat) : State :=
  match (s.coreAt core).idleFrom with
  | some t => if Nat.max t s.resetAt + n ≤ s.time then s.updCoreAt core fun c => { c with clk := { c.clk with gate := level } } else s
  | none => s

/-- A core is clock-gated after 1,000 ticks (R376). -/
def execClockGate (core : Nat) (s : State) : Out := .next (s.gate core 1 1000)

/-- A core is power-gated after 50,000 ticks (R376). -/
def execPowerGate (core : Nat) (s : State) : Out := .next (s.gate core 2 50000)

/-- The ticks until the next multiple of 10,000 or the next tick at which a quench is due: time does not pass over them (R336,
R337, R349, R371). -/
def State.untilDue (s : State) : Nat :=
  (List.range 16).foldl (fun n v =>
    let q := sget {} s.quench v
    if q.status = 1 ∧ s.time < q.tick.toNat then Nat.min n (q.tick.toNat - s.time) else n) (10000 - s.time % 10000)

/-- At most n ticks pass: the cores that are gated count them (event 11, R381). -/
def State.pass (s : State) (n : Nat) : State :=
  let n := Nat.min n s.untilDue
  let go := fun (c : Core) => if c.gated then c.count (some c.cur) 11 n else c
  { s with time := s.time + n, core := go s.core, others := (s.others.map fun c => (c.1, go c.2)) }

/-- The residency timer of a core reports HANG (R377). -/
def execResidencyTimer (core : Nat) (s : State) : Out :=
  let c := s.coreAt core
  match c.wait with
  | some w =>
    if c.run ≠ .running ∨ s.time < w.report + 100000000 then .next s
    else
      let s := s.pushHalt (dieOf core) c.vf
        { msg := haltMsg s.time c.ibits.toNat c.pc c.vf (s.vcoreOf core) 0 (b2n c.sup) c.ilen w.win 0x14
          desc := ({ c.win w.win with h := false }).desc }
      .next (s.updCoreAt core fun c => { c with wait := some { w with report := s.time } })
  | none => .next s

/-- Global time reaches the deadline of a sleep (R172). -/
def execSleepDeadline (core : Nat) (s : State) : Out :=
  match (s.coreAt core).run with
  | .asleep (some t) => .next (if t ≤ s.time then s.updCoreAt core Core.wake else s)
  | _ => .next s

/-- A sleep ends without cause (R172). -/
def execSleepEndWithoutCause (core : Nat) (s : State) : Out := .next (s.updCoreAt core Core.wake)

/-- The wake doorbell of a core is written (R401). -/
def execWakeDoorbell (core : Nat) (s : State) : Out := .next (s.updCoreAt core Core.wake)

end Sys2Proof.Machine
end

