-- ==== Sys2Proof/Machine/Sha.lean ====
section
/-! DEFINITION. SHA-512 (FIPS 180-4), and RSASSA-PSS signatures with MGF1-SHA-512 and a 64-byte salt (PKCS #1 v2.2), which
the security processor makes and verifies (R402, R404, R405). -/
namespace Sys2Proof.Machine

/-- The first eighty round constants of SHA-512. -/
def shaK : List Word :=
  [0x428A2F98D728AE22, 0x7137449123EF65CD, 0xB5C0FBCFEC4D3B2F, 0xE9B5DBA58189DBBC, 0x3956C25BF348B538,
    0x59F111F1B605D019, 0x923F82A4AF194F9B, 0xAB1C5ED5DA6D8118, 0xD807AA98A3030242, 0x12835B0145706FBE,
    0x243185BE4EE4B28C, 0x550C7DC3D5FFB4E2, 0x72BE5D74F27B896F, 0x80DEB1FE3B1696B1, 0x9BDC06A725C71235,
    0xC19BF174CF692694, 0xE49B69C19EF14AD2, 0xEFBE4786384F25E3, 0x0FC19DC68B8CD5B5, 0x240CA1CC77AC9C65,
    0x2DE92C6F592B0275, 0x4A7484AA6EA6E483, 0x5CB0A9DCBD41FBD4, 0x76F988DA831153B5, 0x983E5152EE66DFAB,
    0xA831C66D2DB43210, 0xB00327C898FB213F, 0xBF597FC7BEEF0EE4, 0xC6E00BF33DA88FC2, 0xD5A79147930AA725,
    0x06CA6351E003826F, 0x142929670A0E6E70, 0x27B70A8546D22FFC, 0x2E1B21385C26C926, 0x4D2C6DFC5AC42AED,
    0x53380D139D95B3DF, 0x650A73548BAF63DE, 0x766A0ABB3C77B2A8, 0x81C2C92E47EDAEE6, 0x92722C851482353B] ++
  [0xA2BFE8A14CF10364, 0xA81A664BBC423001, 0xC24B8B70D0F89791, 0xC76C51A30654BE30, 0xD192E819D6EF5218,
    0xD69906245565A910, 0xF40E35855771202A, 0x106AA07032BBD1B8, 0x19A4C116B8D2D0C8, 0x1E376C085141AB53,
    0x2748774CDF8EEB99, 0x34B0BCB5E19B48A8, 0x391C0CB3C5C95A63, 0x4ED8AA4AE3418ACB, 0x5B9CCA4F7763E373,
    0x682E6FF3D6B2B8A3, 0x748F82EE5DEFB2FC, 0x78A5636F43172F60, 0x84C87814A1F0AB72, 0x8CC702081A6439EC,
    0x90BEFFFA23631E28, 0xA4506CEBDE82BDE9, 0xBEF9A3F7B2C67915, 0xC67178F2E372532B, 0xCA273ECEEA26619C,
    0xD186B8C721C0C207, 0xEADA7DD6CDE0EB1E, 0xF57D4F7FEE6ED178, 0x06F067AA72176FBA, 0x0A637DC5A2C898A6,
    0x113F9804BEF90DAE, 0x1B710B35131C471B, 0x28DB77F523047D84, 0x32CAAB7B40C72493, 0x3C9EBE0A15C9BEBC,
    0x431D67C49C100D4C, 0x4CC5D4BECB3E42B6, 0x597F299CFC657E2A, 0x5FCB6FAB3AD6FAEC, 0x6C44198C4A475817]

/-- The initial hash value of SHA-512. -/
def shaH : List Word :=
  [0x6A09E667F3BCC908, 0xBB67AE8584CAA73B, 0x3C6EF372FE94F82B, 0xA54FF53A5F1D36F1, 0x510E527FADE682D1,
    0x9B05688C2B3E6C1F, 0x1F83D9ABFB41BD6B, 0x5BE0CD19137E2179]

/-- The functions of SHA-512. -/
def shaS (a b c : Nat) (x : Word) : Word := x.rotateRight a ^^^ x.rotateRight b ^^^ x.rotateRight c
def shaT (a b c : Nat) (x : Word) : Word := x.rotateRight a ^^^ x.rotateRight b ^^^ (x >>> c)
def shaCh (x y z : Word) : Word := (x &&& y) ^^^ (~~~x &&& z)
def shaMaj (x y z : Word) : Word := (x &&& y) ^^^ (x &&& z) ^^^ (y &&& z)

/-- One round: the working variables and the next sixteen words of the schedule. -/
def shaRound (st : List Word × List Word) (k : Word) : List Word × List Word :=
  match st.1 with
  | [a, b, c, d, e, f, g, h] =>
    let w := fun (i : Nat) => (st.2[i]?).getD 0
    let t1 := h + shaS 14 18 41 e + shaCh e f g + k + w 0
    let t2 := shaS 28 34 39 a + shaMaj a b c
    ([t1 + t2, a, b, c, d + t1, e, f, g],
      st.2.drop 1 ++ [shaT 19 61 6 (w 14) + w 9 + shaT 1 8 7 (w 1) + w 0])
  | _ => st

/-- The number whose bytes these are, the most significant first. -/
def natBE (bs : List Byte) : Nat := bs.foldl (fun n b => 256 * n + b.toNat) 0

/-- The n bytes of a number, the most significant first. -/
def bytesBE (x n : Nat) : List Byte := (bytesOf x n).reverse

/-- One block of 128 bytes. -/
def shaBlock (h : List Word) (bs : List Byte) : List Word :=
  let ws := (List.range 16).map fun i => word (natBE ((bs.drop (8 * i)).take 8))
  ((shaK.foldl shaRound (h, ws)).1.zip h).map fun p => p.1 + p.2

/-- n blocks. -/
def shaBlocks : Nat → List Word → List Byte → List Word
  | 0, h, _ => h
  | n + 1, h, bs => shaBlocks n (shaBlock h bs) (bs.drop 128)

/-- SHA-512 of a byte string. -/
def sha512 (m : List Byte) : List Byte :=
  let pad := (239 - m.length % 128) % 128
  let bs := m ++ [0x80] ++ List.replicate pad 0 ++ bytesBE (8 * m.length) 16
  (shaBlocks (bs.length / 128) shaH bs).flatMap fun w => bytesBE w.toNat 8

/-- MGF1 with SHA-512, n blocks from counter c on. -/
def mgf1 (seed : List Byte) : Nat → Nat → List Byte
  | 0, _ => []
  | n + 1, c => sha512 (seed ++ bytesBE c 4) ++ mgf1 seed n (c + 1)

/-- x squared n times modulo m. -/
def squareMod (m : Nat) : Nat → Nat → Nat
  | 0, x => x
  | n + 1, x => squareMod m n (x * x % m)

/-- The encoded message of a signature under a 4,096-bit modulus and the exponent 65,537. -/
def rsaOpen (modulus sig : Nat) : Nat := squareMod modulus 16 sig * sig % modulus

/-- A signature over a digest verifies under a modulus, all as byte strings, the most significant byte first. -/
def pssVerify (modulus digest sig : List Byte) : Bool :=
  let n := natBE modulus
  let s := natBE sig
  let em := bytesBE (rsaOpen n s) 512
  let masked := em.take 447
  let h := (em.drop 447).take 64
  let db := (masked.zip (mgf1 h 7 0)).map fun p => p.1 ^^^ p.2
  let db := match db with
    | b :: bs => (b &&& 0x7F) :: bs
    | [] => []
  decide (s < n) && decide (em.getLast? = some 0xBC) && decide ((masked[0]?).getD 0 < 0x80) &&
    (db.take 382).all (· == 0) && db[382]? == some 1 && sha512 (List.replicate 8 0 ++ digest ++ db.drop 383) == h

/-- x to the power e modulo m, over the low n bits of e. -/
def powMod (m : Nat) : Nat → Nat → Nat → Nat
  | 0, _, _ => 1 % m
  | n + 1, x, e =>
    let r := powMod m n (x * x % m) (e / 2)
    if e % 2 = 1 then r * x % m else r

/-- The encoded message of a digest under a salt of 64 bytes, for a modulus of 4,096 bits (EMSA-PSS). -/
def pssEncode (digest salt : List Byte) : List Byte :=
  let h := sha512 (List.replicate 8 0 ++ digest ++ salt)
  let db : List Byte := List.replicate 382 0 ++ [1] ++ salt
  let masked := (db.zip (mgf1 h 7 0)).map fun p => p.1 ^^^ p.2
  let masked := match masked with
    | b :: bs => (b &&& 0x7F) :: bs
    | [] => []
  masked ++ h ++ [0xBC]

/-- The signature over a digest with a salt, under a modulus and a private exponent of 4,096 bits, as a byte string. -/
def pssSign (modulus exponent : Nat) (digest salt : List Byte) : List Byte :=
  bytesBE (powMod modulus 4096 (natBE (pssEncode digest salt)) exponent) 512

end Sys2Proof.Machine
end

