-- ==== Sys2Proof/Machine/Boot.lean ====
section
/-! DEFINITION. Bring-up, attestation, host request queues (R333, R398, R400 to R407), interleave groups and partitions
(R41, R50, R52), the remap table and sparing (R379, R411). -/
namespace Sys2Proof.Machine

/-! Bring-up (R402 to R404). -/

/-- A byte string as a register of 512 bits: the first byte lowest (R406). -/
def reg512 (bs : List Byte) : BitVec 512 := BitVec.ofNat 512 (natOf bs)

/-- Extend a measurement with bytes (R402). -/
def extend (m : BitVec 512) (bs : List Byte) : BitVec 512 := reg512 (sha512 (bytesOf m.toNat 64 ++ bs))

/-- The fields of an image header at physical address 0 (R404). -/
def State.bootField (s : State) (off n : Nat) : Nat := natOf (s.bytes off n)

/-- The image digest (R404). -/
def State.bootDigest (s : State) : List Byte := sha512 (s.bytes 0 0x300 ++ s.bytes 0x800 (s.bootField 8 8))

/-- The refusal code of an image, or 2 (R404). -/
def State.bootCode (s : State) : Nat :=
  if s.bootField 0 4 ≠ 0x30384746 ∨ s.bootField 4 4 ≠ 1 ∨ 0x0FFFF800 < s.bootField 8 8 ∨
      (s.bytes 0x500 768).any (· ≠ 0) then 3
  else if s.bootField 0x10 4 < Config.minSvn then 4
  else if reg512 (sha512 (s.bytes 0x100 512)) ≠ Config.keyHash then 5
  else if !pssVerify (s.bytes 0x100 512) s.bootDigest (s.bytes 0x300 512) then 6
  else 2

/-- Sixteen port rates from the configuration block, whose layout the spec does not give: free values. -/
def State.freeRates (s : State) : Nat → Sparse Nat × State
  | 0 => ([], s)
  | n + 1 =>
    let (k, s) := s.free
    let (m, s) := s.freeRates n
    (sput 0 m n (k % 201), s)

/-- A write of BOOTGO starts the check (R402, R406). -/
def State.bootGo (s : State) : State := if s.boot.stat = 0 then { s with boot := { s.boot with stat := 1 } } else s

/-- Steps 3 to 5 of R402, once BOOTGO has started them: the image is checked and measured, the fabric registers are
written and locked, and the service cores start at the image's ENTRY (R404). -/
def State.bootCheck (s : State) : State :=
  if s.boot.stat ≠ 1 then s
  else
    let code := s.bootCode
    if code ≠ 2 then { s with boot := { s.boot with stat := code } }
    else
      let cfg := s.bytes (0x800 + s.bootField 0x20 8) 64
      let b := { s.boot with
        stat := 2, entry := some (word (s.bootField 0x18 8)), meas0 := extend s.boot.meas0 s.bootDigest, meas1 := extend s.boot.meas1 cfg }
      let (e, s) := s.free
      let (h, s) := s.free
      let (rate, s) := s.freeRates 16
      { s with boot := b, fabric := { s.fabric with endpt := e % 256, hostep := h % 256, rate, lock := true, rateLock := true } }

/-- BOOTGO (R406). -/
def execBootgo (s : State) : Out := .next s.bootGo

/-- ATTGO starts a report, and is ignored while one is being made (R405). -/
def State.attGo (s : State) : State :=
  if s.boot.attBusy then s else { s with boot := { s.boot with attBusy := true, attDone := false } }

/-- ATTGO (R405). -/
def execAttgo (s : State) : Out := .next s.attGo

/-- The attestation report (R405). -/
def Boot.report (b : Boot) : BitVec 2048 :=
  BitVec.ofNat 2048 (b.nonce.toNat + b.meas0.toNat * 2 ^ 512 + b.meas1.toNat * 2 ^ 1024 + Config.deviceId.toNat * 2 ^ 1536)

/-- The signature over a report with the device identity key and a salt, held as an octet string (R405, R406). -/
def attSign (report : BitVec 2048) (salt : List Byte) : BitVec 4096 :=
  BitVec.ofNat 4096 (natOf
    (pssSign Config.attModulus.toNat Config.attExponent.toNat (sha512 (bytesOf report.toNat 256)) salt))

/-- The security processor has written the report and its signature (R405): the salt is a free value. -/
def execAttestationDone (s : State) : Out :=
  if !s.boot.attBusy then .next s
  else
    let (salt, s) := s.free
    let b := s.boot
    .next { s with boot := { b with
      attBusy := false, attDone := true, rep := b.report, sig := attSign b.report (bytesOf salt 64) } }

/-- Power-up or reset (R402): the timebase, HBM4 and what the model itself holds go on. -/
def execPowerUpReset (s : State) : Out :=
  .next { State.reset with
    time := s.time, resetAt := s.time, oracle := s.oracle, seq := s.seq, agenda := s.agenda, focus := s.focus, epoch := s.epoch, mem := s.mem
    poison := s.poison }

/-! Groups and partitions (R41, R50, R52). -/

/-- The VFs that own a pseudo-channel of a die. -/
def Die.chanOwned (x : Die) (c : Nat) : Bool := (List.range 16).any fun v => (sget {} x.own v).pchan.getLsbD c

/-- The committed log of the size of the group of a pseudo-channel. -/
def Die.group (x : Die) (c : Nat) : Nat := sget 6 x.groupL c

/-- The staged groups of a stack are legal, and none that changes has an owned member (R52). -/
def Die.commitOk (x : Die) : Bool :=
  (List.range 64).all fun c =>
    let l := sget 6 x.stagedL c
    decide (l ≤ 6) && ((List.range (2 ^ l)).all fun i => sget 6 x.stagedL (c / 2 ^ l * 2 ^ l + i) = l) &&
      (decide (l = x.group c) || !x.chanOwned c)

/-- The physical range of a pseudo-channel's place in its stack (R41). -/
def chanBase (d c : Nat) : Nat := d * 2 ^ 36 + c * 0x30000000

/-- COMMIT (R52): none where it is refused. The contents of a changed group are not preserved: they read as memory that
nothing has written (log 4). -/
def State.commit (s : State) (d : Nat) : Option State :=
  let x := s.dieAt d
  if !x.commitOk then none
  else
    let moved := (List.range 64).filter fun c => sget 6 x.stagedL c ≠ x.group c
    let gone := fun (k : Nat) => moved.any fun c => decide (chanBase d c ≤ k ∧ k < chanBase d c + 0x30000000)
    some ({ s with mem := s.mem.filter (fun c => !gone c.1), poison := s.poison.filter fun w => !gone w } |>.updDie d fun x =>
      { x with groupL := x.stagedL, commitRefused := false })

/-- A binding of home slices is accepted: the owner of the group that starts at c owns them (R50). -/
def Die.slicesOk (x : Die) (c : Nat) (m : BitVec 32) : Bool :=
  let g := 2 ^ x.group c
  decide (c % g ≠ 0) || (List.range 16).all fun v =>
    let o := sget {} x.own v
    !((List.range g).all fun i => o.pchan.getLsbD (c + i)) || decide (m &&& ~~~o.slices = 0)

/-- A bitmap of an I/O die: ports in bits [7:0], the executor in bit 8. -/
def ioKey (u v : Nat) : Nat := 16 * u + v

/-- COREVF (R52): none where the core is not stopped, or would give an unsaved half to another VF (R359). A core that a quench
has stopped counts as stopped here (log 60). -/
def State.corevf (s : State) (loc vf : Nat) : Option State :=
  let c := s.coreAt loc
  if (c.run ≠ .stopped ∧ c.run ≠ .quenched) ∨ c.holdsOther vf c.arena then none
  else some (s.updCoreAt loc fun c => { c with vf })

/-! The remap table and sparing (R379, R411). -/

/-- A remap entry as it stands, 256 × d + n for core n of die d at reset. -/
def State.remapAt (s : State) (v : Nat) : Remap :=
  (sget none s.remap v).getD ⟨true, 512 * (v / 256) + v % 256⟩

/-- Before a virtual core number is pointed elsewhere, the promotion log of the core it named is drained (R316). -/
def State.retireLog (s : State) (loc : Nat) : State := (s.drainAll loc).drainLog loc fun _ => true

/-- REMAP (R379): none where the write is refused. -/
def State.remapPut (s : State) (v : Nat) (x : Word) : Option State :=
  let loc := 512 * x.bits 16 3 + x.bits 0 9
  let n := x.bits 0 9
  let old := s.remapAt v
  let stopped := fun (l : Nat) => decide ((s.coreAt l).run = .stopped)
  let named := (List.range 2048).any fun u => decide (u ≠ v) && (s.remapAt u).valid && decide ((s.remapAt u).loc = loc)
  let spare := decide (256 ≤ n) && (sget none (s.dieAt (dieOf loc)).spares ((n - 256) / 8)).isNone
  if x.bit 63 && (named || spare || decide (272 ≤ n)) || (old.valid && !stopped old.loc) then none
  else
    let s := if old.valid then s.retireLog old.loc else s
    some { s with remap := sput none s.remap v (some ⟨x.bit 63, loc⟩) }

/-- SPARECTL (R411): none where the write is refused. A core is stopped where it issues nothing, by `halt` or by a quench
(R410). A spare cluster that another one replaces is used up, and takes the unused number 48. -/
def State.spare (s : State) (d : Nat) (x : Word) : Option State :=
  if !x.bit 63 then some s
  else
    let k := x.bits 0 6
    let sp := x.bits 8 1
    let clu := 64 * d + k
    let old := s.coresOf clu
    if 32 ≤ k ∨ (s.clAt clu).lid ≠ 0 ∨ (old.any fun l => (s.coreAt l).run ≠ .stopped ∧ (s.coreAt l).run ≠ .quenched) ∨
        (sget none (s.dieAt d).spares sp).isSome then none
    else
      let s := old.foldl State.retireLog s
      let vs := old.map s.vcoreOf
      let vf := (old.head?.map fun l => (s.coreAt l).vf).getD 0
      let s := s.updDie d fun y => { y with
        spares := sput none (y.spares.map fun e => if e.2 = some k then (e.1, some 48) else e) sp (some k) }
      let s := s.setCl clu {}
      some ((vs.zip (s.coresOf clu)).foldl (fun s p =>
        let s := s.updCoreAt p.2 fun _ => { Core.reset with vf, clk := { idleSince := s.time } }
        if p.1 < 2048 then { s with remap := sput none s.remap p.1 (some ⟨true, p.2⟩) } else s) s)

/-! Host request queues (R333, R400). -/

/-- The first n arrivals of a queue, with those of the others. -/
def keepArrivals (q : Nat) : Nat → List (Nat × Nat) → List (Nat × Nat)
  | _, [] => []
  | n, (p, k) :: as =>
    if p ≠ q then (p, k) :: keepArrivals q n as
    else if n = 0 then keepArrivals q 0 as
    else (p, Nat.min k n) :: keepArrivals q (n - Nat.min k n) as

/-- A write of TAIL: records are owed a take from HEAD up to it, the new ones after all that have arrived (R333, R400). -/
def State.setTail (s : State) (q : Nat) (tail : BitVec 32) : State :=
  let x := sget {} s.queues q
  let n := (tail - x.head).toNat
  let old := (s.arrivals.filter (·.1 = q)).foldl (fun a p => a + p.2) 0
  { s with
    queues := sput {} s.queues q { x with tail }
    arrivals := if n ≤ old then keepArrivals q n s.arrivals else s.arrivals ++ [(q, n - old)] }

/-- The host writes TAIL of a queue (R400): before the end of the boot only HBM4 stack 0 and the boot registers answer it
(R402). -/
def execHostRequestTail (q : Nat) (tail : BitVec 32) (s : State) : Out :=
  .next (if s.boot.stat = 2 then s.setTail q tail else s)

/-- The service core that handles a queue (R333). -/
def serverOf (q : Nat) : Nat := ((q % 256) ^^^ (q / 256)) % 4

/-- A service core may reach a physical address (R407): no VF owns its pseudo-channel. -/
def State.serviceOk (s : State) (pa : Nat) : Bool :=
  let p := s.phys pa
  if !isHbm p then true
  else
    let x := s.dieAt (homeDie p)
    let c := p % 2 ^ 36 / 0x30000000
    let g := 2 ^ x.group c
    let base := c / g * g
    !x.chanOwned (base + (p % 2 ^ 36 - base * 0x30000000) / 256 % g)

/-- A service core reads 64 bytes at a fabric physical address; a refusal is logged for firmware (R407, R408). -/
def State.serviceRead (s : State) (a : Word) : Option (BitVec 512) × State :=
  if a.bits 52 12 ≠ 0 then (none, s.logAt 0 16 0xFFFF a 1)
  else if !s.serviceOk a.toNat then (none, s.logAt 0 16 0xFFFF a 6)
  else
    match s.homeBytes a.toNat 64 with
    | .ok bs => (some (recOf bs), s)
    | .error c => (none, s.logAt 0 16 0xFFFF a c)

/-- A service core writes STATUS of a record (R400); a refusal is logged for firmware (R407, R408). -/
def State.statusWrite (s : State) (a : Word) (v : Word) : State :=
  if a.bits 52 12 ≠ 0 then s.logAt 0 16 0xFFFF a 1
  else if !s.serviceOk a.toNat then s.logAt 0 16 0xFFFF a 6
  else if !s.regionOk a.toNat then s.logAt 0 16 0xFFFF a 1
  else (s.write (cellsAt (s.phys (a.toNat + 16)) (bytesOf v.toNat 8))).1

/-- A service core reads n endpoint numbers of 16 bits as a die translates them: those of a VF's pseudo-channels are refused
(R407, R408). -/
def State.servicePkgs (s : State) (w : Who) (ea : Word) : Nat → Option (List Nat) × State
  | 0 => (some [], s)
  | n + 1 =>
    match (if ea.bits 57 7 ≠ 0 then (none, s) else s.translate w .load ea) with
    | (none, s) => (none, s)
    | (some pa, s) =>
      if !s.serviceOk pa then (none, s.logAt 0 16 0xFFFF ea 6)
      else
        match s.dieRead w.vf w.die pa 2 s.time with
        | (.error c, s) => (none, s.logAt 0 16 0xFFFF ea c)
        | (.ok bs, s) => let (ps, s) := s.servicePkgs w (ea + 2) n; (ps.map (natOf bs :: ·), s)

/-- The package list of a claim that a service core carries out, translated under the record's VF and ASID 0 on die 0. -/
def State.hostPkgs (s : State) (r : BitVec 512) : Option (List Nat) × State :=
  let n := clmNpkg r
  if n = 1 then (some [s.fabric.endpt], s)
  else if n = 0 ∨ 64 < n ∨ clmRelease r then (some [], s)
  else s.servicePkgs { die := 0, vf := clmVf r, asid := 0, sup := true, vcore := 0xFFFF } (clmPkgl r) n

/-- The result of a request (R400): its argument record is copied whatever OP is, and a copy that fails gives −4. -/
def State.request (s : State) (r : BitVec 512) : Word × State :=
  match s.serviceRead (word (rfld r 64 64)) with
  | (none, s) => (neg 4, s)
  | (some a, s) =>
    match rfld r 0 8 with
    | 0 => (0, s)
    | 1 => let (ps, s) := s.hostPkgs a; s.claim (some a) ps
    | 2 => s.launch none (some a)
    | _ => (neg 8, s)

/-- The queue of a service core's oldest record, and what is left of the arrivals. -/
def nextRequest (w : Nat) : List (Nat × Nat) → Option (Nat × List (Nat × Nat))
  | [] => none
  | (q, n) :: as =>
    if serverOf q = w then some (q, if n ≤ 1 then as else (q, n - 1) :: as)
    else (nextRequest w as).map fun p => (p.1, (q, n) :: p.2)

/-- A service core takes, executes and completes a request (R333, R400). -/
def execHostRequestTake (core : Nat) (s : State) : Out :=
  if s.boot.stat ≠ 2 then .next s
  else
    match nextRequest core s.arrivals with
    | none => .next s
    | some (q, rest) =>
      let s : State := { s with arrivals := rest }
      let x := sget {} s.queues q
      let a := x.rbase + word (64 * (x.head.toNat % x.rsize))
      let s := match s.serviceRead a with
        | (none, s) => s
        | (some r, s) =>
          let (v, s) := s.request r
          s.statusWrite a (word (put 1 63 1 + v.bits 0 32))
      .next { s with queues := supd {} s.queues q fun x => { x with head := x.head + 1 } }

end Sys2Proof.Machine
end

