-- ==== Sys2Proof/Machine/Observe.lean ====
section
/-! DEFINITION. What happens beside the instructions: results that land (R132), the copy and stream engines (R107, R108,
R117, R121), counter credits (R382, R383), samples (R390 to R392), trace writes (R387, R388), and hidden failure (R399,
R409). -/
namespace Sys2Proof.Machine

/-- Pending result k of a core lands, where it is a variable-latency result that has left the vector queue (R132). -/
def Core.landNth (c : Core) (k : Nat) : Core :=
  match c.pend[k]? with
  | some p =>
    match p.kind with
    | .flight => ({ c with pend := c.pend.eraseIdx k } : Core).land p
    | .fixed _ => c
    | .queued _ => c
  | none => c

/-- A variable-latency result lands (R132). -/
def execResultLands (core k : Nat) (s : State) : Out := .next (s.updCoreAt core (·.landNth k))

/-- The Tongs start a queued command of a core (R116, R117). -/
def execCopyStart (core : Nat) (s : State) : Out := .next (s.startCmd core)

/-- A segment of a running command is done (R107). -/
def execSegmentDone (core ticket seg : Nat) (s : State) : Out := .next (s.segment core ticket seg)

/-- A running command faults (R108). -/
def execCopyFault (core ticket : Nat) (s : State) : Out := .next (s.copyFault core ticket)

/-- The Tongs deliver a word of a stream (R121). -/
def execStreamWordDelivery (core strm : Nat) (s : State) : Out := .next (s.deliver core strm)

/-! Counters and samples. -/

/-- A shared unit's credit of n events reaches a core's counters (R382, R383): never those of a core of another VF, and
held by the die while the context is stopped. The mode at the event, by which counters filter (R380), is free. -/
def execCounterCredit (vcore vf ev n : Nat) (s : State) : Out :=
  if ev < 18 ∨ 22 < ev ∨ (21 ≤ ev ∧ (sget {} s.vfpol vf).tenant) then .next s
  else
    match s.locOf vcore with
    | none => .next s
    | some loc =>
      let (sup, s) := s.choose false true
      if s.runs loc vf vcore then .next (s.updCoreAt loc fun c => c.countAs sup none ev n)
      else if s.stoppedContext loc vf vcore then .next { s with credits := s.credits ++ [(vcore, vf, ev, n, sup)] }
      else .next s

/-- The stall reason of a wait (R391). -/
def WaitKind.reason : WaitKind → Nat
  | .ldSync => 5 | .take => 5 | .feWait => 5 | .fpop => 5 | .macc => 5
  | .cpwait => 6 | .vsq => 6 | .vswap => 2
  | .mark => 7 | .mlease => 8 | .mwait => 8
  | .phsig => 9 | .phwait => 9 | .phnext => 9
  | .acqp => 10 | .tnext => 14

/-- The reason a PC sample gives for core cycle t (R391): what the core is known to do in it, or else the reason given, which
the model does not time (log 68). -/
def State.reason (s : State) (loc t given : Nat) : Nat :=
  let c := s.coreAt loc
  match c.run, c.wait with
  | .asleep _, _ => 15
  | _, some w => w.kind.reason
  | _, none =>
    if c.held then
      if 16 ≤ c.queued then 4
      else if c.eng.trip.any fun t => !t.stopped && decide (t.widx = c.cur) then 13
      else if 48 ≤ s.requests loc then 17
      else given
    else if t < c.curWin.ready then 1
    else if !fetches (c.clk.dutyIn t) t then 12
    else given

/-- The period of PC samples of a core, in core cycles (R390). -/
def Clk.period (k : Clk) : Nat := Nat.max 1 (k.samp.bits 8 24)

/-- A period of PC samples has ended (R390): of a core that issues, PPER cycles; of one that waits or sleeps the model counts
none (log 68). -/
def Core.sampleDue (c : Core) : Bool :=
  decide (c.run ≠ .running) || c.wait.isSome || c.held || decide (c.clk.sampAt + c.clk.period ≤ c.cycle)

/-- A core takes PC samples: it is not halted or quenched, and PEN is set (R390, R391). -/
def Core.samples (c : Core) : Bool := c.clk.samp.bit 0 && decide (c.run ≠ .stopped ∧ c.run ≠ .quenched)

/-- A core writes a PC sample for cycle t, at which its next period begins (R391). -/
def State.pcSample (s : State) (loc t given : Nat) : State :=
  let c := s.coreAt loc
  (s.updCoreAt loc fun c => { c with clk := { c.clk with sampAt := t } }).trace
    (dieOf loc) c.vf (s.vcoreOf loc) c.cur 1 c.pc (s.reason loc t given)

/-- A period of a core ends (R391): after PPER cycles where they have passed. -/
def execPcSample (core reason : Nat) (s : State) : Out :=
  let c := s.coreAt core
  if c.samples && c.sampleDue then
    .next (s.pcSample core (Nat.min c.cycle (c.clk.sampAt + c.clk.period)) reason)
  else .next s

/-- The issuing core takes the PC samples whose periods end before its next instruction issues (R390, R391). -/
def State.periodic (s : State) : State :=
  let c := s.core
  if !c.samples then s
  else
    (List.range ((c.toIssue.cycle - c.clk.sampAt) / c.clk.period)).foldl (fun s _ =>
      let (r, s) := s.free
      s.pcSample s.focus (s.core.clk.sampAt + s.core.clk.period) (r % 18)) s

/-- The oldest sampled request of a core has completed (R392): the event says how long it queued at each hop, and what it
was the core has kept. -/
def execMemorySample (core : Nat) (req : MemSample) (s : State) : Out := .next (s.memSample core req.hops)

/-! Trace writes. -/

/-- The oldest record waiting in a trace buffer is performed at its home, and PUT moves past it; a fault clears EN and is
logged (R387, R388). -/
def execTraceRecordPerformed (die vf : Nat) (s : State) : Out :=
  let b := sget {} (s.dieAt die).trace vf
  let set := fun (s : State) (b : TraceBuf) => s.updDie die fun x => { x with trace := sput {} x.trace vf b }
  match b.queue with
  | [] => .next s
  | r :: rs =>
    let a := b.tbase + word b.put
    match s.saveWrite (s.saveWho die vf 0xFFFF) a (bytesOf r.toNat 16) with
    | (none, s) => .next (set s { b with queue := rs, put := (b.put + 16) % b.tsize.toNat })
    | (some _, s) => .next ((set s { b with queue := [], ctl := b.ctl &&& ~~~1#3 }).logAt die vf 0xFFFF a 8)

/-! Hidden failure. -/

/-- A flit fails its CRC so many times in a row: it is sent again, and from 16 on the link retrains (R399). -/
def execFlitCrcFailure (die fails : Nat) (s : State) : Out :=
  if 16 ≤ fails then .next (s.logAt die 16 0xFFFF 0 11) else .next s

/-- The scrub of the HBM4 word at a physical address: it may be found uncorrectable, or its row is spared (R409). -/
def execHbm4Scrub (word : Nat) (uncorrectable spare : Bool) (s : State) : Out :=
  let pa := word / 8 * 8
  if !isHbm pa then .next s
  else
    let s : State := if uncorrectable ∧ !s.poison.contains pa then { s with poison := s.poison ++ [pa] } else s
    .next (if spare then s.logAt (homeDie pa) 16 0xFFFF (Sys2Proof.word pa) 12 else s)

end Sys2Proof.Machine
end

