-- ==== Sys2Proof/Machine/Background.lean ====
section
/-! DEFINITION. What goes on while the issuing core cannot go on (log 1): the engines beside it take one turn each, so
that what it waits for comes; the turns of the agenda that are no event of the opcode table; and the reset of a core's
issue. -/
namespace Sys2Proof.Machine

/-- The issuing core issues nothing: it is stopped, asleep or quenched, or its clock is off (R33, R172, R349, R374). -/
def Core.idle (c : Core) : Bool := decide (c.run ≠ .running) || c.clk.off

/-- The issuing core stands in an instruction that waits or is held at issue (R97, R376). -/
def Core.stuck (c : Core) : Bool := c.wait.isSome || c.held

/-- The first flight result of a core lands (R132). -/
def Core.landFirst (c : Core) : Core :=
  match c.pend.findIdx? fun p => p.kind = .flight with
  | some k => c.landNth k
  | none => c

/-- Every array of the package that holds a command, or owes an image, takes a step (R240, R251). -/
def State.arrays (s : State) : State :=
  (s.clusters.filter fun k => k.2.array ≠ [] ∨ k.2.toSave ≠ [] ∨ k.2.staged ≠ []).foldl (fun s k => s.arrayTurn k.1) s

/-- Every bank that is switching, or owed a switch, ends it (R82). -/
def State.banks (s : State) : State :=
  s.clusters.foldl (fun s k => (List.range 24).foldl (fun s b => s.settleBank k.1 b) s) s

/-- Every started entry of a die's controller takes a step (R61). -/
def State.entries (s : State) (d : Nat) : State :=
  (s.dieAt d).slots.foldl (fun s k =>
    match k.2 with
    | some t => t.entries.zipIdx.foldl (fun s e => if e.1.status = .started then s.entryStep d k.1 e.2 else s) s
    | none => s) s

/-- The scheduler of a die looks at the counters it waits for, starts and ends a settle, and makes its offers (R285 to
R287, R336). -/
def State.scheduler (s : State) (d : Nat) : State :=
  let s := (s.dieAt d).tasks.zipIdx.foldl (fun s t =>
    match execCounterSatisfied d t.2 s with
    | .next s => s
    | _ => s) s
  let s := s.settleStart d
  let s := match (s.dieAt d).versions.find? fun v => v.settling && !v.settled && !v.faulted with
    | some v => s.settleDone d v
    | none => s
  s.serve d

/-- Something of a core goes on beside its instructions: an atomic, a trip, queued vector instructions, copies or streams. -/
def Core.goesOn (c : Core) : Bool :=
  c.m.atom.isSome || c.eng.trip.isSome || decide (c.queued ≠ 0) || decide (c.eng.cmds ≠ []) || decide (c.eng.streams ≠ [])

/-- What goes on beside a core takes a turn: its atomic and its trip, its copies and streams, and the arbiter of its cluster
where it has queued instructions. -/
def State.beside (s : State) (loc : Nat) : State :=
  let s := (s.performAtom loc).onCore loc State.tripStep
  let s := (List.range 4).foldl (fun s k => s.deliver loc k) (s.copyStep loc)
  if (s.coreAt loc).queued = 0 then s else s.arbitrateV (s.clOf loc) 16

/-- The promotion request of the issuing core is served (R321). -/
def State.servePromo (s : State) : State :=
  match s.promos.find? fun p => decide (p.by_ = s.focus) && !p.replied with
  | some p => s.promote p.target
  | none => s

/-- The engines beside the issuing core take a turn each. -/
def State.engines (s : State) : State :=
  let busy := (s.focus :: s.others.map (·.1)).filter fun loc => (s.coreAt loc).goesOn
  let s := busy.foldl State.beside s
  let s := (s.arrays.banks.entries s.die).servePromo
  let s := (List.range 8).foldl State.scheduler s
  let s := ((s.drainOne s.focus).applyReds fun r => r.core = s.focus).bootCheck
  s.updCore Core.landFirst

/-- What is due at a tick happens before anything else of it: quenches (R349), and every 10,000 ticks the ranks, the budget
and, at multiples of 50,000, the migration decisions (R336, R337, R371), once. -/
def State.due (s : State) : State :=
  let run := fun (s : State) (o : State → Out) => match o s with
    | .next s => s
    | _ => s
  let s := ((List.range 16).filter s.quenchDue).foldl (fun s v => run s (execQuenchTick v)) s
  if s.time % 10000 ≠ 0 ∨ s.epoch = s.time then s
  else
    let s := (List.range 8).foldl (fun s d => run s (execPlacementRank d)) s
    { (run s execBudgetInterval).migrateAll with epoch := s.time }

/-- The next tick. -/
def State.tick (s : State) : State := (s.pass 1).due

/-- A sleep ends at its deadline (R172). -/
def State.sleepEnds (s : State) : State :=
  match s.core.run with
  | .asleep (some t) => if t ≤ s.time then s.updCore Core.wake else s
  | _ => s

/-- What comes before the issuing core's turn: the engines' turn, where it does not go on by itself, or else the PC samples that
are due (R391). -/
def State.background (s : State) : State :=
  if s.core.idle then s.engines.sleepEnds
  else if s.core.stuck then s.engines
  else s.periodic

/-- An uncorrectable error in a double of cluster SRAM (R409). -/
def State.spoil (s : State) (k : Nat) : State := if s.poison.contains k then s else { s with poison := s.poison ++ [k] }

/-- A turn of the agenda that is no event of the opcode table. -/
def State.turn (s : State) : Turn → Out
  | .event _ => .next s
  | .focus loc => if isCore loc then .next (s.refocus loc) else .fault .noSuchCore
  | .tick n => .next (s.pass n).due
  | .evict d line => .next ((s.writeBack d line).dropCopy d line)
  | .tlbDrop d k => .next (s.updDie d fun x => { x with tlb := x.tlb.eraseIdx k })
  | .icacheDrop loc k => .next (s.updCoreAt loc fun c => { c with m := { c.m with icache := c.m.icache.eraseIdx k } })
  | .sense d row h => .next (s.updDie d fun x => { x with headroom := sput 0 x.headroom row h })
  | .slotError loc n => .next (if n < 16384 then s.updCoreAt loc fun c => { c with bad := n :: c.bad.filter (· ≠ n) } else s)
  | .wayDrop clu k => .next (match (s.clAt clu).ways[k]? with
    | some l => s.dropLines (clu / 64) fun c x => decide (c = clu ∧ x = l)
    | none => s)
  | .refuse ep r => .next { s with fabric := { s.fabric with
      refuses := s.fabric.refuses.filter (· ≠ ep) ++ (if r then [ep] else []) } }
  | .bootCheck => .next s.bootCheck
  | .accError clu m => .next (s.updAcc clu m fun a => { a with bad := true })
  | .sramError clu off => .next (if off < 0x600000 then s.spoil (scratchKey clu (off / 8 * 8)) else s)

/-- The parcels that a core has latched. -/
def Core.latched (c : Core) : List Nat := (parcelsOf c.ibits.toNat).take c.ilen

/-- The parcels of the instruction at the PC, latched; or the answer to a fetch that failed. An instruction that waits or
is held is not fetched again. -/
def State.fetched (s : State) : Except Out (List Nat × State) :=
  if s.core.stuck then .ok (s.core.latched, s)
  else
    match s.fetch with
    | (.error e, s) => .error (s.fetchTrap e)
    | (.ok ps, s) => .ok (ps, s.latch ps)

/-! Where a program comes to stand (log 9). -/

/-- The address of the ASID table, of the two page tables and of the code that `withCode` places. -/
def codeTables : Nat × Nat × Nat := (0x100000, 0x200000, 0x210000)

/-- The cells of a double. -/
def cells8 (pa : Nat) (v : Nat) : List Host.Cell := cellsAt pa (bytesOf v 8)

/-- The issuing core is ready to fetch at PC 0, which its VF's tables map to PA 0, and the bytes of an instruction stand
there. -/
def State.withCode (s : State) (bs : List Byte) : State :=
  let (at_, l0, l1) := codeTables
  let asid := 8 * s.core.asid
  let cs := cells8 (at_ + asid) (l0 + 1) ++ cells8 l0 (l1 + 1) ++ cells8 l1 0x3F ++ cellsAt 0 bs
  let s := s.updDie s.die fun d => { d with troot := sput 0 d.troot s.core.vf (word (at_ + 1)), tlb := [] }
  { s with
    agenda := [], mem := memPuts s.mem cs
    core := { s.core with
      pc := 0, run := .running, wait := none, held := false, seen := [], clk := { s.core.clk with off := false }
      m := { s.core.m with icache := [] } } }

end Sys2Proof.Machine
end

