-- ==== Sys2Proof/Machine/Branch.lean ====
section
/-! DEFINITION. Branches and jumps: majors 0x0E, 0x10, 0x11 and 0x12 (R159). -/
namespace Sys2Proof.Machine

/-- The target of a displacement in halves (R19). -/
def Core.target (c : Core) {w : Nat} (disp : BitVec w) : Word := c.pc + 2 * disp.signExtend 64

/-- Branch on a condition of X(A) (R159). -/
def State.branch (f : Word → Bool) (a : Nat) (disp : BitVec 13) (stl : Nat) (s : State) : Out :=
  s.issue { xs := [a], gate := false } fun s =>
    if f (s.core.x a) then s.retireTo (s.core.target disp) stl else s.retire 4 stl

/-- `beqz` (R159). -/
def execBeqz (a : Nat) (imm : BitVec 13) (stl : Nat) (s : State) : Out := s.branch (fun a => a == 0) a imm stl

/-- `bnez` (R159). -/
def execBnez (a : Nat) (imm : BitVec 13) (stl : Nat) (s : State) : Out := s.branch (fun a => a != 0) a imm stl

/-- `bltz` (R159). -/
def execBltz (a : Nat) (imm : BitVec 13) (stl : Nat) (s : State) : Out := s.branch (fun a => a.slt 0) a imm stl

/-- `bgez` (R159). -/
def execBgez (a : Nat) (imm : BitVec 13) (stl : Nat) (s : State) : Out := s.branch (fun a => !a.slt 0) a imm stl

/-- `blez` (R159). -/
def execBlez (a : Nat) (imm : BitVec 13) (stl : Nat) (s : State) : Out := s.branch (fun a => a.sle 0) a imm stl

/-- `bgtz` (R159). -/
def execBgtz (a : Nat) (imm : BitVec 13) (stl : Nat) (s : State) : Out := s.branch (fun a => !a.sle 0) a imm stl

/-- `dbnz` (R159): X(A) := X(A) − 1, tracked by the scoreboard; branch where the new value is not zero. -/
def execDbnz (a : Nat) (imm : BitVec 13) (stl : Nat) (s : State) : Out :=
  s.issue { xs := [a], xd := [a], gate := false } fun s =>
    let v := s.core.x a - 1
    let t := s.core.target imm
    let s := s.updCore fun c => c.setXVar a v
    if v ≠ 0 then s.retireTo t stl else s.retire 4 stl

/-- `j` (R159). -/
def execJ (imm : BitVec 22) (stl : Nat) (s : State) : Out :=
  s.issue { gate := false } fun s => s.retireTo (s.core.target imm) stl

/-- `call` (R159). -/
def execCall (imm : BitVec 22) (stl : Nat) (s : State) : Out :=
  s.issue { xd := [63], gate := false } fun s =>
    let t := s.core.target imm
    (s.updCore fun c => c.setX 63 (c.pc + 4)).retireTo t stl

/-- `jr` (R159). -/
def execJr (a stl : Nat) (s : State) : Out :=
  s.issue { xs := [a], gate := false } fun s =>
    let t := s.core.x a
    if t.bit 0 then s.trap 6 t else s.retireTo t stl

/-- `callr` (R159): a call through `ln` jumps to its old value. -/
def execCallr (a stl : Nat) (s : State) : Out :=
  s.issue { xs := [a], xd := [63], gate := false } fun s =>
    let t := s.core.x a
    if t.bit 0 then s.trap 6 t else (s.updCore fun c => c.setX 63 (c.pc + 4)).retireTo t stl

end Sys2Proof.Machine
end

