-- ==== Sys2Proof/Machine/Control.lean ====
section
/-! DEFINITION. Device control space, path 9: where each register lies, who may read and write it (R5 to R7), its reads
and its writes (R51, R52, R314, R341 to R344, R348, R357, R361, R364, R370 to R373, R379, R387, R390, R398, R400, R401,
R406, R408, R411). -/
namespace Sys2Proof.Machine

/-- The registers of device control space. `d` is a compute die, `v` a VF, `k` a double of a block, `loc` a core,
`clu` a cluster. -/
inductive Reg where
  | hsup (d v : Nat) | haltQ (d v k : Nat) | faultQ (d v k : Nat) | errLog (d v k : Nat)
  | troot (d v : Nat) | inv (d v k : Nat)
  | stagedL (d c : Nat) | commit (d : Nat) | slices (d c : Nat) | owner (d v k : Nat) | ways (d v sl : Nat)
  | corecmd (loc : Nat) | doorbell (loc : Nat) | corevf (loc : Nat) | orphrel (clu : Nat)
  | weight (clu e : Nat) | estimate (clu : Nat) | coreclk (loc : Nat) | rowv (d row : Nat) | sparectl (d : Nat)
  | sampctl (loc : Nat) | trace (d v k : Nat)
  | vfpol (v : Nat) | qtick (v : Nat) | qctl (v : Nat) | save (v k : Nat) | budget | remap (v : Nat)
  | endpt | hostep | froute (e : Nat) | rate (p : Nat) | queue (q k : Nat) | boot (k : Nat)
  | ioOwn (u v k : Nat)
deriving DecidableEq, Repr

/-- A block of n entries of `size` bytes at a base: the entry and the double of it that an offset names. -/
def slotIn (off base size n : Nat) : Option (Nat × Nat) :=
  if base ≤ off ∧ off < base + size * n then some ((off - base) / size, (off - base) % size / 8) else none

/-- The first block that an offset lies in, and whose double f admits. -/
def firstReg : List (Option (Nat × Nat) × (Nat → Nat → Option Reg)) → Option Reg
  | [] => none
  | (some x, f) :: rest => match f x.1 x.2 with
    | some r => some r
    | none => firstReg rest
  | (none, _) :: rest => firstReg rest

/-- A register where its double lies below a bound. -/
def below (k n : Nat) (r : Reg) : Option Reg := if k < n then some r else none

/-- The register at an offset of compute die d. -/
def dieReg (d off : Nat) : Option Reg :=
  firstReg [
    (slotIn off 0x000200 8 16, fun v _ => some (.hsup d v)),
    (slotIn off 0x010000 0x40 16, fun v k => below k 7 (.haltQ d v k)),
    (slotIn off 0x020000 0x100 16, fun v k => below k 26 (.faultQ d v k)),
    (slotIn off 0x030000 0x40 17, fun v k => if k = 3 then none else below k 6 (.errLog d v k)),
    (slotIn off 0x040000 8 16, fun v _ => some (.troot d v)),
    (slotIn off 0x041000 0x20 16, fun v k => some (.inv d v k)),
    (slotIn off 0x050000 8 64, fun c _ => some (.stagedL d c)),
    (slotIn off 0x050200 8 1, fun _ _ => some (.commit d)),
    (slotIn off 0x050400 8 64, fun c _ => some (.slices d c)),
    (slotIn off 0x060000 0x40 16, fun v k => below k 5 (.owner d v k)),
    (slotIn off 0x070000 0x100 16, fun v k => some (.ways d v k)),
    (slotIn off 0x080000 8 272, fun n _ => some (.corecmd (512 * d + n))),
    (slotIn off 0x081000 8 272, fun n _ => some (.doorbell (512 * d + n))),
    (slotIn off 0x082000 8 272, fun n _ => some (.corevf (512 * d + n))),
    (slotIn off 0x090000 8 32, fun k _ => some (.orphrel (64 * d + k))),
    (slotIn off 0x0A0000 0x200 32, fun k e => below e 48 (.weight (64 * d + k) e)),
    (slotIn off 0x0A4000 8 32, fun k _ => some (.estimate (64 * d + k))),
    (slotIn off 0x0B0000 8 272, fun n _ => some (.coreclk (512 * d + n))),
    (slotIn off 0x0B1000 8 16, fun r _ => some (.rowv d r)),
    (slotIn off 0x0D1000 8 1, fun _ _ => some (.sparectl d)),
    (slotIn off 0x0E0000 8 272, fun n _ => some (.sampctl (512 * d + n))),
    (slotIn off 0x0F0000 0x40 16, fun v k => below k 6 (.trace d v k))]

/-- The register at an offset of I/O die 8, but for those both I/O dies have. -/
def hubReg (off : Nat) : Option Reg :=
  firstReg [
    (slotIn off 0x010000 8 16, fun v _ => some (.vfpol v)),
    (slotIn off 0x010100 16 16, fun v k => some (if k = 0 then .qtick v else .qctl v)),
    (slotIn off 0x010200 32 16, fun v k => below k 3 (.save v k)),
    (slotIn off 0x0C0000 8 1, fun _ _ => some .budget),
    (slotIn off 0x0D0000 8 2048, fun v _ => some (.remap v)),
    (slotIn off 0x100000 8 1, fun _ _ => some .endpt),
    (slotIn off 0x100008 8 1, fun _ _ => some .hostep),
    (slotIn off 0x100800 8 256, fun e _ => some (.froute e)),
    (slotIn off 0x101000 8 16, fun p _ => some (.rate p)),
    (slotIn off 0x110000 32 1024, fun q k => some (.queue q k)),
    (slotIn off 0x120000 0x400 1, fun _ k =>
      if k < 4 ∨ (8 ≤ k ∧ k < 48) ∨ 64 ≤ k then some (.boot k) else none)]

/-- The register at an offset of a unit die (R36): none where none is assigned. -/
def regAt (unit off : Nat) : Option Reg :=
  if unit < 8 then dieReg unit off
  else if unit < 10 then
    match slotIn off 0x060000 0x40 16 with
    | some (v, k) => below k 2 (.ioOwn (unit - 8) v k)
    | none => if unit = 8 then hubReg off else none
  else none

/-! Rights (R7). -/

/-- How a compute-die core in supervisor mode is admitted to a register: read and write by a core of VF v; by a core
whose VF owns the cluster of a core; read by a core of VF v; or not. -/
inductive Gate where
  | vf (v : Nat) | owner (loc : Nat) | readVf (v : Nat) | closed
deriving DecidableEq, Repr

/-- The gate of a register (R7). -/
def Reg.gate : Reg → Gate
  | .hsup _ v | .haltQ _ v _ | .faultQ _ v _ | .inv _ v _ | .trace _ v _ => .vf v
  | .errLog _ v _ => if v < 16 then .vf v else .closed
  | .sampctl loc | .doorbell loc => .owner loc
  | .troot _ v | .owner _ v _ | .ways _ v _ | .vfpol v | .qtick v | .qctl v | .save v _ | .ioOwn _ v _ => .readVf v
  | .stagedL _ _ | .commit _ | .slices _ _ | .corecmd _ | .corevf _ | .orphrel _ | .weight _ _ | .estimate _
  | .coreclk _ | .rowv _ _ | .sparectl _ | .budget | .remap _ | .endpt | .hostep | .froute _ | .rate _ | .queue _ _
  | .boot _ => .closed

/-- A core of VF vf is admitted; hypervisor rights (none) reach every register. -/
def State.admits (s : State) (vf : Option Nat) (write : Bool) (r : Reg) : Bool :=
  match vf with
  | none => true
  | some vf =>
    match r.gate with
    | .vf v => decide (v = vf)
    | .owner loc => (sget {} (s.dieAt (dieOf loc)).own vf).clusters.getLsbD (s.clNum loc)
    | .readVf v => !write && decide (v = vf)
    | .closed => false

/-! Reads. -/

/-- A double of a wide register. -/
def dbl {w : Nat} (v : BitVec w) (k : Nat) : Word := word (fld v.toNat (64 * k) 64)

/-- A double of a halt queue (R342). -/
def HaltQueue.get (q : HaltQueue) (k : Nat) : Word :=
  match k with
  | 5 => word q.entries.length
  | 6 => q.lost.setWidth 64
  | k => match q.entries.head? with
    | some e => if k = 4 then e.desc else dbl e.msg k
    | none => 0

/-- A double of a fault queue (R344). -/
def FaultQueue.get (q : FaultQueue) (k : Nat) : Word :=
  match k with
  | 24 => word q.records.length
  | 25 => q.lost.setWidth 64
  | k => match q.records.head? with
    | some r => dbl r k
    | none => 0

/-- A double of an error log (R408). -/
def ErrLog.get (l : ErrLog) (k : Nat) : Word :=
  match k with
  | 4 => word l.entries.length
  | 5 => l.lost.setWidth 64
  | k => match l.entries.head? with
    | some e =>
      if k = 0 then e.addr else if k = 1 then e.time
      else word (put e.vcore 32 16 + put e.vf 16 4 + put e.code 0 8)
    | none => 0

/-- A double of an invalidate block (R51). -/
def InvBlock.get (b : InvBlock) (k : Nat) : Word :=
  match k with
  | 0 => b.va
  | 1 => b.len
  | 2 => b.cmd
  | _ => word (b2n b.run.isSome)

/-- A double of the resources a VF owns (R52). -/
def Own.get (o : Own) (k : Nat) : Word :=
  match k with
  | 0 => o.clusters.setWidth 64
  | 1 => o.slices.setWidth 64
  | 2 => o.pchan
  | 3 => o.tongs.setWidth 64
  | _ => word (b2n o.exec)

/-- A double of a trace block (R387). -/
def TraceBuf.dbl (b : TraceBuf) (k : Nat) : Word :=
  match k with
  | 0 => b.tbase
  | 1 => b.tsize.setWidth 64
  | 2 => word b.put
  | 3 => b.get.setWidth 64
  | 4 => b.dropped.setWidth 64
  | _ => b.ctl.setWidth 64

/-- A double of a request queue (R400). -/
def Queue.get (q : Queue) (k : Nat) : Word :=
  match k with
  | 0 => q.rbase
  | 1 => word q.rsize
  | 2 => q.tail.setWidth 64
  | _ => q.head.setWidth 64

/-- A double of the boot and attestation registers (R406). -/
def Boot.get (b : Boot) (k : Nat) : Word :=
  if k = 0 then word b.stat
  else if k = 3 then word (b2n b.attDone)
  else if k < 8 then 0
  else if k < 16 then dbl b.nonce (k - 8)
  else if k < 48 then dbl b.rep (k - 16)
  else dbl b.sig (k - 64)

/-- CORECMD, CORECLK of a core (R361, R373). -/
def Ctx.cmdWord (x : Ctx) : Word := word (put x.cmdCode 8 8 + put (b2n x.cmdBusy) 4 1 + put x.cmdOp 0 4)
def State.clkWord (s : State) (loc : Nat) : Word :=
  let k := (s.coreAt loc).clk
  word (put (b2n k.pend.isSome) 9 1 + put (b2n k.off) 8 1 + put (s.divOf loc) 0 4)

/-- A register of the hypervisor's common block (R348, R357, R371, R379, R398). -/
def State.hubGet (s : State) : Reg → Word
  | .vfpol v => let p := sget {} s.vfpol v; word (b2n p.tenant + put (b2n p.clamped) 1 1)
  | .qtick v => (sget {} s.quench v).tick
  | .qctl v => let q := sget {} s.quench v; word (put q.status 4 4 + b2n q.go)
  | .save v k =>
    let r := sget {} s.save v
    if k = 0 then r.sbase else if k = 1 then word r.sasid else r.livetab
  | .budget => word s.budget
  | .remap v => let r := s.remapAt v; word (put (b2n r.valid) 63 1 + put (dieOf r.loc) 16 4 + put (numOf r.loc) 0 9)
  | .endpt => word (put (b2n s.fabric.lock) 8 1 + put s.fabric.endpt 0 8)
  | .hostep => word s.fabric.hostep
  | .froute e => word (put (b2n (sget none s.fabric.route e).isSome) 63 1 + put (sget 0 s.fabric.sel e) 0 4)
  | .rate p => word (put (b2n s.fabric.rateLock) 16 1 + put (sget 0 s.fabric.rate p) 0 16)
  | .queue q k => (sget {} s.queues q).get k
  | .boot k => s.boot.get k
  | .ioOwn u v k =>
    let b := sget 0 s.ioOwn (ioKey u v)
    word (if k = 0 then fld b.toNat 0 8 else fld b.toNat 8 1)
  | _ => 0

/-- The value a register reads (R5, R6). -/
def State.regGet (s : State) (r : Reg) : Word :=
  match r with
  | .hsup d v => sget 0 (s.dieAt d).hsup v
  | .haltQ d v k => (sget {} (s.dieAt d).haltQ v).get k
  | .faultQ d v k => (sget {} (s.dieAt d).faultQ v).get k
  | .errLog d v k => (sget {} (s.dieAt d).errLog v).get k
  | .troot d v => sget 0 (s.dieAt d).troot v
  | .inv d v k => (sget {} (s.dieAt d).inv v).get k
  | .stagedL d c => word (sget 6 (s.dieAt d).stagedL c)
  | .commit d => word (b2n (s.dieAt d).commitRefused)
  | .slices d c => (sget (BitVec.allOnes 32) (s.dieAt d).slices c).setWidth 64
  | .owner d v k => (sget {} (s.dieAt d).own v).get k
  | .ways d v sl => (sget 0 (s.dieAt d).ways (32 * v + sl)).setWidth 64
  | .corecmd loc => (s.coreAt loc).ctx.cmdWord
  | .corevf loc => word (s.coreAt loc).vf
  | .weight clu e => (weightIn (s.clAt clu).weights clu e).setWidth 64
  | .estimate clu => (s.clAt clu).estimate.setWidth 64
  | .coreclk loc => s.clkWord loc
  | .rowv d row => word (s.level8 d row)
  | .sampctl loc => (s.coreAt loc).clk.samp
  | .trace d v k => (sget {} (s.dieAt d).trace v).dbl k
  | .doorbell _ | .orphrel _ | .sparectl _ => 0
  | r => s.hubGet r

/-! Writes. -/

/-- Clear the bits of a W1C count that are written one (R5). -/
def clear32 (old : BitVec 32) (v : Word) : BitVec 32 := old &&& ~~~(v.setWidth 32)

/-- Set a bitmap of a VF on a die (R52): none where it would take a bit of another VF. -/
def Die.setOwn (x : Die) (v k : Nat) (w : Word) : Option Die :=
  let mine := sget {} x.own v
  let new : Own := match k with
    | 0 => { mine with clusters := w.setWidth 32 }
    | 1 => { mine with slices := w.setWidth 32 }
    | 2 => { mine with pchan := w }
    | 3 => { mine with tongs := w.setWidth 32 }
    | _ => { mine with exec := w.bit 0 }
  if (List.range 16).any fun u => u ≠ v ∧ (sget {} x.own u).get k &&& new.get k ≠ 0 then none
  else some { x with own := sput {} x.own v new }

/-- Set a bitmap of a VF on an I/O die (R52). -/
def State.setIoOwn (s : State) (u v k : Nat) (w : Word) : Option State :=
  let old := sget 0 s.ioOwn (ioKey u v)
  let new : BitVec 9 := BitVec.ofNat 9 (if k = 0 then fld old.toNat 8 1 * 256 + w.bits 0 8 else put (w.bits 0 1) 8 1 + fld old.toNat 0 8)
  if (List.range 16).any fun x => x ≠ v ∧ sget 0 s.ioOwn (ioKey u x) &&& new ≠ 0 then none
  else some { s with ioOwn := sput 0 s.ioOwn (ioKey u v) new }

/-- A command of an invalidate block covers a translation of an ASID, global or not, of `size` bytes at `base` (R51). -/
def invCovers (va len cmd : Word) (asid : Nat) (global : Bool) (base size : Nat) : Bool :=
  (cmd.bit 16 || decide (asid = cmd.bits 0 16) || global) &&
    (decide (len = 0) || meets base size (va.toNat / 4096 * 4096) ((len.toNat + 4095) / 4096 * 4096))

/-- Every access of a VF's cores on a die that has been translated is performed (R49); an `acqp` that still waits is to
translate its address, and ask for its promotion, again. -/
def State.performAll (s : State) (d v : Nat) : State :=
  let mine := (s.focus :: s.others.map (·.1)).filter fun loc => decide (dieOf loc = d ∧ (s.coreAt loc).vf = v)
  let s := mine.foldl (fun s loc => ((s.performAtom loc).drainAll loc).dropPromos loc) s
  ((s.sendCombs fun c => c.vf = v).applyReds fun r => decide (r.vf = v ∧ dieOf r.core = d)).applyFStores fun r =>
    decide (r.vf = v ∧ dieOf r.core = d)

/-- The running command of an invalidate block has met every condition of R49: the accesses translated by the old entry are
performed, the lines of the cluster ways that it covers are written back and dropped, and so are the translations. -/
def State.invalidateDone (s : State) (d v : Nat) : State :=
  match (sget {} (s.dieAt d).inv v).run with
  | none => s
  | some (va, len, cmd) =>
    let tlb := fun (e : TlbEntry) =>
      let size := leafSize e.pte e.level
      decide (e.vf = v) && invCovers va len cmd e.asid (e.pte.bit 6) (e.vpn * 4096 / size * size) size
    let line := fun (l : WayLine) => decide (l.vf = v) && invCovers va len cmd l.asid (l.pte.bit 6) (64 * l.line) 64
    ((s.performAll d v).dropLines d fun _ l => line l).updDie d fun x => { x with
      tlb := x.tlb.filter fun e => !tlb e, inv := supd {} x.inv v fun b => { b with run := none } }

/-- A write of an invalidate block (R51): one of CMD waits for an earlier command to end, and starts the invalidation of the
range as it stands. -/
def State.setInv (s : State) (d v k : Nat) (w : Word) : State :=
  let upd := fun (s : State) (f : InvBlock → InvBlock) => s.updDie d fun x => { x with inv := supd {} x.inv v f }
  match k with
  | 0 => upd s fun b => { b with va := w }
  | 1 => upd s fun b => { b with len := w }
  | 2 => upd (s.invalidateDone d v) fun b =>
    { b with cmd := w &&& 0x1FFFF#64, run := some (b.va, b.len, w &&& 0x1FFFF#64) }
  | _ => s

/-- A write of a trace block (R387). -/
def TraceBuf.set (b : TraceBuf) (k : Nat) (w : Word) : TraceBuf :=
  match k with
  | 0 => { b with tbase := w }
  | 1 => { b with tsize := w.setWidth 32 }
  | 3 => { b with get := w.setWidth 32 }
  | 4 => { b with dropped := clear32 b.dropped w }
  | 5 => { b with ctl := w.setWidth 3 }
  | _ => b

/-- FROUTE (R398): the combining entries open for the endpoint are sent first. -/
def State.frouteSet (s : State) (e : Nat) (w : Word) : State :=
  let s := s.sendCombs fun c => endptOf c.pa = e
  { s with fabric := { s.fabric with
    sel := sput 0 s.fabric.sel e (w.bits 0 4)
    route := sput none s.fabric.route e (if w.bit 63 then some (w.bits 0 4) else none) } }

/-- CORECMD (R361). -/
def State.corecmdSet (s : State) (loc : Nat) (w : Word) : State :=
  match w.bits 0 4 with
  | 1 => s.continueSpill loc
  | 2 => s.restore loc (w.bits 48 16)
  | 3 => s.runInPlace loc (w.bits 48 16)
  | _ => s

/-- Writes of the hypervisor's common block: none where one is refused (R314, R348, R357, R371, R379, R398, R400, R406). -/
def State.hubSet (s : State) (r : Reg) (w : Word) : Option State :=
  match r with
  | .vfpol v => some { s with vfpol := supd {} s.vfpol v fun p => { tenant := w.bit 0, clamped := p.clamped && !w.bit 1 } }
  | .qtick v => some { s with quench := supd {} s.quench v fun q => { q with tick := w } }
  | .qctl v => some (if w.bit 0 then s.quenchGo v (sget {} s.quench v).tick.toNat else s)
  | .save v k => some { s with save := supd {} s.save v fun r =>
      if k = 0 then { r with sbase := w } else if k = 1 then { r with sasid := w.bits 0 16 } else { r with livetab := w } }
  | .budget => some { s with budget := Nat.min (w.bits 0 16) 3200 }
  | .remap v => s.remapPut v w
  | .endpt => if s.fabric.lock then none else some { s with fabric := { s.fabric with endpt := w.bits 0 8 } }
  | .hostep => if s.fabric.lock then none else some { s with fabric := { s.fabric with hostep := w.bits 0 8 } }
  | .froute e => some (s.frouteSet e w)
  | .rate p =>
    if s.fabric.rateLock then none
    else some { s with fabric := { s.fabric with rate := sput 0 s.fabric.rate p (w.bits 0 16) } }
  | .queue q k =>
    match k with
    | 0 => some { s with queues := supd {} s.queues q fun x => { x with rbase := w } }
    | 1 => some { s with queues := supd {} s.queues q fun x => { x with rsize := w.bits 0 17 } }
    | 2 => some (s.setTail q (w.setWidth 32))
    | _ => some s
  | .boot k =>
    if k = 1 then some (if w.bit 0 then s.bootGo else s)
    else if k = 2 then some (if w.bit 0 then s.attGo else s)
    else if 8 ≤ k ∧ k < 16 then
      let n := s.boot.nonce.toNat
      some { s with boot := { s.boot with
        nonce := BitVec.ofNat 512 (n - put (fld n (64 * (k - 8)) 64) (64 * (k - 8)) 64 + put w.toNat (64 * (k - 8)) 64) } }
    else some s
  | .ioOwn u v k => s.setIoOwn u v k w
  | _ => some s

/-- Writes of the queues and logs of a die (R342, R344, R408): a write of the count removes the head. -/
def State.queueSet (s : State) (r : Reg) (w : Word) : State :=
  match r with
  | .haltQ d v 5 => s.updDie d fun x => { x with haltQ := supd {} x.haltQ v fun q => { q with entries := q.entries.drop 1 } }
  | .haltQ d v 6 => s.updDie d fun x => { x with haltQ := supd {} x.haltQ v fun q => { q with lost := clear32 q.lost w } }
  | .faultQ d v 24 => s.updDie d fun x => { x with faultQ := supd {} x.faultQ v fun q => { q with records := q.records.drop 1 } }
  | .faultQ d v 25 => s.updDie d fun x => { x with faultQ := supd {} x.faultQ v fun q => { q with lost := clear32 q.lost w } }
  | .errLog d v 4 => s.updDie d fun x => { x with errLog := supd {} x.errLog v fun q => { q with entries := q.entries.drop 1 } }
  | .errLog d v 5 => s.updDie d fun x => { x with errLog := supd {} x.errLog v fun q => { q with lost := clear32 q.lost w } }
  | _ => s

/-- A write of a register: the state, or none where it is refused with an error response (R5 to R7 and each register's
own rule). -/
def State.regSet (s : State) (r : Reg) (w : Word) : Option State :=
  match r with
  | .hsup d v => some (s.updDie d fun x => { x with hsup := sput 0 x.hsup v (w &&& 0x800000000000FFFF#64) })
  | .haltQ _ _ _ | .faultQ _ _ _ | .errLog _ _ _ => some (s.queueSet r w)
  | .troot d v => some (s.updDie d fun x => { x with troot := sput 0 x.troot v (w &&& 0x000FFFFFFFFFF001#64) })
  | .inv d v k => some (s.setInv d v k w)
  | .stagedL d c => some (s.updDie d fun x => { x with stagedL := sput 6 x.stagedL c (w.bits 0 3) })
  | .commit d =>
    if !w.bit 0 then some s
    else match s.commit d with
      | some s => some s
      | none => none
  | .slices d c =>
    if !(s.dieAt d).slicesOk c (w.setWidth 32) then none
    else some (s.updDie d fun x => { x with slices := sput (BitVec.allOnes 32) x.slices c (w.setWidth 32) })
  | .owner d v k => ((s.dieAt d).setOwn v k w).map fun x => s.setDie d x
  | .ways d v sl => some (s.updDie d fun x => { x with ways := sput 0 x.ways (32 * v + sl) (w.setWidth 16) })
  | .corecmd loc => some (s.corecmdSet loc w)
  | .doorbell loc => some (s.updCoreAt loc Core.wake)
  | .corevf loc => s.corevf loc (w.bits 0 4)
  | .orphrel clu => some (s.orphrel (clu / 64) (clu % 64) w)
  | .weight clu e => some (s.updCl clu fun k => { k with weights := sput none k.weights e (some (w.setWidth 16)) })
  | .coreclk loc => s.coreclk loc w
  | .rowv d row => s.rowvPut d row w
  | .sparectl d => s.spare d w
  | .sampctl loc => some (s.updCoreAt loc fun c =>
    { c with
      clk := { c.clk with samp := w &&& 0x00FFFF00FFFFFF03#64, sampAt := c.cycle }, obs := { c.obs with reqs := 0 } })
  | .trace d v k => some (s.updDie d fun x => { x with trace := supd {} x.trace v (·.set k w) })
  | .estimate _ => some s
  | r => s.hubSet r w

/-- A refused COMMIT leaves its mark (R52). -/
def State.refused (s : State) (r : Reg) : State :=
  match r with
  | .commit d => s.updDie d fun x => { x with commitRefused := true }
  | _ => s

/-- A double of device control space is read by a core of VF vf, or with hypervisor rights: the value, or the code of an
error response (R7, R39, R408). -/
def State.ctlRead (s : State) (vf : Option Nat) (unit off : Nat) : Except Nat Word :=
  match regAt unit off with
  | none => .error 7
  | some r => if s.admits vf false r then .ok (s.regGet r) else .error 6

/-- A double of device control space is written: the code of an error response, if any, and the state. -/
def State.ctlWrite (s : State) (vf : Option Nat) (unit off : Nat) (w : Word) : Option Nat × State :=
  match regAt unit off with
  | none => (some 7, s)
  | some r =>
    if !s.admits vf true r then (some 6, s)
    else
      match s.regSet r w with
      | some s => (none, s)
      | none => (some 6, s.refused r)

/-! The events that are writes with hypervisor rights, or by the register's own users. -/

/-- The path-9 address of a register. -/
def ctlAddr (unit off : Nat) : Word := word (put 9 60 4 + put unit 24 4 + put off 0 24)

/-- The boot and attestation registers (R406). -/
def isBootReg (unit off : Nat) : Bool := decide (unit = 8 ∧ 0x120000 ≤ off ∧ off < 0x120400)

/-- A write with hypervisor rights; a refused one is logged for firmware (R39, R408). Until the service cores run, the boot
registers alone are written (R402). -/
def State.hvWrite (s : State) (unit off : Nat) (w : Word) : State :=
  if s.boot.stat ≠ 2 ∧ !isBootReg unit off then s
  else
  match s.ctlWrite none unit off w with
  | (none, s) => s
  | (some c, s) => s.logAt (if unit < 8 then unit else 0) 16 0xFFFF (ctlAddr unit off) c

/-- The head entry of a halt queue is removed (R342). -/
def execHaltQueueRemove (die vf : Nat) (s : State) : Out := .next (s.hvWrite die (0x010000 + 0x40 * vf + 0x28) 0)

/-- The head record of a fault queue is removed (R344). -/
def execFaultQueueRemove (die vf : Nat) (s : State) : Out := .next (s.hvWrite die (0x020000 + 0x100 * vf + 0xC0) 0)

/-- The head entry of an error log is removed (R408). -/
def execErrorLogRemove (die log : Nat) (s : State) : Out := .next (s.hvWrite die (0x030000 + 0x40 * log + 0x20) 0)

/-- CMD of an invalidate block is written (R51). -/
def execInvalidateCmd (die vf : Nat) (cmd : BitVec 64) (s : State) : Out :=
  .next (s.hvWrite die (0x041000 + 0x20 * vf + 0x10) cmd)

/-- An invalidation has met its conditions (R49, R51). -/
def execInvalidateComplete (die vf : Nat) (s : State) : Out := .next (s.invalidateDone die vf)

/-- COMMIT is written (R52). -/
def execCommit (die : Nat) (s : State) : Out := .next (s.hvWrite die 0x050200 1)

/-- An ownership bitmap is written (R52). -/
def execOwnershipBitmapWrite (unit off : Nat) (val : BitVec 64) (s : State) : Out :=
  .next (if 0x060000 ≤ off ∧ off < 0x060400 then s.hvWrite unit off val else s)

/-- COREVF is written (R52). -/
def execCorevfWrite (core vf : Nat) (s : State) : Out :=
  .next (s.hvWrite (dieOf core) (0x082000 + 8 * numOf core) (word vf))

/-- A remap entry is written (R379). -/
def execRemapWrite (v : Nat) (val : BitVec 64) (s : State) : Out := .next (s.hvWrite 8 (0x0D0000 + 8 * v) val)

/-- SPARECTL is written (R411). -/
def execSparectl (die : Nat) (val : BitVec 64) (s : State) : Out := .next (s.hvWrite die 0x0D1000 val)

/-- The package budget is written (R371). -/
def execPackageBudgetWrite (val : BitVec 64) (s : State) : Out := .next (s.hvWrite 8 0x0C0000 val)

/-- CORECLK is written (R373). -/
def execCoreclkWrite (core : Nat) (val : BitVec 64) (s : State) : Out :=
  .next (s.hvWrite (dieOf core) (0x0B0000 + 8 * numOf core) val)

/-- ROWV is written (R373). -/
def execRowvWrite (die row : Nat) (val : BitVec 64) (s : State) : Out := .next (s.hvWrite die (0x0B1000 + 8 * row) val)

/-- FROUTE is written (R398). -/
def execFrouteWrite (ep : Nat) (val : BitVec 64) (s : State) : Out := .next (s.hvWrite 8 (0x100800 + 8 * ep) val)

/-- A register with no row of its own is written with hypervisor rights (R5). -/
def execRegisterWrite (unit off : Nat) (val : BitVec 64) (s : State) : Out := .next (s.hvWrite unit off val)

/-! The fabric endpoint (R397). -/

/-- An access from the fabric to HBM4 at its home. -/
def State.fabricMem (s : State) (pa size : Nat) (op : FabricOp) : Option Nat × State :=
  match s.physErr pa size, op with
  | some c, .write data => if c = 2 then let (s, e) := s.write (cellsAt pa data); (if e then some 2 else none, s) else (some c, s)
  | some c, _ => (some c, s)
  | none, .read => (none, s)
  | none, .write data => let (s, e) := s.write (cellsAt pa data); (if e then some 2 else none, s)
  | none, .atomic op dbl b e =>
    let n := if dbl then 8 else 4
    match atomNew op n (natOf (s.bytes pa n)) b.toNat e.toNat with
    | some v => (none, (s.write (cellsAt pa (bytesOf v n))).1)
    | none => (none, s)
  | none, .reduce rop b =>
    let n := ropSize rop
    (none, (s.write (cellsAt pa (bytesOf (comb rop (natOf (s.bytes pa n)) b.toNat) n))).1)

/-- An access from the fabric to device control space: doubles, from HOSTEP, or to the boot registers before boot ends
(R397, R406). -/
def State.fabricCtl (s : State) (src p size : Nat) (op : FabricOp) : Option Nat × State :=
  let unit := p / 2 ^ 24
  let off := p % 2 ^ 24
  let early := isBootReg unit off
  if size ≠ 8 ∨ p % 8 ≠ 0 ∨ (if s.boot.stat = 2 then src ≠ s.fabric.hostep else !early) then (some 6, s)
  else
    match op with
    | .read => match s.ctlRead none unit off with
      | .ok _ => (none, s)
      | .error c => (some c, s)
    | .write data => s.ctlWrite none unit off (word (natOf data))
    | .atomic _ _ _ _ | .reduce _ _ => (some 6, s)

/-- An access arrives at this package's endpoint (R397, R402): a refused one is logged for firmware. -/
def execFabricRequest (req : FabricReq) (s : State) : Out :=
  let (e, t) : Option Nat × State :=
    if req.off < 0x8000000000 then
      if s.boot.stat ≠ 2 ∧ homeDie req.off ≠ 0 then (some 1, s) else s.fabricMem req.off req.size req.op
    else if 0x40000000000 ≤ req.off ∧ req.off < 0x40010000000 then
      s.fabricCtl req.src (req.off - 0x40000000000) req.size req.op
    else (some 1, s)
  match e with
  | none => .next t
  | some c => .next (t.logAt 0 16 0xFFFF (word (2 ^ 51 + put s.fabric.endpt 43 8 + put req.off 0 43)) c)

end Sys2Proof.Machine
end

