-- ==== Sys2Proof/Machine/LoadStore.lean ====
section
/-! DEFINITION. Plain loads and stores: majors 0x13 to 0x1D (R161 to R163), on the translated paths and scratch, on the
register stores of other cores (R39, R129, R363) and on device control space (R39). -/
namespace Sys2Proof.Machine

/-- The effective address of a plain access of n bytes (R161). -/
def plainEa (x : Word) (imm : BitVec 10) (n : Nat) : Word := x + wordI (imm.toInt * n)

/-- The value a load of n bytes gives (R161). -/
def loadedWord (n : Nat) (signed : Bool) (bs : List Byte) : Word :=
  if signed then wordI (sext (natOf bs) (8 * n)) else word (natOf bs)

/-- The path-8 load that a packet is held for (R363). -/
def State.loadHeld (s : State) (ea : Word) (p : Held) : Bool := decide (p.data = [] ∧ p.src = s.vcore ∧ p.addr = ea)

/-- A path-8 access reaches its target at once: there is none, or its tenant runs (R363). -/
def State.path8Direct (s : State) (ea : Word) : Bool :=
  match s.locOf (ea.bits 32 16) with
  | none => true
  | some loc => s.runs loc s.core.vf (ea.bits 32 16)

/-- The slot a path-8 address names awaits no result of an atomic, a trip or a deferred take of its core (R133). -/
def State.path8Free (s : State) (loc : Nat) (ea : Word) : Bool := !(s.owedBy loc).contains (ea.bits 0 17 / 8)

/-- A path-8 load has an answer: its target's tenant runs and its slot awaits no result, or the packet has been held for its
2,000 ticks (R133, R363). A target that does not exist answers at once. -/
def State.path8Ready (s : State) (ea : Word) : Bool :=
  match s.locOf (ea.bits 32 16) with
  | none => true
  | some loc =>
    if s.runs loc s.core.vf (ea.bits 32 16) then s.path8Free loc ea
    else s.held.any fun p => s.loadHeld ea p && decide (p.since + 2000 ≤ s.time)

/-- The packet of a path-8 load is held for a stopped tenant (R363). -/
def State.holdLoad (s : State) (ea : Word) : State :=
  if s.held.any (s.loadHeld ea) then s
  else { s with held := s.held ++ [{ vf := s.core.vf, vcore := ea.bits 32 16, src := s.vcore, addr := ea, data := []
                                     swap := false, since := s.time }] }

/-- A path-8 load of n bytes: the bytes, or the code of an error response (R39, R133, R363, R408, R409). -/
def State.path8Read (s : State) (ea : Word) (n : Nat) : Except Nat (List Byte) × State :=
  let s := { s with held := s.held.filter fun p => !s.loadHeld ea p }
  match s.locOf (ea.bits 32 16) with
  | none => (.error 7, s)
  | some loc =>
    if !s.runs loc s.core.vf (ea.bits 32 16) then (.error 1, s)
    else
      let k := ea.bits 0 17 / 8
      let s := s.settleFar loc k
      let c := s.coreAt loc
      if c.bad.contains k then (.error 2, s)
      else (.ok (((bytesOf (c.slot k).toNat 8).drop (ea.bits 0 3)).take n), s)

/-- The path-8 store that a packet is held for, while its core waits for it (R39). -/
def State.storeHeld (s : State) (p : Held) : Bool := p.awaited && decide (p.src = s.vcore)

/-- The packet of a path-8 store is held for a stopped tenant (R363). -/
def State.holdStore (s : State) (ea : Word) (n : Nat) (v : Word) : State :=
  { s with held := s.held ++ [{ vf := s.core.vf, vcore := ea.bits 32 16, src := s.vcore, addr := ea
                                data := [heldStore n v], swap := false, since := s.time, awaited := true }] }

/-- A path-8 store of n bytes to a target whose tenant runs: the code of an error response, if any (R39, R129, R363). -/
def State.path8Write (s : State) (ea : Word) (n : Nat) (v : Word) : Option Nat × State :=
  match s.locOf (ea.bits 32 16) with
  | none => (some 7, s)
  | some loc => s.storeAt loc (ea.bits 0 17) (bytesOf v.toNat n)

/-- What a path-8 store does (R39, R133, R363): a packet of it that is held has met its fate, or it waits; otherwise it is
held for a stopped tenant, waits for its slot, or is performed. -/
def State.path8Store (s : State) (ea : Word) (n : Nat) (v : Word) (perform : State → Out) (done : State → Out) : Out :=
  match s.held.find? s.storeHeld with
  | some p =>
    if p.met then done { s with held := s.held.filter fun p => !s.storeHeld p }
    else (s.holdExpiry p).heldBack
  | none =>
    if !s.path8Direct ea then (s.holdStore ea n v).heldBack
    else if (s.locOf (ea.bits 32 16)).any fun loc => !s.path8Free loc ea then s.heldBack
    else perform s

/-- A path-9 load: only doubles are served (R39, R161). -/
def State.path9Read (s : State) (ea : Word) (n : Nat) : Except Nat (List Byte) :=
  if n ≠ 8 then .error 6
  else
    match s.ctlRead (some s.core.vf) (ea.bits 24 4) (ea.bits 0 24) with
    | .ok v => .ok (bytesOf v.toNat 8)
    | .error c => .error c

/-- A path-9 store. -/
def State.path9Write (s : State) (ea : Word) (n : Nat) (v : Word) : Option Nat × State :=
  if n ≠ 8 then (some 6, s) else s.ctlWrite (some s.core.vf) (ea.bits 24 4) (ea.bits 0 24) v

/-- An effective address of path 8 or 9. -/
def isCtl (ea : Word) : Bool := decide (ea.bits 60 4 = 8 ∨ ea.bits 60 4 = 9)

/-- Read n bytes for a plain load that has passed its checks at model address k (R39, R53, R162). -/
def State.loadBytes (s : State) (ea : Word) (k n : Nat) : Except Nat (List Byte) × State :=
  if ea.bits 60 4 = 8 then s.path8Read ea n
  else if ea.bits 60 4 = 9 then (s.path9Read ea n, s)
  else s.plainRead (ea.bits 60 4) k n

/-- The value of a load: an error response is logged and gives zero (R162). -/
def State.loadWord (s : State) (ea : Word) (k n : Nat) (signed : Bool) : Word × State :=
  match s.loadBytes ea k n with
  | (.ok bs, s) => (loadedWord n signed bs, s.count 8 1)
  | (.error c, s) => (0, s.logErr ea c)

/-- A path-8 or path-9 access waits until the store buffer has drained (R39). -/
def State.forCtl (s : State) (ea : Word) : State := if isCtl ea then s.drained else s

/-- A plain load of n bytes (R49, R161, R162). -/
def State.load (n : Nat) (signed : Bool) (d a : Nat) (imm : BitVec 10) (stl : Nat) (s : State) : Out :=
  s.issue { xs := [a], xd := [d], gate := false, mem := true, acc := true } fun s =>
    let ea := plainEa (s.core.x a) imm n
    let far := s.misses [ea]
    match s.locate .load ea n with
    | (.error c, s) => s.trap c ea
    | (.ok k, s) =>
      s.watchAccess true false (if isCtl ea then [] else [(ea.toNat, n)]) fun s =>
        let s := (s.leave s.core.pc s.core.cur far).forCtl ea
        if ea.bits 60 4 = 8 ∧ !s.path8Ready ea then (if s.path8Direct ea then s else s.holdLoad ea).heldBack
        else
          let (v, s) := s.loadWord ea k n signed
          (s.updCore (·.setXVar d v far.length)).retire 4 stl

/-- A path-8 or path-9 store is performed: an error response is logged and the store discarded (R39, R162). -/
def State.ctlStore (s : State) (ea : Word) (n : Nat) (v : Word) : State :=
  match if ea.bits 60 4 = 8 then s.path8Write ea n v else s.path9Write ea n v with
  | (none, s) => s.count 9 1
  | (some c, s) => s.logErr ea c

/-- A plain store of n bytes (R49, R161 to R163). -/
def State.store (n d a : Nat) (imm : BitVec 10) (stl : Nat) (s : State) : Out :=
  s.issue { xs := [a, d], gate := false, mem := true, acc := true } fun s =>
    let ea := plainEa (s.core.x a) imm n
    let far := s.misses [ea]
    match s.locate .store ea n with
    | (.error c, s) => s.trap c ea
    | (.ok k, s) =>
      s.watchAccess false true (if isCtl ea then [] else [(ea.toNat, n)]) fun s =>
        let v := s.core.x d
        let s := (s.leave s.core.pc s.core.cur far).forCtl ea
        let done := fun (s : State) => s.retire 4 stl
        if ea.bits 60 4 = 8 then s.path8Store ea n v (fun s => done (s.ctlStore ea n v)) done
        else if ea.bits 60 4 = 9 then done (s.ctlStore ea n v)
        else
          done (s.enterBuffer { path := ea.bits 60 4, key := k, size := n, vf := s.core.vf, ea
                                op := .store (cellsAt k (bytesOf v.toNat n)), sup := s.core.sup, win := s.core.cur })

/-- `ld.d` (R161). -/
def execLdD (d a : Nat) (imm : BitVec 10) (stl : Nat) (s : State) : Out := s.load 8 false d a imm stl

/-- `ld.w` (R161). -/
def execLdW (d a : Nat) (imm : BitVec 10) (stl : Nat) (s : State) : Out := s.load 4 true d a imm stl

/-- `ld.wn` (R161). -/
def execLdWn (d a : Nat) (imm : BitVec 10) (stl : Nat) (s : State) : Out := s.load 4 false d a imm stl

/-- `ld.h` (R161). -/
def execLdH (d a : Nat) (imm : BitVec 10) (stl : Nat) (s : State) : Out := s.load 2 true d a imm stl

/-- `ld.hn` (R161). -/
def execLdHn (d a : Nat) (imm : BitVec 10) (stl : Nat) (s : State) : Out := s.load 2 false d a imm stl

/-- `ld.b` (R161). -/
def execLdB (d a : Nat) (imm : BitVec 10) (stl : Nat) (s : State) : Out := s.load 1 true d a imm stl

/-- `ld.bn` (R161). -/
def execLdBn (d a : Nat) (imm : BitVec 10) (stl : Nat) (s : State) : Out := s.load 1 false d a imm stl

/-- `st.d` (R161). -/
def execStD (d a : Nat) (imm : BitVec 10) (stl : Nat) (s : State) : Out := s.store 8 d a imm stl

/-- `st.w` (R161). -/
def execStW (d a : Nat) (imm : BitVec 10) (stl : Nat) (s : State) : Out := s.store 4 d a imm stl

/-- `st.h` (R161). -/
def execStH (d a : Nat) (imm : BitVec 10) (stl : Nat) (s : State) : Out := s.store 2 d a imm stl

/-- `st.b` (R161). -/
def execStB (d a : Nat) (imm : BitVec 10) (stl : Nat) (s : State) : Out := s.store 1 d a imm stl

end Sys2Proof.Machine
end

