-- ==== Sys2Proof/Machine/ScalarFp.lean ====
section
/-! DEFINITION. Scalar floating point: majors 0x0C (f64) and 0x0D (f32) (R152 to R158). -/
namespace Sys2Proof.Machine

/-- A scalar FP instruction's effect on its result and flags (R153, R158): FPX where an enabled flag would be raised;
otherwise the result is written and the flags are ORed. `lat` is the latency of a fixed-latency result. -/
def State.fpDone (s : State) (lat : Option Nat) (d stl : Nat) (v : Word) (fl : Flags) : Out :=
  if fl &&& s.core.fp.fenable ≠ 0 then s.trap 0x13 (fl.setWidth 64)
  else
    let held := s.core.fp.fenable ≠ 0
    (s.updCore fun c =>
      let c := c.raise fl
      let c := match lat with
        | some 1 => c.setX d v
        | some l => c.setXIn l d v
        | none => if held then c.setX d v else c.setXVar d v
      if held then { c with ready := c.cycle + lat.getD 1 } else c).retire 4 stl

/-- The bits of X(n) at the width of a format (R153). -/
def Core.fx (c : Core) (f : Fmt) (n : Nat) : Nat := (c.x n).toNat % 2 ^ f.width

/-- An operation on X(A) and X(B) that gives an element of the format (R153, R154). -/
def State.fpBin (lat : Option Nat) (f : Fmt) (op : Nat → Nat → Nat → FRes) (d a b stl : Nat) (s : State) : Out :=
  s.issue { xs := [a, b], xd := [d], gate := false } fun s =>
    let r := op s.core.fp.frm (s.core.fx f a) (s.core.fx f b)
    s.fpDone lat d stl (word r.1) r.2

/-- `fmac`: X(D) := round(d + a × b) (R154). -/
def State.fpMac (f : Fmt) (d a b stl : Nat) (s : State) : Out :=
  s.issue { xs := [d, a, b], xd := [d], gate := false } fun s =>
    let c := s.core
    let r := f.mac c.fp.frm (c.fx f d) (c.fx f a) (c.fx f b)
    s.fpDone (some 3) d stl (word r.1) r.2

/-- A comparison: X(D) := 1 or 0 (R156). -/
def State.fpCmp (f : Fmt) (op : Nat → Nat → Bool × Flags) (d a b stl : Nat) (s : State) : Out :=
  s.issue { xs := [a, b], xd := [d], gate := false } fun s =>
    let r := op (s.core.fx f a) (s.core.fx f b)
    s.fpDone (some 1) d stl (flagW r.1) r.2

/-- An operation on X(A) (R154, R156, R157). -/
def State.fpUn (lat : Option Nat) (op : Nat → Word → Word × Flags) (d a stl : Nat) (s : State) : Out :=
  s.issue { xs := [a], xd := [d], gate := false } fun s =>
    let r := op s.core.fp.frm (s.core.x a)
    s.fpDone lat d stl r.1 r.2

/-- The value of a scalar as an element of a format. -/
def elemOf (f : Fmt) (v : Word) : Nat := v.toNat % 2 ^ f.width

/-- The result word and flags of an element. -/
def resW (r : FRes) : Word × Flags := (word r.1, r.2)

/-- Float to integer of w bits, sign- or zero-extended (R157). -/
def cvtToI (f : Fmt) (signed : Bool) (w : Nat) (rm : Nat) (v : Word) : Word × Flags :=
  let r := f.toInt rm false signed w (elemOf f v)
  (wordI r.1, r.2)

/-- Integer of w bits to float (R157). -/
def cvtOfI (f : Fmt) (signed : Bool) (w : Nat) (rm : Nat) (v : Word) : Word × Flags :=
  resW (f.ofInt rm false (if signed then sext v.toNat w else ((v.toNat % 2 ^ w : Nat) : Int)))

/-- `fadd` (R154). -/
def execFaddF64 (d a b stl : Nat) (s : State) : Out := s.fpBin (some 3) Fmt.f64 Fmt.f64.add d a b stl

/-- `fsub` (R154). -/
def execFsubF64 (d a b stl : Nat) (s : State) : Out := s.fpBin (some 3) Fmt.f64 Fmt.f64.sub d a b stl

/-- `fmul` (R154). -/
def execFmulF64 (d a b stl : Nat) (s : State) : Out := s.fpBin (some 3) Fmt.f64 Fmt.f64.mul d a b stl

/-- `fdiv` (R154). -/
def execFdivF64 (d a b stl : Nat) (s : State) : Out := s.fpBin none Fmt.f64 Fmt.f64.div d a b stl

/-- `fsqrt` (R154). -/
def execFsqrtF64 (d a stl : Nat) (s : State) : Out :=
  s.fpUn none (fun rm v => resW (Fmt.f64.sqrt rm (elemOf Fmt.f64 v))) d a stl

/-- `fmin` (R155). -/
def execFminF64 (d a b stl : Nat) (s : State) : Out :=
  s.fpBin (some 1) Fmt.f64 (fun _ a b => Fmt.f64.minMax false false a b) d a b stl

/-- `fmax` (R155). -/
def execFmaxF64 (d a b stl : Nat) (s : State) : Out :=
  s.fpBin (some 1) Fmt.f64 (fun _ a b => Fmt.f64.minMax true false a b) d a b stl

/-- `fminp` (R155). -/
def execFminpF64 (d a b stl : Nat) (s : State) : Out :=
  s.fpBin (some 1) Fmt.f64 (fun _ a b => Fmt.f64.minMax false true a b) d a b stl

/-- `fmaxp` (R155). -/
def execFmaxpF64 (d a b stl : Nat) (s : State) : Out :=
  s.fpBin (some 1) Fmt.f64 (fun _ a b => Fmt.f64.minMax true true a b) d a b stl

/-- `fmac` (R154). -/
def execFmacF64 (d a b stl : Nat) (s : State) : Out := s.fpMac Fmt.f64 d a b stl

/-- `flt` (R156). -/
def execFltF64 (d a b stl : Nat) (s : State) : Out := s.fpCmp Fmt.f64 Fmt.f64.lt d a b stl

/-- `fle` (R156). -/
def execFleF64 (d a b stl : Nat) (s : State) : Out := s.fpCmp Fmt.f64 Fmt.f64.le d a b stl

/-- `feq` (R156). -/
def execFeqF64 (d a b stl : Nat) (s : State) : Out := s.fpCmp Fmt.f64 Fmt.f64.eq d a b stl

/-- `fclass` (R156). -/
def execFclassF64 (d a stl : Nat) (s : State) : Out :=
  s.fpUn (some 1) (fun _ v => (word (Fmt.f64.classify (elemOf Fmt.f64 v)), 0)) d a stl

/-- `fcvt.i64` from the format (R157). -/
def execFcvtI64F64 (d a stl : Nat) (s : State) : Out := s.fpUn none (cvtToI Fmt.f64 true 64) d a stl

/-- `fcvt` to the format from i64 (R157). -/
def execFcvtF64I64 (d a stl : Nat) (s : State) : Out := s.fpUn none (cvtOfI Fmt.f64 true 64) d a stl

/-- `fcvt.n64` from the format (R157). -/
def execFcvtN64F64 (d a stl : Nat) (s : State) : Out := s.fpUn none (cvtToI Fmt.f64 false 64) d a stl

/-- `fcvt` to the format from n64 (R157). -/
def execFcvtF64N64 (d a stl : Nat) (s : State) : Out := s.fpUn none (cvtOfI Fmt.f64 false 64) d a stl

/-- `fcvt.i32` from the format (R157). -/
def execFcvtI32F64 (d a stl : Nat) (s : State) : Out := s.fpUn none (cvtToI Fmt.f64 true 32) d a stl

/-- `fcvt` to the format from i32 (R157). -/
def execFcvtF64I32 (d a stl : Nat) (s : State) : Out := s.fpUn none (cvtOfI Fmt.f64 true 32) d a stl

/-- `fcvt.n32` from the format (R157). -/
def execFcvtN32F64 (d a stl : Nat) (s : State) : Out := s.fpUn none (cvtToI Fmt.f64 false 32) d a stl

/-- `fcvt` to the format from n32 (R157). -/
def execFcvtF64N32 (d a stl : Nat) (s : State) : Out := s.fpUn none (cvtOfI Fmt.f64 false 32) d a stl

/-- `fadd` (R154). -/
def execFaddF32 (d a b stl : Nat) (s : State) : Out := s.fpBin (some 3) Fmt.f32 Fmt.f32.add d a b stl

/-- `fsub` (R154). -/
def execFsubF32 (d a b stl : Nat) (s : State) : Out := s.fpBin (some 3) Fmt.f32 Fmt.f32.sub d a b stl

/-- `fmul` (R154). -/
def execFmulF32 (d a b stl : Nat) (s : State) : Out := s.fpBin (some 3) Fmt.f32 Fmt.f32.mul d a b stl

/-- `fdiv` (R154). -/
def execFdivF32 (d a b stl : Nat) (s : State) : Out := s.fpBin none Fmt.f32 Fmt.f32.div d a b stl

/-- `fsqrt` (R154). -/
def execFsqrtF32 (d a stl : Nat) (s : State) : Out :=
  s.fpUn none (fun rm v => resW (Fmt.f32.sqrt rm (elemOf Fmt.f32 v))) d a stl

/-- `fmin` (R155). -/
def execFminF32 (d a b stl : Nat) (s : State) : Out :=
  s.fpBin (some 1) Fmt.f32 (fun _ a b => Fmt.f32.minMax false false a b) d a b stl

/-- `fmax` (R155). -/
def execFmaxF32 (d a b stl : Nat) (s : State) : Out :=
  s.fpBin (some 1) Fmt.f32 (fun _ a b => Fmt.f32.minMax true false a b) d a b stl

/-- `fminp` (R155). -/
def execFminpF32 (d a b stl : Nat) (s : State) : Out :=
  s.fpBin (some 1) Fmt.f32 (fun _ a b => Fmt.f32.minMax false true a b) d a b stl

/-- `fmaxp` (R155). -/
def execFmaxpF32 (d a b stl : Nat) (s : State) : Out :=
  s.fpBin (some 1) Fmt.f32 (fun _ a b => Fmt.f32.minMax true true a b) d a b stl

/-- `fmac` (R154). -/
def execFmacF32 (d a b stl : Nat) (s : State) : Out := s.fpMac Fmt.f32 d a b stl

/-- `flt` (R156). -/
def execFltF32 (d a b stl : Nat) (s : State) : Out := s.fpCmp Fmt.f32 Fmt.f32.lt d a b stl

/-- `fle` (R156). -/
def execFleF32 (d a b stl : Nat) (s : State) : Out := s.fpCmp Fmt.f32 Fmt.f32.le d a b stl

/-- `feq` (R156). -/
def execFeqF32 (d a b stl : Nat) (s : State) : Out := s.fpCmp Fmt.f32 Fmt.f32.eq d a b stl

/-- `fclass` (R156). -/
def execFclassF32 (d a stl : Nat) (s : State) : Out :=
  s.fpUn (some 1) (fun _ v => (word (Fmt.f32.classify (elemOf Fmt.f32 v)), 0)) d a stl

/-- `fcvt.i64` from the format (R157). -/
def execFcvtI64F32 (d a stl : Nat) (s : State) : Out := s.fpUn none (cvtToI Fmt.f32 true 64) d a stl

/-- `fcvt` to the format from i64 (R157). -/
def execFcvtF32I64 (d a stl : Nat) (s : State) : Out := s.fpUn none (cvtOfI Fmt.f32 true 64) d a stl

/-- `fcvt.n64` from the format (R157). -/
def execFcvtN64F32 (d a stl : Nat) (s : State) : Out := s.fpUn none (cvtToI Fmt.f32 false 64) d a stl

/-- `fcvt` to the format from n64 (R157). -/
def execFcvtF32N64 (d a stl : Nat) (s : State) : Out := s.fpUn none (cvtOfI Fmt.f32 false 64) d a stl

/-- `fcvt.i32` from the format (R157). -/
def execFcvtI32F32 (d a stl : Nat) (s : State) : Out := s.fpUn none (cvtToI Fmt.f32 true 32) d a stl

/-- `fcvt` to the format from i32 (R157). -/
def execFcvtF32I32 (d a stl : Nat) (s : State) : Out := s.fpUn none (cvtOfI Fmt.f32 true 32) d a stl

/-- `fcvt.n32` from the format (R157). -/
def execFcvtN32F32 (d a stl : Nat) (s : State) : Out := s.fpUn none (cvtToI Fmt.f32 false 32) d a stl

/-- `fcvt` to the format from n32 (R157). -/
def execFcvtF32N32 (d a stl : Nat) (s : State) : Out := s.fpUn none (cvtOfI Fmt.f32 false 32) d a stl

/-- `fcvt.f64.f32` (R157). -/
def execFcvtF64F32 (d a stl : Nat) (s : State) : Out :=
  s.fpUn none (fun rm v => resW (Fmt.f32.cvt .f64 rm false (elemOf .f32 v))) d a stl

/-- `fcvt.f32.f64` (R157). -/
def execFcvtF32F64 (d a stl : Nat) (s : State) : Out :=
  s.fpUn none (fun rm v => resW (Fmt.f64.cvt .f32 rm false (elemOf .f64 v))) d a stl

end Sys2Proof.Machine
end

