-- ==== Sys2Proof/Machine/VectorRows.lean ====
section
/-! DEFINITION. The vector instructions: majors 0x22 to 0x2D, their 16-bit forms and the prefix pairs (R199 to R221). -/
namespace Sys2Proof.Machine

/-- A prefix and the word behind it (R21 to R23). -/
def execPfx (p : Pfx) (v : VOp) (s : State) : Out := s.vexec 8 p.stl p v

/-- `vadd.f32` (R205). -/
def execVaddF32 (d a b stl : Nat) (s : State) : Out := s.vcalc 4 stl {} (.lane .f32 .add d a b)

/-- `vsub.f32` (R205). -/
def execVsubF32 (d a b stl : Nat) (s : State) : Out := s.vcalc 4 stl {} (.lane .f32 .sub d a b)

/-- `vmul.f32` (R205). -/
def execVmulF32 (d a b stl : Nat) (s : State) : Out := s.vcalc 4 stl {} (.lane .f32 .mul d a b)

/-- `vmac.f32` (R205). -/
def execVmacF32 (d a b stl : Nat) (s : State) : Out := s.vcalc 4 stl {} (.lane .f32 .mac d a b)

/-- `vmin.f32` (R205). -/
def execVminF32 (d a b stl : Nat) (s : State) : Out := s.vcalc 4 stl {} (.lane .f32 .min d a b)

/-- `vmax.f32` (R205). -/
def execVmaxF32 (d a b stl : Nat) (s : State) : Out := s.vcalc 4 stl {} (.lane .f32 .max d a b)

/-- `vminp.f32` (R205). -/
def execVminpF32 (d a b stl : Nat) (s : State) : Out := s.vcalc 4 stl {} (.lane .f32 .minp d a b)

/-- `vmaxp.f32` (R205). -/
def execVmaxpF32 (d a b stl : Nat) (s : State) : Out := s.vcalc 4 stl {} (.lane .f32 .maxp d a b)

/-- `vand.f32` (R205). -/
def execVandF32 (d a b stl : Nat) (s : State) : Out := s.vcalc 4 stl {} (.lane .f32 .and d a b)

/-- `vor.f32` (R205). -/
def execVorF32 (d a b stl : Nat) (s : State) : Out := s.vcalc 4 stl {} (.lane .f32 .or d a b)

/-- `vxor.f32` (R205). -/
def execVxorF32 (d a b stl : Nat) (s : State) : Out := s.vcalc 4 stl {} (.lane .f32 .xor d a b)

/-- `vshl.f32` (R205). -/
def execVshlF32 (d a b stl : Nat) (s : State) : Out := s.vcalc 4 stl {} (.lane .f32 .shl d a b)

/-- `vshr.f32` (R205). -/
def execVshrF32 (d a b stl : Nat) (s : State) : Out := s.vcalc 4 stl {} (.lane .f32 .shr d a b)

/-- `vsra.f32` (R205). -/
def execVsraF32 (d a b stl : Nat) (s : State) : Out := s.vcalc 4 stl {} (.lane .f32 .sra d a b)

/-- `vclt.f32` (R205). -/
def execVcltF32 (d a b stl : Nat) (s : State) : Out := s.vcalc 4 stl {} (.lane .f32 .clt d a b)

/-- `vceq.f32` (R205). -/
def execVceqF32 (d a b stl : Nat) (s : State) : Out := s.vcalc 4 stl {} (.lane .f32 .ceq d a b)

/-- `vadd.i32` (R205). -/
def execVaddI32 (d a b stl : Nat) (s : State) : Out := s.vcalc 4 stl {} (.lane .i32 .add d a b)

/-- `vsub.i32` (R205). -/
def execVsubI32 (d a b stl : Nat) (s : State) : Out := s.vcalc 4 stl {} (.lane .i32 .sub d a b)

/-- `vmul.i32` (R205). -/
def execVmulI32 (d a b stl : Nat) (s : State) : Out := s.vcalc 4 stl {} (.lane .i32 .mul d a b)

/-- `vmac.i32` (R205). -/
def execVmacI32 (d a b stl : Nat) (s : State) : Out := s.vcalc 4 stl {} (.lane .i32 .mac d a b)

/-- `vmin.i32` (R205). -/
def execVminI32 (d a b stl : Nat) (s : State) : Out := s.vcalc 4 stl {} (.lane .i32 .min d a b)

/-- `vmax.i32` (R205). -/
def execVmaxI32 (d a b stl : Nat) (s : State) : Out := s.vcalc 4 stl {} (.lane .i32 .max d a b)

/-- `vminp.i32` (R205). -/
def execVminpI32 (d a b stl : Nat) (s : State) : Out := s.vcalc 4 stl {} (.lane .i32 .minp d a b)

/-- `vmaxp.i32` (R205). -/
def execVmaxpI32 (d a b stl : Nat) (s : State) : Out := s.vcalc 4 stl {} (.lane .i32 .maxp d a b)

/-- `vand.i32` (R205). -/
def execVandI32 (d a b stl : Nat) (s : State) : Out := s.vcalc 4 stl {} (.lane .i32 .and d a b)

/-- `vor.i32` (R205). -/
def execVorI32 (d a b stl : Nat) (s : State) : Out := s.vcalc 4 stl {} (.lane .i32 .or d a b)

/-- `vxor.i32` (R205). -/
def execVxorI32 (d a b stl : Nat) (s : State) : Out := s.vcalc 4 stl {} (.lane .i32 .xor d a b)

/-- `vshl.i32` (R205). -/
def execVshlI32 (d a b stl : Nat) (s : State) : Out := s.vcalc 4 stl {} (.lane .i32 .shl d a b)

/-- `vshr.i32` (R205). -/
def execVshrI32 (d a b stl : Nat) (s : State) : Out := s.vcalc 4 stl {} (.lane .i32 .shr d a b)

/-- `vsra.i32` (R205). -/
def execVsraI32 (d a b stl : Nat) (s : State) : Out := s.vcalc 4 stl {} (.lane .i32 .sra d a b)

/-- `vclt.i32` (R205). -/
def execVcltI32 (d a b stl : Nat) (s : State) : Out := s.vcalc 4 stl {} (.lane .i32 .clt d a b)

/-- `vceq.i32` (R205). -/
def execVceqI32 (d a b stl : Nat) (s : State) : Out := s.vcalc 4 stl {} (.lane .i32 .ceq d a b)

/-- `vadd.n32` (R205). -/
def execVaddN32 (d a b stl : Nat) (s : State) : Out := s.vcalc 4 stl {} (.lane .n32 .add d a b)

/-- `vsub.n32` (R205). -/
def execVsubN32 (d a b stl : Nat) (s : State) : Out := s.vcalc 4 stl {} (.lane .n32 .sub d a b)

/-- `vmul.n32` (R205). -/
def execVmulN32 (d a b stl : Nat) (s : State) : Out := s.vcalc 4 stl {} (.lane .n32 .mul d a b)

/-- `vmac.n32` (R205). -/
def execVmacN32 (d a b stl : Nat) (s : State) : Out := s.vcalc 4 stl {} (.lane .n32 .mac d a b)

/-- `vmin.n32` (R205). -/
def execVminN32 (d a b stl : Nat) (s : State) : Out := s.vcalc 4 stl {} (.lane .n32 .min d a b)

/-- `vmax.n32` (R205). -/
def execVmaxN32 (d a b stl : Nat) (s : State) : Out := s.vcalc 4 stl {} (.lane .n32 .max d a b)

/-- `vminp.n32` (R205). -/
def execVminpN32 (d a b stl : Nat) (s : State) : Out := s.vcalc 4 stl {} (.lane .n32 .minp d a b)

/-- `vmaxp.n32` (R205). -/
def execVmaxpN32 (d a b stl : Nat) (s : State) : Out := s.vcalc 4 stl {} (.lane .n32 .maxp d a b)

/-- `vand.n32` (R205). -/
def execVandN32 (d a b stl : Nat) (s : State) : Out := s.vcalc 4 stl {} (.lane .n32 .and d a b)

/-- `vor.n32` (R205). -/
def execVorN32 (d a b stl : Nat) (s : State) : Out := s.vcalc 4 stl {} (.lane .n32 .or d a b)

/-- `vxor.n32` (R205). -/
def execVxorN32 (d a b stl : Nat) (s : State) : Out := s.vcalc 4 stl {} (.lane .n32 .xor d a b)

/-- `vshl.n32` (R205). -/
def execVshlN32 (d a b stl : Nat) (s : State) : Out := s.vcalc 4 stl {} (.lane .n32 .shl d a b)

/-- `vshr.n32` (R205). -/
def execVshrN32 (d a b stl : Nat) (s : State) : Out := s.vcalc 4 stl {} (.lane .n32 .shr d a b)

/-- `vsra.n32` (R205). -/
def execVsraN32 (d a b stl : Nat) (s : State) : Out := s.vcalc 4 stl {} (.lane .n32 .sra d a b)

/-- `vclt.n32` (R205). -/
def execVcltN32 (d a b stl : Nat) (s : State) : Out := s.vcalc 4 stl {} (.lane .n32 .clt d a b)

/-- `vceq.n32` (R205). -/
def execVceqN32 (d a b stl : Nat) (s : State) : Out := s.vcalc 4 stl {} (.lane .n32 .ceq d a b)

/-- `vadd.bf16` (R205). -/
def execVaddBf16 (d a b stl : Nat) (s : State) : Out := s.vcalc 4 stl {} (.lane .bf16 .add d a b)

/-- `vsub.bf16` (R205). -/
def execVsubBf16 (d a b stl : Nat) (s : State) : Out := s.vcalc 4 stl {} (.lane .bf16 .sub d a b)

/-- `vmul.bf16` (R205). -/
def execVmulBf16 (d a b stl : Nat) (s : State) : Out := s.vcalc 4 stl {} (.lane .bf16 .mul d a b)

/-- `vmac.bf16` (R205). -/
def execVmacBf16 (d a b stl : Nat) (s : State) : Out := s.vcalc 4 stl {} (.lane .bf16 .mac d a b)

/-- `vmin.bf16` (R205). -/
def execVminBf16 (d a b stl : Nat) (s : State) : Out := s.vcalc 4 stl {} (.lane .bf16 .min d a b)

/-- `vmax.bf16` (R205). -/
def execVmaxBf16 (d a b stl : Nat) (s : State) : Out := s.vcalc 4 stl {} (.lane .bf16 .max d a b)

/-- `vminp.bf16` (R205). -/
def execVminpBf16 (d a b stl : Nat) (s : State) : Out := s.vcalc 4 stl {} (.lane .bf16 .minp d a b)

/-- `vmaxp.bf16` (R205). -/
def execVmaxpBf16 (d a b stl : Nat) (s : State) : Out := s.vcalc 4 stl {} (.lane .bf16 .maxp d a b)

/-- `vand.bf16` (R205). -/
def execVandBf16 (d a b stl : Nat) (s : State) : Out := s.vcalc 4 stl {} (.lane .bf16 .and d a b)

/-- `vor.bf16` (R205). -/
def execVorBf16 (d a b stl : Nat) (s : State) : Out := s.vcalc 4 stl {} (.lane .bf16 .or d a b)

/-- `vxor.bf16` (R205). -/
def execVxorBf16 (d a b stl : Nat) (s : State) : Out := s.vcalc 4 stl {} (.lane .bf16 .xor d a b)

/-- `vshl.bf16` (R205). -/
def execVshlBf16 (d a b stl : Nat) (s : State) : Out := s.vcalc 4 stl {} (.lane .bf16 .shl d a b)

/-- `vshr.bf16` (R205). -/
def execVshrBf16 (d a b stl : Nat) (s : State) : Out := s.vcalc 4 stl {} (.lane .bf16 .shr d a b)

/-- `vsra.bf16` (R205). -/
def execVsraBf16 (d a b stl : Nat) (s : State) : Out := s.vcalc 4 stl {} (.lane .bf16 .sra d a b)

/-- `vclt.bf16` (R205). -/
def execVcltBf16 (d a b stl : Nat) (s : State) : Out := s.vcalc 4 stl {} (.lane .bf16 .clt d a b)

/-- `vceq.bf16` (R205). -/
def execVceqBf16 (d a b stl : Nat) (s : State) : Out := s.vcalc 4 stl {} (.lane .bf16 .ceq d a b)

/-- `vadd.f16` (R205). -/
def execVaddF16 (d a b stl : Nat) (s : State) : Out := s.vcalc 4 stl {} (.lane .f16 .add d a b)

/-- `vsub.f16` (R205). -/
def execVsubF16 (d a b stl : Nat) (s : State) : Out := s.vcalc 4 stl {} (.lane .f16 .sub d a b)

/-- `vmul.f16` (R205). -/
def execVmulF16 (d a b stl : Nat) (s : State) : Out := s.vcalc 4 stl {} (.lane .f16 .mul d a b)

/-- `vmac.f16` (R205). -/
def execVmacF16 (d a b stl : Nat) (s : State) : Out := s.vcalc 4 stl {} (.lane .f16 .mac d a b)

/-- `vmin.f16` (R205). -/
def execVminF16 (d a b stl : Nat) (s : State) : Out := s.vcalc 4 stl {} (.lane .f16 .min d a b)

/-- `vmax.f16` (R205). -/
def execVmaxF16 (d a b stl : Nat) (s : State) : Out := s.vcalc 4 stl {} (.lane .f16 .max d a b)

/-- `vminp.f16` (R205). -/
def execVminpF16 (d a b stl : Nat) (s : State) : Out := s.vcalc 4 stl {} (.lane .f16 .minp d a b)

/-- `vmaxp.f16` (R205). -/
def execVmaxpF16 (d a b stl : Nat) (s : State) : Out := s.vcalc 4 stl {} (.lane .f16 .maxp d a b)

/-- `vand.f16` (R205). -/
def execVandF16 (d a b stl : Nat) (s : State) : Out := s.vcalc 4 stl {} (.lane .f16 .and d a b)

/-- `vor.f16` (R205). -/
def execVorF16 (d a b stl : Nat) (s : State) : Out := s.vcalc 4 stl {} (.lane .f16 .or d a b)

/-- `vxor.f16` (R205). -/
def execVxorF16 (d a b stl : Nat) (s : State) : Out := s.vcalc 4 stl {} (.lane .f16 .xor d a b)

/-- `vshl.f16` (R205). -/
def execVshlF16 (d a b stl : Nat) (s : State) : Out := s.vcalc 4 stl {} (.lane .f16 .shl d a b)

/-- `vshr.f16` (R205). -/
def execVshrF16 (d a b stl : Nat) (s : State) : Out := s.vcalc 4 stl {} (.lane .f16 .shr d a b)

/-- `vsra.f16` (R205). -/
def execVsraF16 (d a b stl : Nat) (s : State) : Out := s.vcalc 4 stl {} (.lane .f16 .sra d a b)

/-- `vclt.f16` (R205). -/
def execVcltF16 (d a b stl : Nat) (s : State) : Out := s.vcalc 4 stl {} (.lane .f16 .clt d a b)

/-- `vceq.f16` (R205). -/
def execVceqF16 (d a b stl : Nat) (s : State) : Out := s.vcalc 4 stl {} (.lane .f16 .ceq d a b)

/-- `vadd.i16` (R205). -/
def execVaddI16 (d a b stl : Nat) (s : State) : Out := s.vcalc 4 stl {} (.lane .i16 .add d a b)

/-- `vsub.i16` (R205). -/
def execVsubI16 (d a b stl : Nat) (s : State) : Out := s.vcalc 4 stl {} (.lane .i16 .sub d a b)

/-- `vmul.i16` (R205). -/
def execVmulI16 (d a b stl : Nat) (s : State) : Out := s.vcalc 4 stl {} (.lane .i16 .mul d a b)

/-- `vmac.i16` (R205). -/
def execVmacI16 (d a b stl : Nat) (s : State) : Out := s.vcalc 4 stl {} (.lane .i16 .mac d a b)

/-- `vmin.i16` (R205). -/
def execVminI16 (d a b stl : Nat) (s : State) : Out := s.vcalc 4 stl {} (.lane .i16 .min d a b)

/-- `vmax.i16` (R205). -/
def execVmaxI16 (d a b stl : Nat) (s : State) : Out := s.vcalc 4 stl {} (.lane .i16 .max d a b)

/-- `vminp.i16` (R205). -/
def execVminpI16 (d a b stl : Nat) (s : State) : Out := s.vcalc 4 stl {} (.lane .i16 .minp d a b)

/-- `vmaxp.i16` (R205). -/
def execVmaxpI16 (d a b stl : Nat) (s : State) : Out := s.vcalc 4 stl {} (.lane .i16 .maxp d a b)

/-- `vand.i16` (R205). -/
def execVandI16 (d a b stl : Nat) (s : State) : Out := s.vcalc 4 stl {} (.lane .i16 .and d a b)

/-- `vor.i16` (R205). -/
def execVorI16 (d a b stl : Nat) (s : State) : Out := s.vcalc 4 stl {} (.lane .i16 .or d a b)

/-- `vxor.i16` (R205). -/
def execVxorI16 (d a b stl : Nat) (s : State) : Out := s.vcalc 4 stl {} (.lane .i16 .xor d a b)

/-- `vshl.i16` (R205). -/
def execVshlI16 (d a b stl : Nat) (s : State) : Out := s.vcalc 4 stl {} (.lane .i16 .shl d a b)

/-- `vshr.i16` (R205). -/
def execVshrI16 (d a b stl : Nat) (s : State) : Out := s.vcalc 4 stl {} (.lane .i16 .shr d a b)

/-- `vsra.i16` (R205). -/
def execVsraI16 (d a b stl : Nat) (s : State) : Out := s.vcalc 4 stl {} (.lane .i16 .sra d a b)

/-- `vclt.i16` (R205). -/
def execVcltI16 (d a b stl : Nat) (s : State) : Out := s.vcalc 4 stl {} (.lane .i16 .clt d a b)

/-- `vceq.i16` (R205). -/
def execVceqI16 (d a b stl : Nat) (s : State) : Out := s.vcalc 4 stl {} (.lane .i16 .ceq d a b)

/-- `vadd.i8` (R205). -/
def execVaddI8 (d a b stl : Nat) (s : State) : Out := s.vcalc 4 stl {} (.lane .i8 .add d a b)

/-- `vsub.i8` (R205). -/
def execVsubI8 (d a b stl : Nat) (s : State) : Out := s.vcalc 4 stl {} (.lane .i8 .sub d a b)

/-- `vmul.i8` (R205). -/
def execVmulI8 (d a b stl : Nat) (s : State) : Out := s.vcalc 4 stl {} (.lane .i8 .mul d a b)

/-- `vmac.i8` (R205). -/
def execVmacI8 (d a b stl : Nat) (s : State) : Out := s.vcalc 4 stl {} (.lane .i8 .mac d a b)

/-- `vmin.i8` (R205). -/
def execVminI8 (d a b stl : Nat) (s : State) : Out := s.vcalc 4 stl {} (.lane .i8 .min d a b)

/-- `vmax.i8` (R205). -/
def execVmaxI8 (d a b stl : Nat) (s : State) : Out := s.vcalc 4 stl {} (.lane .i8 .max d a b)

/-- `vminp.i8` (R205). -/
def execVminpI8 (d a b stl : Nat) (s : State) : Out := s.vcalc 4 stl {} (.lane .i8 .minp d a b)

/-- `vmaxp.i8` (R205). -/
def execVmaxpI8 (d a b stl : Nat) (s : State) : Out := s.vcalc 4 stl {} (.lane .i8 .maxp d a b)

/-- `vand.i8` (R205). -/
def execVandI8 (d a b stl : Nat) (s : State) : Out := s.vcalc 4 stl {} (.lane .i8 .and d a b)

/-- `vor.i8` (R205). -/
def execVorI8 (d a b stl : Nat) (s : State) : Out := s.vcalc 4 stl {} (.lane .i8 .or d a b)

/-- `vxor.i8` (R205). -/
def execVxorI8 (d a b stl : Nat) (s : State) : Out := s.vcalc 4 stl {} (.lane .i8 .xor d a b)

/-- `vshl.i8` (R205). -/
def execVshlI8 (d a b stl : Nat) (s : State) : Out := s.vcalc 4 stl {} (.lane .i8 .shl d a b)

/-- `vshr.i8` (R205). -/
def execVshrI8 (d a b stl : Nat) (s : State) : Out := s.vcalc 4 stl {} (.lane .i8 .shr d a b)

/-- `vsra.i8` (R205). -/
def execVsraI8 (d a b stl : Nat) (s : State) : Out := s.vcalc 4 stl {} (.lane .i8 .sra d a b)

/-- `vclt.i8` (R205). -/
def execVcltI8 (d a b stl : Nat) (s : State) : Out := s.vcalc 4 stl {} (.lane .i8 .clt d a b)

/-- `vceq.i8` (R205). -/
def execVceqI8 (d a b stl : Nat) (s : State) : Out := s.vcalc 4 stl {} (.lane .i8 .ceq d a b)

/-- `vadd.f64` (R205). -/
def execVaddF64 (d a b stl : Nat) (s : State) : Out := s.vcalc 4 stl {} (.lane .f64 .add d a b)

/-- `vsub.f64` (R205). -/
def execVsubF64 (d a b stl : Nat) (s : State) : Out := s.vcalc 4 stl {} (.lane .f64 .sub d a b)

/-- `vmul.f64` (R205). -/
def execVmulF64 (d a b stl : Nat) (s : State) : Out := s.vcalc 4 stl {} (.lane .f64 .mul d a b)

/-- `vmac.f64` (R205). -/
def execVmacF64 (d a b stl : Nat) (s : State) : Out := s.vcalc 4 stl {} (.lane .f64 .mac d a b)

/-- `vmin.f64` (R205). -/
def execVminF64 (d a b stl : Nat) (s : State) : Out := s.vcalc 4 stl {} (.lane .f64 .min d a b)

/-- `vmax.f64` (R205). -/
def execVmaxF64 (d a b stl : Nat) (s : State) : Out := s.vcalc 4 stl {} (.lane .f64 .max d a b)

/-- `vminp.f64` (R205). -/
def execVminpF64 (d a b stl : Nat) (s : State) : Out := s.vcalc 4 stl {} (.lane .f64 .minp d a b)

/-- `vmaxp.f64` (R205). -/
def execVmaxpF64 (d a b stl : Nat) (s : State) : Out := s.vcalc 4 stl {} (.lane .f64 .maxp d a b)

/-- `vand.f64` (R205). -/
def execVandF64 (d a b stl : Nat) (s : State) : Out := s.vcalc 4 stl {} (.lane .f64 .and d a b)

/-- `vor.f64` (R205). -/
def execVorF64 (d a b stl : Nat) (s : State) : Out := s.vcalc 4 stl {} (.lane .f64 .or d a b)

/-- `vxor.f64` (R205). -/
def execVxorF64 (d a b stl : Nat) (s : State) : Out := s.vcalc 4 stl {} (.lane .f64 .xor d a b)

/-- `vshl.f64` (R205). -/
def execVshlF64 (d a b stl : Nat) (s : State) : Out := s.vcalc 4 stl {} (.lane .f64 .shl d a b)

/-- `vshr.f64` (R205). -/
def execVshrF64 (d a b stl : Nat) (s : State) : Out := s.vcalc 4 stl {} (.lane .f64 .shr d a b)

/-- `vsra.f64` (R205). -/
def execVsraF64 (d a b stl : Nat) (s : State) : Out := s.vcalc 4 stl {} (.lane .f64 .sra d a b)

/-- `vclt.f64` (R205). -/
def execVcltF64 (d a b stl : Nat) (s : State) : Out := s.vcalc 4 stl {} (.lane .f64 .clt d a b)

/-- `vceq.f64` (R205). -/
def execVceqF64 (d a b stl : Nat) (s : State) : Out := s.vcalc 4 stl {} (.lane .f64 .ceq d a b)

/-- `vmov` (R208). -/
def execVmov (ty : LaneTy) (d a stl : Nat) (s : State) : Out := s.vcalc 4 stl {} (.un .mov ty d a)

/-- `vneg` (R208). -/
def execVneg (ty : LaneTy) (d a stl : Nat) (s : State) : Out := s.vcalc 4 stl {} (.un .neg ty d a)

/-- `vabs` (R208). -/
def execVabs (ty : LaneTy) (d a stl : Nat) (s : State) : Out := s.vcalc 4 stl {} (.un .abs ty d a)

/-- `vnot` (R208). -/
def execVnot (ty : LaneTy) (d a stl : Nat) (s : State) : Out := s.vcalc 4 stl {} (.un .not ty d a)

/-- `vrcp` (R208). -/
def execVrcp (ty : LaneTy) (d a stl : Nat) (s : State) : Out := s.vcalc 4 stl {} (.un .rcp ty d a)

/-- `vrsqrt` (R208). -/
def execVrsqrt (ty : LaneTy) (d a stl : Nat) (s : State) : Out := s.vcalc 4 stl {} (.un .rsqrt ty d a)

/-- `vsqrt` (R208). -/
def execVsqrt (ty : LaneTy) (d a stl : Nat) (s : State) : Out := s.vcalc 4 stl {} (.un .sqrt ty d a)

/-- `vexp2` (R208). -/
def execVexp2 (ty : LaneTy) (d a stl : Nat) (s : State) : Out := s.vcalc 4 stl {} (.un .exp2 ty d a)

/-- `vlog2` (R208). -/
def execVlog2 (ty : LaneTy) (d a stl : Nat) (s : State) : Out := s.vcalc 4 stl {} (.un .log2 ty d a)

/-- `vtanh` (R208). -/
def execVtanh (ty : LaneTy) (d a stl : Nat) (s : State) : Out := s.vcalc 4 stl {} (.un .tanh ty d a)

/-- `vsigm` (R208). -/
def execVsigm (ty : LaneTy) (d a stl : Nat) (s : State) : Out := s.vcalc 4 stl {} (.un .sigm ty d a)

/-- `vrnd` (R208). -/
def execVrnd (ty : LaneTy) (d a stl : Nat) (s : State) : Out := s.vcalc 4 stl {} (.un .rnd ty d a)

/-- `vclz` (R208). -/
def execVclz (ty : LaneTy) (d a stl : Nat) (s : State) : Out := s.vcalc 4 stl {} (.un .clz ty d a)

/-- `vpopc` (R208). -/
def execVpopc (ty : LaneTy) (d a stl : Nat) (s : State) : Out := s.vcalc 4 stl {} (.un .popc ty d a)

/-- `vsumr` (R208). -/
def execVsumr (ty : LaneTy) (d a stl : Nat) (s : State) : Out := s.vcalc 4 stl {} (.un .sumr ty d a)

/-- `vmaxr` (R208). -/
def execVmaxr (ty : LaneTy) (d a stl : Nat) (s : State) : Out := s.vcalc 4 stl {} (.un .maxr ty d a)

/-- `vminr` (R208). -/
def execVminr (ty : LaneTy) (d a stl : Nat) (s : State) : Out := s.vcalc 4 stl {} (.un .minr ty d a)

/-- `vmxs` (R208). -/
def execVmxs (ty : LaneTy) (d a stl : Nat) (s : State) : Out := s.vcalc 4 stl {} (.un .mxs ty d a)

/-- `vrev` (R208). -/
def execVrev (ty : LaneTy) (d a stl : Nat) (s : State) : Out := s.vcalc 4 stl {} (.un .rev ty d a)

/-- `vclass` (R208). -/
def execVclass (ty : LaneTy) (d a stl : Nat) (s : State) : Out := s.vcalc 4 stl {} (.un .cls ty d a)

/-- `vcvt` (R212 to R214). -/
def execVcvt (sty : Ty) (mode : Nat) (dty : Ty) (d a stl : Nat) (s : State) : Out :=
  s.vcalc 4 stl {} (.cvt sty mode dty d a)

/-- `vbcast` (R215). -/
def execVbcast (ty : LaneTy) (d a stl : Nat) (s : State) : Out := s.vcalc 4 stl {} (.bcast ty d a)

/-- `vext.w` (R215). -/
def execVextW (d a k stl : Nat) (s : State) : Out := s.vcalc 4 stl {} (.ext false d a k)

/-- `vext.d` (R215). -/
def execVextD (d a k stl : Nat) (s : State) : Out := s.vcalc 4 stl {} (.ext true d a k)

/-- `vins.w` (R215). -/
def execVinsW (d a k stl : Nat) (s : State) : Out := s.vcalc 4 stl {} (.ins false d a k)

/-- `vins.d` (R215). -/
def execVinsD (d a k stl : Nat) (s : State) : Out := s.vcalc 4 stl {} (.ins true d a k)

/-- `vpred` (R215). -/
def execVpred (ty : LaneTy) (d a stl : Nat) (s : State) : Out := s.vcalc 4 stl {} (.pred ty d a)

/-- `vidx` (R215). -/
def execVidx (ty : LaneTy) (d a stl : Nat) (s : State) : Out := s.vcalc 4 stl {} (.idx ty d a)

/-- `vld.w` (R216). -/
def execVldW (d a b stl : Nat) (s : State) : Out := s.vmem 4 stl {} (.ld .w d a b)

/-- `vld.h` (R216). -/
def execVldH (d a b stl : Nat) (s : State) : Out := s.vmem 4 stl {} (.ld .h d a b)

/-- `vld.b` (R216). -/
def execVldB (d a b stl : Nat) (s : State) : Out := s.vmem 4 stl {} (.ld .b d a b)

/-- `vld.d` (R216). -/
def execVldD (d a b stl : Nat) (s : State) : Out := s.vmem 4 stl {} (.ld .d d a b)

/-- `vst.w` (R216). -/
def execVstW (d a b stl : Nat) (s : State) : Out := s.vmem 4 stl {} (.st .w d a b)

/-- `vst.h` (R216). -/
def execVstH (d a b stl : Nat) (s : State) : Out := s.vmem 4 stl {} (.st .h d a b)

/-- `vst.b` (R216). -/
def execVstB (d a b stl : Nat) (s : State) : Out := s.vmem 4 stl {} (.st .b d a b)

/-- `vst.d` (R216). -/
def execVstD (d a b stl : Nat) (s : State) : Out := s.vmem 4 stl {} (.st .d d a b)

/-- `vldff.w` (R218). -/
def execVldffW (p : Pfx) (d a b : Nat) (s : State) : Out := s.vldff 8 false p d a b

/-- `vldff.b` (R218). -/
def execVldffB (p : Pfx) (d a b : Nat) (s : State) : Out := s.vldff 8 true p d a b

/-- `vldg.w` (R216). -/
def execVldgW (p : Pfx) (d a b : Nat) (s : State) : Out := s.vmem 8 p.stl p (.ldg d a b)

/-- `vsts.w` (R216, R221). -/
def execVstsW (p : Pfx) (d a b : Nat) (s : State) : Out := s.vmem 8 p.stl p (.sts d a b)

/-- `vldt.w` (R219). -/
def execVldtW (d a b stl : Nat) (s : State) : Out := s.vmem 4 stl {} (.ldt false d a b)

/-- `vldt.h` (R219). -/
def execVldtH (d a b stl : Nat) (s : State) : Out := s.vmem 4 stl {} (.ldt true d a b)

/-- `vswap` (R220). -/
def execVswap (d stl : Nat) (s : State) : Out := s.vswap 4 stl {} d

/-- The 16-bit form of `vadd` (R24). -/
def execVadd16 (int : Bool) (d b : Nat) (s : State) : Out := s.vcalc 2 0 {} (.lane (ty16 int) .add d d b)

/-- The 16-bit form of `vsub` (R24). -/
def execVsub16 (int : Bool) (d b : Nat) (s : State) : Out := s.vcalc 2 0 {} (.lane (ty16 int) .sub d d b)

/-- The 16-bit form of `vmul` (R24). -/
def execVmul16 (int : Bool) (d b : Nat) (s : State) : Out := s.vcalc 2 0 {} (.lane (ty16 int) .mul d d b)

/-- The 16-bit form of `vmin` (R24). -/
def execVmin16 (int : Bool) (d b : Nat) (s : State) : Out := s.vcalc 2 0 {} (.lane (ty16 int) .min d d b)

/-- The 16-bit form of `vmax` (R24). -/
def execVmax16 (int : Bool) (d b : Nat) (s : State) : Out := s.vcalc 2 0 {} (.lane (ty16 int) .max d d b)

/-- The 16-bit form of `vand` (R24). -/
def execVand16 (int : Bool) (d b : Nat) (s : State) : Out := s.vcalc 2 0 {} (.lane (ty16 int) .and d d b)

/-- The 16-bit form of `vor` (R24). -/
def execVor16 (int : Bool) (d b : Nat) (s : State) : Out := s.vcalc 2 0 {} (.lane (ty16 int) .or d d b)

/-- The 16-bit form of `vxor` (R24). -/
def execVxor16 (int : Bool) (d b : Nat) (s : State) : Out := s.vcalc 2 0 {} (.lane (ty16 int) .xor d d b)

/-- The 16-bit form of `vmov` (R24). -/
def execVmov16 (int : Bool) (d b : Nat) (s : State) : Out := s.vcalc 2 0 {} (.un .mov (ty16 int) d b)

/-- The 16-bit form of `vneg` (R24). -/
def execVneg16 (int : Bool) (d b : Nat) (s : State) : Out := s.vcalc 2 0 {} (.un .neg (ty16 int) d b)

/-- The 16-bit form of `vabs` (R24). -/
def execVabs16 (int : Bool) (d b : Nat) (s : State) : Out := s.vcalc 2 0 {} (.un .abs (ty16 int) d b)

/-- The 16-bit form of `vshl` (R24). -/
def execVshl16 (d b : Nat) (s : State) : Out := s.vcalc 2 0 {} (.lane .i32 .shl d d b)

/-- The 16-bit form of `vsra` (R24). -/
def execVsra16 (d b : Nat) (s : State) : Out := s.vcalc 2 0 {} (.lane .i32 .sra d d b)

/-- The 16-bit form of `vclt` (R24). -/
def execVclt16 (int : Bool) (d b : Nat) (s : State) : Out := s.vcalc 2 0 {} (.lane (ty16 int) .clt d d b)

/-- The 16-bit form of `vceq` (R24). -/
def execVceq16 (int : Bool) (d b : Nat) (s : State) : Out := s.vcalc 2 0 {} (.lane (ty16 int) .ceq d d b)

/-- The 16-bit form of `vrcp` (R24). -/
def execVrcp16 (d b : Nat) (s : State) : Out := s.vcalc 2 0 {} (.un .rcp .f32 d b)

/-- The 16-bit form of `vpopc` (R24). -/
def execVpopc16 (d b : Nat) (s : State) : Out := s.vcalc 2 0 {} (.un .popc .i32 d b)

end Sys2Proof.Machine
end

