-- ==== Sys2Proof/Machine/Dispatch.lean ====
section
/-! DEFINITION. One arm per constructor of `Instr`: the meaning of every instruction and event. -/
namespace Sys2Proof.Machine

/-- The meaning of an instruction. -/
def exec (i : Instr) (s : State) : Host.Outcome State Fault Refusal :=
  match i with
  | .add d a b st => Sys2Proof.Machine.execAdd d a b st s
  | .sub d a b st => Sys2Proof.Machine.execSub d a b st s
  | .and d a b st => Sys2Proof.Machine.execAnd d a b st s
  | .or d a b st => Sys2Proof.Machine.execOr d a b st s
  | .xor d a b st => Sys2Proof.Machine.execXor d a b st s
  | .andn d a b st => Sys2Proof.Machine.execAndn d a b st s
  | .sll d a b st => Sys2Proof.Machine.execSll d a b st s
  | .srl d a b st => Sys2Proof.Machine.execSrl d a b st s
  | .sra d a b st => Sys2Proof.Machine.execSra d a b st s
  | .slt d a b st => Sys2Proof.Machine.execSlt d a b st s
  | .sltu d a b st => Sys2Proof.Machine.execSltu d a b st s
  | .seq d a b st => Sys2Proof.Machine.execSeq d a b st s
  | .min d a b st => Sys2Proof.Machine.execMin d a b st s
  | .max d a b st => Sys2Proof.Machine.execMax d a b st s
  | .minn d a b st => Sys2Proof.Machine.execMinn d a b st s
  | .maxn d a b st => Sys2Proof.Machine.execMaxn d a b st s
  | .mul d a b st => Sys2Proof.Machine.execMul d a b st s
  | .mulh d a b st => Sys2Proof.Machine.execMulh d a b st s
  | .mulhn d a b st => Sys2Proof.Machine.execMulhn d a b st s
  | .div d a b st => Sys2Proof.Machine.execDiv d a b st s
  | .divn d a b st => Sys2Proof.Machine.execDivn d a b st s
  | .rem d a b st => Sys2Proof.Machine.execRem d a b st s
  | .remn d a b st => Sys2Proof.Machine.execRemn d a b st s
  | .clz d a st => Sys2Proof.Machine.execClz d a st s
  | .ctz d a st => Sys2Proof.Machine.execCtz d a st s
  | .popc d a st => Sys2Proof.Machine.execPopc d a st s
  | .bswap d a st => Sys2Proof.Machine.execBswap d a st s
  | .rotl d a b st => Sys2Proof.Machine.execRotl d a b st s
  | .rotr d a b st => Sys2Proof.Machine.execRotr d a b st s
  | .sextw d a st => Sys2Proof.Machine.execSextw d a st s
  | .zextw d a st => Sys2Proof.Machine.execZextw d a st s
  | .addi d a imm st => Sys2Proof.Machine.execAddi d a imm st s
  | .andi d a imm st => Sys2Proof.Machine.execAndi d a imm st s
  | .ori d a imm st => Sys2Proof.Machine.execOri d a imm st s
  | .xori d a imm st => Sys2Proof.Machine.execXori d a imm st s
  | .slti d a imm st => Sys2Proof.Machine.execSlti d a imm st s
  | .sltni d a imm st => Sys2Proof.Machine.execSltni d a imm st s
  | .slli d a amt st => Sys2Proof.Machine.execSlli d a amt st s
  | .srli d a amt st => Sys2Proof.Machine.execSrli d a amt st s
  | .srai d a amt st => Sys2Proof.Machine.execSrai d a amt st s
  | .rotli d a amt st => Sys2Proof.Machine.execRotli d a amt st s
  | .lui d imm st => Sys2Proof.Machine.execLui d imm st s
  | .lmid d imm st => Sys2Proof.Machine.execLmid d imm st s
  | .ltop d imm st => Sys2Proof.Machine.execLtop d imm st s
  | .faddF64 d a b st => Sys2Proof.Machine.execFaddF64 d a b st s
  | .fsubF64 d a b st => Sys2Proof.Machine.execFsubF64 d a b st s
  | .fmulF64 d a b st => Sys2Proof.Machine.execFmulF64 d a b st s
  | .fdivF64 d a b st => Sys2Proof.Machine.execFdivF64 d a b st s
  | .fsqrtF64 d a st => Sys2Proof.Machine.execFsqrtF64 d a st s
  | .fminF64 d a b st => Sys2Proof.Machine.execFminF64 d a b st s
  | .fmaxF64 d a b st => Sys2Proof.Machine.execFmaxF64 d a b st s
  | .fmacF64 d a b st => Sys2Proof.Machine.execFmacF64 d a b st s
  | .fltF64 d a b st => Sys2Proof.Machine.execFltF64 d a b st s
  | .fleF64 d a b st => Sys2Proof.Machine.execFleF64 d a b st s
  | .feqF64 d a b st => Sys2Proof.Machine.execFeqF64 d a b st s
  | .fclassF64 d a st => Sys2Proof.Machine.execFclassF64 d a st s
  | .fcvtI64F64 d a st => Sys2Proof.Machine.execFcvtI64F64 d a st s
  | .fcvtN64F64 d a st => Sys2Proof.Machine.execFcvtN64F64 d a st s
  | .fcvtI32F64 d a st => Sys2Proof.Machine.execFcvtI32F64 d a st s
  | .fcvtN32F64 d a st => Sys2Proof.Machine.execFcvtN32F64 d a st s
  | .fcvtF64I64 d a st => Sys2Proof.Machine.execFcvtF64I64 d a st s
  | .fcvtF64N64 d a st => Sys2Proof.Machine.execFcvtF64N64 d a st s
  | .fcvtF64I32 d a st => Sys2Proof.Machine.execFcvtF64I32 d a st s
  | .fcvtF64N32 d a st => Sys2Proof.Machine.execFcvtF64N32 d a st s
  | .fcvtF64F32 d a st => Sys2Proof.Machine.execFcvtF64F32 d a st s
  | .fminpF64 d a b st => Sys2Proof.Machine.execFminpF64 d a b st s
  | .fmaxpF64 d a b st => Sys2Proof.Machine.execFmaxpF64 d a b st s
  | .faddF32 d a b st => Sys2Proof.Machine.execFaddF32 d a b st s
  | .fsubF32 d a b st => Sys2Proof.Machine.execFsubF32 d a b st s
  | .fmulF32 d a b st => Sys2Proof.Machine.execFmulF32 d a b st s
  | .fdivF32 d a b st => Sys2Proof.Machine.execFdivF32 d a b st s
  | .fsqrtF32 d a st => Sys2Proof.Machine.execFsqrtF32 d a st s
  | .fminF32 d a b st => Sys2Proof.Machine.execFminF32 d a b st s
  | .fmaxF32 d a b st => Sys2Proof.Machine.execFmaxF32 d a b st s
  | .fmacF32 d a b st => Sys2Proof.Machine.execFmacF32 d a b st s
  | .fltF32 d a b st => Sys2Proof.Machine.execFltF32 d a b st s
  | .fleF32 d a b st => Sys2Proof.Machine.execFleF32 d a b st s
  | .feqF32 d a b st => Sys2Proof.Machine.execFeqF32 d a b st s
  | .fclassF32 d a st => Sys2Proof.Machine.execFclassF32 d a st s
  | .fcvtI64F32 d a st => Sys2Proof.Machine.execFcvtI64F32 d a st s
  | .fcvtN64F32 d a st => Sys2Proof.Machine.execFcvtN64F32 d a st s
  | .fcvtI32F32 d a st => Sys2Proof.Machine.execFcvtI32F32 d a st s
  | .fcvtN32F32 d a st => Sys2Proof.Machine.execFcvtN32F32 d a st s
  | .fcvtF32I64 d a st => Sys2Proof.Machine.execFcvtF32I64 d a st s
  | .fcvtF32N64 d a st => Sys2Proof.Machine.execFcvtF32N64 d a st s
  | .fcvtF32I32 d a st => Sys2Proof.Machine.execFcvtF32I32 d a st s
  | .fcvtF32N32 d a st => Sys2Proof.Machine.execFcvtF32N32 d a st s
  | .fcvtF32F64 d a st => Sys2Proof.Machine.execFcvtF32F64 d a st s
  | .fminpF32 d a b st => Sys2Proof.Machine.execFminpF32 d a b st s
  | .fmaxpF32 d a b st => Sys2Proof.Machine.execFmaxpF32 d a b st s
  | .beqz a imm st => Sys2Proof.Machine.execBeqz a imm st s
  | .bnez a imm st => Sys2Proof.Machine.execBnez a imm st s
  | .bltz a imm st => Sys2Proof.Machine.execBltz a imm st s
  | .bgez a imm st => Sys2Proof.Machine.execBgez a imm st s
  | .blez a imm st => Sys2Proof.Machine.execBlez a imm st s
  | .bgtz a imm st => Sys2Proof.Machine.execBgtz a imm st s
  | .dbnz a imm st => Sys2Proof.Machine.execDbnz a imm st s
  | .j imm st => Sys2Proof.Machine.execJ imm st s
  | .call imm st => Sys2Proof.Machine.execCall imm st s
  | .jr a st => Sys2Proof.Machine.execJr a st s
  | .callr a st => Sys2Proof.Machine.execCallr a st s
  | .ldD d a imm st => Sys2Proof.Machine.execLdD d a imm st s
  | .ldW d a imm st => Sys2Proof.Machine.execLdW d a imm st s
  | .ldWn d a imm st => Sys2Proof.Machine.execLdWn d a imm st s
  | .ldH d a imm st => Sys2Proof.Machine.execLdH d a imm st s
  | .ldHn d a imm st => Sys2Proof.Machine.execLdHn d a imm st s
  | .ldB d a imm st => Sys2Proof.Machine.execLdB d a imm st s
  | .ldBn d a imm st => Sys2Proof.Machine.execLdBn d a imm st s
  | .stD d a imm st => Sys2Proof.Machine.execStD d a imm st s
  | .stW d a imm st => Sys2Proof.Machine.execStW d a imm st s
  | .stH d a imm st => Sys2Proof.Machine.execStH d a imm st s
  | .stB d a imm st => Sys2Proof.Machine.execStB d a imm st s
  | .csrr csr d st => Sys2Proof.Machine.execCsrr csr d st s
  | .csrw csr x st => Sys2Proof.Machine.execCsrw csr x st s
  | .csrs csr x st => Sys2Proof.Machine.execCsrs csr x st s
  | .csrc csr x st => Sys2Proof.Machine.execCsrc csr x st s
  | .trap code st => Sys2Proof.Machine.execTrap code st s
  | .rett st => Sys2Proof.Machine.execRett st s
  | .halt st => Sys2Proof.Machine.execHalt st s
  | .sleep a st => Sys2Proof.Machine.execSleep a st s
  | .ibar st => Sys2Proof.Machine.execIbar st s
  | .iinv d a sc st => Sys2Proof.Machine.execIinv d a sc st s
  | .brk code st => Sys2Proof.Machine.execBrk code st s
  | .resume d a st => Sys2Proof.Machine.execResume d a st s
  | .wset a idx st => Sys2Proof.Machine.execWset a idx st s
  | .wget d idx st => Sys2Proof.Machine.execWget d idx st s
  | .wsw idx st => Sys2Proof.Machine.execWsw idx st s
  | .wswj idx st => Sys2Proof.Machine.execWswj idx st s
  | .wshr d a idx st => Sys2Proof.Machine.execWshr d a idx st s
  | .wclr idx st => Sys2Proof.Machine.execWclr idx st s
  | .warena d a st => Sys2Proof.Machine.execWarena d a st s
  | .pfx p v => Sys2Proof.Machine.execPfx p v s
  | .vaddF32 d a b st => Sys2Proof.Machine.execVaddF32 d a b st s
  | .vsubF32 d a b st => Sys2Proof.Machine.execVsubF32 d a b st s
  | .vmulF32 d a b st => Sys2Proof.Machine.execVmulF32 d a b st s
  | .vmacF32 d a b st => Sys2Proof.Machine.execVmacF32 d a b st s
  | .vminF32 d a b st => Sys2Proof.Machine.execVminF32 d a b st s
  | .vmaxF32 d a b st => Sys2Proof.Machine.execVmaxF32 d a b st s
  | .vminpF32 d a b st => Sys2Proof.Machine.execVminpF32 d a b st s
  | .vmaxpF32 d a b st => Sys2Proof.Machine.execVmaxpF32 d a b st s
  | .vandF32 d a b st => Sys2Proof.Machine.execVandF32 d a b st s
  | .vorF32 d a b st => Sys2Proof.Machine.execVorF32 d a b st s
  | .vxorF32 d a b st => Sys2Proof.Machine.execVxorF32 d a b st s
  | .vshlF32 d a b st => Sys2Proof.Machine.execVshlF32 d a b st s
  | .vshrF32 d a b st => Sys2Proof.Machine.execVshrF32 d a b st s
  | .vsraF32 d a b st => Sys2Proof.Machine.execVsraF32 d a b st s
  | .vcltF32 d a b st => Sys2Proof.Machine.execVcltF32 d a b st s
  | .vceqF32 d a b st => Sys2Proof.Machine.execVceqF32 d a b st s
  | .vaddI32 d a b st => Sys2Proof.Machine.execVaddI32 d a b st s
  | .vsubI32 d a b st => Sys2Proof.Machine.execVsubI32 d a b st s
  | .vmulI32 d a b st => Sys2Proof.Machine.execVmulI32 d a b st s
  | .vmacI32 d a b st => Sys2Proof.Machine.execVmacI32 d a b st s
  | .vminI32 d a b st => Sys2Proof.Machine.execVminI32 d a b st s
  | .vmaxI32 d a b st => Sys2Proof.Machine.execVmaxI32 d a b st s
  | .vminpI32 d a b st => Sys2Proof.Machine.execVminpI32 d a b st s
  | .vmaxpI32 d a b st => Sys2Proof.Machine.execVmaxpI32 d a b st s
  | .vandI32 d a b st => Sys2Proof.Machine.execVandI32 d a b st s
  | .vorI32 d a b st => Sys2Proof.Machine.execVorI32 d a b st s
  | .vxorI32 d a b st => Sys2Proof.Machine.execVxorI32 d a b st s
  | .vshlI32 d a b st => Sys2Proof.Machine.execVshlI32 d a b st s
  | .vshrI32 d a b st => Sys2Proof.Machine.execVshrI32 d a b st s
  | .vsraI32 d a b st => Sys2Proof.Machine.execVsraI32 d a b st s
  | .vcltI32 d a b st => Sys2Proof.Machine.execVcltI32 d a b st s
  | .vceqI32 d a b st => Sys2Proof.Machine.execVceqI32 d a b st s
  | .vaddN32 d a b st => Sys2Proof.Machine.execVaddN32 d a b st s
  | .vsubN32 d a b st => Sys2Proof.Machine.execVsubN32 d a b st s
  | .vmulN32 d a b st => Sys2Proof.Machine.execVmulN32 d a b st s
  | .vmacN32 d a b st => Sys2Proof.Machine.execVmacN32 d a b st s
  | .vminN32 d a b st => Sys2Proof.Machine.execVminN32 d a b st s
  | .vmaxN32 d a b st => Sys2Proof.Machine.execVmaxN32 d a b st s
  | .vminpN32 d a b st => Sys2Proof.Machine.execVminpN32 d a b st s
  | .vmaxpN32 d a b st => Sys2Proof.Machine.execVmaxpN32 d a b st s
  | .vandN32 d a b st => Sys2Proof.Machine.execVandN32 d a b st s
  | .vorN32 d a b st => Sys2Proof.Machine.execVorN32 d a b st s
  | .vxorN32 d a b st => Sys2Proof.Machine.execVxorN32 d a b st s
  | .vshlN32 d a b st => Sys2Proof.Machine.execVshlN32 d a b st s
  | .vshrN32 d a b st => Sys2Proof.Machine.execVshrN32 d a b st s
  | .vsraN32 d a b st => Sys2Proof.Machine.execVsraN32 d a b st s
  | .vcltN32 d a b st => Sys2Proof.Machine.execVcltN32 d a b st s
  | .vceqN32 d a b st => Sys2Proof.Machine.execVceqN32 d a b st s
  | .vaddBf16 d a b st => Sys2Proof.Machine.execVaddBf16 d a b st s
  | .vsubBf16 d a b st => Sys2Proof.Machine.execVsubBf16 d a b st s
  | .vmulBf16 d a b st => Sys2Proof.Machine.execVmulBf16 d a b st s
  | .vmacBf16 d a b st => Sys2Proof.Machine.execVmacBf16 d a b st s
  | .vminBf16 d a b st => Sys2Proof.Machine.execVminBf16 d a b st s
  | .vmaxBf16 d a b st => Sys2Proof.Machine.execVmaxBf16 d a b st s
  | .vminpBf16 d a b st => Sys2Proof.Machine.execVminpBf16 d a b st s
  | .vmaxpBf16 d a b st => Sys2Proof.Machine.execVmaxpBf16 d a b st s
  | .vandBf16 d a b st => Sys2Proof.Machine.execVandBf16 d a b st s
  | .vorBf16 d a b st => Sys2Proof.Machine.execVorBf16 d a b st s
  | .vxorBf16 d a b st => Sys2Proof.Machine.execVxorBf16 d a b st s
  | .vshlBf16 d a b st => Sys2Proof.Machine.execVshlBf16 d a b st s
  | .vshrBf16 d a b st => Sys2Proof.Machine.execVshrBf16 d a b st s
  | .vsraBf16 d a b st => Sys2Proof.Machine.execVsraBf16 d a b st s
  | .vcltBf16 d a b st => Sys2Proof.Machine.execVcltBf16 d a b st s
  | .vceqBf16 d a b st => Sys2Proof.Machine.execVceqBf16 d a b st s
  | .vaddF16 d a b st => Sys2Proof.Machine.execVaddF16 d a b st s
  | .vsubF16 d a b st => Sys2Proof.Machine.execVsubF16 d a b st s
  | .vmulF16 d a b st => Sys2Proof.Machine.execVmulF16 d a b st s
  | .vmacF16 d a b st => Sys2Proof.Machine.execVmacF16 d a b st s
  | .vminF16 d a b st => Sys2Proof.Machine.execVminF16 d a b st s
  | .vmaxF16 d a b st => Sys2Proof.Machine.execVmaxF16 d a b st s
  | .vminpF16 d a b st => Sys2Proof.Machine.execVminpF16 d a b st s
  | .vmaxpF16 d a b st => Sys2Proof.Machine.execVmaxpF16 d a b st s
  | .vandF16 d a b st => Sys2Proof.Machine.execVandF16 d a b st s
  | .vorF16 d a b st => Sys2Proof.Machine.execVorF16 d a b st s
  | .vxorF16 d a b st => Sys2Proof.Machine.execVxorF16 d a b st s
  | .vshlF16 d a b st => Sys2Proof.Machine.execVshlF16 d a b st s
  | .vshrF16 d a b st => Sys2Proof.Machine.execVshrF16 d a b st s
  | .vsraF16 d a b st => Sys2Proof.Machine.execVsraF16 d a b st s
  | .vcltF16 d a b st => Sys2Proof.Machine.execVcltF16 d a b st s
  | .vceqF16 d a b st => Sys2Proof.Machine.execVceqF16 d a b st s
  | .vaddI16 d a b st => Sys2Proof.Machine.execVaddI16 d a b st s
  | .vsubI16 d a b st => Sys2Proof.Machine.execVsubI16 d a b st s
  | .vmulI16 d a b st => Sys2Proof.Machine.execVmulI16 d a b st s
  | .vmacI16 d a b st => Sys2Proof.Machine.execVmacI16 d a b st s
  | .vminI16 d a b st => Sys2Proof.Machine.execVminI16 d a b st s
  | .vmaxI16 d a b st => Sys2Proof.Machine.execVmaxI16 d a b st s
  | .vminpI16 d a b st => Sys2Proof.Machine.execVminpI16 d a b st s
  | .vmaxpI16 d a b st => Sys2Proof.Machine.execVmaxpI16 d a b st s
  | .vandI16 d a b st => Sys2Proof.Machine.execVandI16 d a b st s
  | .vorI16 d a b st => Sys2Proof.Machine.execVorI16 d a b st s
  | .vxorI16 d a b st => Sys2Proof.Machine.execVxorI16 d a b st s
  | .vshlI16 d a b st => Sys2Proof.Machine.execVshlI16 d a b st s
  | .vshrI16 d a b st => Sys2Proof.Machine.execVshrI16 d a b st s
  | .vsraI16 d a b st => Sys2Proof.Machine.execVsraI16 d a b st s
  | .vcltI16 d a b st => Sys2Proof.Machine.execVcltI16 d a b st s
  | .vceqI16 d a b st => Sys2Proof.Machine.execVceqI16 d a b st s
  | .vaddI8 d a b st => Sys2Proof.Machine.execVaddI8 d a b st s
  | .vsubI8 d a b st => Sys2Proof.Machine.execVsubI8 d a b st s
  | .vmulI8 d a b st => Sys2Proof.Machine.execVmulI8 d a b st s
  | .vmacI8 d a b st => Sys2Proof.Machine.execVmacI8 d a b st s
  | .vminI8 d a b st => Sys2Proof.Machine.execVminI8 d a b st s
  | .vmaxI8 d a b st => Sys2Proof.Machine.execVmaxI8 d a b st s
  | .vminpI8 d a b st => Sys2Proof.Machine.execVminpI8 d a b st s
  | .vmaxpI8 d a b st => Sys2Proof.Machine.execVmaxpI8 d a b st s
  | .vandI8 d a b st => Sys2Proof.Machine.execVandI8 d a b st s
  | .vorI8 d a b st => Sys2Proof.Machine.execVorI8 d a b st s
  | .vxorI8 d a b st => Sys2Proof.Machine.execVxorI8 d a b st s
  | .vshlI8 d a b st => Sys2Proof.Machine.execVshlI8 d a b st s
  | .vshrI8 d a b st => Sys2Proof.Machine.execVshrI8 d a b st s
  | .vsraI8 d a b st => Sys2Proof.Machine.execVsraI8 d a b st s
  | .vcltI8 d a b st => Sys2Proof.Machine.execVcltI8 d a b st s
  | .vceqI8 d a b st => Sys2Proof.Machine.execVceqI8 d a b st s
  | .vaddF64 d a b st => Sys2Proof.Machine.execVaddF64 d a b st s
  | .vsubF64 d a b st => Sys2Proof.Machine.execVsubF64 d a b st s
  | .vmulF64 d a b st => Sys2Proof.Machine.execVmulF64 d a b st s
  | .vmacF64 d a b st => Sys2Proof.Machine.execVmacF64 d a b st s
  | .vminF64 d a b st => Sys2Proof.Machine.execVminF64 d a b st s
  | .vmaxF64 d a b st => Sys2Proof.Machine.execVmaxF64 d a b st s
  | .vminpF64 d a b st => Sys2Proof.Machine.execVminpF64 d a b st s
  | .vmaxpF64 d a b st => Sys2Proof.Machine.execVmaxpF64 d a b st s
  | .vandF64 d a b st => Sys2Proof.Machine.execVandF64 d a b st s
  | .vorF64 d a b st => Sys2Proof.Machine.execVorF64 d a b st s
  | .vxorF64 d a b st => Sys2Proof.Machine.execVxorF64 d a b st s
  | .vshlF64 d a b st => Sys2Proof.Machine.execVshlF64 d a b st s
  | .vshrF64 d a b st => Sys2Proof.Machine.execVshrF64 d a b st s
  | .vsraF64 d a b st => Sys2Proof.Machine.execVsraF64 d a b st s
  | .vcltF64 d a b st => Sys2Proof.Machine.execVcltF64 d a b st s
  | .vceqF64 d a b st => Sys2Proof.Machine.execVceqF64 d a b st s
  | .vmov ty d a st => Sys2Proof.Machine.execVmov ty d a st s
  | .vneg ty d a st => Sys2Proof.Machine.execVneg ty d a st s
  | .vabs ty d a st => Sys2Proof.Machine.execVabs ty d a st s
  | .vnot ty d a st => Sys2Proof.Machine.execVnot ty d a st s
  | .vrcp ty d a st => Sys2Proof.Machine.execVrcp ty d a st s
  | .vrsqrt ty d a st => Sys2Proof.Machine.execVrsqrt ty d a st s
  | .vsqrt ty d a st => Sys2Proof.Machine.execVsqrt ty d a st s
  | .vexp2 ty d a st => Sys2Proof.Machine.execVexp2 ty d a st s
  | .vlog2 ty d a st => Sys2Proof.Machine.execVlog2 ty d a st s
  | .vtanh ty d a st => Sys2Proof.Machine.execVtanh ty d a st s
  | .vsigm ty d a st => Sys2Proof.Machine.execVsigm ty d a st s
  | .vrnd ty d a st => Sys2Proof.Machine.execVrnd ty d a st s
  | .vclz ty d a st => Sys2Proof.Machine.execVclz ty d a st s
  | .vpopc ty d a st => Sys2Proof.Machine.execVpopc ty d a st s
  | .vsumr ty d a st => Sys2Proof.Machine.execVsumr ty d a st s
  | .vmaxr ty d a st => Sys2Proof.Machine.execVmaxr ty d a st s
  | .vminr ty d a st => Sys2Proof.Machine.execVminr ty d a st s
  | .vmxs ty d a st => Sys2Proof.Machine.execVmxs ty d a st s
  | .vrev ty d a st => Sys2Proof.Machine.execVrev ty d a st s
  | .vclass ty d a st => Sys2Proof.Machine.execVclass ty d a st s
  | .vcvt sty mode dty d a st => Sys2Proof.Machine.execVcvt sty mode dty d a st s
  | .vbcast ty d a st => Sys2Proof.Machine.execVbcast ty d a st s
  | .vextW d a k st => Sys2Proof.Machine.execVextW d a k st s
  | .vextD d a k st => Sys2Proof.Machine.execVextD d a k st s
  | .vinsW d a k st => Sys2Proof.Machine.execVinsW d a k st s
  | .vinsD d a k st => Sys2Proof.Machine.execVinsD d a k st s
  | .vpred ty d a st => Sys2Proof.Machine.execVpred ty d a st s
  | .vidx ty d a st => Sys2Proof.Machine.execVidx ty d a st s
  | .vldW d a b st => Sys2Proof.Machine.execVldW d a b st s
  | .vldH d a b st => Sys2Proof.Machine.execVldH d a b st s
  | .vldB d a b st => Sys2Proof.Machine.execVldB d a b st s
  | .vldD d a b st => Sys2Proof.Machine.execVldD d a b st s
  | .vstW d a b st => Sys2Proof.Machine.execVstW d a b st s
  | .vstH d a b st => Sys2Proof.Machine.execVstH d a b st s
  | .vstB d a b st => Sys2Proof.Machine.execVstB d a b st s
  | .vstD d a b st => Sys2Proof.Machine.execVstD d a b st s
  | .vldffW p d a b => Sys2Proof.Machine.execVldffW p d a b s
  | .vldffB p d a b => Sys2Proof.Machine.execVldffB p d a b s
  | .vldgW p d a b => Sys2Proof.Machine.execVldgW p d a b s
  | .vstsW p d a b => Sys2Proof.Machine.execVstsW p d a b s
  | .vldtW d a b st => Sys2Proof.Machine.execVldtW d a b st s
  | .vldtH d a b st => Sys2Proof.Machine.execVldtH d a b st s
  | .vswap d st => Sys2Proof.Machine.execVswap d st s
  | .vtrip a n1 mode ns bs st => Sys2Proof.Machine.execVtrip a n1 mode ns bs st s
  | .vadd16 int d b => Sys2Proof.Machine.execVadd16 int d b s
  | .vsub16 int d b => Sys2Proof.Machine.execVsub16 int d b s
  | .vmul16 int d b => Sys2Proof.Machine.execVmul16 int d b s
  | .vmin16 int d b => Sys2Proof.Machine.execVmin16 int d b s
  | .vmax16 int d b => Sys2Proof.Machine.execVmax16 int d b s
  | .vand16 int d b => Sys2Proof.Machine.execVand16 int d b s
  | .vor16 int d b => Sys2Proof.Machine.execVor16 int d b s
  | .vxor16 int d b => Sys2Proof.Machine.execVxor16 int d b s
  | .vmov16 int d b => Sys2Proof.Machine.execVmov16 int d b s
  | .vneg16 int d b => Sys2Proof.Machine.execVneg16 int d b s
  | .vabs16 int d b => Sys2Proof.Machine.execVabs16 int d b s
  | .vshl16 d b => Sys2Proof.Machine.execVshl16 d b s
  | .vsra16 d b => Sys2Proof.Machine.execVsra16 d b s
  | .vclt16 int d b => Sys2Proof.Machine.execVclt16 int d b s
  | .vceq16 int d b => Sys2Proof.Machine.execVceq16 int d b s
  | .vrcp16 d b => Sys2Proof.Machine.execVrcp16 d b s
  | .vpopc16 d b => Sys2Proof.Machine.execVpopc16 d b s
  | .brk16 => Sys2Proof.Machine.execBrk16 s
  | .vstrm d a v st => Sys2Proof.Machine.execVstrm d a v st s
  | .vsunb d a st => Sys2Proof.Machine.execVsunb d a st s
  | .vsq d a st => Sys2Proof.Machine.execVsq d a st s
  | .mlease st => Sys2Proof.Machine.execMlease st s
  | .mrel st => Sys2Proof.Machine.execMrel st s
  | .mbload a st => Sys2Proof.Machine.execMbload a st s
  | .mmac d a st => Sys2Proof.Machine.execMmac d a st s
  | .mrot st => Sys2Proof.Machine.execMrot st s
  | .mzero d st => Sys2Proof.Machine.execMzero d st s
  | .mst d a st => Sys2Proof.Machine.execMst d a st s
  | .mld d a st => Sys2Proof.Machine.execMld d a st s
  | .macc d a st => Sys2Proof.Machine.execMacc d a st s
  | .mwait d a st => Sys2Proof.Machine.execMwait d a st s
  | .mclaim d a st => Sys2Proof.Machine.execMclaim d a st s
  | .mstat d a st => Sys2Proof.Machine.execMstat d a st s
  | .atomAddBlk dbl d a b st => Sys2Proof.Machine.execAtomAddBlk dbl d a b st s
  | .atomAndBlk dbl d a b st => Sys2Proof.Machine.execAtomAndBlk dbl d a b st s
  | .atomOrBlk dbl d a b st => Sys2Proof.Machine.execAtomOrBlk dbl d a b st s
  | .atomXorBlk dbl d a b st => Sys2Proof.Machine.execAtomXorBlk dbl d a b st s
  | .atomMinBlk dbl d a b st => Sys2Proof.Machine.execAtomMinBlk dbl d a b st s
  | .atomMaxBlk dbl d a b st => Sys2Proof.Machine.execAtomMaxBlk dbl d a b st s
  | .atomSwapBlk dbl d a b st => Sys2Proof.Machine.execAtomSwapBlk dbl d a b st s
  | .atomCasBlk dbl d a b st => Sys2Proof.Machine.execAtomCasBlk dbl d a b st s
  | .atomAddCls dbl d a b st => Sys2Proof.Machine.execAtomAddCls dbl d a b st s
  | .atomAndCls dbl d a b st => Sys2Proof.Machine.execAtomAndCls dbl d a b st s
  | .atomOrCls dbl d a b st => Sys2Proof.Machine.execAtomOrCls dbl d a b st s
  | .atomXorCls dbl d a b st => Sys2Proof.Machine.execAtomXorCls dbl d a b st s
  | .atomMinCls dbl d a b st => Sys2Proof.Machine.execAtomMinCls dbl d a b st s
  | .atomMaxCls dbl d a b st => Sys2Proof.Machine.execAtomMaxCls dbl d a b st s
  | .atomSwapCls dbl d a b st => Sys2Proof.Machine.execAtomSwapCls dbl d a b st s
  | .atomCasCls dbl d a b st => Sys2Proof.Machine.execAtomCasCls dbl d a b st s
  | .atomAddDev dbl d a b st => Sys2Proof.Machine.execAtomAddDev dbl d a b st s
  | .atomAndDev dbl d a b st => Sys2Proof.Machine.execAtomAndDev dbl d a b st s
  | .atomOrDev dbl d a b st => Sys2Proof.Machine.execAtomOrDev dbl d a b st s
  | .atomXorDev dbl d a b st => Sys2Proof.Machine.execAtomXorDev dbl d a b st s
  | .atomMinDev dbl d a b st => Sys2Proof.Machine.execAtomMinDev dbl d a b st s
  | .atomMaxDev dbl d a b st => Sys2Proof.Machine.execAtomMaxDev dbl d a b st s
  | .atomSwapDev dbl d a b st => Sys2Proof.Machine.execAtomSwapDev dbl d a b st s
  | .atomCasDev dbl d a b st => Sys2Proof.Machine.execAtomCasDev dbl d a b st s
  | .atomAddSys dbl d a b st => Sys2Proof.Machine.execAtomAddSys dbl d a b st s
  | .atomAndSys dbl d a b st => Sys2Proof.Machine.execAtomAndSys dbl d a b st s
  | .atomOrSys dbl d a b st => Sys2Proof.Machine.execAtomOrSys dbl d a b st s
  | .atomXorSys dbl d a b st => Sys2Proof.Machine.execAtomXorSys dbl d a b st s
  | .atomMinSys dbl d a b st => Sys2Proof.Machine.execAtomMinSys dbl d a b st s
  | .atomMaxSys dbl d a b st => Sys2Proof.Machine.execAtomMaxSys dbl d a b st s
  | .atomSwapSys dbl d a b st => Sys2Proof.Machine.execAtomSwapSys dbl d a b st s
  | .atomCasSys dbl d a b st => Sys2Proof.Machine.execAtomCasSys dbl d a b st s
  | .redAddW a b sc st => Sys2Proof.Machine.execRedAddW a b sc st s
  | .redAddD a b sc st => Sys2Proof.Machine.execRedAddD a b sc st s
  | .redAndW a b sc st => Sys2Proof.Machine.execRedAndW a b sc st s
  | .redAndD a b sc st => Sys2Proof.Machine.execRedAndD a b sc st s
  | .redOrW a b sc st => Sys2Proof.Machine.execRedOrW a b sc st s
  | .redOrD a b sc st => Sys2Proof.Machine.execRedOrD a b sc st s
  | .redXorW a b sc st => Sys2Proof.Machine.execRedXorW a b sc st s
  | .redXorD a b sc st => Sys2Proof.Machine.execRedXorD a b sc st s
  | .redMinW a b sc st => Sys2Proof.Machine.execRedMinW a b sc st s
  | .redMinD a b sc st => Sys2Proof.Machine.execRedMinD a b sc st s
  | .redMaxW a b sc st => Sys2Proof.Machine.execRedMaxW a b sc st s
  | .redMaxD a b sc st => Sys2Proof.Machine.execRedMaxD a b sc st s
  | .redFaddF32 a b sc st => Sys2Proof.Machine.execRedFaddF32 a b sc st s
  | .redFaddF64 a b sc st => Sys2Proof.Machine.execRedFaddF64 a b sc st s
  | .ldSync d a st => Sys2Proof.Machine.execLdSync d a st s
  | .take d a st => Sys2Proof.Machine.execTake d a st s
  | .put d a src st => Sys2Proof.Machine.execPut d a src st s
  | .feSet a l st => Sys2Proof.Machine.execFeSet a l st s
  | .feClr a l st => Sys2Proof.Machine.execFeClr a l st s
  | .feQ d a st => Sys2Proof.Machine.execFeQ d a st s
  | .feWait a l st => Sys2Proof.Machine.execFeWait a l st s
  | .bcfgC d a st => Sys2Proof.Machine.execBcfgC d a st s
  | .bcfgS d a st => Sys2Proof.Machine.execBcfgS d a st s
  | .bcfgF d a st => Sys2Proof.Machine.execBcfgF d a st s
  | .bq d a st => Sys2Proof.Machine.execBq d a st s
  | .fpush d a src st => Sys2Proof.Machine.execFpush d a src st s
  | .fpop d a st => Sys2Proof.Machine.execFpop d a st s
  | .fq d a st => Sys2Proof.Machine.execFq d a st s
  | .cpy d a b st => Sys2Proof.Machine.execCpy d a b st s
  | .cpyFe d a b st => Sys2Proof.Machine.execCpyFe d a b st s
  | .mcast d a b st => Sys2Proof.Machine.execMcast d a b st s
  | .putsig d a b st => Sys2Proof.Machine.execPutsig d a b st s
  | .cpyPh d a b st => Sys2Proof.Machine.execCpyPh d a b st s
  | .cpwait d a st => Sys2Proof.Machine.execCpwait d a st s
  | .cpq d a st => Sys2Proof.Machine.execCpq d a st s
  | .cpcan d a b st => Sys2Proof.Machine.execCpcan d a b st s
  | .mark a off st => Sys2Proof.Machine.execMark a off st s
  | .ttarm d a st => Sys2Proof.Machine.execTtarm d a st s
  | .ttq d a st => Sys2Proof.Machine.execTtq d a st s
  | .ttreplay d a st => Sys2Proof.Machine.execTtreplay d a st s
  | .ttoff d st => Sys2Proof.Machine.execTtoff d st s
  | .tdef d a st => Sys2Proof.Machine.execTdef d a st s
  | .tspawn d a st => Sys2Proof.Machine.execTspawn d a st s
  | .tnext d a idx st => Sys2Proof.Machine.execTnext d a idx st s
  | .tdone idx st => Sys2Proof.Machine.execTdone idx st s
  | .freeze d idx st => Sys2Proof.Machine.execFreeze d idx st s
  | .tquery d a st => Sys2Proof.Machine.execTquery d a st s
  | .tclaim d a st => Sys2Proof.Machine.execTclaim d a st s
  | .tlaunch d a st => Sys2Proof.Machine.execTlaunch d a st s
  | .tyield idx st => Sys2Proof.Machine.execTyield idx st s
  | .fence sc st => Sys2Proof.Machine.execFence sc st s
  | .ldAcq d a sc st => Sys2Proof.Machine.execLdAcq d a sc st s
  | .stRel d a sc st => Sys2Proof.Machine.execStRel d a sc st s
  | .acqpDev d a b st => Sys2Proof.Machine.execAcqpDev d a b st s
  | .acqpSys d a b st => Sys2Proof.Machine.execAcqpSys d a b st s
  | .phnew d a sc st => Sys2Proof.Machine.execPhnew d a sc st s
  | .phfree d a st => Sys2Proof.Machine.execPhfree d a st s
  | .phreg d a md st => Sys2Proof.Machine.execPhreg d a md st s
  | .phdrop d a st => Sys2Proof.Machine.execPhdrop d a st s
  | .phsig d a st => Sys2Proof.Machine.execPhsig d a st s
  | .phwait d a st => Sys2Proof.Machine.execPhwait d a st s
  | .phnext d a st => Sys2Proof.Machine.execPhnext d a st s
  | .phq d a st => Sys2Proof.Machine.execPhq d a st s
  | .illegalEncoding ibits len => Sys2Proof.Machine.execIllegalEncoding ibits len s
  | .resultLands core k => Sys2Proof.Machine.execResultLands core k s
  | .storeBufferEntryLeaves core => Sys2Proof.Machine.execStoreBufferEntryLeaves core s
  | .atomicPerformed core => Sys2Proof.Machine.execAtomicPerformed core s
  | .reductionApplied k => Sys2Proof.Machine.execReductionApplied k s
  | .reductionAtPort core => Sys2Proof.Machine.execReductionAtPort core s
  | .combiningEntryExpiry port k => Sys2Proof.Machine.execCombiningEntryExpiry port k s
  | .promotionRequest core => Sys2Proof.Machine.execPromotionRequest core s
  | .bankSwitchBegin die cl bank => Sys2Proof.Machine.execBankSwitchBegin die cl bank s
  | .bankSwitchEnd die cl bank => Sys2Proof.Machine.execBankSwitchEnd die cl bank s
  | .sectorDone die slot entry sector => Sys2Proof.Machine.execSectorDone die slot entry sector s
  | .entryFault die slot entry => Sys2Proof.Machine.execEntryFault die slot entry s
  | .copyStart core => Sys2Proof.Machine.execCopyStart core s
  | .segmentDone core ticket seg => Sys2Proof.Machine.execSegmentDone core ticket seg s
  | .copyFault core ticket => Sys2Proof.Machine.execCopyFault core ticket s
  | .streamWordDelivery core strm => Sys2Proof.Machine.execStreamWordDelivery core strm s
  | .vectorBind die cl => Sys2Proof.Machine.execVectorBind die cl s
  | .tripIssue core => Sys2Proof.Machine.execTripIssue core s
  | .matrixCommandStart die cl => Sys2Proof.Machine.execMatrixCommandStart die cl s
  | .matrixCommandComplete die cl => Sys2Proof.Machine.execMatrixCommandComplete die cl s
  | .rotationTileArrival die cl => Sys2Proof.Machine.execRotationTileArrival die cl s
  | .leaseIdleTimeout die cl => Sys2Proof.Machine.execLeaseIdleTimeout die cl s
  | .counterSatisfied die k => Sys2Proof.Machine.execCounterSatisfied die k s
  | .taskOffer die => Sys2Proof.Machine.execTaskOffer die s
  | .tnextTimeout core => Sys2Proof.Machine.execTnextTimeout core s
  | .placementRank die => Sys2Proof.Machine.execPlacementRank die s
  | .settle die => Sys2Proof.Machine.execSettle die s
  | .settleComplete die k => Sys2Proof.Machine.execSettleComplete die k s
  | .migrationDecision lid => Sys2Proof.Machine.execMigrationDecision lid s
  | .quenchTick vf => Sys2Proof.Machine.execQuenchTick vf s
  | .flushToken die vf => Sys2Proof.Machine.execFlushToken die vf s
  | .spillDone core => Sys2Proof.Machine.execSpillDone core s
  | .spillFault core => Sys2Proof.Machine.execSpillFault core s
  | .clusterSpill die cl => Sys2Proof.Machine.execClusterSpill die cl s
  | .qctlGo vf tick => Sys2Proof.Machine.execQctlGo vf tick s
  | .corecmdContinueSpill core => Sys2Proof.Machine.execCorecmdContinueSpill core s
  | .corecmdRestore core vcore => Sys2Proof.Machine.execCorecmdRestore core vcore s
  | .corecmdRunInPlace core vcore => Sys2Proof.Machine.execCorecmdRunInPlace core vcore s
  | .packetHoldExpiry k => Sys2Proof.Machine.execPacketHoldExpiry k s
  | .orphrel die cl mask => Sys2Proof.Machine.execOrphrel die cl mask s
  | .haltQueueRemove die vf => Sys2Proof.Machine.execHaltQueueRemove die vf s
  | .faultQueueRemove die vf => Sys2Proof.Machine.execFaultQueueRemove die vf s
  | .errorLogRemove die log => Sys2Proof.Machine.execErrorLogRemove die log s
  | .invalidateCmd die vf cmd => Sys2Proof.Machine.execInvalidateCmd die vf cmd s
  | .invalidateComplete die vf => Sys2Proof.Machine.execInvalidateComplete die vf s
  | .commit die => Sys2Proof.Machine.execCommit die s
  | .ownershipBitmapWrite unit off val => Sys2Proof.Machine.execOwnershipBitmapWrite unit off val s
  | .corevfWrite core vf => Sys2Proof.Machine.execCorevfWrite core vf s
  | .remapWrite v val => Sys2Proof.Machine.execRemapWrite v val s
  | .sparectl die val => Sys2Proof.Machine.execSparectl die val s
  | .packageBudgetWrite val => Sys2Proof.Machine.execPackageBudgetWrite val s
  | .coreclkWrite core val => Sys2Proof.Machine.execCoreclkWrite core val s
  | .rowvWrite die row val => Sys2Proof.Machine.execRowvWrite die row val s
  | .hopAbort core => Sys2Proof.Machine.execHopAbort core s
  | .hopRetry core => Sys2Proof.Machine.execHopRetry core s
  | .activityWindow die cl => Sys2Proof.Machine.execActivityWindow die cl s
  | .budgetInterval => Sys2Proof.Machine.execBudgetInterval s
  | .clockGate core => Sys2Proof.Machine.execClockGate core s
  | .powerGate core => Sys2Proof.Machine.execPowerGate core s
  | .residencyTimer core => Sys2Proof.Machine.execResidencyTimer core s
  | .sleepDeadline core => Sys2Proof.Machine.execSleepDeadline core s
  | .wakeDoorbell core => Sys2Proof.Machine.execWakeDoorbell core s
  | .counterCredit vcore vf ev n => Sys2Proof.Machine.execCounterCredit vcore vf ev n s
  | .pcSample core reason => Sys2Proof.Machine.execPcSample core reason s
  | .memorySample core req => Sys2Proof.Machine.execMemorySample core req s
  | .hostRequestTail q tail => Sys2Proof.Machine.execHostRequestTail q tail s
  | .hostRequestTake core => Sys2Proof.Machine.execHostRequestTake core s
  | .frouteWrite ep val => Sys2Proof.Machine.execFrouteWrite ep val s
  | .fabricRequest req => Sys2Proof.Machine.execFabricRequest req s
  | .flitCrcFailure die fails => Sys2Proof.Machine.execFlitCrcFailure die fails s
  | .powerUpReset => Sys2Proof.Machine.execPowerUpReset s
  | .bootgo => Sys2Proof.Machine.execBootgo s
  | .attgo => Sys2Proof.Machine.execAttgo s
  | .attestationDone => Sys2Proof.Machine.execAttestationDone s
  | .hbm4Scrub word uncorrectable spare => Sys2Proof.Machine.execHbm4Scrub word uncorrectable spare s
  | .registerWrite unit off val => Sys2Proof.Machine.execRegisterWrite unit off val s
  | .sleepEndWithoutCause core => Sys2Proof.Machine.execSleepEndWithoutCause core s
  | .writeBackAcknowledged die line => Sys2Proof.Machine.execWriteBackAcknowledged die line s
  | .endpointStoreApplied k => Sys2Proof.Machine.execEndpointStoreApplied k s
  | .traceRecordPerformed die vf => Sys2Proof.Machine.execTraceRecordPerformed die vf s

end Sys2Proof.Machine
end

