-- ==== Sys2Proof/Machine/Step.lean ====
section
/-! DEFINITION. One step of the package (log 1): the next turn of the agenda, or the next instruction of the issuing
core. -/
namespace Sys2Proof.Machine

/-- The instruction that parcels are; an encoding that is none stands for itself (R31). -/
noncomputable def instrOf (ps : List Nat) : Instr :=
  match decodeParcels ps with
  | .ok (i, _) => i
  | .error _ => .illegalEncoding (bitsOf ps) ps.length

/-- A turn of the agenda. -/
def turn (t : Turn) (s : State) : Host.Outcome State Fault Refusal :=
  match t with
  | .event i => if i.isEvent && i.wf then exec i s else .next s
  | t => s.turn t

/-- The issuing core's turn. -/
noncomputable def coreTurn (s : State) : Host.Outcome State Fault Refusal :=
  if s.core.idle then .next s
  else
    match s.fetched with
    | .error o => o
    | .ok (ps, s) => exec (instrOf ps) s

/-- One step of the machine. -/
noncomputable def step (s : State) : Host.Outcome State Fault Refusal :=
  match s.agenda with
  | t :: ts => turn t ({ s with agenda := ts } : State).tick
  | [] => coreTurn s.tick.background

/-- The state with an instruction placed where the next step fetches (log 9). -/
def State.withFetchWord (s : State) (nbits w : Nat) : State := s.withCode (bytesOf (w % 2 ^ nbits) 8)

end Sys2Proof.Machine
end

