-- ==== Sys2Proof/Safety.lean ====
section
/-! DEFINITION. What a safe run is: no step of it stops; and when nothing stands in the way of an instruction: it
issues and takes its own effect. -/
namespace Sys2Proof.Machine

/-- A step from s answers a next state: it neither faults nor is refused. -/
def State.goesOn (s : State) : Prop := ∃ t, step s = .next t

/-- Every one of the first n steps from s answers a next state. -/
def State.safeFor : Nat → State → Prop
  | 0, _ => True
  | n + 1, s => ∃ t, step s = .next t ∧ t.safeFor n

/-- No watchpoint can match: the core is in supervisor mode, or every watchpoint's KIND is zero (R393, R394). -/
def Core.unwatched (c : Core) : Prop := c.sup = true ∨ ∀ k < 4, (sget 0 c.obs.wpc k).bits 0 3 = 0

/-- The slots an instruction reads, writes or, on a register copy fault, copies (R128). -/
def Use.slots (u : Use) (c : Core) : List Nat := u.reads c ++ u.writes c ++ u.copies c

/-- Nothing stands in the way of an instruction that uses these names (R146) but, at most, the vector queue and the
streams: no watchpoint can match, its mode suffices (R32), every name lies in the current window (R127), no fixed-latency
result is pending and none in flight touches a slot of the instruction (R133, R134), no slot written lies in a billet (R129)
and none read, by a copy fault or otherwise, is uncorrectable (R410), no atomic is in flight (R269), no trip stands in the
trip buffer (R225), and none of the current window has stopped (R226) or has an error to report (R247). The window may be
struck. -/
structure State.Open (s : State) (u : Use) : Prop where
  unwatched : s.core.unwatched
  mode : u.priv = true → s.core.sup = true
  names : u.beyond s.core.curWin = []
  settled : ∀ p ∈ s.core.pend, p.variable = true ∧ p.touches (u.slots s.core) = false
  noBillet : ∀ n ∈ u.writes s.core, s.core.inBillet n = false
  good : ∀ n ∈ u.reads s.core ++ u.copies s.core, n ∉ s.core.bad
  noAtom : s.core.m.atom = none
  noTrip : s.core.eng.trip = none
  noStop : s.core.tripStop = none
  noReport : s.core.tripRaised = none

/-- Neither do the vector queue and the streams hold it back (R122, R171, R173, R200). -/
structure State.Ready (s : State) (u : Use) : Prop extends s.Open u where
  free : u.blocked s.core = false

/-- The same in a window that is not struck (R128), as every window is but those a task runs in. -/
structure State.Clear (s : State) (u : Use) : Prop extends s.Ready u where
  own : s.core.curWin.s = false

/-- The state in the cycle in which the current window issues its next instruction (R20, R139, R372). -/
def State.atIssue (s : State) : State := { s with core := s.core.toIssue }

/-- The instruction is held at issue, and is executed again (R17). -/
def State.again (s : State) : State := s.updCore fun c => { c with held := true }

/-- The instruction is held at issue, and nothing but the passing cycle and the counts of the core has changed (R17, R20). -/
def State.holds (s : State) : State := s.atIssue.again

/-- The cycle in which the current window issues its next instruction. -/
def Core.issueCycle (c : Core) : Nat :=
  dutyCycle c.clk 32 (Nat.max c.cycle (Nat.max c.ready c.curWin.ready))

/-- The state after an instruction of len bytes that is complete at s: the PC goes to its sequential successor, the core
issues again in the next cycle and its context no earlier than stl cycles later, and the issue is counted (R16, R17, R20,
R380). -/
def State.after (s : State) (len stl : Nat) : State :=
  s.updCore fun c => { c.issued stl with pc := c.pc + BitVec.ofNat 64 len }

/-- Between two cores nothing changes but time, counts and the scoreboard: the PC, slots and pending results apart,
every register, window and engine is as before (R130 to R137, R152, R227, R277). -/
structure Core.Same (c c' : Core) : Prop where
  cur : c'.cur = c.cur
  sup : c'.sup = c.sup
  run : c'.run = c.run
  arena : c'.arena = c.arena
  feErr : c'.feErr = c.feErr
  trap : c'.trap = c.trap
  fp : c'.fp = c.fp
  sbchk : c'.sbchk = c.sbchk
  mat : c'.mat = c.mat
  vf : c'.vf = c.vf
  asid : c'.asid = c.asid
  dom : c'.dom = c.dom
  m : c'.m = c.m
  eng : c'.eng = c.eng
  clk : c'.clk = c.clk
  ctx : c'.ctx = c.ctx
  pme : c'.obs.pme = c.obs.pme
  wpa : c'.obs.wpa = c.obs.wpa
  wpc : c'.obs.wpc = c.obs.wpc
  wins : ∀ i, c'.win i = { c.win i with ready := (c'.win i).ready }

/-- Of the whole package only the issuing core changes: memory, the other cores, the clusters, the dies, the fabric and
the host's registers are as before. -/
def State.OnlyCore (s t : State) : Prop := t = { s with core := t.core }

/-- An instruction that changes registers of the issuing core alone has issued and is complete: the PC goes to `pc`, the
core issues again in the next cycle and its context no earlier than `stl` cycles later (R17, R20), and every register but
the PC, the slots and the results in flight is as before. -/
structure State.Completes (s t : State) (pc : Word) (stl : Nat) : Prop where
  only : s.OnlyCore t
  same : s.core.Same t.core
  pc : t.core.pc = pc
  cycle : t.core.cycle = s.core.issueCycle + 1
  ready : t.core.curWin.ready = s.core.issueCycle + stl
  wait : t.core.wait = none ∧ t.core.held = false

/-- No slot and no result in flight has changed. -/
def Core.SlotsSame (c c' : Core) : Prop := (∀ n, c'.slot n = c.slot n) ∧ c'.pend = c.pend

/-- A scalar name of the current window receives a value: at once (latency 1), as a result readable from a cycle on, which the
scoreboard tracks where `cr.sbchk.CHK` is 1 (R133), or as a result in flight (R134); every other slot is as before. x0
discards it (R127). -/
def Core.Receives (c c' : Core) (lat : Option Nat) (d : Nat) (v : Word) : Prop :=
  if d = 0 then c.SlotsSame c'
  else
    let n := c.curWin.base + d
    match lat with
    | some 1 => c'.slot n = v ∧ (∀ m, m ≠ n → c'.slot m = c.slot m) ∧ c'.pend = c.pend
    | some l => (∀ m, c'.slot m = c.slot m) ∧
        c'.pend = c.pend ++ [{ kind := .fixed (c.issueCycle + l), writes := [(n, v)], chk := c.sbchk }]
    | none => (∀ m, c'.slot m = c.slot m) ∧ c'.pend = c.pend ++ [{ kind := .flight, writes := [(n, v)] }]

/-- The trap window of a core can be entered: entry 28 + WIN is valid and not halted (R136). -/
def Core.trapOk (c : Core) : Bool := (c.win (28 + c.trap.twin)).v && !(c.win (28 + c.trap.twin)).h

/-- The issuing core has taken a local precise trap (R136): the trap registers hold the saved PC (bit 0 cleared), window,
cause, value and mode; the trap window is current, in supervisor mode, and the PC is the vector. No slot, no result in
flight and no other register has changed, and neither has anything outside the core. -/
structure State.TakesTrap (s t : State) (tpc : Word) (cause : Nat) (val : Word) : Prop where
  only : s.OnlyCore t
  tpc : t.core.trap.tpc = tpc &&& ~~~1#64
  tfrom : t.core.trap.tfrom = s.core.cur
  tcause : t.core.trap.tcause = cause
  tval : t.core.trap.tval = val
  tstat : t.core.trap.tstat = s.core.sup
  vector : t.core.trap.tvec = s.core.trap.tvec ∧ t.core.trap.twin = s.core.trap.twin
  cur : t.core.cur = 28 + s.core.trap.twin
  sup : t.core.sup = true
  pc : t.core.pc = s.core.trap.tvec
  slots : s.core.SlotsSame t.core
  same : s.core.Same { t.core with cur := s.core.cur, sup := s.core.sup, trap := s.core.trap }

/-- The issuing context has halted (R33): its window is marked halted and no other window has changed; the halt message of
R34, with the window's descriptor, stands last in the halt queue of its VF on its die; and the core has entered its trap
window as for a local trap, with value 0. No slot, no result in flight and no byte of memory has changed. -/
structure State.Halts (s t : State) (cause : Nat) : Prop where
  halted : t.core.win s.core.cur = { s.core.win s.core.cur with h := true }
  others : ∀ i, i ≠ s.core.cur → t.core.win i = s.core.win i
  message : (sget {} (sget Die.reset t.dies s.die).haltQ s.core.vf).entries =
    (sget {} (s.dieAt s.die).haltQ s.core.vf).entries ++
      [{ msg := haltMsg s.time s.core.ibits.toNat s.core.pc s.core.vf s.vcore 0 (b2n s.core.sup) s.core.ilen s.core.cur cause
         desc := ({ s.core.win s.core.cur with h := true } : Win).desc }]
  tpc : t.core.trap.tpc = s.core.pc &&& ~~~1#64
  tfrom : t.core.trap.tfrom = s.core.cur
  tcause : t.core.trap.tcause = cause
  tval : t.core.trap.tval = 0
  tstat : t.core.trap.tstat = s.core.sup
  cur : t.core.cur = 28 + s.core.trap.twin
  sup : t.core.sup = true
  pc : t.core.pc = s.core.trap.tvec
  slots : s.core.SlotsSame t.core
  mem : t.mem = s.mem

end Sys2Proof.Machine
end

