-- ==== Sys2Proof/Certificates/Slice0/Obligations.lean ====
section
/-! DEFINITION. The statements for the provers. Each names the rules of the spec it formalises. -/
namespace Sys2Proof.Claims

open Sys2Proof.Machine

/-- The names of a scalar instruction. -/
abbrev scalar (xs : List Nat) (d : Nat) : Use := { xs, xd := [d], gate := false }

/-- An instruction of 4 bytes that delivers one scalar result: in whose way nothing stands, it completes, its name
receives the value after the latency, and nothing else changes. -/
def Gives (s : State) (i : Instr) (xs : List Nat) (lat : Option Nat) (d : Nat) (v : Word) (stl : Nat) : Prop :=
  s.Clear (scalar xs d) →
    ∃ t, exec i s = .next t ∧ s.Completes t (s.core.pc + 4) stl ∧ s.core.Receives t.core lat d v

/-- Comparisons write 1 or 0. -/
def truth (b : Bool) : Word := if b then 1 else 0

/-- The number of leading zero bits, of trailing zero bits and of one bits of a word. -/
def leading (a : Word) : Word := if a = 0 then 64 else word (63 - a.toNat.log2)
def trailing (a : Word) : Word := word (((List.range 64).find? fun i => a.getLsbD i).getD 64)
def ones (a : Word) : Word := word ((List.range 64).filter fun i => a.getLsbD i).length

/-- The bytes of a word in reverse order. -/
def reversed (a : Word) : Word := word (((List.range 8).map fun i => a.bits (8 * i) 8 * 2 ^ (56 - 8 * i)).sum)

/-- The integer operations on two registers but the divisions, each with its latency (R134, R147). -/
noncomputable def integerRR (d a b stl : Nat) : List (Instr × Nat × (Word → Word → Word)) :=
  [(.add d a b stl, 1, fun x y => x + y), (.sub d a b stl, 1, fun x y => x - y),
   (.and d a b stl, 1, fun x y => x &&& y), (.or d a b stl, 1, fun x y => x ||| y),
   (.xor d a b stl, 1, fun x y => x ^^^ y), (.andn d a b stl, 1, fun x y => x &&& ~~~y),
   (.sll d a b stl, 1, fun x y => x <<< (y.toNat % 64)), (.srl d a b stl, 1, fun x y => x >>> (y.toNat % 64)),
   (.sra d a b stl, 1, fun x y => x.sshiftRight (y.toNat % 64)),
   (.slt d a b stl, 1, fun x y => truth (decide (x.toInt < y.toInt))),
   (.sltu d a b stl, 1, fun x y => truth (decide (x.toNat < y.toNat))),
   (.seq d a b stl, 1, fun x y => truth (decide (x = y))),
   (.min d a b stl, 1, fun x y => if x.toInt < y.toInt then x else y),
   (.max d a b stl, 1, fun x y => if x.toInt < y.toInt then y else x),
   (.minn d a b stl, 1, fun x y => if x.toNat < y.toNat then x else y),
   (.maxn d a b stl, 1, fun x y => if x.toNat < y.toNat then y else x),
   (.mul d a b stl, 2, fun x y => x * y),
   (.mulh d a b stl, 2, fun x y => BitVec.ofInt 64 (x.toInt * y.toInt / 2 ^ 64)),
   (.mulhn d a b stl, 2, fun x y => BitVec.ofNat 64 (x.toNat * y.toNat / 2 ^ 64)),
   (.rotl d a b stl, 1, fun x y => x.rotateLeft (y.toNat % 64)),
   (.rotr d a b stl, 1, fun x y => x.rotateRight (y.toNat % 64))]

/-- The unary integer operations (R147). -/
noncomputable def integerR (d a stl : Nat) : List (Instr × (Word → Word)) :=
  [(.clz d a stl, leading), (.ctz d a stl, trailing), (.popc d a stl, ones), (.bswap d a stl, reversed),
   (.sextw d a stl, fun x => (x.setWidth 32).signExtend 64), (.zextw d a stl, fun x => (x.setWidth 32).setWidth 64)]

/-- The operations with an immediate of 10 bits, sign-extended (R149). -/
noncomputable def integerRI (d a : Nat) (imm : BitVec 10) (stl : Nat) : List (Instr × (Word → Word)) :=
  [(.addi d a imm stl, fun x => x + imm.signExtend 64), (.andi d a imm stl, fun x => x &&& imm.signExtend 64),
   (.ori d a imm stl, fun x => x ||| imm.signExtend 64), (.xori d a imm stl, fun x => x ^^^ imm.signExtend 64),
   (.slti d a imm stl, fun x => truth (decide (x.toInt < imm.toInt))),
   (.sltni d a imm stl, fun x => truth (decide (x.toNat < (imm.signExtend 64).toNat)))]

/-- The shifts and the rotation by an amount of 6 bits (R150). -/
noncomputable def integerSh (d a : Nat) (amt : BitVec 6) (stl : Nat) : List (Instr × (Word → Word)) :=
  [(.slli d a amt stl, fun x => x <<< amt.toNat), (.srli d a amt stl, fun x => x >>> amt.toNat),
   (.srai d a amt stl, fun x => x.sshiftRight amt.toNat), (.rotli d a amt stl, fun x => x.rotateLeft amt.toNat)]

/-- The divisions: what each gives of a divisor that is not zero (R148). -/
noncomputable def divisions (d a b stl : Nat) : List (Instr × (Word → Word → Word)) :=
  [(.div d a b stl, fun x y => BitVec.ofInt 64 (x.toInt.tdiv y.toInt)),
   (.divn d a b stl, fun x y => BitVec.ofNat 64 (x.toNat / y.toNat)),
   (.rem d a b stl, fun x y => BitVec.ofInt 64 (x.toInt.tmod y.toInt)),
   (.remn d a b stl, fun x y => BitVec.ofNat 64 (x.toNat % y.toNat))]

/-- An instruction that rounds, with its result and the flags it raises: where it raises no enabled flag, it completes,
its name receives the result, its flags are ORed into `cr.fflags` and nothing else changes; while any enable bit is 1 its
result is known when the next instruction issues (R153, R158). Where it raises an enabled flag, it raises FPX with every
flag it would have raised, and its destination and `cr.fflags` are as before (R158). -/
def Rounds (s : State) (i : Instr) (xs : List Nat) (lat : Option Nat) (d stl : Nat) (r : Word × Flags) : Prop :=
  s.Clear (scalar xs d) →
    (r.2 &&& s.core.fp.fenable = 0 →
      ∃ t, exec i s = .next t ∧ t.core.fp = { s.core.fp with fflags := s.core.fp.fflags ||| r.2 } ∧
        ({ s with core := { s.core with fp := t.core.fp } } : State).Completes t (s.core.pc + 4) stl ∧
        s.core.Receives t.core (if s.core.fp.fenable = 0 then lat else some (lat.getD 1)) d r.1) ∧
    (r.2 &&& s.core.fp.fenable ≠ 0 → s.core.trapOk = true →
      ∃ t, exec i s = .next t ∧ s.TakesTrap t s.core.pc 0x13 (r.2.setWidth 64))

/-- The scalar FP instructions of one format, as constructors. -/
structure FpSet where
  rr : List (Option Nat × (Nat → Nat → Nat → Nat → Instr) × (Nat → Nat → Nat → FRes))
  cmp : List ((Nat → Nat → Nat → Nat → Instr) × (Nat → Nat → Bool × Flags))
  mac : Nat → Nat → Nat → Nat → Instr
  un : List (Option Nat × (Nat → Nat → Nat → Instr) × (Nat → Word → Word × Flags))

/-- Float to integer: rounded by RM, then clamped with NV (R157). -/
def toInteger (f : Fmt) (signed : Bool) (w rm : Nat) (v : Word) : Word × Flags :=
  let r := f.toInt rm false signed w (v.toNat % 2 ^ f.width)
  (BitVec.ofInt 64 r.1, r.2)

/-- Integer of w bits to float (R157). -/
def ofInteger (f : Fmt) (signed : Bool) (w rm : Nat) (v : Word) : Word × Flags :=
  let r := f.ofInt rm false (if signed then (v.setWidth w).toInt else (v.setWidth w).toNat)
  (word r.1, r.2)

/-- One element to another format (R157). -/
def toFormat (f g : Fmt) (rm : Nat) (v : Word) : Word × Flags :=
  let r := f.cvt g rm false (v.toNat % 2 ^ f.width)
  (word r.1, r.2)

/-- The square root and the class of an element (R154, R156). -/
def root (f : Fmt) (rm : Nat) (v : Word) : Word × Flags :=
  let r := f.sqrt rm (v.toNat % 2 ^ f.width)
  (word r.1, r.2)
def classOf (f : Fmt) (_ : Nat) (v : Word) : Word × Flags := (word (f.classify (v.toNat % 2 ^ f.width)), 0)

/-- Major 0x0C, with the latencies of R134 (R154 to R157). -/
noncomputable def fp64 : FpSet where
  rr := [(some 3, .faddF64, Fmt.f64.add), (some 3, .fsubF64, Fmt.f64.sub), (some 3, .fmulF64, Fmt.f64.mul),
    (none, .fdivF64, Fmt.f64.div),
    (some 1, .fminF64, fun _ => Fmt.f64.minMax false false), (some 1, .fmaxF64, fun _ => Fmt.f64.minMax true false),
    (some 1, .fminpF64, fun _ => Fmt.f64.minMax false true), (some 1, .fmaxpF64, fun _ => Fmt.f64.minMax true true)]
  cmp := [(.fltF64, Fmt.f64.lt), (.fleF64, Fmt.f64.le), (.feqF64, Fmt.f64.eq)]
  mac := .fmacF64
  un := [(none, .fsqrtF64, root .f64), (some 1, .fclassF64, classOf .f64),
    (none, .fcvtI64F64, toInteger .f64 true 64), (none, .fcvtN64F64, toInteger .f64 false 64),
    (none, .fcvtI32F64, toInteger .f64 true 32), (none, .fcvtN32F64, toInteger .f64 false 32),
    (none, .fcvtF64I64, ofInteger .f64 true 64), (none, .fcvtF64N64, ofInteger .f64 false 64),
    (none, .fcvtF64I32, ofInteger .f64 true 32), (none, .fcvtF64N32, ofInteger .f64 false 32),
    (none, .fcvtF64F32, toFormat .f32 .f64)]

/-- Major 0x0D, with the latencies of R134 (R154 to R157). -/
noncomputable def fp32 : FpSet where
  rr := [(some 3, .faddF32, Fmt.f32.add), (some 3, .fsubF32, Fmt.f32.sub), (some 3, .fmulF32, Fmt.f32.mul),
    (none, .fdivF32, Fmt.f32.div),
    (some 1, .fminF32, fun _ => Fmt.f32.minMax false false), (some 1, .fmaxF32, fun _ => Fmt.f32.minMax true false),
    (some 1, .fminpF32, fun _ => Fmt.f32.minMax false true), (some 1, .fmaxpF32, fun _ => Fmt.f32.minMax true true)]
  cmp := [(.fltF32, Fmt.f32.lt), (.fleF32, Fmt.f32.le), (.feqF32, Fmt.f32.eq)]
  mac := .fmacF32
  un := [(none, .fsqrtF32, root .f32), (some 1, .fclassF32, classOf .f32),
    (none, .fcvtI64F32, toInteger .f32 true 64), (none, .fcvtN64F32, toInteger .f32 false 64),
    (none, .fcvtI32F32, toInteger .f32 true 32), (none, .fcvtN32F32, toInteger .f32 false 32),
    (none, .fcvtF32I64, ofInteger .f32 true 64), (none, .fcvtF32N64, ofInteger .f32 false 64),
    (none, .fcvtF32I32, ofInteger .f32 true 32), (none, .fcvtF32N32, ofInteger .f32 false 32),
    (none, .fcvtF32F64, toFormat .f64 .f32)]

/-- The target of a displacement in halves from the instruction's own PC (R19, R159). -/
def target (s : State) {w : Nat} (disp : BitVec w) : Word := s.core.pc + 2 * disp.signExtend 64

/-- The conditional branches and their conditions (R159). -/
noncomputable def branches (a : Nat) (disp : BitVec 13) (stl : Nat) : List (Instr × (Word → Bool)) :=
  [(.beqz a disp stl, fun x => decide (x = 0)), (.bnez a disp stl, fun x => decide (x ≠ 0)),
   (.bltz a disp stl, fun x => decide (x.toInt < 0)), (.bgez a disp stl, fun x => decide (0 ≤ x.toInt)),
   (.blez a disp stl, fun x => decide (x.toInt ≤ 0)), (.bgtz a disp stl, fun x => decide (0 < x.toInt))]

/-- The names of a plain access. -/
abbrev access (xs xd : List Nat) : Use := { xs, xd, gate := false, mem := true }

/-- The state s1 that the checks of the issuing core's accesses at these addresses leave, once those that leave the cluster
have found room among the core's 48 requests and are counted for its samples (R49, R390). -/
def sent (s s1 : State) (eas : List Word) : State := s1.leave s1.core.pc s1.core.cur (s.atIssue.misses eas)

/-- The requests beyond its cluster that the issuing core makes for accesses at these addresses (R49). -/
def beyond (s : State) (eas : List Word) : Nat := (s.atIssue.misses eas).length

/-- The effective address of a plain access of n bytes (R161). -/
def effective (s : State) (a : Nat) (imm : BitVec 10) (n : Nat) : Word := s.core.x a + BitVec.ofInt 64 (imm.toInt * n)

/-- The plain loads: bytes, and whether the value is sign-extended (R161). -/
noncomputable def loads (d a : Nat) (imm : BitVec 10) (stl : Nat) : List (Instr × Nat × Bool) :=
  [(.ldD d a imm stl, 8, false), (.ldW d a imm stl, 4, true), (.ldWn d a imm stl, 4, false), (.ldH d a imm stl, 2, true),
   (.ldHn d a imm stl, 2, false), (.ldB d a imm stl, 1, true), (.ldBn d a imm stl, 1, false)]

/-- The plain stores and their bytes (R161). -/
noncomputable def stores (d a : Nat) (imm : BitVec 10) (stl : Nat) : List (Instr × Nat) :=
  [(.stD d a imm stl, 8), (.stW d a imm stl, 4), (.stH d a imm stl, 2), (.stB d a imm stl, 1)]

/-- A scratchpad address of the core's own cluster (one of the package's 512 numbers), multiple of n, in a bank that is
scratchpad and switches no role (R36, R37, R79). -/
def OwnScratch (s : State) (ea : Word) (n : Nat) : Prop :=
  s.cl < 512 ∧ ea.toNat / 2 ^ 23 = 2 ^ 37 ∧ ea.toNat % 2 ^ 23 < 0x600000 ∧ ea.toNat % n = 0 ∧
    let b := s.bank s.cl (ea.toNat % 2 ^ 23 / 0x40000)
    b.role = .scratch ∧ b.switching = none ∧ b.queue = []

/-- The model address of a scratchpad address of the core's own cluster. -/
def ownKey (s : State) (ea : Word) : Nat := 2 ^ 52 + 2 ^ 23 * s.cl + ea.toNat % 2 ^ 23

/-- A word from n bytes, sign-extended or not (R1, R161). -/
def extended (n : Nat) (signed : Bool) (v : Nat) : Word :=
  if signed then BitVec.ofInt 64 (if v < 2 ^ (8 * n - 1) then v else (v : Int) - 2 ^ (8 * n)) else word v

/-- The control registers by number, but the counters, `cr.fflags`, which a read waits for, and `cr.time`: what a read in
a cycle of the core gives (R63, R131, R135 to R137, R152, R166, R227, R230, R231, R236, R277, R372, R378, R380, R393). -/
def registers (s : State) (cycle : Nat) : List (Nat × Word) :=
  let c := s.core
  let lease := (s.clAt s.cl).lease
  [(0x000, word c.fp.frm), (0x002, c.fp.fenable.setWidth 64), (0x003, truth c.sbchk),
   (0x004, word (c.cur + 256 * (truth c.sup).toNat)),
   (0x005, word (c.arena.lo % 2 ^ 15 + c.arena.hi % 2 ^ 15 * 2 ^ 16 + (truth c.arena.sliced).toNat * 2 ^ 32
     + (truth c.arena.side).toNat * 2 ^ 33)),
   (0x010, c.trap.tvec), (0x011, word c.trap.twin), (0x012, word c.trap.tcause), (0x013, c.trap.tval),
   (0x014, c.trap.tpc), (0x015, word c.trap.tfrom), (0x016, truth c.trap.tstat),
   (0x020, c.mat.fmta.setWidth 64), (0x021, c.mat.fmtb.setWidth 64), (0x022, word c.mat.ofmt),
   (0x023, word (c.mat.aty % 4 + (truth c.mat.fe).toNat * 2 ^ 8)),
   (0x030, word (c.mat.leaseN % 128 + match lease.holder with
     | some (p, w) => if p = s.focus % 512 % 8 then 2 ^ 63 + w % 32 * 2 ^ 24 + lease.left % 256 * 2 ^ 16 else 0
     | none => 0)),
   (0x031, word c.mat.vwt), (0x040, word s.vcore), (0x041, word c.dom.vcl),
   (0x042, word (c.dom.launch % 2 ^ 16 * 2 ^ 48 + (truth c.dom.roam).toNat * 2 ^ 47 + c.dom.ldie % 2 ^ 9 * 2 ^ 32
     + (if c.curWin.s then c.curWin.team % 2 ^ 16 else 0xFFFF) * 2 ^ 16 + c.dom.ncl % 2 ^ 16)),
   (0x043, word (c.asid % 2 ^ 16 * 2 ^ 16 + c.vf % 16)),
   (0x051, word (c.clk.dutyIn cycle % 32 + (s.divOf s.focus + 1) % 256 * 2 ^ 8)),
   (0x060, word (c.eng.mark.mark % 2 ^ 32 + c.eng.mark.misses % 2 ^ 16 * 2 ^ 32 + c.eng.mark.slot % 16 * 2 ^ 48
     + (truth c.eng.mark.armed).toNat * 2 ^ 63))] ++
  (List.range 8).map (fun k => (0x078 + k, sget 0 c.obs.pme k)) ++
  (List.range 4).map (fun k => (0x080 + k, sget 0 c.obs.wpa k)) ++
  (List.range 4).map (fun k => (0x084 + k, sget 0 c.obs.wpc k))

/-- What a control register holds after a write of v, where it held `old`: reserved bits are dropped, fields that are not
writable and values that are ignored keep the old ones (R5, R6, R63, R135 to R137, R152, R164, R166, R227, R230, R231,
R236, R380, R393). -/
def written (n : Nat) (old v : Word) : Word :=
  if n = 0x000 then if v &&& 7 = 0 ∨ v &&& 7 = 7 then old else v &&& 7
  else if n = 0x001 ∨ n = 0x002 ∨ n = 0x020 ∨ n = 0x021 then v &&& 0x3F
  else if n = 0x003 ∨ n = 0x016 then v &&& 1
  else if n = 0x010 ∨ n = 0x014 then v &&& ~~~1#64
  else if n = 0x011 then v &&& 3
  else if n = 0x012 then v &&& 0xFF
  else if n = 0x013 ∨ 0x080 ≤ n ∧ n < 0x084 then v
  else if n = 0x015 then v &&& 0x1F
  else if n = 0x022 then if v &&& 3 = 3 then old else v &&& 3
  else if n = 0x023 then (if v &&& 3 = 3 then old &&& 3 else v &&& 3) ||| (v &&& 0x100)
  else if n = 0x030 then if 1 ≤ (v &&& 0x7F).toNat ∧ (v &&& 0x7F).toNat ≤ 64 then (old &&& ~~~0x7F#64) ||| (v &&& 0x7F) else old
  else if n = 0x031 then if v &&& 0xF = 0 then 1 else v &&& 0xF
  else if n = 0x043 then (old &&& 0xF) ||| (v &&& 0xFFFF0000)
  else if n = 0x060 then (old &&& 0x800F000000000000) ||| (v &&& 0x0000FFFFFFFFFFFF)
  else if 0x078 ≤ n ∧ n < 0x080 then v &&& 0xFF0FF
  else if 0x084 ≤ n ∧ n < 0x088 then
    (if (v &&& 7).toNat = 6 ∨ (v &&& 7).toNat = 7 then old &&& 7 else v &&& 7) ||| (v &&& 0xFFF8)
  else old

/-- The core c with the fields of the registers that share a home with register n as they are in t: everything else of c
stands. -/
def taking (n : Nat) (c t : Core) : Core :=
  if n ≤ 0x002 then { c with fp := t.fp }
  else if n = 0x003 then { c with sbchk := t.sbchk }
  else if 0x010 ≤ n ∧ n ≤ 0x016 then { c with trap := t.trap }
  else if 0x020 ≤ n ∧ n ≤ 0x031 then { c with mat := { t.mat with own := c.mat.own } }
  else if n = 0x043 then { c with asid := t.asid }
  else if n = 0x060 then
    { c with eng := { c.eng with mark := { c.eng.mark with misses := t.eng.mark.misses, mark := t.eng.mark.mark } } }
  else if 0x078 ≤ n ∧ n < 0x080 then { c with obs := { c.obs with pme := t.obs.pme } }
  else if 0x080 ≤ n ∧ n < 0x084 then { c with obs := { c.obs with wpa := t.obs.wpa } }
  else if 0x084 ≤ n ∧ n < 0x088 then { c with obs := { c.obs with wpc := t.obs.wpc } }
  else c

/-- What counter k reads in a core c: zero where it selects a fabric-port event in a tenant's VF (R380, R382). -/
def counter (s : State) (c : Core) (k : Nat) : Word :=
  let event := (sget 0 c.obs.pme k).bits 0 8
  if (sget {} s.vfpol c.vf).tenant = true ∧ (event = 21 ∨ event = 22) then 0 else (sget 0 c.obs.pmc k).setWidth 64

/-- `csrw`, `csrs` and `csrc` of register n with X(A), each with the value it writes over `old` (R164). -/
noncomputable def registerWrites (s : State) (n a stl : Nat) (old : Word) : List (Instr × Word) :=
  [(.csrw n a stl, s.core.x a), (.csrs n a stl, old ||| s.core.x a), (.csrc n a stl, old &&& ~~~s.core.x a)]

/-- A vector instruction that may set flags stands in the queue (R165). -/
def FlagsQueued (s : State) : Prop :=
  ∃ p ∈ s.core.pend, p.queued = true ∧ (p.flags ≠ 0 ∨ p.late.isSome = true)

/-- The window lies within the arena that v names (R131). -/
def inside (v : Word) (w : Win) : Bool := decide (v.bits 0 15 ≤ w.base ∧ w.base + w.size ≤ v.bits 16 15)

/-- The word v may be installed as the arena (R131, R145): no reserved bit, LO ≤ HI ≤ 16,384, SIDE only with SLICED and the
bounds within its half, a current user window within it; nor does it take in a half whose image of another VF is unsaved,
which no path gives to another VF (R359; the model's choice, log 76). -/
def ArenaOk (s : State) (v : Word) : Prop :=
  let lo := v.bits 0 15
  let hi := v.bits 16 15
  let sliced := v.bit 32
  let side := v.bit 33
  v.bits 34 30 = 0 ∧ v.bits 31 1 = 0 ∧ v.bits 15 1 = 0 ∧ lo ≤ hi ∧ hi ≤ 16384 ∧ (sliced = false → side = false) ∧
    (sliced = true → if side then 8192 ≤ lo ∧ hi ≤ 16384 else hi ≤ 8192) ∧ (s.core.cur < 28 → inside v s.core.curWin = true) ∧
    ∀ k ∈ s.core.ctx.captures, k.unsaved = true → k.vf ≠ s.core.vf →
      k.sliced = true ∧ sliced = true ∧ k.half ≠ if side then 1 else 0

/-- The arena v is installed (R145): the user entries that are valid, not halted and not within it are cleared; nothing else
of the core changes, and of the dies the ranks alone, where the clearing ends the last strike of the cluster (R336). -/
structure Installs (s t : State) (v : Word) : Prop where
  only : ({ s with dies := t.dies } : State).OnlyCore t
  ranks : ∀ n, { t.dieAt n with rank := [] } = { s.dieAt n with rank := [] }
  noStrike : (∀ i < 28, (s.core.win i).v = true → (s.core.win i).s = false) → t.dies = s.dies
  pc : t.core.pc = s.core.pc + 4
  arena : t.core.arena = { lo := v.bits 0 15, hi := v.bits 16 15, sliced := v.bit 32, side := v.bit 33 }
  cleared : ∀ i, t.core.win i = { s.core.win i with
    v := if i < 28 ∧ (s.core.win i).h = false ∧ inside v (s.core.win i) = false then false else (s.core.win i).v
    ready := (t.core.win i).ready }
  stops : ∀ p, p ∈ t.core.eng.stops ↔ p ∈ s.core.eng.stops ∧
    ¬ (p.1 < 28 ∧ (s.core.win p.1).v = true ∧ (s.core.win p.1).h = false ∧ inside v (s.core.win p.1) = false)
  same : s.core.Same { t.core with
    wins := s.core.wins, arena := s.core.arena, eng := { t.core.eng with stops := s.core.eng.stops } }

/-- The instructions R32 names, with the names each uses: `rett`, `halt`, `resume`, `warena`, `tclaim`, `tlaunch`, the
window major on entries 28 to 31, and the accesses to control registers that a supervisor alone reads or writes (R5,
R166). -/
noncomputable def privileged (d a stl : Nat) : List Instr :=
  [.rett stl, .halt stl, .resume d a stl, .warena d a stl, .tclaim d a stl, .tlaunch d a stl] ++
  [28, 29, 30, 31].flatMap (fun i =>
    [.wset a i stl, .wget d i stl, .wsw i stl, .wswj i stl, .wshr d a i stl, .wclr i stl]) ++
  ([0x005, 0x010, 0x011, 0x012, 0x013, 0x014, 0x015, 0x016, 0x080, 0x081, 0x082, 0x083, 0x084, 0x085, 0x086, 0x087].flatMap
    fun n => [.csrr n d stl, .csrw n a stl, .csrs n a stl, .csrc n a stl]) ++
  ([0x030, 0x031, 0x043, 0x060].flatMap fun n => [.csrw n a stl, .csrs n a stl, .csrc n a stl])

/-- A window-table entry as a descriptor word (R125); an entry that is not valid reads zero (R141). -/
def descriptor (w : Win) : Word :=
  if w.v then word (w.base % 2 ^ 14 + w.size % 2 ^ 14 * 2 ^ 16 + w.voff % 2 ^ 14 * 2 ^ 32 + w.parent % 32 * 2 ^ 48
    + (truth w.t).toNat * 2 ^ 56 + (truth w.s).toNat * 2 ^ 57 + 2 ^ 58 + (truth w.h).toNat * 2 ^ 59)
  else 0

/-- A descriptor word is well formed: reserved bits and H zero, V one, the window not empty and within the 16,384 slots, its
vectors aligned (R126). -/
def WellFormedDescriptor (v : Word) : Prop :=
  v.bits 14 2 = 0 ∧ v.bits 30 2 = 0 ∧ v.bits 46 2 = 0 ∧ v.bits 53 3 = 0 ∧ v.bits 60 4 = 0 ∧ v.bits 58 2 = 1 ∧
    1 ≤ v.bits 16 14 ∧ v.bits 0 14 + v.bits 16 14 ≤ 16384 ∧ v.bits 32 14 % 8 = 0

/-- What a window instruction leaves: everything but the window table, the current window, the PC and, of a cleared or newly
set entry, the record that a trip has stopped in it. -/
structure WindowStep (s t : State) (pc : Word) (stl : Nat) (stops : List (Nat × Nat)) : Prop where
  only : s.OnlyCore t
  same : s.core.Same { t.core with
    wins := s.core.wins, cur := s.core.cur, eng := { t.core.eng with stops := s.core.eng.stops } }
  stops : t.core.eng.stops = stops
  slots : s.core.SlotsSame t.core
  pc : t.core.pc = pc
  cycle : t.core.cycle = s.core.issueCycle + 1
  ready : t.core.ready = s.core.issueCycle + stl

/-- The entries but i are as before, but for the cycle before which their contexts do not issue. -/
def OtherWindows (s t : State) (i : Nat) : Prop :=
  ∀ j, j ≠ i → t.core.win j = { s.core.win j with ready := (t.core.win j).ready }

end Sys2Proof.Claims

open Sys2Proof Sys2Proof.Machine

/-- Every integer instruction but the divisions completes, and its destination receives the value of the operations
tables after the latency of R134; nothing else changes (R147, R149, R150, R151). -/
def Obligations.IntegerResults : Prop :=
  ∀ (s : State) (d a b stl : Nat),
    (∀ o ∈ Claims.integerRR d a b stl,
      Claims.Gives s o.1 [a, b] (some o.2.1) d (o.2.2 (s.core.x a) (s.core.x b)) stl) ∧
    (∀ o ∈ Claims.integerR d a stl, Claims.Gives s o.1 [a] (some 1) d (o.2 (s.core.x a)) stl) ∧
    (∀ (imm : BitVec 10), ∀ o ∈ Claims.integerRI d a imm stl,
      Claims.Gives s o.1 [a] (some 1) d (o.2 (s.core.x a)) stl) ∧
    (∀ (amt : BitVec 6), ∀ o ∈ Claims.integerSh d a amt stl,
      Claims.Gives s o.1 [a] (some 1) d (o.2 (s.core.x a)) stl) ∧
    (∀ (imm : BitVec 16),
      Claims.Gives s (.lui d imm stl) [0] (some 1) d ((imm ++ (0 : BitVec 16)).signExtend 64) stl ∧
      Claims.Gives s (.lmid d imm stl) [d] (some 1) d
        ((s.core.x d).extractLsb' 48 16 ++ imm ++ (s.core.x d).extractLsb' 0 32) stl ∧
      Claims.Gives s (.ltop d imm stl) [d] (some 1) d (imm ++ (s.core.x d).extractLsb' 0 48) stl)

/-- A division by a divisor that is not zero completes; its destination receives, as a result in flight, the quotient
truncated towards zero or the remainder with the sign of the dividend, −2^63 / −1 being −2^63 with remainder 0. A zero
divisor raises DIVZ (0x07) with value 0, and nothing else changes, also where the destination is x0 (R148). -/
def Obligations.Divisions : Prop :=
  ∀ (s : State) (d a b stl : Nat), ∀ o ∈ Claims.divisions d a b stl,
    (s.core.x b ≠ 0 → Claims.Gives s o.1 [a, b] none d (o.2 (s.core.x a) (s.core.x b)) stl) ∧
    (s.core.x b = 0 → s.Clear (Claims.scalar [a, b] d) → s.core.trapOk = true →
      ∃ t, exec o.1 s = .next t ∧ s.TakesTrap t s.core.pc 0x07 0)

/-- Every scalar FP instruction computes on its operands taken at the width of its major, with the rounding mode of
`cr.frm`; its result fills the slot, zero-extended; its flags are ORed into `cr.fflags`, or, where one of them is enabled,
it raises FPX (R153, R154, R156, R157, R158). -/
def Obligations.ScalarFpResults : Prop :=
  ∀ (s : State) (d a b stl : Nat), ∀ g ∈ [(Fmt.f64, Claims.fp64), (Fmt.f32, Claims.fp32)],
    let el := fun n => (s.core.x n).toNat % 2 ^ g.1.width
    (∀ o ∈ g.2.rr, let r := o.2.2 s.core.fp.frm (el a) (el b);
      Claims.Rounds s (o.2.1 d a b stl) [a, b] o.1 d stl (word r.1, r.2)) ∧
    (∀ o ∈ g.2.cmp, let r := o.2 (el a) (el b);
      Claims.Rounds s (o.1 d a b stl) [a, b] (some 1) d stl (Claims.truth r.1, r.2)) ∧
    (let r := g.1.mac s.core.fp.frm (el d) (el a) (el b);
      Claims.Rounds s (g.2.mac d a b stl) [d, a, b] (some 3) d stl (word r.1, r.2)) ∧
    (∀ o ∈ g.2.un, Claims.Rounds s (o.2.1 d a stl) [a] o.1 d stl (o.2.2 s.core.fp.frm (s.core.x a)))

/-- `fmin`, `fmax`, `fminp` and `fmaxp` order the values with −0 below +0, and raise no flag other than NV: of two numbers
the smaller or the larger, of a number and itself that number; of a quiet NaN and a number, the number, or the default NaN
for `fminp` and `fmaxp`; a signalling NaN gives the default NaN and NV, two quiet NaNs the default NaN (R155). -/
def Obligations.MinimumAndMaximum : Prop :=
  ∀ f ∈ [Fmt.f64, Fmt.f32], ∀ (a b : Nat) (p : Bool), a < 2 ^ f.width → b < 2 ^ f.width →
    let x := f.decode a
    let y := f.decode b
    (x.isSig = true ∨ y.isSig = true →
      f.minMax false p a b = (f.dnan, fNV) ∧ f.minMax true p a b = (f.dnan, fNV)) ∧
    (x = .nan false → y = .nan false → f.minMax false p a b = (f.dnan, 0) ∧ f.minMax true p a b = (f.dnan, 0)) ∧
    (x = .nan false → y.isNan = false → ∀ mx, f.minMax mx false a b = (b, 0) ∧ f.minMax mx true a b = (f.dnan, 0)) ∧
    (x.isNan = false → y = .nan false → ∀ mx, f.minMax mx false a b = (a, 0) ∧ f.minMax mx true a b = (f.dnan, 0)) ∧
    (x.isNan = false → y.isNan = false →
      (x.lt y = true → f.minMax false p a b = (a, 0) ∧ f.minMax true p a b = (b, 0)) ∧
      (y.lt x = true → f.minMax false p a b = (b, 0) ∧ f.minMax true p a b = (a, 0)) ∧
      (a = f.signBit → b = 0 → f.minMax false p a b = (a, 0) ∧ f.minMax true p a b = (b, 0)) ∧
      (a = 0 → b = f.signBit → f.minMax false p a b = (b, 0) ∧ f.minMax true p a b = (a, 0)) ∧
      (a = b → f.minMax false p a b = (a, 0) ∧ f.minMax true p a b = (a, 0)))

/-- A conditional branch goes to PC + 2·sext(DISP13) where its condition of X(A) holds, and otherwise to the sequential
successor; `dbnz` decrements X(A), wrapping, as a result in flight, and branches where the new value is not zero, so with
x0 it always branches. Nothing else changes (R159). -/
def Sys2Proof.Claims.Branches : Prop :=
  ∀ (s : State) (a : Nat) (disp : BitVec 13) (stl : Nat),
    (∀ o ∈ Claims.branches a disp stl, s.Clear { xs := [a], gate := false } →
      ∃ t, exec o.1 s = .next t ∧
        s.Completes t (if o.2 (s.core.x a) then Claims.target s disp else s.core.pc + 4) stl ∧ s.core.SlotsSame t.core) ∧
    (s.Clear { xs := [a], xd := [a], gate := false } →
      ∃ t, exec (.dbnz a disp stl) s = .next t ∧
        s.Completes t (if s.core.x a - 1 ≠ 0 then Claims.target s disp else s.core.pc + 4) stl ∧
        s.core.Receives t.core none a (s.core.x a - 1))

/-- `j` and `call` go to PC + 2·sext(DISP22); `jr` and `callr` go to X(A), the old one where A is 63, and raise ALIGN with
value X(A) where X(A)[0] = 1; `call` and `callr` write PC + 4 to x63. Nothing else changes (R159). -/
def Sys2Proof.Claims.Jumps : Prop :=
  ∀ (s : State) (a : Nat) (disp : BitVec 22) (stl : Nat),
    (s.Clear { gate := false } → ∃ t, exec (.j disp stl) s = .next t ∧
      s.Completes t (Claims.target s disp) stl ∧ s.core.SlotsSame t.core) ∧
    (s.Clear { xd := [63], gate := false } → ∃ t, exec (.call disp stl) s = .next t ∧
      s.Completes t (Claims.target s disp) stl ∧ s.core.Receives t.core (some 1) 63 (s.core.pc + 4)) ∧
    (s.Clear { xs := [a], gate := false } →
      ((s.core.x a).getLsbD 0 = false → ∃ t, exec (.jr a stl) s = .next t ∧
        s.Completes t (s.core.x a) stl ∧ s.core.SlotsSame t.core) ∧
      ((s.core.x a).getLsbD 0 = true → s.core.trapOk = true →
        ∃ t, exec (.jr a stl) s = .next t ∧ s.TakesTrap t s.core.pc 0x06 (s.core.x a))) ∧
    (s.Clear { xs := [a], xd := [63], gate := false } →
      ((s.core.x a).getLsbD 0 = false → ∃ t, exec (.callr a stl) s = .next t ∧
        s.Completes t (s.core.x a) stl ∧ s.core.Receives t.core (some 1) 63 (s.core.pc + 4)) ∧
      ((s.core.x a).getLsbD 0 = true → s.core.trapOk = true →
        ∃ t, exec (.callr a stl) s = .next t ∧ s.TakesTrap t s.core.pc 0x06 (s.core.x a)))

/-- Branches and Jumps: the statements above together. -/
def Obligations.BranchesAndJumps : Prop :=
  Claims.Branches ∧ Claims.Jumps

/-- A plain load on any path: its effective address is X(A) + sext(I10) × s; where the checks of R38 fail it traps with
that address; otherwise, once it has found room among the core's 48 requests where it leaves the cluster (which of them are
outstanding is log 78), it completes: its destination receives, as a result in flight, what the path gives (zero after an
error response). A path-8 load waits first where its target's tenant has stopped, its packet being held, or where its slot
awaits a result of an atomic, a trip or a deferred take (R49, R133, R161, R162, R363). -/
def Sys2Proof.Claims.PlainLoads : Prop :=
  ∀ (s : State) (d a : Nat) (imm : BitVec 10) (stl : Nat), ∀ o ∈ Claims.loads d a imm stl,
    s.Clear (Claims.access [a] [d]) →
      let ea := Claims.effective s a imm o.2.1
      match s.atIssue.locate .load ea o.2.1 with
      | (.error c, s1) => exec o.1 s = .next (s1.trapAt s1.core.pc c ea)
      | (.ok k, s1) =>
        let s2 := (Claims.sent s s1 [ea]).forCtl ea
        let r := s2.loadWord ea k o.2.1 o.2.2
        let ready := ea.toNat / 2 ^ 60 = 8 → s2.path8Ready ea = true
        (ready → exec o.1 s = .next ((r.2.updCore (·.setXVar d r.1 (Claims.beyond s [ea]))).after 4 stl)) ∧
        (¬ ready → exec o.1 s = .next (if s2.path8Direct ea then s2 else s2.holdLoad ea).again)

/-- A plain load from scratchpad of the core's own cluster, of bytes that no buffered store and no reduction in flight
covers and that are correctable, gives those bytes of memory, sign- or zero-extended; nothing but its destination changes,
no byte of memory among it (R1, R36, R85, R161). -/
def Sys2Proof.Claims.ScratchLoads : Prop :=
  ∀ (s : State) (d a : Nat) (imm : BitVec 10) (stl : Nat), ∀ o ∈ Claims.loads d a imm stl,
    let ea := Claims.effective s a imm o.2.1
    let k := Claims.ownKey s ea
    s.Clear (Claims.access [a] [d]) → Claims.OwnScratch s ea o.2.1 →
    s.core.m.sbuf = [] → s.reds = [] → s.poison = [] →
      ∃ t, exec o.1 s = .next t ∧ s.Completes t (s.core.pc + 4) stl ∧
        s.core.Receives t.core none d (Claims.extended o.2.1 o.2.2
          ((List.range o.2.1).map fun i => (s.byte (k + i)).toNat * 2 ^ (8 * i)).sum)

/-- PlainLoads and ScratchLoads: the statements above together. -/
def Obligations.Loads : Prop :=
  Claims.PlainLoads ∧ Claims.ScratchLoads

/-- A plain store on any path: where the checks of R38 fail it traps with its effective address; otherwise, once it has
found room among the core's 48 requests where it leaves the cluster (log 78), it completes: on the paths that memory is
reached by it enters the store buffer with the low bytes of its source, least significant first, and on paths 8 and 9 it is
performed once the buffer has drained. On path 8 it waits where its slot awaits a result of an atomic, a trip or a deferred
take, and where its target's tenant has stopped until its held packet has met its fate, and then is complete (R1, R39, R49,
R133, R161, R163, R363). -/
def Sys2Proof.Claims.PlainStores : Prop :=
  ∀ (s : State) (d a : Nat) (imm : BitVec 10) (stl : Nat), ∀ o ∈ Claims.stores d a imm stl,
    s.Clear (Claims.access [a, d] []) →
      let ea := Claims.effective s a imm o.2
      match s.atIssue.locate .store ea o.2 with
      | (.error c, s1) => exec o.1 s = .next (s1.trapAt s1.core.pc c ea)
      | (.ok k, s1) =>
        let s0 := Claims.sent s s1 [ea]
        let s2 := s0.drained
        let path := ea.toNat / 2 ^ 60
        let performed := exec o.1 s = .next ((s2.ctlStore ea o.2 (s.core.x d)).after 4 stl)
        (path < 8 →
          let cells := (List.range o.2).map fun i => (k + i, (s.core.x d).extractLsb' (8 * i) 8)
          exec o.1 s = .next ((s0.enterBuffer ⟨path, k, o.2, s.core.vf, ea, .store cells, s.core.sup, s.core.cur⟩).after 4 stl)) ∧
        (path = 9 → performed) ∧
        (path = 8 → match s2.held.find? s2.storeHeld with
          | none =>
            let busy := ∃ loc, s2.locOf (ea.bits 32 16) = some loc ∧ s2.path8Free loc ea = false
            (s2.path8Direct ea = true → ¬ busy → performed) ∧
            (s2.path8Direct ea = true → busy → exec o.1 s = .next s2.again) ∧
            (s2.path8Direct ea = false → exec o.1 s = .next (s2.holdStore ea o.2 (s.core.x d)).again)
          | some p =>
            (p.met = true →
              exec o.1 s = .next (({ s2 with held := s2.held.filter (!s2.storeHeld ·) } : State).after 4 stl)) ∧
            (p.met = false → exec o.1 s = .next (s2.holdExpiry p).again))

/-- A plain store to scratchpad of the core's own cluster that finds room in the store buffer changes nothing but the
buffer, where it stands last: no byte of memory changes before it leaves the buffer. Leaving it as the only entry, it has
written its own bytes and no others (R163, R85). -/
def Sys2Proof.Claims.ScratchStores : Prop :=
  ∀ (s : State) (d a : Nat) (imm : BitVec 10) (stl : Nat), ∀ o ∈ Claims.stores d a imm stl,
    let ea := Claims.effective s a imm o.2
    let k := Claims.ownKey s ea
    s.Clear (Claims.access [a, d] []) → Claims.OwnScratch s ea o.2 → s.core.m.sbuf = [] → s.reds = [] → s.poison = [] →
      ∃ t e, exec o.1 s = .next t ∧ t.core.m = { s.core.m with sbuf := [e] } ∧
        ({ s with core := { s.core with m := t.core.m } } : State).Completes t (s.core.pc + 4) stl ∧
        s.core.SlotsSame t.core ∧
        (∀ n, (t.drainOne t.focus).byte n =
          if k ≤ n ∧ n < k + o.2 then (s.core.x d).extractLsb' (8 * (n - k)) 8 else s.byte n) ∧
        (t.drainOne t.focus).core.m.sbuf = []

/-- PlainStores and ScratchStores: the statements above together. -/
def Obligations.Stores : Prop :=
  Claims.PlainStores ∧ Claims.ScratchStores

/-- `csrr` of a register gives what the register holds, as a result in flight, and nothing else changes: of a counter what it
has counted when the instruction issues, zero where it selects a fabric-port event in a tenant's VF; a read of
`cr.fflags` gives the flags where no result in flight carries any, and is held while a vector instruction that may set flags
stands in the queue; a read of `cr.time` gives the timebase or the tick after it, one of the two being free (log 65) (R164 to
R167, R380, R382). -/
def Sys2Proof.Claims.ControlRegisterReads : Prop :=
  ∀ (s : State) (d stl : Nat),
    (∀ r ∈ Claims.registers s s.core.issueCycle, s.Clear { priv := csrSv r.1, xd := [d], mem := false } →
      ∃ t, exec (.csrr r.1 d stl) s = .next t ∧ s.Completes t (s.core.pc + 4) stl ∧ s.core.Receives t.core none d r.2) ∧
    (s.Clear { xd := [d], mem := false } →
      ((∀ p ∈ s.core.pend, p.flags = 0 ∧ p.late = none) →
        ∃ t, exec (.csrr 0x001 d stl) s = .next t ∧ s.Completes t (s.core.pc + 4) stl ∧
          s.core.Receives t.core none d (s.core.fp.fflags.setWidth 64)) ∧
      (Claims.FlagsQueued s → exec (.csrr 0x001 d stl) s = .next s.holds) ∧
      (∀ k < 8, ∃ t, exec (.csrr (0x070 + k) d stl) s = .next t ∧ s.Completes t (s.core.pc + 4) stl ∧
        s.core.Receives t.core none d (Claims.counter s s.atIssue.core k)) ∧
      ∃ t, exec (.csrr 0x050 d stl) s = .next t ∧
        ({ s with oracle := s.oracle + 1 } : State).Completes t (s.core.pc + 4) stl ∧
        (s.core.Receives t.core none d (word s.time) ∨ s.core.Receives t.core none d (word (s.time + 1))))

/-- `csrw`, `csrs` and `csrc` write X(S), cr.n OR X(S) and cr.n AND NOT X(S): afterwards the register holds that value with
its reserved and read-only fields as the field maps say, every other register of the list reads as before, and nothing else
of the machine changes but the PC and the cycle in which the core issues again. A write of `cr.fmta`, `cr.fmtb`, `cr.ofmt` or
`cr.accm` waits until every earlier matrix command of the core has started, and one of `cr.fflags` while a vector instruction
that may set flags stands in the queue. A write of a counter stores the low 48 bits of the value. A write of `cr.arena`
installs the value as `warena` does, or raises ARENA with it, nothing else changing; the core of that clause belongs to no
launch (R131, R145, R164, R165, R166, R232, R380). -/
def Sys2Proof.Claims.ControlRegisterWrites : Prop :=
  ∀ (s : State) (a stl n : Nat), s.Clear { priv := csrRs n, xs := [a], mem := false } →
    (n ∈ (Claims.registers s s.core.cycle).map (·.1) ∨ n = 0x001 → n ≠ 0x005 →
      let started := 0x020 ≤ n → n ≤ 0x023 → ∀ m ∈ (s.clAt s.cl).array, m.core = s.focus → m.started = true
      ∀ o ∈ Claims.registerWrites s n a stl (s.csrOf s.focus n),
        (¬ started → exec o.1 s = .next s.holds) ∧
        (n = 0x001 → Claims.FlagsQueued s → exec o.1 s = .next s.holds) ∧
        (started → (n = 0x001 → ∀ p ∈ s.core.pend, p.flags = 0 ∧ p.late = none) → ∃ t, exec o.1 s = .next t ∧
          ({ s with core := Claims.taking n s.core t.core } : State).Completes t (s.core.pc + 4) stl ∧
          s.core.SlotsSame t.core ∧
          t.csrOf t.focus n = Claims.written n
            (({ s with core := { s.core with cycle := t.core.cycle } } : State).csrOf s.focus n) o.2 ∧
          ∀ r ∈ Claims.registers s t.core.cycle, r.1 ≠ n → t.csrOf t.focus r.1 = r.2)) ∧
    (n = 0x050 → ∀ i ∈ [Instr.csrw n a stl, .csrs n a stl, .csrc n a stl],
      ∃ t, exec i s = .next t ∧ s.Completes t (s.core.pc + 4) stl ∧ s.core.SlotsSame t.core) ∧
    (∀ k < 8, n = 0x070 + k → ∀ o ∈ Claims.registerWrites s n a stl (Claims.counter s s.atIssue.core k),
      exec o.1 s = .next ((s.atIssue.updCore fun c =>
        { c with obs := { c.obs with pmc := sput 0 c.obs.pmc k (o.2.setWidth 48) } }).after 4 stl)) ∧
    (n = 0x005 → s.core.dom.launch = 0 → ∀ o ∈ Claims.registerWrites s n a stl (s.csrOf s.focus n),
      (Claims.ArenaOk s o.2 → ∃ t, exec o.1 s = .next t ∧ Claims.Installs s t o.2 ∧ s.core.SlotsSame t.core) ∧
      (¬ Claims.ArenaOk s o.2 → s.core.trapOk = true → ∃ t, exec o.1 s = .next t ∧ s.TakesTrap t s.core.pc 0x05 o.2))

/-- ControlRegisterReads and ControlRegisterWrites: the statements above together. -/
def Obligations.ControlRegisters : Prop :=
  Claims.ControlRegisterReads ∧ Claims.ControlRegisterWrites

/-- In user mode the instructions of R32 halt the issuing context with cause PRIV (0x02), whatever their operands (R32,
R33). -/
def Obligations.Privileged : Prop :=
  ∀ (s : State) (d a stl : Nat), ∀ i ∈ Claims.privileged d a stl,
    s.core.sup = false → s.core.unwatched → s.core.trapOk = true → s.core.cur ≠ 28 + s.core.trap.twin →
    (sget {} (s.dieAt s.die).haltQ s.core.vf).entries.length < 64 →
    (s.clAt s.cl).lease.holder ≠ some (posOf s.focus, s.core.cur) →
      ∃ t, exec i s = .next t ∧ s.Halts t 0x02

/-- An encoding that is not an instruction halts the issuing context with cause ILLEGAL (0x01), in either mode; the message
carries its parcels and how many were examined (R31, R33, R34). -/
def Obligations.IllegalEncodings : Prop :=
  ∀ (s : State) (ibits len : Nat),
    (∀ p ∈ s.core.pend, p.variable = true) → s.core.unwatched → s.core.trapOk = true →
    s.core.cur ≠ 28 + s.core.trap.twin →
    (sget {} (s.dieAt s.die).haltQ s.core.vf).entries.length < 64 →
    (s.clAt s.cl).lease.holder ≠ some (posOf s.focus, s.core.cur) →
      ∃ t, exec (.illegalEncoding ibits len) s = .next t ∧
        ({ s with core := { s.core with ibits := BitVec.ofNat 64 ibits, ilen := len } } : State).Halts t 0x01

/-- `trap n` raises TRAP (0x15) with the PC of the next instruction saved and n as its value; `brk n` raises BRK (0x03) with
its own PC and n, `brk16` with 0. No other state changes (R25, R136, R169). -/
def Obligations.TrapInstructions : Prop :=
  ∀ (s : State) (code : BitVec 6) (stl : Nat), s.Clear { mem := false } → s.core.trapOk = true →
    (∃ t, exec (.trap code stl) s = .next t ∧ s.TakesTrap t (s.core.pc + 4) 0x15 (code.setWidth 64)) ∧
    (∃ t, exec (.brk code stl) s = .next t ∧ s.TakesTrap t s.core.pc 0x03 (code.setWidth 64)) ∧
    (∃ t, exec .brk16 s = .next t ∧ s.TakesTrap t s.core.pc 0x03 0)

/-- `rett` returns to the window, the mode and the PC that the trap registers hold, where that entry is valid, not halted,
and, for a return to user mode, below 28; otherwise it raises WINDOW with the entry as its value (R138). -/
def Obligations.TrapReturn : Prop :=
  ∀ (s : State) (stl : Nat), s.Clear { priv := true, mem := false } →
    let f := s.core.trap.tfrom
    let w := s.core.win f
    (w.v = true ∧ w.h = false ∧ (s.core.trap.tstat = true ∨ f < 28) →
      ∃ t, exec (.rett stl) s = .next t ∧ t.core.cur = f ∧ t.core.sup = s.core.trap.tstat ∧ t.core.pc = s.core.trap.tpc ∧
        s.OnlyCore t ∧ s.core.SlotsSame t.core ∧
        s.core.Same { t.core with cur := s.core.cur, sup := s.core.sup }) ∧
    (¬ (w.v = true ∧ w.h = false ∧ (s.core.trap.tstat = true ∨ f < 28)) → s.core.trapOk = true →
      ∃ t, exec (.rett stl) s = .next t ∧ s.TakesTrap t s.core.pc 0x04 (word f))

/-- `wset xA, i` writes descriptor X(A) into entry i. The checks are made in order, and the first that fails traps with
X(A) as its value, nothing else changing: T, S or PARENT of X(A) non-zero, or the entry holds a billet or a struck window
(TEMPLATE); X(A) not well formed, or the entry current or halted (WINDOW); in user mode, the slots not within the arena
(ARENA). On success the entry is X(A); the slots keep their contents and no other entry changes (R140). -/
def Sys2Proof.Claims.WindowSet : Prop :=
  ∀ (s : State) (a i stl : Nat), s.Clear { mem := false, priv := decide (28 ≤ i), xs := [a] } →
    let v := s.core.x a
    let e := s.core.win i
    let template := v.bits 48 5 ≠ 0 ∨ v.bits 56 2 ≠ 0 ∨ e.v = true ∧ (e.t = true ∨ e.s = true)
    let window := ¬ Claims.WellFormedDescriptor v ∨ i = s.core.cur ∨ e.h = true
    let arena := s.core.sup = false ∧
      ¬ (s.core.arena.lo ≤ v.bits 0 14 ∧ v.bits 0 14 + v.bits 16 14 ≤ s.core.arena.hi)
    (template → s.core.trapOk = true → ∃ t, exec (.wset a i stl) s = .next t ∧ s.TakesTrap t s.core.pc 0x0B v) ∧
    (¬ template → window → s.core.trapOk = true →
      ∃ t, exec (.wset a i stl) s = .next t ∧ s.TakesTrap t s.core.pc 0x04 v) ∧
    (¬ template → ¬ window → arena → s.core.trapOk = true →
      ∃ t, exec (.wset a i stl) s = .next t ∧ s.TakesTrap t s.core.pc 0x05 v) ∧
    (¬ template → ¬ window → ¬ arena →
      ∃ t, exec (.wset a i stl) s = .next t ∧
        Claims.WindowStep s t (s.core.pc + 4) stl (s.core.eng.stops.filter (·.1 ≠ i)) ∧ t.core.cur = s.core.cur ∧
        t.core.win i = { base := v.bits 0 14, size := v.bits 16 14, voff := v.bits 32 14, v := true, ready := e.ready } ∧
        Claims.OtherWindows s t i)

/-- `wget xD, i` gives the descriptor of entry i, T, S, PARENT and H among it, and zero for one that is not valid;
`wshr xD, xA, i` gives word X(A) of the share mask of entry i, and zero for a window that is not struck, an invalid entry
and X(A) > 1. Both are results in flight, and nothing else changes (R141, R143). -/
def Obligations.WindowReads : Prop :=
  ∀ (s : State) (d a i stl : Nat),
    (s.Clear { mem := false, priv := decide (28 ≤ i), xd := [d] } →
      ∃ t, exec (.wget d i stl) s = .next t ∧ s.Completes t (s.core.pc + 4) 0 ∧
        t.core.ready = s.core.issueCycle + stl ∧ s.core.Receives t.core none d (Claims.descriptor (s.core.win i))) ∧
    (s.Clear { mem := false, priv := decide (28 ≤ i), xs := [a], xd := [d] } →
      let w := s.core.win i
      let n := (s.core.x a).toNat
      ∃ t, exec (.wshr d a i stl) s = .next t ∧ s.Completes t (s.core.pc + 4) 0 ∧
        t.core.ready = s.core.issueCycle + stl ∧
        s.core.Receives t.core none d
          (if w.v = true ∧ w.s = true ∧ n = 0 then w.share.extractLsb' 0 64
           else if w.v = true ∧ w.s = true ∧ n = 1 then w.share.extractLsb' 64 64 else 0))

/-- `wsw i` makes entry i current and goes on at PC + 4; `wswj i` stores PC + 4 in the header slot of the current window and
goes on at the header of entry i, read before, with bit 0 cleared (to the current window: at PC + 4). Neither changes the
mode. An entry that is not valid or is halted raises WINDOW with i as its value. The windows here are not struck (R142). -/
def Obligations.WindowSwitches : Prop :=
  ∀ (s : State) (i stl : Nat), s.Clear { mem := false, priv := decide (28 ≤ i) } →
    let w := s.core.win i
    let ok := w.v = true ∧ w.h = false
    (ok → w.s = false → ∃ t, exec (.wsw i stl) s = .next t ∧
      Claims.WindowStep s t (s.core.pc + 4) stl s.core.eng.stops ∧ t.core.cur = i ∧
      ∀ j, t.core.win j = { s.core.win j with ready := (t.core.win j).ready }) ∧
    (¬ ok → s.core.trapOk = true → ∃ t, exec (.wsw i stl) s = .next t ∧ s.TakesTrap t s.core.pc 0x04 (word i)) ∧
    (ok → w.s = false → s.core.pend = [] → s.core.bad = [] → s.core.inBillet s.core.curWin.base = false →
      ∃ t, exec (.wswj i stl) s = .next t ∧ s.OnlyCore t ∧ t.core.cur = i ∧ t.core.sup = s.core.sup ∧
        t.core.pc = (if i = s.core.cur then s.core.pc + 4 else s.core.slot w.base &&& ~~~1#64) ∧
        t.core.slot s.core.curWin.base = s.core.pc + 4 ∧
        (∀ n, n ≠ s.core.curWin.base → t.core.slot n = s.core.slot n) ∧
        s.core.Same { t.core with cur := s.core.cur }) ∧
    (¬ ok → s.core.pend = [] → s.core.inBillet s.core.curWin.base = false → s.core.trapOk = true →
      ∃ t, exec (.wswj i stl) s = .next t ∧ s.TakesTrap t s.core.pc 0x04 (word i))

/-- `wclr i` makes entry i invalid. It raises WINDOW with i where the entry is current or halted, and TEMPLATE with i where
it is a struck window or a billet with live strikes. On an invalid entry it changes nothing (R144). -/
def Sys2Proof.Claims.WindowClear : Prop :=
  ∀ (s : State) (i stl : Nat), s.Clear { mem := false, priv := decide (28 ≤ i) } →
    let w := s.core.win i
    let window := i = s.core.cur ∨ w.h = true
    let template := w.v = true ∧ (w.s = true ∨ w.t = true ∧ s.core.strikesOf i = true)
    (window → s.core.trapOk = true → ∃ t, exec (.wclr i stl) s = .next t ∧ s.TakesTrap t s.core.pc 0x04 (word i)) ∧
    (¬ window → template → s.core.trapOk = true →
      ∃ t, exec (.wclr i stl) s = .next t ∧ s.TakesTrap t s.core.pc 0x0B (word i)) ∧
    (¬ window → ¬ template → ∃ t, exec (.wclr i stl) s = .next t ∧
      Claims.WindowStep s t (s.core.pc + 4) stl (s.core.eng.stops.filter (·.1 ≠ i)) ∧ t.core.cur = s.core.cur ∧ t.core.win i = { w with v := false } ∧ Claims.OtherWindows s t i)

/-- WindowSet and WindowClear: the statements above together. -/
def Obligations.WindowSetAndClear : Prop :=
  Claims.WindowSet ∧ Claims.WindowClear

/-- `warena xD, xA` installs X(A) as the arena and gives the old one; the user entries that are valid, not halted and not
within the new arena are cleared. A word with a reserved bit, LO > HI, HI > 16,384, SIDE without SLICED, bounds outside the
half that SIDE chooses, or that leaves a current user window outside raises ARENA with X(A), nothing else changing; so does
an arena that takes in a half whose image of another VF is unsaved, which no path gives to another VF (R359; the model's
choice, log 76). Where the clearing ends the last strike of the cluster, the dies take their ranks again (R336), and nothing
else of a die changes. The core here belongs to no launch (R131, R145). -/
def Obligations.Arenas : Prop :=
  ∀ (s : State) (d a stl : Nat), s.Clear { mem := false, priv := true, xs := [a], xd := [d] } → s.core.dom.launch = 0 →
    let v := s.core.x a
    (Claims.ArenaOk s v → ∃ t, exec (.warena d a stl) s = .next t ∧ Claims.Installs s t v ∧
      s.core.Receives t.core none d (s.csrOf s.focus 0x005)) ∧
    (¬ Claims.ArenaOk s v → s.core.trapOk = true → ∃ t, exec (.warena d a stl) s = .next t ∧ s.TakesTrap t s.core.pc 0x05 v)

/-- `ibar` waits until every pending result of the core has landed and its store buffer has drained, and then is complete;
`halt` waits in the same way, and then stops the core with its window current and the PC at the next instruction: its store
buffer is empty then, and the entries have left it as in the drain. With nothing in the store buffer at the start, only the
core's slots, flags and pending results change, and the results in flight are in their slots. While vector instructions
stand in the queue both are held (R171, R173, R200). -/
def Obligations.Barriers : Prop :=
  ∀ (s : State) (stl : Nat),
    (s.Clear { drain := true } → ∃ t, exec (.ibar stl) s = .next t ∧ t = s.atIssue.barrier.after 4 stl ∧
      t.core.m.sbuf = [] ∧ (∀ p ∈ t.core.pend, p.queued = true) ∧
      (s.core.m.sbuf = [] → s.OnlyCore t ∧ t.core.pend = [] ∧ t.core.pc = s.core.pc + 4 ∧
        (∀ n, t.core.slot n = s.core.settleAll.slot n) ∧
        s.core.Same { t.core with fp := s.core.fp } ∧ t.core.fp = s.core.settleAll.fp)) ∧
    (s.Clear { priv := true, drain := true } → ∃ t, exec (.halt stl) s = .next t ∧ t.core.run = .stopped ∧
      t.core.m.sbuf = [] ∧ t.core.m = s.atIssue.barrier.core.m ∧ t.mem = s.atIssue.barrier.mem ∧
      (∀ p ∈ t.core.pend, p.queued = true) ∧
      (s.core.m.sbuf = [] → s.OnlyCore t ∧ t.core.pend = [] ∧ t.core.cur = s.core.cur ∧ t.core.sup = s.core.sup ∧
        t.core.pc = s.core.pc + 4 ∧ t.core.m = s.core.m ∧ t.core.eng = s.core.eng ∧
        ∀ n, t.core.slot n = s.core.settleAll.slot n)) ∧
    (s.Open { drain := true } → s.core.queued ≠ 0 → exec (.ibar stl) s = .next s.holds) ∧
    (s.Open { priv := true, drain := true } → s.core.queued ≠ 0 → exec (.halt stl) s = .next s.holds)

/-- `sleep xA` stops the core from issuing until a wake event, at the latest when global time reaches the time at issue plus
X(A); X(A) = 0 sets no deadline. The PC is at the next instruction, and no slot, no result in flight and nothing else but
the clock's idle time has changed (R172). -/
def Obligations.Sleep : Prop :=
  ∀ (s : State) (a stl : Nat), s.Clear { xs := [a], mem := false } →
    ∃ t, exec (.sleep a stl) s = .next t ∧
      t.core.run = .asleep (if s.core.x a = 0 then none else some (s.time + (s.core.x a).toNat)) ∧
      t.core.clk = { s.core.clk with gate := 0, idleSince := s.time } ∧
      ({ s with core := { s.core with run := t.core.run, clk := t.core.clk } } : State).Completes t (s.core.pc + 4) stl ∧
      s.core.SlotsSame t.core

/-- `iinv xA, xD, scope` on paths 0 and 3 drains the store buffer and drops, in the instruction caches of the cores within
the scope (the core, its cluster, its die, or the package), the lines that meet [X(A), X(A) + X(D)) under the core's ASID, and
global ones; an instruction of the range that another core has fetched and not issued is discarded; up to die scope nothing
else changes, and at dev and sys scope the dies' copies and the path-3 lines of the ways are refused as well (R395: the
model refuses those of every line, log 57). A length of zero does nothing; any other path raises PATH with X(A), and no
translation is made (R170). -/
def Obligations.InstructionInvalidation : Prop :=
  ∀ (s : State) (d a : Nat) (sc : Scope) (stl : Nat), s.Clear { xs := [a, d], mem := false } →
    let lo := s.core.x a
    let path := lo.toNat / 2 ^ 60
    (path ≠ 0 → path ≠ 3 → s.core.trapOk = true →
      ∃ t, exec (.iinv d a sc stl) s = .next t ∧ s.TakesTrap t s.core.pc 0x09 lo) ∧
    (path = 0 ∨ path = 3 → s.core.x d = 0 →
      ∃ t, exec (.iinv d a sc stl) s = .next t ∧ s.Completes t (s.core.pc + 4) stl ∧ s.core.SlotsSame t.core) ∧
    (path = 0 ∨ path = 3 → s.core.x d ≠ 0 → ∃ t, exec (.iinv d a sc stl) s = .next t ∧
      t = (s.atIssue.drained.invalidate sc lo.toNat (s.core.x d).toNat).after 4 stl ∧
      (s.core.m.sbuf = [] →
        let meets := fun (va n : Nat) => decide (va < lo.toNat + (s.core.x d).toNat ∧ lo.toNat < va + n)
        let covered := fun (loc : Nat) => match sc with
          | .core => decide (loc = s.focus)
          | .cluster => decide (s.clOf loc = s.cl)
          | .die => decide (dieOf loc = s.die)
          | .dev | .sys => true
        let kept := fun (loc : Nat) => if covered loc = true then (s.coreAt loc).m.icache.filter fun l =>
          !(meets l.va 64 && (l.global || decide (l.asid = s.core.asid))) else (s.coreAt loc).m.icache
        let held := fun (loc : Nat) =>
          (s.coreAt loc).held && !(covered loc && meets (s.coreAt loc).pc.toNat (2 * (s.coreAt loc).ilen))
        s.core.SlotsSame t.core ∧ t.core.pc = s.core.pc + 4 ∧
        (∀ loc, (t.coreAt loc).m.icache = kept loc ∧ (loc ≠ s.focus → (t.coreAt loc).held = held loc)) ∧
        (sc ≠ .dev → sc ≠ .sys →
          ({ s with others := t.others, core := { s.core with m := { s.core.m with icache := kept s.focus } } }
            : State).Completes t (s.core.pc + 4) stl ∧
          ∀ loc, loc ≠ s.focus → t.coreAt loc =
            { s.coreAt loc with m := { (s.coreAt loc).m with icache := kept loc }, held := held loc }) ∧
        (sc = .dev ∨ sc = .sys → (∀ k < 8, (t.dieAt k).l2 = []) ∧ ∀ k, ∀ l ∈ (t.clAt k).ways, l.ro = none)))

/-- `resume xD, xA` gives −3 for a target with a reserved bit set or a virtual core number that names no core, and −2 for a
core of another VF. Otherwise, for a core other than the issuing one and with nothing in the store buffer, it completes: a
core that stands stopped in the window it names issues again there, the window no longer halted, at its header with bit 0
cleared; a valid window that is halted, another than that, is no longer halted; both give 0. Any other window gives −1
(R174). -/
def Obligations.Resume : Prop :=
  ∀ (s : State) (d a stl : Nat), s.Clear { priv := true, xs := [a], xd := [d], mem := false } →
    let v := s.core.x a
    let w := v.bits 0 5
    let named := if v.bits 48 16 ≠ 0 ∨ v.bits 5 27 ≠ 0 then none else s.locOf (v.bits 32 16)
    (named = none → ∃ t, exec (.resume d a stl) s = .next t ∧ s.Completes t (s.core.pc + 4) stl ∧
      s.core.Receives t.core none d (-3)) ∧
    (∀ loc, named = some loc → (s.coreAt loc).vf ≠ s.core.vf →
      ∃ t, exec (.resume d a stl) s = .next t ∧ s.Completes t (s.core.pc + 4) stl ∧ s.core.Receives t.core none d (-2)) ∧
    (∀ loc, named = some loc → (s.coreAt loc).vf = s.core.vf → loc ≠ s.focus → s.core.m.sbuf = [] →
      let c := s.coreAt loc
      ∃ t, exec (.resume d a stl) s = .next t ∧
        (c.queued = 0 ∨ ¬ (c.run = .stopped ∧ w = c.cur) →
          ({ s with others := t.others } : State).Completes t (s.core.pc + 4) stl) ∧
        (c.run = .stopped → w = c.cur → c.queued = 0 →
          s.core.Receives t.core none d 0 ∧ (t.coreAt loc).run = .running ∧ (t.coreAt loc).cur = w ∧
          (t.coreAt loc).sup = c.sup ∧ ((t.coreAt loc).win w).h = false ∧
          (c.pend = [] → (t.coreAt loc).pc = c.slot (c.src (c.win w) 0) &&& ~~~1#64)) ∧
        (¬ (c.run = .stopped ∧ w = c.cur) → (c.win w).v = true → (c.win w).h = true →
          s.core.Receives t.core none d 0 ∧ (t.coreAt loc).win w = { c.win w with h := false } ∧
          (t.coreAt loc).pc = c.pc ∧ (t.coreAt loc).cur = c.cur) ∧
        (¬ (c.run = .stopped ∧ w = c.cur) → ¬ ((c.win w).v = true ∧ (c.win w).h = true) →
          s.core.Receives t.core none d (-1) ∧ ∀ i, (t.coreAt loc).win i = c.win i))

namespace Sys2Proof.Claims

/-- Lane i of width w of a vector (R199). -/
def lane (w : Nat) (v : BitVec 512) (i : Nat) : Nat := v.toNat / 2 ^ (w * i) % 2 ^ w

/-- The slots of a vector name of the current window, with the doubles of a value, lowest first (R2, R127). -/
def vectorWrites (s : State) (d : Nat) (v : BitVec 512) : List (Nat × Word) :=
  (List.range 8).map fun k => (s.core.curWin.base + (s.core.curWin.voff + 8 * d + k), v.extractLsb' (64 * k) 64)

/-- What an instruction of `len` bytes leaves that adds one result to those in flight: it is complete, and no slot has
changed. -/
def Adds (s : State) (i : Instr) (len stl : Nat) (old : List Pend) (p : Pend) : Prop :=
  ∃ t, exec i s = .next t ∧ s.Completes t (s.core.pc + BitVec.ofNat 64 len) stl ∧
    (∀ n, t.core.slot n = s.core.slot n) ∧ t.core.pend = old ++ [p]

/-- A vector word that calculates, none of whose sources `ns` is bound to a stream: it enters the core's vector queue with
its cost, its flags and the value of its destination; `P` says which value and flags. While 16 words stand in the queue it
is held (R122, R132, R200, R202). -/
def Queues (s : State) (i : Instr) (len stl : Nat) (u : Use) (ns : List Nat) (cost d : Nat)
    (P : BitVec 512 → Flags → Prop) : Prop :=
  (s.Clear u → (∀ n ∈ ns, s.core.bound s.core.cur n = none) →
    ∃ v fl, P v fl ∧ Adds s i len stl s.core.pend { kind := .queued cost, writes := vectorWrites s d v, flags := fl }) ∧
  (s.Open u → 16 ≤ s.core.queued → exec i s = .next s.holds)

/-- The active lanes of L: those below the count in the predicate slot (R203). -/
def active (s : State) (p : Pfx) (L : Nat) : Nat := if p.pm = 0 then L else min L (s.core.x (55 + p.pm)).toNat

/-- The rounding mode of a word: the prefix's, or `cr.frm` (R21, R206). -/
def mode (s : State) (p : Pfx) : Nat := if p.rm = 0 then s.core.fp.frm else p.rm

/-- The lanes of a result: the first n are `r`, the others keep the old value or are zero under Z (R203). -/
def Lanes (p : Pfx) (w n : Nat) (r : Nat → Nat) (old v : BitVec 512) : Prop :=
  ∀ k < 512 / w, lane w v k = if k < n then r k % 2 ^ w else if p.z then 0 else lane w old k

/-- The flags of the first n results together. -/
def allFlags (n : Nat) (f : Nat → Flags) : Flags := ((List.range n).map f).foldl (· ||| ·) 0

/-- The format of a floating-point lane type, and a lane of an integer type as an integer (R180). -/
def formatOf : LaneTy → Fmt
  | .f32 => .f32 | .bf16 => .bf16 | .f16 => .f16 | _ => .f64
def integer (ty : LaneTy) (x : Nat) : Int := if ty = .n32 then x else (BitVec.ofNat ty.width x).toInt

/-- All ones or zero. -/
def mask (w : Nat) (b : Bool) : Nat := if b then 2 ^ w - 1 else 0

/-- What a lane operation gives of the lanes a and b and the addend c (R205, R206). -/
def laneValue (ty : LaneTy) (op : LaneOp) (rm a b c : Nat) : Nat × Flags :=
  let w := ty.width
  let x := BitVec.ofNat w a
  let y := BitVec.ofNat w b
  let f := formatOf ty
  match op with
  | .and => (a &&& b, 0)
  | .or => (a ||| b, 0)
  | .xor => (a ^^^ b, 0)
  | .shl => ((x <<< (b % w)).toNat, 0)
  | .shr => ((x >>> (b % w)).toNat, 0)
  | .sra => ((x.sshiftRight (b % w)).toNat, 0)
  | .add => if ty.isFloat then f.add rm a b else ((x + y).toNat, 0)
  | .sub => if ty.isFloat then f.sub rm a b else ((x - y).toNat, 0)
  | .mul => if ty.isFloat then f.mul rm a b else ((x * y).toNat, 0)
  | .mac => if ty.isFloat then f.mac rm c a b else ((BitVec.ofNat w c + x * y).toNat, 0)
  | .min => if ty.isFloat then f.minMax false false a b else (if integer ty a ≤ integer ty b then a else b, 0)
  | .max => if ty.isFloat then f.minMax true false a b else (if integer ty a ≤ integer ty b then b else a, 0)
  | .minp => if ty.isFloat then f.minMax false true a b else (if integer ty a ≤ integer ty b then a else b, 0)
  | .maxp => if ty.isFloat then f.minMax true true a b else (if integer ty a ≤ integer ty b then b else a, 0)
  | .clt => if ty.isFloat then (mask w (f.lt a b).1, (f.lt a b).2)
    else (mask w (decide (integer ty a < integer ty b)), 0)
  | .ceq => if ty.isFloat then (mask w (f.eq a b).1, (f.eq a b).2) else (mask w (decide (a = b)), 0)

/-- What a statement about a vector word that calculates says of it: its instruction, length, stall count, names, sources,
cost, destination, and the value and flags of the result. -/
abbrev VectorClaim := Instr → Nat → Nat → Use → List Nat → Nat → Nat → (BitVec 512 → Flags → Prop) → Prop

/-- A lane operation in one of its encodings (R203, R205, R206, R228). -/
def LaneResultBy (Q : VectorClaim) (s : State) (i : Instr) (len stl : Nat) (p : Pfx) (ty : LaneTy) (op : LaneOp)
    (d a b : Nat) : Prop :=
  let w := ty.width
  let n := active s p (512 / w)
  let c := if p.cv then p.c else d
  let r := fun k => laneValue ty op (mode s p) (lane w (s.core.vec a) k) (lane w (s.core.vec b) k)
    (lane w (s.core.vec c) k)
  Q i len stl ((VOp.lane ty op d a b).uses p) ([a, b] ++ if op = .mac then [c] else [])
    (if ty = .f64 ∧ (op = .mul ∨ op = .mac) then 2 else 1) d
    fun v fl => Lanes p w n (fun k => (r k).1) (s.core.vec d) v ∧ fl = allFlags n fun k => (r k).2
def LaneResult (s : State) := LaneResultBy (Queues s) s

/-- The lane operations of majors 0x22 to 0x29, each with its lane type (R27, R205). -/
noncomputable def lanesF32 : List (LaneTy × LaneOp × (Nat → Nat → Nat → Nat → Instr)) :=
  [(.f32, .add, .vaddF32), (.f32, .sub, .vsubF32), (.f32, .mul, .vmulF32), (.f32, .mac, .vmacF32),
   (.f32, .min, .vminF32), (.f32, .max, .vmaxF32), (.f32, .minp, .vminpF32), (.f32, .maxp, .vmaxpF32),
   (.f32, .and, .vandF32), (.f32, .or, .vorF32), (.f32, .xor, .vxorF32), (.f32, .shl, .vshlF32),
   (.f32, .shr, .vshrF32), (.f32, .sra, .vsraF32), (.f32, .clt, .vcltF32), (.f32, .ceq, .vceqF32)]
noncomputable def lanesI32 : List (LaneTy × LaneOp × (Nat → Nat → Nat → Nat → Instr)) :=
  [(.i32, .add, .vaddI32), (.i32, .sub, .vsubI32), (.i32, .mul, .vmulI32), (.i32, .mac, .vmacI32),
   (.i32, .min, .vminI32), (.i32, .max, .vmaxI32), (.i32, .minp, .vminpI32), (.i32, .maxp, .vmaxpI32),
   (.i32, .and, .vandI32), (.i32, .or, .vorI32), (.i32, .xor, .vxorI32), (.i32, .shl, .vshlI32),
   (.i32, .shr, .vshrI32), (.i32, .sra, .vsraI32), (.i32, .clt, .vcltI32), (.i32, .ceq, .vceqI32)]
noncomputable def lanesN32 : List (LaneTy × LaneOp × (Nat → Nat → Nat → Nat → Instr)) :=
  [(.n32, .add, .vaddN32), (.n32, .sub, .vsubN32), (.n32, .mul, .vmulN32), (.n32, .mac, .vmacN32),
   (.n32, .min, .vminN32), (.n32, .max, .vmaxN32), (.n32, .minp, .vminpN32), (.n32, .maxp, .vmaxpN32),
   (.n32, .and, .vandN32), (.n32, .or, .vorN32), (.n32, .xor, .vxorN32), (.n32, .shl, .vshlN32),
   (.n32, .shr, .vshrN32), (.n32, .sra, .vsraN32), (.n32, .clt, .vcltN32), (.n32, .ceq, .vceqN32)]
noncomputable def lanesBf16 : List (LaneTy × LaneOp × (Nat → Nat → Nat → Nat → Instr)) :=
  [(.bf16, .add, .vaddBf16), (.bf16, .sub, .vsubBf16), (.bf16, .mul, .vmulBf16), (.bf16, .mac, .vmacBf16),
   (.bf16, .min, .vminBf16), (.bf16, .max, .vmaxBf16), (.bf16, .minp, .vminpBf16), (.bf16, .maxp, .vmaxpBf16),
   (.bf16, .and, .vandBf16), (.bf16, .or, .vorBf16), (.bf16, .xor, .vxorBf16), (.bf16, .shl, .vshlBf16),
   (.bf16, .shr, .vshrBf16), (.bf16, .sra, .vsraBf16), (.bf16, .clt, .vcltBf16), (.bf16, .ceq, .vceqBf16)]
noncomputable def lanesF16 : List (LaneTy × LaneOp × (Nat → Nat → Nat → Nat → Instr)) :=
  [(.f16, .add, .vaddF16), (.f16, .sub, .vsubF16), (.f16, .mul, .vmulF16), (.f16, .mac, .vmacF16),
   (.f16, .min, .vminF16), (.f16, .max, .vmaxF16), (.f16, .minp, .vminpF16), (.f16, .maxp, .vmaxpF16),
   (.f16, .and, .vandF16), (.f16, .or, .vorF16), (.f16, .xor, .vxorF16), (.f16, .shl, .vshlF16),
   (.f16, .shr, .vshrF16), (.f16, .sra, .vsraF16), (.f16, .clt, .vcltF16), (.f16, .ceq, .vceqF16)]
noncomputable def lanesI16 : List (LaneTy × LaneOp × (Nat → Nat → Nat → Nat → Instr)) :=
  [(.i16, .add, .vaddI16), (.i16, .sub, .vsubI16), (.i16, .mul, .vmulI16), (.i16, .mac, .vmacI16),
   (.i16, .min, .vminI16), (.i16, .max, .vmaxI16), (.i16, .minp, .vminpI16), (.i16, .maxp, .vmaxpI16),
   (.i16, .and, .vandI16), (.i16, .or, .vorI16), (.i16, .xor, .vxorI16), (.i16, .shl, .vshlI16),
   (.i16, .shr, .vshrI16), (.i16, .sra, .vsraI16), (.i16, .clt, .vcltI16), (.i16, .ceq, .vceqI16)]
noncomputable def lanesI8 : List (LaneTy × LaneOp × (Nat → Nat → Nat → Nat → Instr)) :=
  [(.i8, .add, .vaddI8), (.i8, .sub, .vsubI8), (.i8, .mul, .vmulI8), (.i8, .mac, .vmacI8),
   (.i8, .min, .vminI8), (.i8, .max, .vmaxI8), (.i8, .minp, .vminpI8), (.i8, .maxp, .vmaxpI8),
   (.i8, .and, .vandI8), (.i8, .or, .vorI8), (.i8, .xor, .vxorI8), (.i8, .shl, .vshlI8),
   (.i8, .shr, .vshrI8), (.i8, .sra, .vsraI8), (.i8, .clt, .vcltI8), (.i8, .ceq, .vceqI8)]
noncomputable def lanesF64 : List (LaneTy × LaneOp × (Nat → Nat → Nat → Nat → Instr)) :=
  [(.f64, .add, .vaddF64), (.f64, .sub, .vsubF64), (.f64, .mul, .vmulF64), (.f64, .mac, .vmacF64),
   (.f64, .min, .vminF64), (.f64, .max, .vmaxF64), (.f64, .minp, .vminpF64), (.f64, .maxp, .vmaxpF64),
   (.f64, .and, .vandF64), (.f64, .or, .vorF64), (.f64, .xor, .vxorF64), (.f64, .shl, .vshlF64),
   (.f64, .shr, .vshrF64), (.f64, .sra, .vsraF64), (.f64, .clt, .vcltF64), (.f64, .ceq, .vceqF64)]
noncomputable def laneInstrs : List (LaneTy × LaneOp × (Nat → Nat → Nat → Nat → Instr)) :=
  lanesF32 ++ lanesI32 ++ lanesN32 ++ lanesBf16 ++ lanesF16 ++ lanesI16 ++ lanesI8 ++ lanesF64

/-- The lane operations of the 16-bit major (R24). -/
noncomputable def shortLanes (int : Bool) (d b : Nat) : List (LaneTy × LaneOp × Instr) :=
  let ty := if int then LaneTy.i32 else LaneTy.f32
  [(ty, .add, .vadd16 int d b), (ty, .sub, .vsub16 int d b), (ty, .mul, .vmul16 int d b), (ty, .min, .vmin16 int d b),
   (ty, .max, .vmax16 int d b), (ty, .and, .vand16 int d b), (ty, .or, .vor16 int d b), (ty, .xor, .vxor16 int d b),
   (ty, .clt, .vclt16 int d b), (ty, .ceq, .vceq16 int d b), (.i32, .shl, .vshl16 d b), (.i32, .sra, .vsra16 d b)]

/-- What a unary operation gives of lane k of a vector (R208, R209). -/
def unaryValue (op : UnOp) (ty : LaneTy) (rm : Nat) (v : BitVec 512) (k : Nat) : Nat × Flags :=
  let w := ty.width
  let f := formatOf ty
  let a := lane w v k
  match op with
  | .neg => (if ty.isFloat then (if a < 2 ^ (w - 1) then a + 2 ^ (w - 1) else a - 2 ^ (w - 1))
      else (-BitVec.ofNat w a).toNat, 0)
  | .abs => (if ty.isFloat then a % 2 ^ (w - 1) else (integer ty a).natAbs, 0)
  | .not => ((~~~BitVec.ofNat w a).toNat, 0)
  | .rcp => f.rcp rm a
  | .rsqrt => f.rsqrt rm a
  | .sqrt => f.sqrt rm a
  | .exp2 => f.exp2 rm a
  | .log2 => f.log2 rm a
  | .tanh => f.tanh rm a
  | .sigm => f.sigm rm a
  | .rnd => f.rnd rm a
  | .clz => (if a = 0 then w else w - 1 - a.log2, 0)
  | .popc => (((List.range w).filter a.testBit).length, 0)
  | .cls => (f.classify a, 0)
  | .rev => (lane w v (512 / w - 1 - k), 0)
  | _ => (a, 0)

/-- The cost of a unary operation (R228). -/
def unaryCost (op : UnOp) (ty : LaneTy) : Nat :=
  if op ∈ [UnOp.mov, .neg, .abs, .not, .rnd, .clz, .popc, .rev, .cls] then 1 else if ty = .f64 ∧ op ≠ .mxs then 8 else 4

/-- A unary operation that works lane by lane, in one of its encodings. -/
def UnaryResultBy (Q : VectorClaim) (s : State) (i : Instr) (len stl : Nat) (p : Pfx) (op : UnOp) (ty : LaneTy)
    (d a : Nat) : Prop :=
  let w := ty.width
  let n := active s p (512 / w)
  let r := unaryValue op ty (mode s p) (s.core.vec a)
  Q i len stl ((VOp.un op ty d a).uses p) [a] (unaryCost op ty) d fun v fl =>
    Lanes p w n (fun k => (r k).1) (s.core.vec d) v ∧ fl = allFlags n fun k => (r k).2
def UnaryResult (s : State) := UnaryResultBy (Queues s) s

/-- The unary operations that work lane by lane (R208). -/
noncomputable def unaryInstrs : List (UnOp × (LaneTy → Nat → Nat → Nat → Instr)) :=
  [(.mov, .vmov), (.neg, .vneg), (.abs, .vabs), (.not, .vnot), (.rcp, .vrcp), (.rsqrt, .vrsqrt), (.sqrt, .vsqrt),
   (.exp2, .vexp2), (.log2, .vlog2), (.tanh, .vtanh), (.sigm, .vsigm), (.rnd, .vrnd), (.clz, .vclz), (.popc, .vpopc),
   (.rev, .vrev), (.cls, .vclass)]

/-- The unary operations of the 16-bit major (R24). -/
noncomputable def shortUnary (int : Bool) (d b : Nat) : List (UnOp × LaneTy × Instr) :=
  let ty := if int then LaneTy.i32 else LaneTy.f32
  [(.mov, ty, .vmov16 int d b), (.neg, ty, .vneg16 int d b), (.abs, ty, .vabs16 int d b), (.rcp, .f32, .vrcp16 d b),
   (.popc, .i32, .vpopc16 d b)]

end Sys2Proof.Claims

/-- Every lane operation of majors 0x22 to 0x29, alone and under a prefix, and those of the 16-bit major, which are exactly
their 32-bit equivalents, completes: its active lanes receive the values of the table, its flags are those of the active
lanes, an inactive lane keeps its value or, under Z, is zero; `vmac` adds to V(D), or to V(C) where the prefix has CV
(R24, R203, R205, R206, R207, R228). -/
def Sys2Proof.Claims.LaneOperations : Prop :=
  ∀ (s : State) (d a b stl : Nat) (p : Pfx) (int : Bool),
    (∀ o ∈ Claims.laneInstrs,
      Claims.LaneResult s (o.2.2 d a b stl) 4 stl {} o.1 o.2.1 d a b ∧
      Claims.LaneResult s (.pfx p (.lane o.1 o.2.1 d a b)) 8 p.stl p o.1 o.2.1 d a b) ∧
    (∀ o ∈ Claims.shortLanes int d b, Claims.LaneResult s o.2.2 2 0 {} o.1 o.2.1 d d b)

/-- Every unary vector operation that works lane by lane, alone, under a prefix and in the 16-bit major, completes with the
values of R208 and R209 in its active lanes (R24, R203, R208, R209, R228). -/
def Sys2Proof.Claims.UnaryOperations : Prop :=
  ∀ (s : State) (d a stl : Nat) (p : Pfx) (int : Bool),
    (∀ (ty : LaneTy), ∀ o ∈ Claims.unaryInstrs,
      Claims.UnaryResult s (o.2 ty d a stl) 4 stl {} o.1 ty d a ∧
      Claims.UnaryResult s (.pfx p (.un o.1 ty d a)) 8 p.stl p o.1 ty d a) ∧
    (∀ o ∈ Claims.shortUnary int d a, Claims.UnaryResult s o.2.2 2 0 {} o.1 o.2.1 d a)

/-- LaneOperations and UnaryOperations: the statements above together. -/
def Obligations.LaneAndUnaryOperations : Prop :=
  Claims.LaneOperations ∧ Claims.UnaryOperations

namespace Sys2Proof.Claims

/-- Two nodes of a reduction tree joined: an absent operand drops out (R210). -/
def join (comb : Nat → Nat → Nat × Flags) : Option Nat × Flags → Option Nat × Flags → Option Nat × Flags
  | (some a, f), (some b, g) => (some (comb a b).1, f ||| g ||| (comb a b).2)
  | (some a, f), (none, g) => (some a, f ||| g)
  | (none, f), (b, g) => (b, f ||| g)

/-- Node i of the fixed tree of R210 over 2^h nodes x. -/
def tree (comb : Nat → Nat → Nat × Flags) : Nat → (Nat → Option Nat × Flags) → Nat → Option Nat × Flags
  | 0, x, i => x i
  | h + 1, x, i => tree comb h (fun k => join comb (x k) (x (k + 2 ^ h))) i

/-- The reductions: the lane operation that combines two lanes, and the identity (R210). -/
noncomputable def reductions (ty : LaneTy) :
    List (UnOp × LaneOp × Nat × (LaneTy → Nat → Nat → Nat → Instr)) :=
  let w := ty.width
  let inf := match ty with
    | .f32 => 0x7F800000 | .bf16 => 0x7F80 | .f16 => 0x7C00 | _ => 0x7FF0000000000000
  [(.sumr, .add, 0, .vsumr),
   (.maxr, .max, if ty.isFloat then 2 ^ (w - 1) + inf else if ty = .n32 then 0 else 2 ^ (w - 1), .vmaxr),
   (.minr, .min, if ty.isFloat then inf else if ty = .n32 then 2 ^ 32 - 1 else 2 ^ (w - 1) - 1, .vminr)]

/-- A reduction in one of its encodings (R210). -/
def ReductionResult (s : State) (i : Instr) (len stl : Nat) (p : Pfx) (op : UnOp) (by_ : LaneOp) (ident : Nat)
    (ty : LaneTy) (d a : Nat) : Prop :=
  let w := ty.width
  let n := active s p (512 / w)
  let leaf := fun k => (if k < n then some (lane w (s.core.vec a) k) else none, (0 : Flags))
  let root := tree (fun x y => laneValue ty by_ (mode s p) x y 0) (512 / w).log2 leaf 0
  Queues s i len stl ((VOp.un op ty d a).uses p) [a] (if ty = .f64 then 8 else 4) d fun v fl =>
    v = BitVec.ofNat 512 (root.1.getD ident) ∧ fl = root.2

/-- emax of an element format of `cr.fmta`[3:0] (R184, R211). -/
def emax : Nat → Option Int
  | 4 => some 8 | 5 => some 15 | 6 => some 4 | 7 => some 2 | 8 => some 2 | 9 => some 0 | _ => none

/-- A value is finite; a value is not zero and ⌊log₂⌋ of its magnitude is k. -/
def Finite : FVal → Prop
  | .num _ _ _ => True
  | _ => False
def HasLog (k : Int) : FVal → Prop
  | .num _ m e => m ≠ 0 ∧ k = m.log2 + e
  | _ => False

/-- The shared scale x of values (R184). -/
def Scale (e : Int) (vs : List FVal) (x : Nat) : Prop :=
  ((∃ v ∈ vs, ¬ Finite v) → x = 0xFF) ∧
  ((∀ v ∈ vs, Finite v) → (∀ v ∈ vs, ∀ k, ¬ HasLog k v) → x = 0) ∧
  (∀ k, (∀ v ∈ vs, Finite v) → (∃ v ∈ vs, HasLog k v) → (∀ v ∈ vs, ∀ j, HasLog j v → j ≤ k) →
    (x : Int) = max (min (k - e) 127) (-127) + 127)

/-- `vmxs` in one of its encodings (R211). -/
def ScaleResult (s : State) (i : Instr) (len stl : Nat) (p : Pfx) (ty : LaneTy) (d a : Nat) : Prop :=
  let w := ty.width
  let block := (List.range (512 / w)).map (lane w (s.core.vec a)) ++
    (if ty = .f32 then (List.range 16).map (lane 32 (s.core.vec (a + 1))) else [])
  Queues s i len stl ((VOp.un .mxs ty d a).uses p) ([a] ++ if ty = .f32 then [a + 1] else []) 4 d fun v fl =>
    match emax (s.core.mat.fmta.toNat % 16) with
    | none => v = 0xFF ∧ fl = fNV
    | some e => fl = 0 ∧ ∃ x, v = BitVec.ofNat 512 x ∧ Scale e (block.map (formatOf ty).decode) x

/-- Whether the elements of a type are unsigned integers; an element of an integer type as an integer (R180). -/
def unsigned (ty : Ty) : Bool := decide (ty = .n32 ∨ ty = .n16 ∨ ty = .n8)
def element (ty : Ty) (x : Nat) : Int := if unsigned ty then x else (BitVec.ofNat ty.width x).toInt

/-- The least and the largest value of an integer type. -/
def least (ty : Ty) : Int := if unsigned ty then 0 else -(2 ^ (ty.width - 1))
def largest (ty : Ty) : Int := if unsigned ty then 2 ^ ty.width - 1 else 2 ^ (ty.width - 1) - 1

/-- One element converted, saturating or not (R214). -/
def converted (sty dty : Ty) (rm : Nat) (sat : Bool) (x : Nat) : Nat × Flags :=
  if sty.isFloat then
    if dty.isFloat then (Fmt.ofTy sty).cvt (Fmt.ofTy dty) rm sat x
    else
      let r := (Fmt.ofTy sty).toInt rm sat (!unsigned dty) dty.width x
      ((BitVec.ofInt dty.width r.1).toNat, r.2)
  else if dty.isFloat then (Fmt.ofTy dty).ofInt rm sat (element sty x)
  else
    let i := element sty x
    if sat = true ∧ dty.width ≤ sty.width ∧ (i < least dty ∨ largest dty < i) then
      ((BitVec.ofInt dty.width (if i < least dty then least dty else largest dty)).toNat, fSAT ||| fNX)
    else ((BitVec.ofInt dty.width i).toNat, 0)

/-- `vcvt` in one of its encodings: the elements it converts and where it places them (R213). -/
def ConversionResult (s : State) (i : Instr) (len stl : Nat) (p : Pfx) (sty : Ty) (m : Nat) (dty : Ty) (d a : Nat) :
    Prop :=
  let ws := sty.width
  let wd := dty.width
  let k := 512 / max ws wd
  let n := active s p k
  let narrow := wd < ws
  let src := fun j => ((s.core.vec a).toNat / 2 ^ (if ws < wd ∧ m = 3 then 256 else 0)) / 2 ^ (ws * j) % 2 ^ ws
  let sat := decide (m = 1 ∨ narrow ∧ 2 ≤ m)
  let r := fun j => converted sty dty (mode s p) sat (src j)
  let lo := if narrow ∧ m = 3 then 256 else 0
  let at_ := fun (v : BitVec 512) j => v.toNat / 2 ^ lo / 2 ^ (wd * j) % 2 ^ wd
  Queues s i len stl ((VOp.cvt sty m dty d a).uses p) [a] 1 d fun v fl =>
    (∀ j < k, at_ v j = if j < n then (r j).1 % 2 ^ wd else if p.z then 0 else at_ (s.core.vec d) j) ∧
    (narrow → v.toNat / 2 ^ (256 - lo) % 2 ^ 256 =
      if 2 ≤ m then (s.core.vec d).toNat / 2 ^ (256 - lo) % 2 ^ 256 else 0) ∧
    fl = allFlags n fun j => (r j).2

end Sys2Proof.Claims

/-- The reductions combine the active lanes by the fixed tree of R210 into lane 0, the identity where none is active, and
write the other lanes zero; `vmxs` writes the shared scale of R184 of its block, or 0xFF with NV where `cr.fmta`[3:0] names
no element format (R203, R210, R211, R228). -/
def Sys2Proof.Claims.Reductions : Prop :=
  ∀ (s : State) (ty : LaneTy) (d a stl : Nat) (p : Pfx),
    (∀ o ∈ Claims.reductions ty,
      Claims.ReductionResult s (o.2.2.2 ty d a stl) 4 stl {} o.1 o.2.1 o.2.2.1 ty d a ∧
      Claims.ReductionResult s (.pfx p (.un o.1 ty d a)) 8 p.stl p o.1 o.2.1 o.2.2.1 ty d a) ∧
    (ty = .f32 ∨ ty = .bf16 ∨ ty = .f16 →
      Claims.ScaleResult s (.vmxs ty d a stl) 4 stl {} ty d a ∧
      Claims.ScaleResult s (.pfx p (.un .mxs ty d a)) 8 p.stl p ty d a)

/-- `vcvt` converts n = 512 / max(width) elements, placed by its mode, each by the rules of R214; a destination half that a
mode keeps is kept (R203, R212, R213, R214). -/
def Sys2Proof.Claims.Conversions : Prop :=
  ∀ (s : State) (sty : Ty) (m : Nat) (dty : Ty) (d a stl : Nat) (p : Pfx), m < 4 →
    (sty.width = dty.width ∧ m < 2 ∨ sty.width = 2 * dty.width ∨ dty.width = 2 * sty.width) →
    Claims.ConversionResult s (.vcvt sty m dty d a stl) 4 stl {} sty m dty d a ∧
    Claims.ConversionResult s (.pfx p (.cvt sty m dty d a)) 8 p.stl p sty m dty d a

/-- Reductions and Conversions: the statements above together. -/
def Obligations.ReductionsAndConversions : Prop :=
  Claims.Reductions ∧ Claims.Conversions

/-- The vector and scalar forms: `vbcast` and `vidx` write X(A), and X(A) + i, to every active lane i; `vext` gives a lane,
sign-extended, and `vpred` a lane count as results in flight; `vins` writes one lane and keeps the others. But for `vpred`,
each is held while 16 words stand in the vector queue (R200, R215). -/
def Obligations.VectorAndScalar : Prop :=
  ∀ (s : State) (ty : LaneTy) (d a k stl : Nat) (p : Pfx),
    let w := ty.width
    (∀ o ∈ [(Instr.vbcast ty d a stl, 4, stl, {}, VOp.bcast ty d a, 0), (.vidx ty d a stl, 4, stl, {}, .idx ty d a, 1),
        (.pfx p (.bcast ty d a), 8, p.stl, p, .bcast ty d a, 0), (.pfx p (.idx ty d a), 8, p.stl, p, .idx ty d a, 1)],
      Claims.Queues s o.1 o.2.1 o.2.2.1 (o.2.2.2.2.1.uses o.2.2.2.1) [] 1 d fun v fl => fl = 0 ∧
        Claims.Lanes o.2.2.2.1 w (Claims.active s o.2.2.2.1 (512 / w))
          (fun j => (s.core.x a).toNat + o.2.2.2.2.2 * j) (s.core.vec d) v) ∧
    (s.Clear ((VOp.pred ty d a).uses {}) → ∃ t, exec (.vpred ty d a stl) s = .next t ∧
      s.Completes t (s.core.pc + 4) stl ∧
      s.core.Receives t.core none d (word (min (s.core.x a).toNat (512 / w)))) ∧
    (∀ o ∈ [(Instr.vextW d a k stl, false, 32), (.vextD d a k stl, true, 64)],
      (s.Clear ((VOp.ext o.2.1 d a k).uses {}) → s.core.bound s.core.cur a = none →
        Claims.Adds s o.1 4 stl s.core.pend
          { kind := .queued 1
            writes := if d = 0 then [] else [(s.core.curWin.base + d,
              (BitVec.ofNat o.2.2 (Claims.lane o.2.2 (s.core.vec a) k)).signExtend 64)] }) ∧
      (s.Open ((VOp.ext o.2.1 d a k).uses {}) → 16 ≤ s.core.queued → exec o.1 s = .next s.holds)) ∧
    (∀ o ∈ [(Instr.vinsW d a k stl, false, 32), (.vinsD d a k stl, true, 64)], k < 512 / o.2.2 →
      Claims.Queues s o.1 4 stl ((VOp.ins o.2.1 d a k).uses {}) [] 1 d fun v fl => fl = 0 ∧
        ∀ j < 512 / o.2.2, Claims.lane o.2.2 v j =
          if j = k then (s.core.x a).toNat % 2 ^ o.2.2 else Claims.lane o.2.2 (s.core.vec d) j)

namespace Sys2Proof.Claims

/-- The vector memory words in their encodings: bytes, stall count, prefix and word (R216, R219). -/
noncomputable def vectorAccesses (p : Pfx) (d a b stl : Nat) : List (Instr × Nat × Nat × Pfx × VOp) :=
  let plain := fun i op => ((i : Instr), 4, stl, ({} : Pfx), (op : VOp))
  let prefixed := fun op => (Instr.pfx p op, 8, p.stl, p, op)
  [plain (.vldW d a b stl) (.ld .w d a b), plain (.vldH d a b stl) (.ld .h d a b), plain (.vldB d a b stl) (.ld .b d a b),
   plain (.vldD d a b stl) (.ld .d d a b), plain (.vstW d a b stl) (.st .w d a b), plain (.vstH d a b stl) (.st .h d a b),
   plain (.vstB d a b stl) (.st .b d a b), plain (.vstD d a b stl) (.st .d d a b),
   (.vldgW p d a b, 8, p.stl, p, .ldg d a b), (.vstsW p d a b, 8, p.stl, p, .sts d a b),
   plain (.vldtW d a b stl) (.ldt false d a b), plain (.vldtH d a b stl) (.ldt true d a b),
   prefixed (.ld .w d a b), prefixed (.ld .h d a b), prefixed (.ld .b d a b), prefixed (.ld .d d a b),
   prefixed (.st .w d a b), prefixed (.st .h d a b), prefixed (.st .b d a b), prefixed (.st .d d a b),
   prefixed (.ldg d a b), prefixed (.sts d a b), prefixed (.ldt false d a b), prefixed (.ldt true d a b)]

/-- What a vector word reads of the current window at issue, where none of its sources is bound to a stream (R200). -/
def sources (c : Core) : VEnv := { widx := c.cur, win := c.curWin, x := c.x, v := c.vec, old := c.vec }

/-- Nothing but what the statement says is under way in memory: no buffered store, no reduction in flight, no
uncorrectable word. -/
def Quiet (s : State) : Prop := s.core.m.sbuf = [] ∧ s.reds = [] ∧ s.poison = []

/-- The little-endian number in n bytes of memory (R1). -/
def little (s : State) (k n : Nat) : Nat := ((List.range n).map fun i => (s.byte (k + i)).toNat * 2 ^ (8 * i)).sum

/-- The vector loads whose lanes lie in scratchpad of the core's own cluster: bytes, stall count, prefix, word, bytes of an
element, the address of a lane, and what the whole access needs (R216, R218). -/
noncomputable def laneLoads (s : State) (p : Pfx) (d a b stl : Nat) :
    List (Instr × Nat × Nat × Pfx × VOp × Nat × (Nat → Word) × Prop) :=
  let ea := s.core.x a + s.core.x b
  let at_ := fun (n : Nat) k => ea + word (n * k)
  let gather := fun k => ea + (BitVec.ofNat 32 (lane 32 (s.core.vec p.c) k)).signExtend 64
  let block := fun n i op => ((i : Instr), 4, stl, ({} : Pfx), (op : VOp), n, at_ n, OwnScratch s ea 64)
  let prefixed := fun n op => (Instr.pfx p op, 8, p.stl, p, op, n, at_ n, OwnScratch s ea 64)
  let each := fun n (f : Nat → Word) => ∀ k < active s p (64 / n), OwnScratch s (f k) n
  [block 4 (.vldW d a b stl) (.ld .w d a b), block 2 (.vldH d a b stl) (.ld .h d a b),
   block 1 (.vldB d a b stl) (.ld .b d a b), block 8 (.vldD d a b stl) (.ld .d d a b),
   prefixed 4 (.ld .w d a b), prefixed 2 (.ld .h d a b), prefixed 1 (.ld .b d a b), prefixed 8 (.ld .d d a b),
   (.vldgW p d a b, 8, p.stl, p, .ldg d a b, 4, gather, each 4 gather),
   (.vldffW p d a b, 8, p.stl, p, .ldff false d a b, 4, at_ 4, each 4 (at_ 4)),
   (.vldffB p d a b, 8, p.stl, p, .ldff true d a b, 1, at_ 1, each 1 (at_ 1))]

/-- The stores of a vector block, with the bytes of an element (R216). -/
noncomputable def blockStores (p : Pfx) (d a b stl : Nat) : List (Instr × Nat × Nat × Pfx × VOp × Nat) :=
  [(.vstW d a b stl, 4, stl, {}, .st .w d a b, 4), (.vstH d a b stl, 4, stl, {}, .st .h d a b, 2),
   (.vstB d a b stl, 4, stl, {}, .st .b d a b, 1), (.vstD d a b stl, 4, stl, {}, .st .d d a b, 8),
   (.pfx p (.st .w d a b), 8, p.stl, p, .st .w d a b, 4), (.pfx p (.st .h d a b), 8, p.stl, p, .st .h d a b, 2),
   (.pfx p (.st .b d a b), 8, p.stl, p, .st .b d a b, 1), (.pfx p (.st .d d a b), 8, p.stl, p, .st .d d a b, 8)]

/-- An instruction that only appends entries to the store buffer: it is complete, and nothing else has changed. -/
def Buffers (s : State) (i : Instr) (len stl : Nat) (es : List SbEntry) : Prop :=
  ∃ t, exec i s = .next t ∧ t.core.m = { s.core.m with sbuf := s.core.m.sbuf ++ es } ∧
    ({ s with core := { s.core with m := t.core.m } } : State).Completes t (s.core.pc + BitVec.ofNat 64 len) stl ∧
    s.core.SlotsSame t.core

/-- A plain store in the buffer: n bytes of v for scratchpad of the core's own cluster (R163). -/
def storeEntry (s : State) (ea : Word) (n v : Nat) : SbEntry :=
  { path := 1, key := ownKey s ea, size := n, vf := s.core.vf, ea
    op := .store ((List.range n).map fun i => (ownKey s ea + i, BitVec.ofNat 8 (v / 2 ^ (8 * i))))
    sup := s.core.sup, win := s.core.cur }

end Sys2Proof.Claims

/-- Vector memory words on every path: their accesses are checked in order, and the first that fails traps with its
address; where none fails, the word performs them once those that leave the cluster have found room among the core's 48
requests (log 78), its destinations receive, as a result in flight, what they give, and it
is complete. A first-fault load traps only where its first active lane fails; where a later one fails, or the access to the
64-byte block it lies in receives an error response, it loads the lanes before and its predicate receives their number (R38,
R49, R200, R216, R217, R218, R219, R221). -/
def Obligations.VectorAccesses : Prop :=
  ∀ (s : State) (p : Pfx) (d a b stl : Nat),
    let e := Claims.sources s.atIssue.core
    (∀ o ∈ Claims.vectorAccesses p d a b stl, let op := o.2.2.2.2
      s.Clear (op.uses o.2.2.2.1) → (∀ n ∈ vSrcs' o.2.2.2.1 op, s.core.bound s.core.cur n = none) →
      match s.atIssue.vchecks (if vStores op then .store else .load) (vAccesses o.2.2.2.1 e op) with
      | (_, some f, s1) => exec o.1 s = .next (s1.trapAt s1.core.pc f.1 f.2)
      | (ks, none, s1) =>
        let eas := (vAccesses o.2.2.2.1 e op).map (·.1)
        let r := (Claims.sent s s1 eas).vperform o.2.2.2.1 e op ks
        exec o.1 s = .next ((r.2.vland e r.1 (if vStores op then 0 else Claims.beyond s eas)).after o.2.1 o.2.2.1)) ∧
    (∀ o ∈ [(Instr.vldffW p d a b, false, 4), (.vldffB p d a b, true, 1)],
      s.Clear ((VOp.ldff o.2.1 d a b).uses p) →
      let lanes := (List.range (Claims.active s p (64 / o.2.2))).map fun i =>
        (s.core.x a + s.core.x b + word (o.2.2 * i), o.2.2, o.2.2)
      match s.atIssue.vchecks .load lanes with
      | ([], some f, s1) => exec o.1 s = .next (s1.trapAt s1.core.pc f.1 f.2)
      | (ks, f, s1) =>
        let blocks := laneBlocks (ks.zip (lanes.map (·.1)))
        let out := (blocks.filterMap (·.head?)).filter fun x =>
          (s.atIssue.misses (lanes.map (·.1))).any fun y => x.2.toNat / 64 = y.toNat / 64
        let r := (s1.leave s1.core.pc s1.core.cur (out.map (·.2))).ffBlocks o.2.2 blocks
        let w := 8 * o.2.2
        (r.2.1 = true ∧ r.1 = [] → exec o.1 s = .next (r.2.2.after 8 p.stl)) ∧
        (¬ (r.2.1 = true ∧ r.1 = []) → exec o.1 s = .next ((r.2.2.vland e
          (resV e.win d (vecLanes w (mergeLanes r.1.length p.z r.1 (lanesOf w (s.core.vec d)))) ++
            if r.2.1 = true ∨ f.isSome = true then resX (55 + p.pm) (word r.1.length) else []) out.length).after 8 p.stl)))

/-- A vector load whose active lanes lie in scratchpad of the core's own cluster gives those lanes the bytes of memory,
little-endian; the others keep the old value or are zero under Z; nothing else changes, no byte of memory among it. A
transposing load gives lane r of V(D + j) element j of row r (R1, R2, R203, R216, R218, R219). -/
def Sys2Proof.Claims.VectorScratchLoads : Prop :=
  ∀ (s : State) (p : Pfx) (d a b stl : Nat), Claims.Quiet s →
    (∀ o ∈ Claims.laneLoads s p d a b stl, let op := o.2.2.2.2.1; let n := o.2.2.2.2.2.1
      s.Clear (op.uses o.2.2.2.1) → (∀ m ∈ vSrcs' o.2.2.2.1 op, s.core.bound s.core.cur m = none) →
      o.2.2.2.2.2.2.2 →
      ∃ v, Claims.Adds s o.1 o.2.1 o.2.2.1 s.core.pend { kind := .flight, writes := Claims.vectorWrites s d v } ∧
        Claims.Lanes o.2.2.2.1 (8 * n) (Claims.active s o.2.2.2.1 (64 / n))
          (fun k => Claims.little s (Claims.ownKey s (o.2.2.2.2.2.2.1 k)) n) (s.core.vec d) v) ∧
    (∀ o ∈ [(Instr.vldtW d a b stl, false, 4), (.vldtH d a b stl, true, 2)], let n := o.2.2
      let row := fun r => s.core.x a + word (r * (s.core.x b).toNat)
      s.Clear ((VOp.ldt o.2.1 d a b).uses {}) → (∀ r < 16, Claims.OwnScratch s (row r) (16 * n)) →
      ∃ vs : Nat → BitVec 512,
        Claims.Adds s o.1 4 stl s.core.pend
          { kind := .flight, writes := (List.range 16).flatMap fun j => Claims.vectorWrites s (d + j) (vs j) } ∧
        ∀ j < 16, ∀ r < 64 / n, Claims.lane (8 * n) (vs j) r =
          if r < 16 then Claims.little s (Claims.ownKey s (row r) + n * j) n else 0)

/-- A vector block store to scratchpad of the core's own cluster puts one entry into the store buffer, the low bytes of V(D)
that its active lanes cover; a scatter puts one entry per active lane, in ascending order; no byte of memory changes before
an entry leaves (R163, R216, R221). -/
def Sys2Proof.Claims.VectorScratchStores : Prop :=
  ∀ (s : State) (p : Pfx) (d a b stl : Nat), s.core.m.sbuf = [] →
    let ea := s.core.x a + s.core.x b
    (∀ o ∈ Claims.blockStores p d a b stl, let op := o.2.2.2.2.1; let e := o.2.2.2.2.2
      s.Clear (op.uses o.2.2.2.1) → s.core.bound s.core.cur d = none → Claims.OwnScratch s ea 64 →
      let n := Claims.active s o.2.2.2.1 (64 / e)
      Claims.Buffers s o.1 o.2.1 o.2.2.1 (if n = 0 then [] else [Claims.storeEntry s ea (n * e) (s.core.vec d).toNat])) ∧
    (let off := fun k => ea + (BitVec.ofNat 32 (Claims.lane 32 (s.core.vec p.c) k)).signExtend 64
      let n := Claims.active s p 16
      s.Clear ((VOp.sts d a b).uses p) → s.core.bound s.core.cur d = none → s.core.bound s.core.cur p.c = none →
      (∀ k < n, Claims.OwnScratch s (off k) 4) →
      Claims.Buffers s (.vstsW p d a b) 8 p.stl
        ((List.range n).map fun k => Claims.storeEntry s (off k) 4 (Claims.lane 32 (s.core.vec d) k)))

/-- VectorScratchLoads and VectorScratchStores: the statements above together. -/
def Obligations.VectorScratch : Prop :=
  Claims.VectorScratchLoads ∧ Claims.VectorScratchStores

/-- `vswap` sends vD to vD + 15 to the core at position 7 − p of its cluster, once, and receives the sixteen vectors that
core sends into the same names, as a result in flight. Where none has come, it waits; while it waits, it sends nothing again
and nothing changes; where the partner's have come first, it sends its own and is complete at once (R220). -/
def Obligations.VectorExchange : Prop :=
  ∀ (s : State) (d stl : Nat), s.Clear ((VOp.swap d).uses {}) →
    (∀ n ∈ names16 d, s.core.bound s.core.cur n = none) →
    let mine := (names16 d).map s.core.vec
    let p := s.partner s.focus
    let sent := { s.coreAt p with eng := { (s.coreAt p).eng with swapIn := (s.coreAt p).eng.swapIn ++ [mine] } }
    let received := fun (vs : List (BitVec 512)) (t : State) => vs.length = 16 → t.core.pend = s.core.pend ++
      [{ kind := .flight
         writes := (List.range 16).flatMap fun j => Claims.vectorWrites s (d + j) ((vs[j]?).getD 0) }]
    (s.core.eng.swapSent = false → (s.coreAt p).vf = s.core.vf → (s.coreAt p).run ≠ .quenched →
      ((s.coreAt p).run ≠ .stopped ∨ s.stoppedContext p s.core.vf (s.vcoreOf p) = false) → p ≠ s.focus →
      (s.core.eng.swapIn = [] → ∃ t, exec (.vswap d stl) s = .next t ∧ t.coreAt p = sent ∧
        t.core.eng = { s.core.eng with swapSent := true } ∧ t.core.pc = s.core.pc ∧ t.core.inWait .vswap = true ∧
        s.core.SlotsSame t.core ∧ t = { s with core := t.core, others := t.others }) ∧
      (∀ vs rest, s.core.eng.swapIn = vs :: rest → ∃ t, exec (.vswap d stl) s = .next t ∧ t.coreAt p = sent ∧
        t.core.eng = { s.core.eng with swapSent := false, swapIn := rest } ∧
        ({ s with others := t.others, core := { s.core with eng := t.core.eng } } : State).Completes t (s.core.pc + 4) stl ∧
        (∀ n, t.core.slot n = s.core.slot n) ∧ received vs t)) ∧
    (s.core.eng.swapSent = true → s.core.eng.swapIn = [] →
      ∃ t, exec (.vswap d stl) s = .next t ∧ t.core.inWait .vswap = true ∧ t.core.pc = s.core.pc ∧ t.core.eng = s.core.eng ∧
        s.core.SlotsSame t.core ∧ s.OnlyCore t) ∧
    (∀ vs rest, s.core.eng.swapSent = true → s.core.eng.swapIn = vs :: rest →
      ∃ t, exec (.vswap d stl) s = .next t ∧
        t.core.eng = { s.core.eng with swapSent := false, swapIn := rest } ∧
        ({ s with core := { s.core with eng := t.core.eng } } : State).Completes t (s.core.pc + 4) stl ∧
        (∀ n, t.core.slot n = s.core.slot n) ∧ received vs t)

namespace Sys2Proof.Claims

/-- An instruction that changes nothing but its destination: it is complete, and the name receives v as a result in
flight. -/
def Answers (s : State) (i : Instr) (stl d : Nat) (v : Word) : Prop :=
  ∃ t, exec i s = .next t ∧ s.Completes t (s.core.pc + 4) stl ∧ s.core.Receives t.core none d v

/-- An instruction that is complete once its effect has led to e, with v as its result in flight. -/
def Leaves (s : State) (i : Instr) (stl d : Nat) (v : Word) (e : State) : Prop :=
  exec i s = .next ((e.updCore (·.setXVar d v)).after 4 stl)

/-- An instruction that waits: it stays at its PC, and the core stands in this wait (R97, R376). -/
def Waits (s : State) (i : Instr) (k : WaitKind) : Prop :=
  ∃ t, exec i s = .next t ∧ t.core.pc = s.core.pc ∧ t.core.inWait k = true ∧ s.core.SlotsSame t.core ∧ t.mem = s.mem

/-- An instruction that changes the engines' side of its core alone, and gives v. -/
def EngineStep (s : State) (i : Instr) (stl d : Nat) (v : Word) (eng : Engines) : Prop :=
  ∃ t, exec i s = .next t ∧ t.core.eng = eng ∧
    ({ s with core := { s.core with eng } } : State).Completes t (s.core.pc + 4) stl ∧ s.core.Receives t.core none d v

/-- The issuing copy forms (R104). -/
noncomputable def copyForms (d a b stl : Nat) : List (Instr × CopyForm) :=
  [(.cpy d a b stl, .cpy), (.cpyFe d a b stl, .cpyFe), (.mcast d a b stl, .mcast), (.putsig d a b stl, .putsig),
   (.cpyPh d a b stl, .cpyPh)]

end Sys2Proof.Claims

/-- `vtrip`, where its body is captured: with X(A) = 0 the PC goes to the address after the body; otherwise, where every
staggered name lies in the window and no slot written in a billet, the trip buffer holds the body with X(A) iterations and
the scalar operands read now, and the PC goes to the address after the body. A body that holds an instruction R222 does not
admit is an illegal encoding, and a body that cannot be fetched traps (R160, R222, R223, R224). -/
def Obligations.TripStart : Prop :=
  ∀ (s : State) (a n1 mode ns bs stl : Nat),
    let i := Instr.vtrip a n1 mode ns bs stl
    (∀ b s', s.capture {} (n1 + 1) = (.ok (some b), s') →
      (s'.Clear { xs := [a], mem := false } → s'.core.x a = 0 →
        ∃ t, exec i s = .next t ∧ s'.Completes t (s'.core.pc + BitVec.ofNat 64 b.size) stl ∧
          s'.core.SlotsSame t.core) ∧
      (s'.Clear { xs := a :: b.xs, xd := b.xd, mem := false } → s'.core.x a ≠ 0 →
        bodiesBad s'.core.curWin mode (((s'.core.x a).toNat - 1) * ns) b.ops = [] →
        (let trip : Trip := { pc := s'.core.pc, widx := s'.core.cur, win := s'.core.curWin, sup := s'.core.sup
                              shared := [], body := b.ops, raw := b.raw, offs := b.offs, mode, ns, bs
                              count := (s'.core.x a).toNat, scal := [] }
         (∀ m ∈ trip.pending, s'.core.inBillet m = false) →
         ∃ t, exec i s = .next t ∧
           t.core.eng = { s'.core.eng with trip := some { trip with scal := b.xs.map fun n => (n, s'.core.x n) } } ∧
           ({ s' with core := { s'.core with eng := t.core.eng } } : State).Completes t
             (s'.core.pc + BitVec.ofNat 64 b.size) stl ∧ s'.core.SlotsSame t.core))) ∧
    (∀ e s', s.capture {} (n1 + 1) = (.error e, s') → s'.core.unwatched →
      exec i s = .next (s'.atIssue.trapAt s'.core.pc e.1 e.2)) ∧
    (∀ s', s.capture {} (n1 + 1) = (.ok none, s') → s'.core.unwatched → s'.core.trapOk = true →
      s'.core.cur ≠ 28 + s'.core.trap.twin → (sget {} (s'.dieAt s'.die).haltQ s'.core.vf).entries.length < 64 →
      (s'.clAt s'.cl).lease.holder ≠ some (posOf s'.focus, s'.core.cur) →
        ∃ t, exec i s = .next t ∧ s'.Halts t 0x01)

/-- `vstrm` reads its record and, where it is valid, binds the lowest free stream of the core to the vector name in this
window and gives its number; otherwise it gives the negative of the first failing check. `vsunb` unbinds and gives the words
taken, −1 where nothing is bound; it is held while a queued word has still to take one of the stream's. `vsq` gives the
words delivered and not taken once all are delivered, waits before that, gives −1 where nothing is bound, and raises ASYNC
with the stream's number where its delivery has faulted (R121, R122, R123, R124, R346). -/
def Obligations.Streams : Prop :=
  ∀ (s : State) (d a v stl : Nat),
    let n := (s.core.x a).toNat
    let stream := if n < 4 then s.core.stream n else none
    (s.Clear { xs := [a], xd := [d], vn := [v] } →
      match s.atIssue.recLocate (s.core.x a) with
      | (.error c, s1) => exec (.vstrm d a v stl) s = .next (s1.trapAt s1.core.pc c (s.core.x a))
      | (.ok k, s1) =>
        let (r, s2) := s1.drained.recRead (s.core.x a) k
        let code := s2.strmCode v r
        (code ≠ 0 → Claims.Leaves s (.vstrm d a v stl) stl d (-(word code)) s2) ∧
        (∀ rec m, code = 0 → r = some rec → m < 4 → s2.core.stream m = none → (∀ j < m, s2.core.stream j ≠ none) →
          Claims.Leaves s (.vstrm d a v stl) stl d (word m) (s2.setStream s2.focus m (some
            { name := v, win := s2.core.cur, recAddr := s.core.x a, src := rec, pc := s2.core.pc, vf := s2.core.vf
              asid := s2.core.asid, sup := s2.core.sup, sw := s2.switches })))) ∧
    (s.Clear { xs := [a], xd := [d], mem := false } →
      (stream = none → Claims.Answers s (.vsunb d a stl) stl d (-1)) ∧
      (∀ x, stream = some x → s.core.streamOwed n = true → exec (.vsunb d a stl) s = .next s.holds) ∧
      (∀ x, stream = some x → s.core.streamOwed n = false → Claims.EngineStep s (.vsunb d a stl) stl d (word x.taken)
        { s.core.eng with streams := sput none s.core.eng.streams n none })) ∧
    (s.Clear { xs := [a], xd := [d], mem := false, own := true } →
      (stream = none → Claims.Answers s (.vsq d a stl) stl d (-1)) ∧
      (∀ x, stream = some x →
        (x.faulted = true → s.core.trapOk = true →
          ∃ t, exec (.vsq d a stl) s = .next t ∧ s.TakesTrap t s.core.pc 0x0D (word n)) ∧
        (x.faulted = false → x.words ≤ x.given → Claims.Answers s (.vsq d a stl) stl d (word x.buf.length)) ∧
        (x.faulted = false → x.given < x.words → Claims.Waits s (.vsq d a stl) .vsq)))

/-- An issuing copy form checks its two record addresses, reads the records once its store buffer has drained, and gives the
negative of the first failing check, or the next ticket; then the command stands queued as the youngest of the core, with
the values of the issuing context, and no byte of memory has changed. While 32 commands are live it is held at issue (R104,
R105, R106). -/
def Sys2Proof.Claims.CopyIssue : Prop :=
  ∀ (s : State) (d a b stl : Nat), ∀ o ∈ Claims.copyForms d a b stl, s.Clear { xs := [a, b], xd := [d] } →
    let ea := s.core.x a
    let eb := s.core.x b
    (32 ≤ s.core.eng.cmds.length → exec o.1 s = .next s.holds) ∧
    (s.core.eng.cmds.length < 32 →
      match s.atIssue.recLocate ea with
      | (.error c, s1) => exec o.1 s = .next (s1.trapAt s1.core.pc c ea)
      | (.ok ka, s1) =>
        match s1.recLocate eb with
        | (.error c, s2) => exec o.1 s = .next (s2.trapAt s2.core.pc c eb)
        | (.ok kb, s2) =>
          let (src, s3) := s2.drained.recRead ea ka
          let (dst, s4) := s3.recRead eb kb
          let code := s4.copyCode o.2 s2.core.cur src dst
          (code ≠ 0 → Claims.Leaves s o.1 stl d (-(word code)) s4) ∧
          (∀ x y, code = 0 → src = some x → dst = some y →
            let t := s4.core.eng.nextTicket
            ∃ e, Claims.Leaves s o.1 stl d (word t) e ∧ e.mem = s4.mem ∧
              e.core.eng = { s4.core.eng with
                nextTicket := if t = 0x3FFFFFFF then 1 else t + 1
                wrapped := s4.core.eng.wrapped || decide (t = 0x3FFFFFFF)
                ended := s4.core.eng.ended.filter (·.ticket ≠ t)
                cmds := s4.core.eng.cmds ++
                  [{ ticket := t, form := o.2, pc := s2.core.pc, win := s2.core.cur, vf := s4.core.vf
                     asid := s4.core.asid, vcore := s4.vcore, die := s4.die, cl := s4.cl, lid := s4.core.dom.launch
                     sup := s4.core.sup, src := x, dst := y }] }))

/-- `cpwait`, `cpq` and `cpcan` by what is known of the ticket X(A): `cpwait` gives the length of a done command, as an
acquire, −1 of a cancelled one and −2 of a ticket that was not issued, waits for a live one, and raises ASYNC with the
ticket of a faulted one; `cpq` gives state and progress, −1 where it was not issued; `cpcan` cancels a live command or
resumes a faulted one, gives −1 where neither applies, −2 where it was not issued and −3 of a reserved action. A ticket that
was issued and has no record is done; its length, where nothing that was restored holds it, is free (log 52) (R106, R111,
R112, R113, R115, R346). -/
def Sys2Proof.Claims.Tickets : Prop :=
  ∀ (s : State) (d a b stl : Nat),
    let n := (s.core.x a).toNat
    let act := (s.core.x b).toNat
    let live := s.core.eng.cmds.find? (·.ticket = n)
    let ended := s.core.eng.ended.find? (·.ticket = n)
    let issued := 1 ≤ n ∧ (n < s.core.eng.nextTicket ∨ s.core.eng.wrapped = true ∧ n ≤ 0x3FFFFFFF)
    let drawn := ({ s.atIssue with oracle := s.oracle + 1 } : State).acquire true
    (s.Clear { xs := [a], xd := [d], mem := false, own := true } → let i := Instr.cpwait d a stl
      (∀ c, live = some c → c.state = .faulted → s.core.trapOk = true →
        ∃ t, exec i s = .next t ∧ s.TakesTrap t s.core.pc 0x0D (word n)) ∧
      (∀ c, live = some c → c.state ≠ .faulted → Claims.Waits s i .cpwait) ∧
      (∀ e, live = none → ended = some e → e.state = .cancelled → Claims.Answers s i stl d (-1)) ∧
      (∀ e, live = none → ended = some e → e.state ≠ .cancelled →
        Claims.Leaves s i stl d (word e.len) (s.atIssue.acquire true)) ∧
      (live = none → ended = none → issued → ∃ l < 2 ^ 32, Claims.Leaves s i stl d (word l) drawn) ∧
      (live = none → ended = none → ¬ issued → Claims.Answers s i stl d (-2))) ∧
    (s.Clear { xs := [a], xd := [d], mem := false } → let i := Instr.cpq d a stl
      (∀ c, live = some c → Claims.Answers s i stl d (word (c.state.code % 2 ^ 8 * 2 ^ 56 + c.progress))) ∧
      (∀ e, live = none → ended = some e → e.state = .cancelled →
        Claims.Answers s i stl d (word (4 * 2 ^ 56 + e.progress))) ∧
      (∀ e, live = none → ended = some e → e.state = .done →
        Claims.Leaves s i stl d (word (2 * 2 ^ 56 + e.progress)) (s.atIssue.acquire true)) ∧
      (live = none → ended = none → issued → ∃ l < 2 ^ 32, Claims.Leaves s i stl d (word (2 * 2 ^ 56 + l)) drawn) ∧
      (live = none → ended = none → ¬ issued → Claims.Answers s i stl d (-1))) ∧
    (s.Clear { xs := [a, b], xd := [d], mem := false } → let i := Instr.cpcan d a b stl
      (2 ≤ act → Claims.Answers s i stl d (-3)) ∧
      (∀ c, act = 0 → live = some c → c.form ≠ .cpyPh → ∃ e,
        Claims.Leaves s i stl d (if c.state = .queued then 0 else word c.progress) e ∧ e.mem = s.mem ∧
        e.core.eng.cmds = s.core.eng.cmds.filter (·.ticket ≠ c.ticket) ∧
        e.core.eng.ended.getLast? = some ⟨c.ticket, .cancelled, c.progress, recLen c.dst⟩) ∧
      (∀ c, act = 1 → live = some c → c.state = .faulted → Claims.EngineStep s i stl d 0
        { s.core.eng with cmds := s.core.eng.cmds.map fun x =>
            if x.ticket = c.ticket then { c with state := .running, sw := s.switches } else x }) ∧
      (∀ c, act = 1 → live = some c → c.state ≠ .faulted → Claims.Answers s i stl d (-1)) ∧
      (act < 2 → live = none → ended = none → ¬ issued → Claims.Answers s i stl d (-2)) ∧
      (act < 2 → live = none → ended ≠ none ∨ issued → Claims.Answers s i stl d (-1)))

/-- CopyIssue and Tickets: the statements above together. -/
def Obligations.Copies : Prop :=
  Claims.CopyIssue ∧ Claims.Tickets

/-- `ttarm` raises PATH where X(A) is not a path-0 address, or has one of its bits 48 to 59 set, and ALIGN where it is not a
multiple of 64; where the core is bound to this timetable already it gives its slot, where every slot of the die holds
another timetable it gives −1, and where a slot holds this one and the core belongs to no launch −3; otherwise it gives the
slot it allocates, or the negative of the first failing check. `ttq` gives STATUS and PROGRESS of an
entry of the core's die, −1 where there is none; `ttreplay` starts a faulted entry again and gives 0, −2 of a rejected
entry, −1 of any other, and −3 or −4 where there is none; `ttoff` unbinds the core and gives the number of started entries,
and on an unbound core gives 0 and changes nothing else (R62, R63, R64, R66, R75, R76, R77). -/
def Sys2Proof.Claims.Timetables : Prop :=
  ∀ (s : State) (d a stl : Nat), s.Clear { xs := [a], xd := [d] } →
    let ea := s.core.x a
    let n := ea.toNat
    let k := s.core.eng.mark.slot
    let mine := fun (t : TtSlot) => t.header = ea ∧ t.asid = s.core.asid ∧ t.vf = s.core.vf
    let entry := fun e => ∃ t, s.boundSlot = some t ∧ t.entries[n]? = some e ∧ s.entryOn s.die t.lid e = true
    (ea.bits 60 4 ≠ 0 ∨ ea.bits 48 12 ≠ 0 → s.core.trapOk = true →
      ∃ t, exec (.ttarm d a stl) s = .next t ∧ s.TakesTrap t s.core.pc 0x09 ea) ∧
    (ea.bits 60 4 = 0 → ea.bits 48 12 = 0 → n % 64 ≠ 0 → s.core.trapOk = true →
      ∃ t, exec (.ttarm d a stl) s = .next t ∧ s.TakesTrap t s.core.pc 0x06 ea) ∧
    (ea.bits 60 4 = 0 → ea.bits 48 12 = 0 → n % 64 = 0 →
      (∀ t, s.boundSlot = some t → mine t → Claims.Answers s (.ttarm d a stl) stl d (word k)) ∧
      (s.boundSlot = none → (∀ j < 16, ∃ t, s.slotAt s.die j = some t ∧ ¬ mine t) →
        Claims.Answers s (.ttarm d a stl) stl d (-1)) ∧
      ((∀ t, s.boundSlot = some t → ¬ mine t) → (∃ j < 16, ∃ t, s.slotAt s.die j = some t ∧ mine t) →
        s.launchOf s.core.dom.launch = none → Claims.Answers s (.ttarm d a stl) stl d (-3)) ∧
      (let r := s.atIssue.ttarm ea; Claims.Leaves s (.ttarm d a stl) stl d r.1 r.2)) ∧
    (∀ e, entry e →
      Claims.Answers s (.ttq d a stl) stl d (word (e.status.code % 2 ^ 8 * 2 ^ 56 + e.progress)) ∧
      (e.status = .rejected → Claims.Answers s (.ttreplay d a stl) stl d (-2)) ∧
      (e.status = .idle ∨ e.status = .started ∨ e.status = .complete →
        Claims.Answers s (.ttreplay d a stl) stl d (-1)) ∧
      (e.status = .faulted → Claims.Leaves s (.ttreplay d a stl) stl d 0
        (((s.atIssue.setEntry s.die k n { e with status := .started, sw := s.switches }).writeEntry s.die k n).beginEntry s.die k n))) ∧
    ((∀ e, ¬ entry e) → Claims.Answers s (.ttq d a stl) stl d (-1) ∧
      Claims.Answers s (.ttreplay d a stl) stl d (if s.boundSlot = none then -4 else -3)) ∧
    (s.boundSlot = none → Claims.EngineStep s (.ttoff d stl) stl d 0
      { s.core.eng with mark := if s.core.eng.mark.armed then {} else s.core.eng.mark }) ∧
    (∀ t, s.boundSlot = some t →
      let bound := t.bound.filter (· ≠ s.vcore)
      let e := (s.atIssue.setSlotAt s.die k (some { t with bound, releasing := decide (bound = []) })).freeSlot s.die k
      Claims.Leaves s (.ttoff d stl) stl d (word (t.entries.filter fun x => x.status = .started).length)
        (e.updCore fun c => { c with eng := { c.eng with mark := {} } }) ∧
      (bound ≠ [] → e.slotAt s.die k = some { t with bound, releasing := false }))

/-- `mark xA, off` with m = (X(A) + off) mod 2^32: with no timetable bound, or m no further than the marker, it changes
nothing. Otherwise, once the store buffer has drained and every idle entry with TRIG ≤ m has started, it looks at the
entries of its cluster whose deadlines lie in (MARK, m], in order, and acquires the deliveries of those it finds complete:
where all are, MARK becomes m; at the first that is not, it raises ASYNC with its index where it faulted or was rejected and
stalls, TIMETABLE where it does not stall, and waits otherwise, counting one miss (R63, R68, R69, R70). -/
def Sys2Proof.Claims.Marks : Prop :=
  ∀ (s : State) (a stl : Nat) (off : BitVec 6), s.Clear { xs := [a], own := true } →
    let i := Instr.mark a off stl
    let m := (s.core.x a + off.setWidth 64).toNat % 2 ^ 32
    (s.core.eng.mark.armed = false ∨ m ≤ s.core.eng.mark.mark →
      ∃ t, exec i s = .next t ∧ s.Completes t (s.core.pc + 4) stl ∧ s.core.SlotsSame t.core) ∧
    (s.core.eng.mark.armed = true → s.core.eng.mark.mark < m →
      let s1 := s.atIssue.drained.startTriggered m
      let es := s1.checkedEntries m
      let sees := fun (l : List (Nat × TtEntry)) => if ∃ e ∈ l, e.2.act ≠ 0 then s1.acquire true else s1
      ((∀ e ∈ es, e.2.status = .complete) → exec i s = .next (((sees es).updCore fun c =>
        { c with eng := { c.eng with mark := { c.eng.mark with mark := m } } }).after 4 stl)) ∧
      (∀ l e r, es = l ++ e :: r → (∀ x ∈ l, x.2.status = .complete) → e.2.status ≠ .complete →
        let s1 := sees l
        let failed := e.2.status = .faulted ∨ e.2.status = .rejected
        (failed → e.2.stalls = true → exec i s = .next (s1.trapAt s1.core.pc 0x0D (word e.1))) ∧
        (e.2.stalls = false → exec i s = .next (s1.trapAt s1.core.pc 0x0C (word e.1))) ∧
        (¬ failed → e.2.stalls = true → ∃ t, exec i s = .next t ∧ t.core.inWait .mark = true ∧
          t.core.pc = s1.core.pc ∧
          (s1.core.wait = none → t.core.eng = { s1.core.eng with mark := { s1.core.eng.mark with
            misses := min (s1.core.eng.mark.misses + 1) 0xFFFF } }))))

/-- Timetables and Marks: the statements above together. -/
def Obligations.TimetablesAndMarks : Prop :=
  Claims.Timetables ∧ Claims.Marks

/-- The Tongs: the oldest queued command of a core starts running; a segment of a running command that moves without a fault
is done, the command being finished, and its signal given, with the last; a segment that faults, or is done already, is not
done by the event. A running command whose lowest failing segment faults ends so, with its record. A command all of whose
segments are done, as one is that runs again after its signal faulted, is finished, or its signal faults again. A stream
whose delivery has not faulted, with words left and fewer than 16 in its buffer, receives its next word, or is faulted with
its record (R107, R108, R109, R113, R116, R121, R122). -/
def Sys2Proof.Claims.CopyEvents : Prop :=
  ∀ (s : State) (core ticket seg k : Nat),
    let cmds := (s.coreAt core).eng.cmds
    (∀ l c r, cmds = l ++ c :: r → (∀ x ∈ l, x.state ≠ .queued) → c.state = .queued →
      ∃ t, exec (.copyStart core) s = .next t ∧ (t.coreAt core).eng.cmds =
        cmds.map fun x => if x.ticket = c.ticket then { c with state := .running, sw := s.switches } else x) ∧
    ((∀ c ∈ cmds, c.state ≠ .queued) → exec (.copyStart core) s = .next s) ∧
    (∀ c, cmds.find? (·.ticket = ticket) = some c → c.state = .running → c.moved = true →
      exec (.segmentDone core ticket seg) s = .next (s.finishCmd core c) ∧
      let t := s.finishCmd core c
      ((∃ k, t.cmdOf core ticket = some k ∧ k.state = .faulted) → exec (.copyFault core ticket) s = .next t) ∧
      ((∀ k, t.cmdOf core ticket = some k → k.state ≠ .faulted) → exec (.copyFault core ticket) s = .next s)) ∧
    (∀ c, cmds.find? (·.ticket = ticket) = some c → c.state = .running → c.moved = false →
      seg < (recLen c.dst + 255) / 256 → seg ∉ c.segs →
      (∀ f s1, s.moveSegment c seg = (.error f, s1) → exec (.segmentDone core ticket seg) s = .next s) ∧
      (∀ off s1, s.moveSegment c seg = (.ok off, s1) →
        let c' := { c with segs := c.segs ++ [seg], wide := c.wide || off }
        (c'.segs.length ≠ (recLen c.dst + 255) / 256 →
          exec (.segmentDone core ticket seg) s = .next (s1.setCmd core c')) ∧
        (c'.segs.length = (recLen c.dst + 255) / 256 →
          exec (.segmentDone core ticket seg) s = .next ((s1.setCmd core c').finishCmd core c')))) ∧
    (∀ c j f, cmds.find? (·.ticket = ticket) = some c → c.state = .running → c.moved = false →
      j < (recLen c.dst + 255) / 256 → j ∉ c.segs →
      (s.moveSegment c j).1 = .error f → (∀ i < j, i ∉ c.segs → ∃ off, (s.moveSegment c i).1 = .ok off) →
      ∃ t, exec (.copyFault core ticket) s = .next t ∧ t.seq = s.seq + 1 ∧ t.mem = s.mem ∧
        (t.coreAt core).eng.cmds = cmds.map fun x => if x.ticket = c.ticket then
          { c with state := .faulted, code := f.1, faddr := f.2, fseq := s.seq + 1 } else x) ∧
    (∀ x, (s.coreAt core).stream k = some x → x.faulted = false → x.given < x.words → x.buf.length < 16 →
      let lo := 64 * x.given
      let pieces := splitRange (recE x.src) lo (min 64 (recLen x.src - lo))
      (∀ bs s1, s.streamBytes (s.streamView core x) x.src pieces = (.ok bs, s1) →
        ∃ t, exec (.streamWordDelivery core k) s = .next t ∧
          (t.coreAt core).stream k = some { x with given := x.given + 1, buf := x.buf ++ [recOf bs] } ∧ t.mem = s1.mem) ∧
      (∀ f s1, s.streamBytes (s.streamView core x) x.src pieces = (.error f, s1) →
        ∃ t, exec (.streamWordDelivery core k) s = .next t ∧
          (t.coreAt core).stream k = some { x with faulted := true, fseq := s1.seq + 1 } ∧ t.mem = s1.mem))

/-- The executors of a die: a requested sector of a started entry that moves without a fault is done, the entry being
complete with its last; one that faults is not done by the event. A started entry whose first undone sector in order that
faults does so ends faulted, or rejected, with its record (R60, R61, R71, R73, R74). -/
def Sys2Proof.Claims.TimetableEvents : Prop :=
  ∀ (s : State) (d k i j : Nat) (t : TtSlot) (e : TtEntry), s.slotAt d k = some t → t.entries[i]? = some e →
    (e.status ≠ .started ∨ j ∉ e.undone → exec (.sectorDone d k i j) s = .next s) ∧
    (e.status = .started → j ∈ e.undone →
      (∀ f s1, s.moveSector t d e j = (.error f, s1) → exec (.sectorDone d k i j) s = .next s) ∧
      (∀ s1, s.moveSector t d e j = (.ok (), s1) → exec (.sectorDone d k i j) s =
        .next ((s1.setEntry d k i { e with sectors := e.sectors ++ [j] }).completeEntry d k i))) ∧
    (e.status = .started → ∀ l r f, e.undone = l ++ j :: r → (∀ x ∈ l, (s.moveSector t d e x).1 = .ok ()) →
      (s.moveSector t d e j).1 = .error f → exec (.entryFault d k i) s = .next (s.faultEntry d k i f)) ∧
    (e.status ≠ .started → exec (.entryFault d k i) s = .next s)

/-- A core's results land: the k-th pending result, where it is in flight, writes its slots and raises its flags, and no
older result of fixed latency for them is pending any longer; where it still stands in the vector queue nothing happens. The
arbiter of a cluster binds the head of a queue that costs no more than the credit of the core at its pointer and waits for
no stream word, and takes the cost from it; a head that takes no stream words is in flight from then on. A step of a trip
issues one instruction of its body: a word that calculates, of no bound stream and no slot on which a result is pending,
enters the vector queue where it has room, and the trip goes on to its next instruction, or is over (R132, R200, R224, R228,
R339). -/
def Sys2Proof.Claims.ResultEvents : Prop :=
  ∀ (s : State) (core k die cl : Nat),
    (∃ t, exec (.resultLands core k) s = .next t ∧ t.coreAt core = (s.coreAt core).landNth k ∧ t.mem = s.mem ∧
      (∀ p, (s.coreAt core).pend[k]? = some p → p.kind = .flight →
        ((∀ q ∈ (s.coreAt core).pend, q.variable = true ∨ q.writes ≠ [] ∧ q.touches (p.writes.map Prod.fst) = false) →
          (t.coreAt core).pend = (s.coreAt core).pend.eraseIdx k) ∧
        (∀ q ∈ (t.coreAt core).pend, q.variable = false → q.touches (p.writes.map Prod.fst) = false) ∧
        (t.coreAt core).fp.fflags = (s.coreAt core).fp.fflags ||| p.flags ∧
        (∀ n, (∀ w ∈ p.writes, w.1 ≠ n) → (t.coreAt core).slot n = (s.coreAt core).slot n) ∧
        (∀ n v, p.writes = [(n, v)] → (t.coreAt core).slot n = v))) ∧
    (let clu := 64 * die + cl
     let loc := s.coreOf clu (s.clAt clu).vptr
     let credit := sget 0 (s.clAt clu).credit (s.clAt clu).vptr
     ∀ cost, (s.coreAt loc).headCost = some cost → cost ≤ credit → (s.coreAt loc).headWaits = false →
      ∃ t, exec (.vectorBind die cl) s = .next t ∧ t.coreAt loc = (s.coreAt loc).bindHead ∧
        ((∀ p ∈ (s.coreAt loc).pend, p.late = none) → (t.coreAt loc).pend = bindFirst (s.coreAt loc).pend) ∧
        (t.clAt clu).vptr = (s.clAt clu).vptr ∧
        sget 0 (t.clAt clu).credit (s.clAt clu).vptr = credit - cost) ∧
    (∀ (trip : Trip) p op r, isCore s.focus = true → s.core.eng.trip = some trip → trip.stopped = false →
      s.core.run ≠ .quenched → s.core.m.atom = none → (s.core.win trip.widx).s = false → trip.shared = [] →
      (trip.body[trip.pos]?).map (BodyOp.stag trip.mode (trip.iter * trip.ns)) = some (.v p op) →
      (∀ n ∈ vSrcs' p op, s.core.bound trip.widx n = none) →
      (∀ q ∈ s.core.pend, q.touches
        (trip.reads (.v p op) ++ trip.writesOf trip.iter ((trip.body[trip.pos]?).getD (.v p op))) = false) →
      (∀ n ∈ trip.reads (.v p op), n ∉ s.core.bad) →
      (∀ m, op ≠ .mat m) →
      calcV p s.core.fp.frm (fmtCode s.core.mat.fmta)
        { widx := trip.widx, win := trip.win, x := fun n => sget 0 trip.scal n, v := trip.vec s.core
          old := trip.vec s.core, off := word (64 * trip.bs * trip.iter) } op = some r →
      s.core.queued < 16 ∨ r.cost = 0 →
      ∃ t, exec (.tripIssue s.focus) s = .next t ∧ t.core.sup = s.core.sup ∧ t.core.pc = s.core.pc ∧
        t.core.pend = ((s.core.landIf (·.ripe s.core.cycle)).enterV trip.widx trip.win.base r).pend ∧
        t.core.eng.trip = (if trip.pos + 1 < trip.body.length then some { trip with pos := trip.pos + 1, awaits := none }
          else if trip.iter + 1 < trip.count then some { trip with iter := trip.iter + 1, pos := 0, awaits := none } else none))

/-- CopyEvents and TimetableEvents and ResultEvents: the statements above together. -/
def Obligations.EngineEvents : Prop :=
  Claims.CopyEvents ∧ Claims.TimetableEvents ∧ Claims.ResultEvents

namespace Sys2Proof.Claims

/-- The matrix commands that count against a lease, as instructions (R236, R238). -/
noncomputable def counting (d a stl : Nat) : List (Instr × MatOp × Option Nat) :=
  [(.mbload a stl, .bload a, none), (.mmac d a stl, .mac d a, some d), (.mrot stl, .rot, none),
   (.mzero d stl, .zero d, some d), (.mst d a stl, .st d a, some d), (.mld d a stl, .ld d a, some d)]

/-- Every instruction of the array major (R238), with the names it uses. -/
noncomputable def matrixInstrs (d a stl : Nat) : List (Instr × Use) :=
  (counting d a stl).map (fun o => (o.1, { xs := o.2.1.xs, xd := o.2.1.xd })) ++
    [(.macc d a stl, { xs := [a], own := true }), (.mlease stl, { xs := [] }), (.mrel stl, { xs := [] }), (.mwait d a stl, { xd := [a] }),
     (.mstat d a stl, { xd := [a] }), (.mclaim d a stl, { xd := [a] })]

/-- The command that an instruction of the issuing context sends to the array, with the values of the format registers
(R232, R240). -/
def command (s : State) (op : MatOp) (ea : Word) : MCmd :=
  { op, ea, core := s.focus, vf := s.core.vf, vcore := s.vcore, win := s.core.cur, lid := s.core.dom.launch
    fmta := s.core.mat.fmta, fmtb := s.core.mat.fmtb, ofmt := s.core.mat.ofmt, aty := s.core.mat.aty
    fe := s.core.mat.fe }

/-- The issuing context holds the lease of its cluster. -/
def Leased (s : State) : Prop := (s.clAt s.cl).lease.holder = some (posOf s.focus, s.core.cur)

/-- A command stands last in the array and is counted against the lease, which is not the last one of it (R236, R240). -/
def Sent (s t : State) (c : MCmd) : Prop :=
  (t.clAt s.cl).array = (s.clAt s.cl).array ++ [c] ∧
  (t.clAt s.cl).lease = { (s.clAt s.cl).lease with left := (s.clAt s.cl).lease.left - 1, lastCmd := s.time } ∧
  t.mem = s.mem ∧ ∀ n, t.acc s.cl n = s.acc s.cl n

/-- Element (i, j) of an integer product: each chunk's sum is added exactly and clamped once (R196). -/
def clampedProduct (k n : Nat) (x y : Nat → Nat → Int) (c : Int) (i j : Nat) : Int :=
  (List.range (k / n)).foldl (fun acc ch =>
    max (-(2 ^ 31)) (min (acc + ((List.range n).map fun q => x i (n * ch + q) * y j (n * ch + q)).sum) (2 ^ 31 - 1))) c

/-- An instruction of the array major alone: what it leaves of the core. -/
def CoreDone (s t : State) (stl : Nat) : Prop :=
  ({ s with clusters := t.clusters } : State).Completes t (s.core.pc + 4) stl

end Sys2Proof.Claims

/-- `mlease` completes where this context holds the lease, or where the lease is free and no other asks, and then holds it
for the commands that `cr.lease` gives; otherwise it waits with its request made. `mrel` ends a lease of this context, or,
in supervisor mode, of its core, and changes nothing otherwise. `mstat` gives the state word of a slot, `mwait` waits for
the core's commands and gives it as an acquire, at dev scope where an `mst` of the core went to another die; `mclaim` gives
−1 of a slot that is not an orphan, takes the core's own, or for a supervisor one of its VF, with 0, and gives −2 of any
other. An instruction of the array major in whose way nothing stands acts on the state in which the time that the lease's
holder stood in a wait of `macc` or `mwait` has been taken off its idle time; in the other clauses there is none (R235,
R236, R237, R241, R248, R249, R250). -/
def Obligations.MatrixLeases : Prop :=
  ∀ (s : State) (d a stl : Nat),
    (∀ o ∈ Claims.matrixInstrs d a stl, s.Clear o.2 →
      exec o.1 s = exec o.1 s.leaseResume ∧ s.leaseResume.leaseResume = s.leaseResume) ∧
    (s.core.feErr = none → s.leaseResume = s →
    let lease := (s.clAt s.cl).lease
    let me := (posOf s.focus, s.core.cur)
    let acc := s.acc s.cl d
    (s.Clear {} →
      (Claims.Leased s → ∃ t, exec (.mlease stl) s = .next t ∧ s.Completes t (s.core.pc + 4) stl ∧
        s.core.SlotsSame t.core) ∧
      (lease.holder = none → lease.reqs = [] → s.coreOf s.cl me.1 = s.focus →
        ∃ t, exec (.mlease stl) s = .next t ∧ Claims.CoreDone s t stl ∧
        (t.clAt s.cl).lease =
          { holder := some me, left := s.core.mat.leaseN, last := me.1, reqs := [], lastCmd := s.time }) ∧
      (∀ h, lease.holder = some h → h ≠ me → Claims.Waits s (.mlease stl) .mlease ∧
        ∃ t, exec (.mlease stl) s = .next t ∧
          (t.clAt s.cl).lease = { lease with reqs := lease.reqs.filter (·.1 ≠ me.1) ++ [me] }) ∧
      (∀ w, lease.holder = some (me.1, w) → w = me.2 ∨ s.core.sup = true → lease.reqs = [] →
        ∃ t, exec (.mrel stl) s = .next t ∧ Claims.CoreDone s t stl ∧
          (t.clAt s.cl).lease = { lease with holder := none, left := 0 }) ∧
      ((∀ w, lease.holder = some (me.1, w) → w ≠ me.2 ∧ s.core.sup = false) →
        ∃ t, exec (.mrel stl) s = .next t ∧ s.Completes t (s.core.pc + 4) stl ∧ s.core.SlotsSame t.core)) ∧
    (s.Clear { xd := [a] } →
      Claims.Answers s (.mstat d a stl) stl a (s.accWord s.cl d) ∧
      (s.matPending = true → Claims.Waits s (.mwait d a stl) .mwait) ∧
      (s.matPending = false → Claims.Leaves s (.mwait d a stl) stl a (s.accWord s.cl d)
        ((s.atIssue.acquire s.core.eng.mstFar).updCore fun k => { k with eng := { k.eng with mstFar := false } })) ∧
      (acc.orphan = false → Claims.Answers s (.mclaim d a stl) stl a (-1)) ∧
      (let own := acc.vf = s.core.vf ∧ acc.vcore = s.vcore ∧ acc.win = s.core.cur
       (acc.orphan = true → own → ∃ t, exec (.mclaim d a stl) s = .next t ∧ Claims.CoreDone s t stl ∧
         s.core.Receives t.core none a 0 ∧ t.acc s.cl d = { acc with orphan := false }) ∧
       (acc.orphan = true → ¬ own → s.core.sup = true → acc.vf = s.core.vf →
         ∃ t, exec (.mclaim d a stl) s = .next t ∧ Claims.CoreDone s t stl ∧ s.core.Receives t.core none a 0 ∧
           t.acc s.cl d = { acc with orphan := false, vcore := s.vcore, win := s.core.trap.tfrom }) ∧
       (acc.orphan = true → ¬ own → ¬ (s.core.sup = true ∧ acc.vf = s.core.vf) →
         Claims.Answers s (.mclaim d a stl) stl a (-2)))))

/-- A counting matrix command raises LEASE with value 0 where its context holds no lease, and with 0x100 + slot where its
slot is an orphan; where its address or the range of its tile fails, it traps as the checks say; otherwise it is complete
at issue once the store buffer has drained: it stands last in the cluster's array with the values of the format registers,
counted against the lease, and no slot and no byte of memory has changed. `macc` waits first until every granule of its tile
is full. While an `mrot` stands in the array, it accepts nothing, and the command is held (R232, R236, R239, R240, R242 to
R247). -/
def Obligations.MatrixCommands : Prop :=
  ∀ (s : State) (d a stl : Nat), s.core.feErr = none → s.leaseResume = s →
    (∀ o ∈ Claims.counting d a stl, s.Clear { xs := o.2.1.xs, xd := o.2.1.xd } →
      let ea := s.core.x (matSrc o.2.1)
      (¬ Claims.Leased s → s.core.trapOk = true → ∃ t, exec o.1 s = .next t ∧ s.TakesTrap t s.core.pc 0x0E 0) ∧
      (∀ n, o.2.2 = some n → Claims.Leased s → (s.acc s.cl n).orphan = true → s.core.trapOk = true →
        ∃ t, exec o.1 s = .next t ∧ s.TakesTrap t s.core.pc 0x0E (word (0x100 + n))) ∧
      (Claims.Leased s → (∀ n, o.2.2 = some n → (s.acc s.cl n).orphan = false) →
        (o.2.1 = .rot ∨ o.2.1 = .zero d → s.rotPending = true → exec o.1 s = .next s.holds) ∧
        (o.2.1 = .rot ∨ o.2.1 = .zero d → s.rotPending = false → s.core.m.sbuf = [] → 2 ≤ (s.clAt s.cl).lease.left →
          ∃ t, exec o.1 s = .next t ∧ Claims.Sent s t (Claims.command s o.2.1 ea) ∧ t.core.pc = s.core.pc + 4 ∧
            s.core.SlotsSame t.core) ∧
        (o.2.1 ≠ .rot → o.2.1 ≠ .zero d →
          (∀ c v s1, s.atIssue.matAddr o.2.1 ea = (some (c, v), s1) →
            exec o.1 s = .next (s1.trapAt s1.core.pc c v)) ∧
          (∀ s1, s.atIssue.matAddr o.2.1 ea = (none, s1) → s1.rotPending = true → exec o.1 s = .next s1.again) ∧
          (∀ s1, s.atIssue.matAddr o.2.1 ea = (none, s1) → s1.rotPending = false → ∃ t : State, exec o.1 s = .next (t.after 4 stl) ∧
            (s1.core.m.sbuf = [] → 2 ≤ (s1.clAt s1.cl).lease.left →
              Claims.Sent s1 t (Claims.command s1 o.2.1 ea) ∧ t.core.pc = s1.core.pc ∧ s1.core.SlotsSame t.core))))) ∧
    (s.Clear { xs := [a], own := true } → s.core.wait = none → Claims.Leased s → (s.acc s.cl d).orphan = false →
      let ea := s.core.x a
      (∀ c v s1, s.atIssue.matAddr (.acc d a) ea = (some (c, v), s1) →
        exec (.macc d a stl) s = .next (s1.trapAt s1.core.pc c v)) ∧
      (∀ s1 n, s.atIssue.matAddr (.acc d a) ea = (none, s1) → s1.matBytes (.acc d 0) = some n → 0 < n →
        s1.core.m.sbuf = [] → s1.core.cur = s.core.cur →
        (s1.allFull s1.cl (ea.bits 0 23) n = true → s1.rotPending = true → exec (.macc d a stl) s = .next s1.again) ∧
        (s1.allFull s1.cl (ea.bits 0 23) n = true → s1.rotPending = false →
          exec (.macc d a stl) s =
            .next (((s1.acquire false).matSend s.core.cur (.acc d 0) ea).after 4 stl)) ∧
        (s1.allFull s1.cl (ea.bits 0 23) n = false → s1.asyncFault s1.cl (ea.bits 0 23) n = none →
          ∃ t, exec (.macc d a stl) s = .next t ∧ t.core.inWait .macc = true ∧ t.core.pc = s1.core.pc)))

/-- The array: its head command starts, unless an image of another VF is not saved or one of its own VF is to come back (log
54); when it has started it completes, with its effect on latch, slots and memory, and leaves the array; `mzero` leaves a
slot of zeros with no flag, `mrot` the tile that has arrived. A tile that the predecessor's `mrot` sends arrives where the
incoming buffer is free, its contents not lying in a cluster image of the VF (log 54). A lease idle for 4,096 cycles, the
waits of its holder in `macc` and `mwait` not counted, ends where another core asks. An integer product adds each chunk
exactly and clamps it once (R196, R232, R237, R240 to R247, R360). -/
def Obligations.MatrixEvents : Prop :=
  (∀ (s : State) (die cl : Nat) (c : MCmd), let clu := 64 * die + cl
    let k := s.clAt clu
    k.array.head? = some c →
    ((∀ p, k.spill = some p → p.vf = c.vf) → (∀ i ∈ k.staged, i.1 ≠ c.vf) → ∃ t, exec (.matrixCommandStart die cl) s = .next t ∧
      (t.clAt clu).array = { c with started := true } :: k.array.drop 1 ∧ t.mem = s.mem) ∧
    (∀ p, k.spill = some p → p.vf ≠ c.vf → exec (.matrixCommandStart die cl) s = .next s) ∧
    ((∃ i ∈ k.staged, i.1 = c.vf) → exec (.matrixCommandStart die cl) s = .next s) ∧
    (c.started = false → exec (.matrixCommandComplete die cl) s = .next s) ∧
    (c.started = true →
      (∀ d, c.op = .zero d → ∃ t, exec (.matrixCommandComplete die cl) s = .next t ∧
        t.acc clu d = { aty := c.aty, vf := c.vf, vcore := c.vcore, win := c.win } ∧
        (∀ n, n ≠ d → t.acc clu n = s.acc clu n) ∧ (t.clAt clu).array = k.array.drop 1 ∧ t.mem = s.mem) ∧
      (∀ d a, ∀ e ∈ [(MatOp.bload a, s.doBload clu c), (.mac d a, s.doMac clu c d), (.ld d a, s.doLd clu c d),
          (.st d a, s.doSt clu c d), (.acc d a, s.doAcc clu c d)], c.op = e.1 →
        exec (.matrixCommandComplete die cl) s =
          .next (e.2.updCl clu fun k => { k with array := k.array.drop 1 })) ∧
      (c.op = .rot → c.sent = true → ∀ tile, k.latchIn = some tile →
        ∃ t, exec (.matrixCommandComplete die cl) s = .next t ∧ t.clAt clu =
          { k with latchCur := tile, latchIn := none, rot := k.rot + 1, array := k.array.drop 1 }))) ∧
  (∀ (s : State) (die cl : Nat) (c : MCmd), let clu := 64 * die + cl
    let p := s.predecessor clu
    (s.clAt p).array.head? = some c → c.op = .rot → c.started = true → c.sent = false → (s.clAt clu).latchIn = none →
    c.vf ∉ (s.clAt clu).away →
      ∃ t, exec (.rotationTileArrival die cl) s = .next t ∧ (t.clAt clu).latchIn = some (s.clAt p).latchCur ∧
        (t.clAt p).array = { c with sent := true } :: (s.clAt p).array.drop 1) ∧
  (∀ (s : State) (die cl : Nat) (h : Nat × Nat), let clu := 64 * die + cl
    let l := (s.clAt clu).lease
    l.holder = some h →
    (l.paused = none → (∃ r ∈ l.reqs, r.1 ≠ h.1) → l.lastCmd + 4096 ≤ s.time →
      exec (.leaseIdleTimeout die cl) s = .next (s.endLease clu)) ∧
    ((∀ r ∈ l.reqs, r.1 = h.1) ∨ l.paused ≠ none ∨ s.time < l.lastCmd + 4096 → exec (.leaseIdleTimeout die cl) s = .next s)) ∧
  (∀ (fa fb : BitVec 6) (k n ta tb i j : Nat) (old : Sparse Nat), 0 < n → n ≤ k → i < 64 → j < 64 →
    sget 0 (mmacElems fa fb .i k n ta tb old).1 (64 * i + j) =
      (BitVec.ofInt 32 (Claims.clampedProduct k n (fun i q => elemInt fa ta (i * k + q))
        (fun j q => elemInt fb tb (j * k + q)) (BitVec.ofNat 32 (sget 0 old (64 * i + j))).toInt i j)).toNat)

namespace Sys2Proof.Claims

/-- The atomics: scope, operation number and instruction (R259). -/
noncomputable def atomicsBlk : List (AtScope × Nat × (Bool → Nat → Nat → Nat → Nat → Instr)) :=
  [(.blk, 0, .atomAddBlk), (.blk, 1, .atomAndBlk), (.blk, 2, .atomOrBlk), (.blk, 3, .atomXorBlk),
   (.blk, 4, .atomMinBlk), (.blk, 5, .atomMaxBlk), (.blk, 6, .atomSwapBlk), (.blk, 7, .atomCasBlk)]
noncomputable def atomicsCls : List (AtScope × Nat × (Bool → Nat → Nat → Nat → Nat → Instr)) :=
  [(.cls, 0, .atomAddCls), (.cls, 1, .atomAndCls), (.cls, 2, .atomOrCls), (.cls, 3, .atomXorCls),
   (.cls, 4, .atomMinCls), (.cls, 5, .atomMaxCls), (.cls, 6, .atomSwapCls), (.cls, 7, .atomCasCls)]
noncomputable def atomicsDev : List (AtScope × Nat × (Bool → Nat → Nat → Nat → Nat → Instr)) :=
  [(.dev, 0, .atomAddDev), (.dev, 1, .atomAndDev), (.dev, 2, .atomOrDev), (.dev, 3, .atomXorDev),
   (.dev, 4, .atomMinDev), (.dev, 5, .atomMaxDev), (.dev, 6, .atomSwapDev), (.dev, 7, .atomCasDev)]
noncomputable def atomicsSys : List (AtScope × Nat × (Bool → Nat → Nat → Nat → Nat → Instr)) :=
  [(.sys, 0, .atomAddSys), (.sys, 1, .atomAndSys), (.sys, 2, .atomOrSys), (.sys, 3, .atomXorSys),
   (.sys, 4, .atomMinSys), (.sys, 5, .atomMaxSys), (.sys, 6, .atomSwapSys), (.sys, 7, .atomCasSys)]
noncomputable def atomics : List (AtScope × Nat × (Bool → Nat → Nat → Nat → Nat → Instr)) :=
  atomicsBlk ++ atomicsCls ++ atomicsDev ++ atomicsSys

/-- What an atomic stores over `old`: b is its operand and e the expected value of `cas` (R260). -/
def stored (op : Nat) {w : Nat} (old b e : BitVec w) : BitVec w :=
  match op with
  | 0 => old + b
  | 1 => old &&& b
  | 2 => old ||| b
  | 3 => old ^^^ b
  | 4 => if old.toInt ≤ b.toInt then old else b
  | 5 => if old.toInt ≤ b.toInt then b else old
  | 6 => b
  | _ => if old = e then b else old

/-- The names of an atomic. -/
abbrev atomUse (op d a b : Nat) : Use := { xs := [a, b] ++ (if op = 7 then [d] else []), xd := [d] }

/-- The reductions: operation number, bytes and instruction (R262). -/
noncomputable def reds : List (Nat × Nat × (Nat → Nat → AtScope → Nat → Instr)) :=
  [(0, 4, .redAddW), (1, 8, .redAddD), (2, 4, .redAndW), (3, 8, .redAndD), (4, 4, .redOrW), (5, 8, .redOrD),
   (6, 4, .redXorW), (7, 8, .redXorD), (8, 4, .redMinW), (9, 8, .redMinD), (10, 4, .redMaxW), (11, 8, .redMaxD),
   (12, 4, .redFaddF32), (13, 8, .redFaddF64)]

/-- What a reduction makes of a value: the operations of R262, `fadd` rounding to nearest even (R263). -/
def combined (rop n : Nat) (old b : Nat) : Nat :=
  if rop = 12 then (Fmt.f32.add 1 old (b % 2 ^ 32)).1
  else if rop = 13 then (Fmt.f64.add 1 old b).1
  else (stored (rop / 2) (BitVec.ofNat (8 * n) old) (BitVec.ofNat (8 * n) b) 0).toNat

/-- The number in n bytes of the core's own scratchpad. -/
def own (s : State) (ea : Word) (n : Nat) : Nat := little s (ownKey s ea) n

/-- After a step every byte of memory is as before but the n bytes at an address of scratchpad, which hold v. -/
def Wrote (s t : State) (ea : Word) (n v : Nat) : Prop :=
  ∀ k, t.byte k = if ownKey s ea ≤ k ∧ k < ownKey s ea + n then BitVec.ofNat 8 (v / 2 ^ (8 * (k - ownKey s ea)))
    else s.byte k

end Sys2Proof.Claims

/-- An atomic whose scope its path does not permit raises PATH, and one whose address fails a check traps with it;
otherwise, with room among the core's 48 requests where it leaves the cluster (log 78) and the store buffer drained, it is
complete with its operation in flight (R49, R254, R259, R265, R268, R269). -/
def Sys2Proof.Claims.Atomics : Prop :=
  ∀ (s : State) (d a b stl : Nat) (dbl : Bool), ∀ o ∈ Claims.atomics, s.Clear (Claims.atomUse o.2.1 d a b) →
    let i := o.2.2 dbl d a b stl
    let ea := s.core.x a
    let n := if dbl then 8 else 4
    (scopeOk o.1 (ea.bits 60 4) = false → s.core.trapOk = true →
      ∃ t, exec i s = .next t ∧ s.TakesTrap t s.core.pc 0x09 ea) ∧
    (scopeOk o.1 (ea.bits 60 4) = true →
      match s.atIssue.locate .atomic ea n with
      | (.error c, s1) => exec i s = .next (s1.trapAt s1.core.pc c ea)
      | (.ok k, s1) =>
        let s2 := Claims.sent s s1 [ea]
        s2.core.m.sbuf = [] →
        let f : AtomFlight :=
          { sc := o.1, path := ea.bits 60 4, key := k, ea, size := n, op := o.2.1, b := s.core.x b, e := s.core.x d
            vf := s.core.vf, slot := if d = 0 then none else some (s.core.curWin.base + d), sup := s.core.sup
            win := s.core.cur }
        exec i s = .next ((s2.updCore fun c => { c with m := { c.m with atom := some f } }).after 4 stl))

/-- An atomic of blk, cls or dev scope on scratchpad of the core's own cluster, and its performance: memory holds the new
value in the bytes it names, and no other byte has changed; X(D) holds the old value, sign-extended, and no other slot has
changed (R255, R259, R260, R268). -/
def Sys2Proof.Claims.AtomicsPerformed : Prop :=
  ∀ (s : State) (d a b stl : Nat) (dbl : Bool), ∀ o ∈ Claims.atomics, o.1 ≠ .sys →
    s.Clear (Claims.atomUse o.2.1 d a b) → Claims.Quiet s →
    let ea := s.core.x a
    let n := if dbl then 8 else 4
    Claims.OwnScratch s ea n →
      let old := Claims.own s ea n
      let w := 8 * n
      ∃ t u, exec (o.2.2 dbl d a b stl) s = .next t ∧ t.core.pc = s.core.pc + 4 ∧ t.mem = s.mem ∧
        exec (.atomicPerformed t.focus) t = .next u ∧ u.core.m.atom = none ∧ u.core.pc = s.core.pc + 4 ∧
        Claims.Wrote s u ea n (Claims.stored o.2.1 (BitVec.ofNat w old) ((s.core.x b).setWidth w)
          ((s.core.x d).setWidth w)).toNat ∧
        (∀ m, u.core.slot m = if d ≠ 0 ∧ m = s.core.curWin.base + d then (BitVec.ofNat w old).signExtend 64
          else s.core.slot m)

/-- Atomics and AtomicsPerformed: the statements above together. -/
def Obligations.AtomicOperations : Prop :=
  Claims.Atomics ∧ Claims.AtomicsPerformed

/-- A reduction whose scope its path does not permit raises PATH, and one whose address fails a check traps with it;
otherwise, with room among the core's 48 requests where it leaves the cluster (log 78), it enters the store buffer, and is
complete. On scratchpad of the core's own cluster, when it leaves the buffer as its only entry, memory holds the combined
value in its bytes, and no other byte has changed (R254, R262, R263, R264, R266, R270). -/
def Obligations.ReductionEntries : Prop :=
  ∀ (s : State) (a b stl : Nat) (sc : AtScope), s.Clear { xs := [a, b] } → ∀ o ∈ Claims.reds,
    let i := o.2.2 a b sc stl
    let ea := s.core.x a
    (scopeOk sc (ea.bits 60 4) = false → s.core.trapOk = true →
      ∃ t, exec i s = .next t ∧ s.TakesTrap t s.core.pc 0x09 ea) ∧
    (scopeOk sc (ea.bits 60 4) = true →
      match s.atIssue.locate .red ea o.2.1 with
      | (.error c, s1) => exec i s = .next (s1.trapAt s1.core.pc c ea)
      | (.ok k, s1) => let s2 := Claims.sent s s1 [ea]
        exec i s = .next ((s2.enterBuffer
          { path := ea.bits 60 4, key := k, size := o.2.1, vf := s2.core.vf, ea
            op := .red o.1 sc (s.core.x b), sup := s2.core.sup, win := s2.core.cur }).after 4 stl)) ∧
    (sc ≠ .sys → Claims.OwnScratch s ea o.2.1 → Claims.Quiet s →
      let e : SbEntry := { path := 1, key := Claims.ownKey s ea, size := o.2.1, vf := s.core.vf, ea
                           op := .red o.1 sc (s.core.x b), sup := s.core.sup, win := s.core.cur }
      Claims.Buffers s i 4 stl [e] ∧
      ∃ t u, exec i s = .next t ∧ exec (.storeBufferEntryLeaves t.focus) t = .next u ∧ u.core.m.sbuf = [] ∧
        Claims.Wrote s u ea o.2.1 (Claims.combined o.1 o.2.1 (Claims.own s ea o.2.1) (s.core.x b).toNat))

/-- The events of memory: the oldest entry of a store buffer leaves it and is performed, and a store to scratchpad has then
written its bytes and no others; an atomic in flight is performed, as an acquire of die scope, its core having none from
then on, and nothing happens where none is; an accepted reduction is applied at its home, but a path-5 one not before an
earlier one of the same bytes, and one that its endpoint refuses changes no byte; a path-5 reduction reaches its port; a
combining entry 256 ticks old is sent; a home acknowledges a write-back, whose bytes it then holds (R163, R257, R267, R268,
R269, R271, R273, R274, R275). -/
def Obligations.MemoryEvents : Prop :=
  ∀ (s : State) (core k port die line : Nat),
    ((s.coreAt core).m.sbuf = [] → exec (.storeBufferEntryLeaves core) s = .next s) ∧
    (∀ e es, (s.coreAt core).m.sbuf = e :: es →
      let n := (s.coreAt core).m.roPend
      let left := (s.updCoreAt core fun c => { c with m := { c.m with sbuf := es, roPend := n - 1 } }).performEntry core e
      ∃ t, exec (.storeBufferEntryLeaves core) s = .next t ∧ (t.coreAt core).m.sbuf = es ∧
        t = (if n = 0 then left else left.refuseRo core) ∧
        (∀ cs, e.op = .store cs → e.path = 1 ∨ e.path = 2 → s.scrOk e.key = true → s.poison = [] → s.reds = [] →
          (s.bank (scrCl e.key) (bankNo (scrOff e.key))).switching = none →
          (s.bank (scrCl e.key) (bankNo (scrOff e.key))).queue = [] → (cs.map (·.1)).Nodup →
          ∀ j, t.byte j = ((cs.find? (·.1 = j)).map (·.2)).getD (s.byte j))) ∧
    ((s.coreAt core).m.atom = none → exec (.atomicPerformed core) s = .next s) ∧
    (∀ f, (s.coreAt core).m.atom = some f →
      let s1 := s.updCoreAt core fun c => ({ c with m := { c.m with atom := none } }).countAs f.sup (some f.win) 10 1
      ∃ t, exec (.atomicPerformed core) s = .next t ∧ (t.coreAt core).m.atom = none ∧
        (∀ old s2, s1.atomAt core f = (.ok old, s2) →
          t = (s2.acquireAt core false).landAt core f.slot (atomOld f.size old)) ∧
        (∀ c s2, s1.atomAt core f = (.error c, s2) → let s3 := s2.acquireAt core false
          t = (s3.logAt (dieOf core) f.vf (s3.vcoreOf core) f.ea c).landAt core f.slot 0)) ∧
    (∀ r, s.reds[k]? = some r →
      (r.path = 5 ∧ (∃ q ∈ s.reds.take k, q.path = 5 ∧ meets q.key (ropSize q.rop) r.key (ropSize r.rop) = true) →
        exec (.reductionApplied k) s = .next s) ∧
      (¬ (r.path = 5 ∧ ∃ q ∈ s.reds.take k, q.path = 5 ∧ meets q.key (ropSize q.rop) r.key (ropSize r.rop) = true) →
        ∃ t, exec (.reductionApplied k) s = .next t ∧ t.reds = s.reds.eraseIdx k ∧
          (s.refuses r.key = true → t.mem = s.mem) ∧
          (s.refuses r.key = false → s.poison = [] → s.regionOk r.key = true → r.rop < 14 →
            r.path = 5 ∨ homeDie (s.phys r.key) = dieOf r.core →
            let n := ropSize r.rop
            ∀ j, t.byte j = if s.phys r.key ≤ j ∧ j < s.phys r.key + n then
              BitVec.ofNat 8 (Claims.combined r.rop n (Claims.little s (s.phys r.key) n) r.b.toNat /
                2 ^ (8 * (j - s.phys r.key)))
              else s.byte j))) ∧
    (∀ e es rop sc b, (s.coreAt core).m.sbuf = e :: es → e.op = .red rop sc b → e.path = 5 →
      ∃ t, exec (.reductionAtPort core) s = .next t ∧ t = s.drainOne core ∧ (t.coreAt core).m.sbuf = es ∧
        (s.fstores = [] → t.mem = s.mem) ∧
        (isFar e.key = false → s.regionOk e.key = true → s.fstores = [] → s.ports = [] → (s.coreAt core).m.roPend = 0 →
          sget [] t.ports (s.portOf e.key) =
            [{ vf := e.vf, pa := e.key, rop, val := b, opened := s.time, core, ea := e.ea }])) ∧
    (∀ c, (sget [] s.ports port)[k]? = some c → scanon [] 0 s.ports = true →
      (s.time < c.opened + 256 → exec (.combiningEntryExpiry port k) s = .next s) ∧
      (c.opened + 256 ≤ s.time → ∃ t, exec (.combiningEntryExpiry port k) s = .next t ∧ t.mem = s.mem ∧
        (∀ p, sget [] t.ports p = (sget [] s.ports p).filter (· ≠ c)) ∧
        ∃ r ∈ t.reds, r.path = 5 ∧ r.key = c.pa ∧ r.rop = c.rop ∧ r.b = c.val ∧ r.vf = c.vf)) ∧
    (∃ t, exec (.writeBackAcknowledged die line) s = .next t ∧
      (t.wbacks = s.wbacks.filter fun w => ¬ (w.die = die ∧ w.line = line)) ∧
      (∀ w, s.wbacks.filter (fun w => decide (w.die = die ∧ w.line = line)) = [w] → s.poison = [] →
        ((w.cells ++ w.clean).map (·.1)).Nodup → ∀ c ∈ w.cells, t.byte c.1 = c.2))

namespace Sys2Proof.Claims

/-- The issuing core's cluster lies on its die, its store buffer and the reductions on their way are empty, no word is
uncorrectable, and the core has no wait behind it. -/
def Fresh (s : State) : Prop :=
  Quiet s ∧ s.cl / 64 = s.die ∧ s.core.wait = none ∧ s.core.feErr = none

/-- The granule of a scratchpad address (R85). -/
def granule (ea : Word) : Nat := ea.toNat % 2 ^ 23 / 16

/-- n bytes of scratchpad of the core's own cluster, whole granules, in banks that are scratchpad and switch no role. -/
def OwnRange (s : State) (ea : Word) (n : Nat) : Prop :=
  s.cl < 512 ∧ ea.toNat / 2 ^ 23 = 2 ^ 37 ∧ 0 < n ∧ ea.toNat % 2 ^ 23 + n ≤ 0x600000 ∧ ea.toNat % 16 = 0 ∧ n % 16 = 0 ∧
    ∀ b < 24, (s.bank s.cl b).switching = none ∧ (s.bank s.cl b).queue = [] ∧
      (meets (ea.toNat % 2 ^ 23) n (b * 0x40000) 0x40000 = true → (s.bank s.cl b).role = .scratch)

/-- An address that is no place of a full-empty instruction: on another path, beyond the banks or of no cluster of the launch,
or in a bank of the core's own cluster that is not scratchpad and switches no role (R37, R87). -/
def NoPlace (s : State) (ea : Word) : Prop :=
  s.fePath ea = false ∨ (s.cl < 512 ∧ ea.toNat / 2 ^ 23 = 2 ^ 37 ∧ ea.toNat % 2 ^ 23 < 0x600000 ∧
    let b := s.bank s.cl (ea.toNat % 2 ^ 23 / 0x40000)
    b.role ≠ .scratch ∧ b.switching = none ∧ b.queue = [])

/-- An address in the banks of the core's own cluster, none of which switches its role. -/
def OwnBanks (s : State) (ea : Word) : Prop :=
  s.cl < 512 ∧ ea.toNat / 2 ^ 23 = 2 ^ 37 ∧ ea.toNat % 2 ^ 23 < 0x600000 ∧
    ∀ b < 24, (s.bank s.cl b).switching = none ∧ (s.bank s.cl b).queue = []

/-- An offset of the core's own cluster that no range may hold (R87). -/
def Offends (s : State) (o : Nat) : Prop := 0x600000 ≤ o ∨ (s.bank s.cl (o / 0x40000)).role ≠ .scratch

/-- A FIFO bank of the core's own cluster that switches no role, by the address of its first byte (R98). -/
def OwnFifo (s : State) (ea : Word) : Prop :=
  s.cl < 512 ∧ ea.toNat / 2 ^ 23 = 2 ^ 37 ∧ ea.toNat % 2 ^ 23 < 0x600000 ∧ ea.toNat % 0x40000 = 0 ∧
    let b := s.bank s.cl (ea.toNat % 2 ^ 23 / 0x40000)
    b.role = .fifo ∧ b.switching = none ∧ b.queue = []

/-- The deferred entry of the issuing instruction. -/
def deferral (s : State) (d off : Nat) : Deferred :=
  { core := s.focus, win := s.core.cur, off, slot := if d = 0 then none else some (s.core.curWin.base + d) }

/-- The banks of a mask whose role is not r (R81, R82). -/
def toSwitch (s : State) (m : Word) (r : Role) : List Nat :=
  (List.range 24).filter fun b => m.getLsbD b && decide ((s.bank s.cl b).role ≠ r)

end Sys2Proof.Claims

/-- `ld.sync`, `take`, `put` and `fe.q` on a granule of the core's own cluster: `ld.sync` gives the double of a full
granule, and `take` too, emptying it; of an empty one both wait, `take` in the bank's deferred list, or, where 32 stand in
it, with an error response that is logged and raises FE; `put` writes the double of an empty granule, which becomes full,
and gives 0; of a full one it gives 1 and logs the address; where a `take` is deferred, the oldest receives the value and
the granule stays empty; `fe.q` gives the bit and the deferred count. Addresses that R37 does not permit and banks that are
not scratchpad raise PATH, and of `ld.sync`, `take` and `put` addresses that are not multiples of 8 raise ALIGN (R85, R87 to
R91, R94, R96). -/
def Sys2Proof.Claims.FullEmpty : Prop :=
  ∀ (s : State) (d a b stl : Nat), Claims.Fresh s →
    let ea := s.core.x a
    let g := Claims.granule ea
    let full := s.isFull s.cl g
    let off := ea.toNat % 2 ^ 23
    let deferred := (s.bank s.cl (off / 0x40000)).deferred
    (s.Clear { xs := [a], xd := [d] } →
      (∀ i ∈ [Instr.ldSync d a stl, .take d a stl, .feQ d a stl], Claims.NoPlace s ea → s.core.trapOk = true →
        ∃ t, exec i s = .next t ∧ s.TakesTrap t s.core.pc 0x09 ea) ∧
      (Claims.OwnScratch s ea 1 → Claims.Answers s (.feQ d a stl) stl d
        (word ((Claims.truth full).toNat + deferred.length % 64 * 2 ^ 8))) ∧
      (Claims.OwnScratch s ea 1 → ea.toNat % 8 ≠ 0 → s.core.trapOk = true → ∀ i ∈ [Instr.ldSync d a stl, .take d a stl],
        ∃ t, exec i s = .next t ∧ s.TakesTrap t s.core.pc 0x06 ea) ∧
      (Claims.OwnScratch s ea 8 →
        (full = true →
          Claims.Leaves s (.ldSync d a stl) stl d (word (Claims.own s ea 8)) (s.atIssue.acquire false) ∧
          Claims.Leaves s (.take d a stl) stl d (word (Claims.own s ea 8))
            ((s.atIssue.setGran s.cl g false).acquire false)) ∧
        (full = false →
          Claims.Waits s (.ldSync d a stl) .ldSync ∧
          (deferred.length < 32 → Claims.Waits s (.take d a stl) .take ∧
            ∃ t, exec (.take d a stl) s = .next t ∧
              (t.bank s.cl (off / 0x40000)).deferred = deferred ++ [Claims.deferral s d off]) ∧
          (32 ≤ deferred.length →
            exec (.take d a stl) s = .next ((s.atIssue.logErr ea 3).trapAt s.core.pc 0x0F ea))))) ∧
    (s.Clear { xs := [a, b], xd := [d] } → s.core.trapOk = true →
      (Claims.NoPlace s ea → ∃ t, exec (.put d a b stl) s = .next t ∧ s.TakesTrap t s.core.pc 0x09 ea) ∧
      (Claims.OwnScratch s ea 1 → ea.toNat % 8 ≠ 0 →
        ∃ t, exec (.put d a b stl) s = .next t ∧ s.TakesTrap t s.core.pc 0x06 ea)) ∧
    (s.Clear { xs := [a, b], xd := [d] } → Claims.OwnScratch s ea 8 → let i := Instr.put d a b stl
      (full = true → Claims.Leaves s i stl d 1 (s.atIssue.logErr ea 3)) ∧
      (full = false → (∀ e ∈ deferred, e.off / 16 ≠ g) →
        ∃ t, exec i s = .next t ∧ Claims.Wrote s t ea 8 (s.core.x b).toNat ∧ t.isFull s.cl g = true ∧
          t.core.pc = s.core.pc + 4 ∧ s.core.Receives t.core none d 0) ∧
      (∀ l e r n, full = false → deferred = l ++ e :: r → (∀ x ∈ l, x.off / 16 ≠ g) → e.off = off → e.slot = some n →
        e.core ≠ s.focus → ∃ t, exec i s = .next t ∧ t.isFull s.cl g = false ∧ (t.coreAt e.core).slot n = s.core.x b ∧
          (t.bank s.cl (off / 0x40000)).deferred = l ++ r))

/-- `fe.set`, `fe.clr` and `fe.wait` over a range of whole granules of the core's own cluster: all of them become full, where
no `take` is deferred there, or empty; `fe.wait` goes on, as an acquire, where all are full, and waits otherwise where no
failed work covers them. A length of zero changes nothing. PATH is raised for an address on no path of theirs, and for the
first byte of the range outside scratchpad; ALIGN, with the address or the length, for one that is no multiple of 16, after
PATH (R87, R93, R95, R96). -/
def Sys2Proof.Claims.FullEmptyRanges : Prop :=
  ∀ (s : State) (a l stl : Nat), Claims.Fresh s →
    let ea := s.core.x a
    let n := (s.core.x l).toNat
    let off := ea.toNat % 2 ^ 23
    let inside := fun g => off / 16 ≤ g ∧ g < (off + n) / 16
    (s.Clear { xs := [a, l] } →
      (Claims.OwnRange s ea n →
        (∃ t, exec (.feClr a l stl) s = .next t ∧ t.core.pc = s.core.pc + 4 ∧ t.mem = s.mem ∧ s.core.SlotsSame t.core ∧
          ∀ g, t.isFull s.cl g = if inside g then false else s.isFull s.cl g) ∧
        ((∀ k < 24, (s.bank s.cl k).deferred = []) →
          ∃ t, exec (.feSet a l stl) s = .next t ∧ t.core.pc = s.core.pc + 4 ∧ t.mem = s.mem ∧
            s.core.SlotsSame t.core ∧ ∀ g, t.isFull s.cl g = if inside g then true else s.isFull s.cl g))) ∧
    (∀ o ∈ [(Instr.feSet a l stl, false), (.feClr a l stl, false), (.feWait a l stl, true)],
      s.Clear { xs := [a, l], own := o.2 } →
      let path := ea.bits 60 4 = 1 ∨ ea.bits 60 4 = 2
      let traps := fun c v => ∃ t, exec o.1 s = .next t ∧ s.TakesTrap t s.core.pc c v
      (n = 0 → path → ea.toNat % 16 = 0 →
        ∃ t, exec o.1 s = .next t ∧ s.Completes t (s.core.pc + 4) stl ∧ s.core.SlotsSame t.core) ∧
      (s.core.trapOk = true →
        (n = 0 → ¬ path → traps 0x09 ea) ∧ (n = 0 → path → ea.toNat % 16 ≠ 0 → traps 0x06 ea) ∧
        (n ≠ 0 → s.fePath ea = false → traps 0x09 ea) ∧
        (Claims.OwnBanks s ea → ∀ x, off ≤ x → x < off + n → Claims.Offends s x →
          (∀ y, off ≤ y → y < x → ¬ Claims.Offends s y) → traps 0x09 (ea + word (x - off))) ∧
        (Claims.OwnBanks s ea → 0 < n → (∀ y, off ≤ y → y < off + n → ¬ Claims.Offends s y) →
          (ea.toNat % 16 ≠ 0 → traps 0x06 ea) ∧
          (ea.toNat % 16 = 0 → n % 16 ≠ 0 → traps 0x06 (s.core.x l))))) ∧
    (s.Clear { xs := [a, l], own := true } → Claims.OwnRange s ea n → let i := Instr.feWait a l stl
      ((∀ g, inside g → s.isFull s.cl g = true) → exec i s = .next ((s.atIssue.acquire false).after 4 stl)) ∧
      (∀ g, inside g → s.isFull s.cl g = false → s.asyncWork s.cl off n = none → Claims.Waits s i .feWait))

/-- FullEmpty and FullEmptyRanges: the statements above together. -/
def Obligations.FullEmptyOperations : Prop :=
  Claims.FullEmpty ∧ Claims.FullEmptyRanges

/-- `fpush`, `fpop` and `fq` on a FIFO bank of the core's own cluster: `fpush` appends X(S) and gives 0, gives it to the
oldest deferred pop instead, or gives 1 where 16,384 entries stand in the bank; `fpop` gives the oldest entry, as an acquire,
or waits in the deferred list; `fq` gives the number of entries (R96, R98, R99, R100). -/
def Obligations.Fifos : Prop :=
  ∀ (s : State) (d a b stl : Nat), Claims.Fresh s → Claims.OwnFifo s (s.core.x a) →
    let k := (s.core.x a).toNat % 2 ^ 23 / 0x40000
    let bank := s.bank s.cl k
    (s.Clear { xs := [a, b], xd := [d] } → let i := Instr.fpush d a b stl
      (16384 ≤ bank.fifo.length → Claims.Answers s i stl d 1) ∧
      (bank.fifo.length < 16384 → bank.deferred = [] →
        ∃ t, exec i s = .next t ∧ t.core.pc = s.core.pc + 4 ∧ s.core.Receives t.core none d 0 ∧ t.mem = s.mem ∧
          t.bank s.cl k = { bank with fifo := bank.fifo ++ [s.core.x b] }) ∧
      (∀ e es n, bank.fifo.length < 16384 → bank.deferred = e :: es → e.slot = some n → e.core ≠ s.focus →
        ∃ t, exec i s = .next t ∧ (t.coreAt e.core).slot n = s.core.x b ∧ s.core.Receives t.core none d 0 ∧
          t.bank s.cl k = { bank with deferred := es })) ∧
    (s.Clear { xs := [a], xd := [d] } →
      Claims.Answers s (.fq d a stl) stl d (word bank.fifo.length) ∧
      (∀ v vs, bank.fifo = v :: vs → Claims.Leaves s (.fpop d a stl) stl d v
        ((s.atIssue.updBank s.cl k fun x => { x with fifo := vs }).acquire false)) ∧
      (bank.fifo = [] → bank.deferred.length < 32 → Claims.Waits s (.fpop d a stl) .fpop ∧
        ∃ t, exec (.fpop d a stl) s = .next t ∧
          (t.bank s.cl k).deferred = bank.deferred ++ [Claims.deferral s d (k * 0x40000)]))

/-- `bcfg.c`, `bcfg.s` and `bcfg.f`, where every bank of the cluster is idle: a switch begins of each bank named in X(A)
whose role is another, its deferred list being emptied, and X(D) receives their mask; no other bank changes. `bq` gives two
bits for each bank named: its role, or 3 while a switch is going on or owed. A bank that is owed a switch begins it; one
that is in a switch ends it with its new role, its granules empty, its FIFO empty and no line of the ways in it; its bytes
are then zero, and where no line had to go home no other byte has changed (R81, R82, R83, R84). -/
def Obligations.BankRoles : Prop :=
  (∀ (s : State) (d a stl : Nat), s.Clear { xs := [a], xd := [d] } →
    (∀ o ∈ [(Instr.bcfgC d a stl, Role.cache), (.bcfgS d a stl, .scratch), (.bcfgF d a stl, .fifo)],
      (∀ b < 24, (s.bank s.cl b).switching = none ∧ (s.bank s.cl b).queue = []) →
      ∃ t, exec o.1 s = .next t ∧ t.core.pc = s.core.pc + 4 ∧ t.mem = s.mem ∧
        s.core.Receives t.core none d (word ((Claims.toSwitch s (s.core.x a) o.2).map fun b => 2 ^ b).sum) ∧
        ∀ b, t.bank s.cl b = if b ∈ Claims.toSwitch s (s.core.x a) o.2 then
            { s.bank s.cl b with switching := some o.2, deferred := [] } else s.bank s.cl b) ∧
    Claims.Answers s (.bq d a stl) stl d (word (((List.range 24).filter fun b => (s.core.x a).getLsbD b).map fun b =>
      let k := s.bank s.cl b
      (if k.switching ≠ none ∨ k.queue ≠ [] then 3 else match k.role with
        | .cache => 0 | .scratch => 1 | .fifo => 2) * 4 ^ b).sum)) ∧
  (∀ (s : State) (die cl b : Nat) (r : Role), let clu := 64 * die + cl
    let k := s.bank clu b
    (∀ rs, k.switching = none → k.queue = r :: rs → ∃ t, exec (.bankSwitchBegin die cl b) s = .next t ∧ t.mem = s.mem ∧
      t.bank clu b = { k with switching := some r, queue := rs, deferred := [] }) ∧
    (k.switching ≠ none ∨ k.queue = [] → exec (.bankSwitchBegin die cl b) s = .next s) ∧
    (k.switching = some r → k.queue = [] → b < 24 → ∃ t, exec (.bankSwitchEnd die cl b) s = .next t ∧
      t.bank clu b = { k with role := r, switching := none, fifo := []
                              left := if k.role = .scratch then s.switches + 1 else k.left } ∧
      (t.clAt clu).ways = (s.clAt clu).ways.filter (·.bank ≠ b) ∧
      (∀ g < 0x4000, t.isFull clu (b * 0x4000 + g) = false) ∧
      ((∀ l ∈ (s.clAt clu).ways, l.bank ≠ b) → (∀ o < 0x40000, t.byte (scratchKey clu (b * 0x40000) + o) = 0) ∧
       ∀ j, ¬ (scratchKey clu (b * 0x40000) ≤ j ∧ j < scratchKey clu (b * 0x40000) + 0x40000) → t.byte j = s.byte j)))

namespace Sys2Proof.Claims

/-- The acquire loads that promote: scope and instruction (R320). -/
noncomputable def promoting (d a b stl : Nat) : List (Scope × Instr) :=
  [(.dev, .acqpDev d a b stl), (.sys, .acqpSys d a b stl)]

/-- The core whose log a promoting acquire names (R320, R322). -/
def promoted (s : State) (v : Word) : Option Nat :=
  match (if v.bits 16 48 = 0 then s.locOf (v.bits 0 16) else none) with
  | some loc => if (s.coreAt loc).vf = s.core.vf then some loc else none
  | none => none

/-- The phaser an id names for the issuing context (R323). -/
def phaser (s : State) (a : Word) (p : Phaser) : Prop :=
  a.toNat < 8192 ∧ s.phaser a.toNat = some p ∧ p.vf = s.core.vf ∧ p.lid = s.core.dom.launch

/-- The member record of the issuing context (R323). -/
def member (s : State) (p : Phaser) : Option Member := p.members.find? fun m => m.vcore = s.vcore ∧ m.win = s.core.cur

end Sys2Proof.Claims

/-- `fence S` lets earlier results land and the store buffer drain, at dev scope also the core's log and its reductions but
those of path 5, and at sys scope what it has under way on path 5; then it acquires at the scope, and is complete. Where
nothing is under way a fence of core or cluster scope changes nothing. An acquire load and a release store check their
address, and raise PATH on paths 8 and 9. An acquire load of core, cluster or die scope reads as a plain load does, and one
of dev or sys scope behind the fence's wait and at the home of its bytes; then it acquires. Where they leave the cluster,
both wait for room among the core's 48 requests (log 78). A release store of core, cluster or die scope enters the store
buffer, and one of dev or sys scope is performed at the home of its bytes, behind the fence's wait (R49, R55, R56, R163,
R309, R312, R318, R319). -/
def Sys2Proof.Claims.Ordering : Prop :=
  ∀ (s : State) (d a stl : Nat) (sc : Scope),
    let ea := s.core.x a
    let wide := sc = .dev ∨ sc = .sys
    let p := ea.bits 60 4
    (s.Clear {} → ∃ e, exec (.fence sc stl) s = .next ((e.acquireScope sc).after 4 stl) ∧
      e = s.atIssue.fenceWait sc ∧ (∀ p ∈ e.core.pend, p.queued = true) ∧ e.core.m.sbuf = [] ∧
      (sc = .dev → ∀ r ∈ e.reds, r.core = s.focus → r.path = 5) ∧
      (sc = .sys → (sget {} s.vfpol s.core.vf).tenant = false →
        (∀ r ∈ e.reds, r.core ≠ s.focus) ∧ ∀ f ∈ e.fstores, f.core ≠ s.focus) ∧
      (wide → e.core.m.plog = [])) ∧
    (s.Clear {} → sc = .core ∨ sc = .cluster → s.core.m.sbuf = [] → s.core.pend = [] →
      ∃ t, exec (.fence sc stl) s = .next t ∧ s.Completes t (s.core.pc + 4) stl ∧ s.core.SlotsSame t.core) ∧
    (s.Clear { xs := [a], xd := [d] } →
      (p = 8 ∨ p = 9 → s.core.trapOk = true →
        ∃ t, exec (.ldAcq d a sc stl) s = .next t ∧ s.TakesTrap t s.core.pc 0x09 ea) ∧
      (p ≠ 8 → p ≠ 9 →
        match s.atIssue.locate .load ea 8 with
        | (.error c, s1) => exec (.ldAcq d a sc stl) s = .next (s1.trapAt s1.core.pc c ea)
        | (.ok k, s1) =>
          let s2 := Claims.sent s s1 [ea]
          let r := if sc = .dev ∨ sc = .sys then (s2.fenceWait sc).homeLoad p k else s2.plainRead p k 8
          let v := r.2.loadValue ea r.1
          Claims.Leaves s (.ldAcq d a sc stl) stl d v.1 (v.2.acquireScope sc)) ∧
      (Claims.OwnScratch s ea 8 → Claims.Quiet s → s.core.m.plog = [] → sc ≠ .sys →
        ∃ t, exec (.ldAcq d a sc stl) s = .next t ∧ t.core.pc = s.core.pc + 4 ∧ t.mem = s.mem ∧
          (sc = .core ∨ sc = .cluster → s.Completes t (s.core.pc + 4) stl ∧
            s.core.Receives t.core none d (word (Claims.own s ea 8))) ∧
          (sc = .die → t.core.m = { s.core.m with roFloor := s.seq + 1, roPend := 0 } ∧
            s.core.Receives t.core none d (word (Claims.own s ea 8))))) ∧
    (s.Clear { xs := [d, a] } → let i := Instr.stRel d a sc stl
      (p = 8 ∨ p = 9 → s.core.trapOk = true → ∃ t, exec i s = .next t ∧ s.TakesTrap t s.core.pc 0x09 ea) ∧
      (p ≠ 8 → p ≠ 9 →
        match s.atIssue.locate .store ea 8 with
        | (.error c, s1) => exec i s = .next (s1.trapAt s1.core.pc c ea)
        | (.ok k, s1) =>
          let s2 := Claims.sent s s1 [ea]
          (wide → exec i s = .next (((s2.fenceWait sc).homeStore ea p k (s.core.x d)).after 4 stl)) ∧
          (¬ wide → let cells := (List.range 8).map fun j => (k + j, (s.core.x d).extractLsb' (8 * j) 8)
            exec i s = .next ((s2.enterBuffer ⟨p, k, 8, s.core.vf, ea, .store cells, s.core.sup, s.core.cur⟩).after 4 stl))) ∧
      (Claims.OwnScratch s ea 8 → Claims.Quiet s →
        (¬ wide → Claims.Buffers s i 4 stl [Claims.storeEntry s ea 8 (s.core.x d).toNat]) ∧
        (sc = .dev → s.core.m.plog = [] → ∃ t, exec i s = .next t ∧ t.core.pc = s.core.pc + 4 ∧
          t.core.m.sbuf = [] ∧ Claims.Wrote s t ea 8 (s.core.x d).toNat)))

/-- `acqp.dev` and `acqp.sys` check their address, and raise PATH on paths 8 and 9; once the store buffer has drained, the
request goes to the core that X(B) names, where it is one of the issuing VF, and the instruction waits for the reply; where
it is none X(B) is logged with code 5, and the load is an acquire load at the scope at once. With the reply the load is an
acquire load at the scope, and without it the instruction goes on waiting. A core that is asked for a promotion takes a
snapshot of its log once its store buffer has drained, one for all requests that have none; then, for the first request
without a reply, it drains the entries up to its snapshot and replies: that a PROMOTION_REQUEST event is one of these
stages, first the snapshots and then one reply, is the model's staging (log 42). A path-5 store is applied at its endpoint
where no earlier one overlaps it (R313, R320, R321, R322, R376). -/
def Sys2Proof.Claims.Promotion : Prop :=
  ∀ (s : State) (d a b stl core k : Nat),
    (∀ o ∈ Claims.promoting d a b stl, s.Clear { xs := [a, b], xd := [d] } →
      let ea := s.core.x a
      let p := ea.bits 60 4
      let mine := s.promos.find? (·.by_ = s.focus)
      (s.core.inWait .acqp = false ∨ mine = none →
        (p = 8 ∨ p = 9 → s.core.trapOk = true → ∃ t, exec o.2 s = .next t ∧ s.TakesTrap t s.core.pc 0x09 ea) ∧
        (p ≠ 8 → p ≠ 9 →
          match s.atIssue.locate .load ea 8 with
          | (.error c, s1) => exec o.2 s = .next (s1.trapAt s1.core.pc c ea)
          | (.ok k, s1) =>
            let s2 := (Claims.sent s s1 [ea]).drained.dropPromos s1.focus
            (∀ loc, Claims.promoted s2 (s.core.x b) = some loc → ∃ t, exec o.2 s = .next t ∧
              t.promos = s2.promos ++ [{ by_ := s.focus, target := loc, key := k, ea }] ∧ t.core.inWait .acqp = true ∧
              t.core.pc = s1.core.pc ∧ t.mem = s2.mem ∧ s1.core.SlotsSame t.core) ∧
            (Claims.promoted s2 (s.core.x b) = none →
              let r := ((s2.logErr (s.core.x b) 5).fenceWait o.1).homeLoad p k
              let v := r.2.loadValue ea r.1
              Claims.Leaves s o.2 stl d v.1 (v.2.acquireScope o.1)))) ∧
      (∀ q, s.core.inWait .acqp = true → mine = some q →
        (q.replied = true →
          let r := ((s.atIssue.dropPromos s.focus).fenceWait o.1).homeLoad (q.ea.bits 60 4) q.key
          let v := r.2.loadValue q.ea r.1
          Claims.Leaves s o.2 stl d v.1 (v.2.acquireScope o.1)) ∧
        (q.replied = false → Claims.Waits s o.2 .acqp))) ∧
    (let asked := fun (p : Promo) => decide (p.target = core)
     ((∃ p ∈ s.promos, asked p = true ∧ p.snap = none) → ∃ t, exec (.promotionRequest core) s = .next t ∧
        (t.coreAt core).m.sbuf = [] ∧ t.promos = s.promos.map fun p =>
          if asked p ∧ p.snap = none then { p with snap := some (t.coreAt core).m.lsn } else p) ∧
     (∀ q n, (∀ p ∈ s.promos, asked p = true → p.snap ≠ none) →
        s.promos.find? (fun p => asked p && !p.replied) = some q → q.snap = some n →
        ∃ t, exec (.promotionRequest core) s = .next t ∧
          (∀ e ∈ (t.coreAt core).m.plog, e ∈ (s.coreAt core).m.plog ∧ 2 ^ 31 ≤ (n - e.2).toNat) ∧
          (((s.coreAt core).m.plog.map (·.1)).Nodup → ∀ e ∈ (s.coreAt core).m.plog, 2 ^ 31 ≤ (n - e.2).toNat →
            e ∈ (t.coreAt core).m.plog) ∧
          t.promos = s.promos.map fun p => if p = q then { p with replied := true } else p) ∧
     ((∀ p ∈ s.promos, asked p = true → p.snap ≠ none ∧ p.replied = true) →
        exec (.promotionRequest core) s = .next s)) ∧
    (s.fstores[k]? = none → exec (.endpointStoreApplied k) s = .next s) ∧
    (∀ f, s.fstores[k]? = some f →
      let blocked := ∃ g ∈ s.fstores.take k, ∃ x ∈ g.cells, ∃ y ∈ f.cells, x.1 = y.1
      (blocked → exec (.endpointStoreApplied k) s = .next s) ∧
      (¬ blocked → ∃ t, exec (.endpointStoreApplied k) s = .next t ∧ t.fstores = s.fstores.eraseIdx k ∧
        (s.poison = [] → ∀ j, (∀ y ∈ f.cells, s.phys y.1 ≠ j) → t.byte j = s.byte j) ∧
        (∀ c, s.poison = [] → f.cells = [c] → t.byte (s.phys c.1) = c.2)))

/-- Ordering and Promotion: the statements above together. -/
def Obligations.OrderAndPromotion : Prop :=
  Claims.Ordering ∧ Claims.Promotion

/-- `phnew` gives the id of the lowest free phaser of the die it names, −1 where there is none and −2 where X(A) names no
die; `phfree` frees one without members, −2 with, and `phreg` registers the issuing context, giving the phase (−2 a member
already, −3 no record, −4 a die-scope phaser of another die); `phdrop` removes it, giving 0 (−2 no member, −3 a copy owes its
signal); `phq` gives phase, members and missing signals. Where the id names no phaser of the VF and launch each gives −1
(R323, R325, R326, R329). -/
def Sys2Proof.Claims.PhaserRecords : Prop :=
  ∀ (s : State) (d a stl : Nat) (sc : Scope) (md : PhMode), s.Clear { xs := [a], xd := [d] } →
    let x := s.core.x a
    let die := if x = -1 then some s.die else if x.toNat < 8 then some x.toNat else none
    let e := s.atIssue
    (die = none → Claims.Answers s (.phnew d a sc stl) stl d (-2)) ∧
    (∀ h, die = some h → (∀ i < 1024, s.phaser (1024 * h + i) ≠ none) →
      Claims.Answers s (.phnew d a sc stl) stl d (-1)) ∧
    (∀ h i, die = some h → i < 1024 → s.phaser (1024 * h + i) = none →
      (∀ j < i, s.phaser (1024 * h + j) ≠ none) →
      Claims.Leaves s (.phnew d a sc stl) stl d (word (1024 * h + i)) (e.setPhaser (1024 * h + i)
        (some { vf := s.core.vf, lid := s.core.dom.launch, dev := decide (sc = .dev) }))) ∧
    ((∀ p, ¬ Claims.phaser s x p) →
      ∀ i ∈ [Instr.phfree d a stl, .phreg d a md stl, .phdrop d a stl, .phsig d a stl, .phq d a stl],
        Claims.Answers s i stl d (-1)) ∧
    (∀ p, Claims.phaser s x p →
      (p.members ≠ [] → Claims.Answers s (.phfree d a stl) stl d (-2)) ∧
      (p.members = [] → Claims.Leaves s (.phfree d a stl) stl d 0 (e.setPhaser x.toNat none)) ∧
      (∀ m, Claims.member s p = some m → Claims.Answers s (.phreg d a md stl) stl d (-2)) ∧
      (Claims.member s p = none →
        let full := 16384 ≤ s.memberCount (x.toNat / 1024) ∨ 4096 ≤ p.members.length
        let far := p.dev = false ∧ x.toNat / 1024 ≠ s.die
        (full → Claims.Answers s (.phreg d a md stl) stl d (-3)) ∧
        (¬ full → far → Claims.Answers s (.phreg d a md stl) stl d (-4)) ∧
        (¬ full → ¬ far → Claims.Leaves s (.phreg d a md stl) stl d (p.p.setWidth 64) (e.setPhaser x.toNat (some
          { p with members := p.members ++ [{ vcore := s.vcore, win := s.core.cur, mode := md, l := p.p }] }))) ∧
        Claims.Answers s (.phdrop d a stl) stl d (-2)) ∧
      (∀ m, Claims.member s p = some m → (m.owed ≠ none → Claims.Answers s (.phdrop d a stl) stl d (-3)) ∧
        (m.owed = none → Claims.Leaves s (.phdrop d a stl) stl d 0 (e.phaserDone x.toNat
          { p with members := p.members.filter fun k => ¬ (k.vcore = s.vcore ∧ k.win = s.core.cur) }))) ∧
      Claims.Answers s (.phq d a stl) stl d (word (p.p.toNat * 2 ^ 32 + p.members.length % 2 ^ 16 * 2 ^ 16 +
        (p.members.filter fun m => m.signals && !m.gave p.p).length % 2 ^ 16)))

/-- `phsig`, `phwait` and `phnext` of a member, by its mode. A signal of an SW member is given once in a phase (−3), at the
phaser's scope, and completes the phase where it is the last; a wait of one needs the signal (−3), and `phnext` gives it and
then waits. A wait goes on where the phase lies past the member's, which moves on, as an acquire at the phaser's scope; where
it does not, it stands, or raises ASYNC with the ticket of a faulted copy that owes the signal. An SO member signals where
its phase is not past the phaser's, and cannot wait (−2); a WO member waits, and cannot signal (−2) (R324, R327, R330,
R347). -/
def Sys2Proof.Claims.PhaserPhases : Prop :=
  ∀ (s : State) (d a stl : Nat) (p : Phaser) (m : Member), Claims.phaser s (s.core.x a) p →
    Claims.member s p = some m →
    let id := (s.core.x a).toNat
    let e := s.atIssue
    let sig := Instr.phsig d a stl
    let wait := Instr.phwait d a stl
    let next := Instr.phnext d a stl
    let owing := ∃ t c, m.owed = some t ∧ (s.core.eng.cmds.find? fun c =>
      c.ticket = t ∧ c.state = .faulted ∧ c.win = s.core.cur) = some c
    let ahead := p.p ≠ m.l ∧ (p.p - m.l).toNat < 2 ^ 31
    let behind := m.l ≠ p.p ∧ (m.l - p.p).toNat < 2 ^ 31
    let passes := Claims.Leaves (i := wait) s (stl := stl) (d := d) (v := (m.l + 1).setWidth 64) (e :=
      ((e.setPhaser id (some (p.updMember s.vcore s.core.cur fun m => { m with l := m.l + 1, given := false }))).acquire p.dev))
    (s.Clear { xs := [a], xd := [d] } →
      (m.mode = .wo → Claims.Answers s sig stl d (-2)) ∧
      (m.mode = .sw → m.given = true ∨ m.owed ≠ none → Claims.Answers s sig stl d (-3)) ∧
      (m.mode = .sw → m.given = false → m.owed = none → Claims.Leaves s sig stl d (m.l.setWidth 64)
        ((e.phRelease p).phaserDone id (p.updMember s.vcore s.core.cur fun m => { m with given := true }))) ∧
      (m.mode = .so → behind → Claims.Waits s sig .phsig) ∧
      (m.mode = .so → ¬ behind → Claims.Leaves s sig stl d (m.l.setWidth 64)
        ((e.phRelease p).phaserDone id (p.updMember s.vcore s.core.cur fun m => { m with l := m.l + 1 })))) ∧
    (s.Clear { xs := [a], xd := [d], own := true } →
      (m.mode = .so → Claims.Answers s wait stl d (-2)) ∧
      (m.mode = .sw → m.given = false → m.owed = none → Claims.Answers s wait stl d (-3)) ∧
      (m.mode = .wo ∨ (m.mode = .sw ∧ (m.given = true ∨ m.owed ≠ none)) →
        (ahead → passes ∧ exec next s = exec wait s) ∧
        (¬ ahead → owing → s.core.trapOk = true → ∀ i ∈ [wait, next], ∃ t v, m.owed = some v ∧
          exec i s = .next t ∧ s.TakesTrap t s.core.pc 0x0D (word v)) ∧
        (¬ ahead → ¬ owing → Claims.Waits s wait .phwait ∧ Claims.Waits s next .phnext)) ∧
      (m.mode = .so → behind → Claims.Waits s next .phnext) ∧
      (m.mode = .so → ¬ behind → Claims.Leaves s next stl d (m.l.setWidth 64)
        ((e.phRelease p).phaserDone id (p.updMember s.vcore s.core.cur fun m => { m with l := m.l + 1 }))) ∧
      (m.mode = .sw → m.given = false → m.owed = none → s.core.m.sbuf = [] → p.dev = false → ¬ ahead →
        (∃ n ∈ p.members, n.signals = true ∧ n.gave p.p = false ∧ (n.vcore ≠ s.vcore ∨ n.win ≠ s.core.cur)) →
        Claims.Waits s next .phnext ∧ ∃ t, exec next s = .next t ∧
          t.phaser id = some (p.updMember s.vcore s.core.cur fun m => { m with given := true })))

/-- PhaserRecords and PhaserPhases: the statements above together. -/
def Obligations.Phasers : Prop :=
  Claims.PhaserRecords ∧ Claims.PhaserPhases

namespace Sys2Proof.Claims

/-- A descriptor-record instruction (R291): n blocks at X(A), each checked as a plain load on path 0, in order; with all of
them checked, and the store buffer drained, it goes on with what they hold, each none where its read receives an error
response. -/
def Blocks (s : State) (i : Instr) (ea : Word) (n : Nat) (k : List (Option (BitVec 512)) → State → Prop) : Prop :=
  match s.atIssue.locateBlocks ea n with
  | (.error c, s1) => exec i s = .next (s1.trapAt s1.core.pc c ea)
  | (.ok ks, s1) => let r := s1.drained.readBlocks ks; k r.1 r.2

/-- What a step that takes one copy fault, of group g of the current window, leaves (R128): the group's mask bit alone is
cleared, the fault is counted and takes four cycles, and nothing else of the machine changes but slots, results in flight, FP
flags, the PC and the cycle of the next issue. -/
structure CopyFault (s t : State) (g : Nat) (pc : Word) (stl : Nat) : Prop where
  only : s.OnlyCore t
  same : s.core.Same { t.core with
    wins := s.core.wins, fp := s.core.fp, eng := { t.core.eng with copyFaults := s.core.eng.copyFaults } }
  faults : t.core.eng.copyFaults = s.core.eng.copyFaults + 1
  window : t.core.curWin = { s.core.curWin with share := t.core.curWin.share, ready := s.core.issueCycle + 4 + stl }
  others : ∀ j, j ≠ s.core.cur → t.core.win j = s.core.win j
  share : ∀ k, t.core.curWin.share.getLsbD k = (decide (k ≠ g) && s.core.curWin.share.getLsbD k)
  pc : t.core.pc = pc
  cycle : t.core.cycle = s.core.issueCycle + 5

/-- The double that a read of offset k of the current window gives (R128). -/
def reads (s : State) (k : Nat) : Word := s.core.slot (s.core.src s.core.curWin k)

/-- A scalar write to a shared group of a struck window, no result being pending and the billets' slots outside the window:
the group's other offsets are copied from the billet, so that every other offset reads as before, and no slot outside the
window changes; the name itself receives the value as in any window (R128, R134). -/
def StruckScalar (s : State) (i : Instr) (u : Use) (lat : Option Nat) (d : Nat) (v : Word) (fl : Flags) (stl : Nat) : Prop :=
  s.Ready u →
    let w := s.core.curWin
    w.s = true → d ≠ 0 → w.share.getLsbD (d / 8) = true → s.core.pend = [] →
    (∀ m < w.size, w.share.getLsbD (m / 8) = true →
      s.core.src w m < w.base ∨ w.base + w.size ≤ s.core.src w m) →
      ∃ t, exec i s = .next t ∧ CopyFault s t (d / 8) (s.core.pc + 4) stl ∧
        t.core.fp = { s.core.fp with fflags := s.core.fp.fflags ||| fl } ∧
        (∀ m < w.size, m ≠ d → reads t m = reads s m) ∧
        (∀ n, n < w.base ∨ w.base + w.size ≤ n → t.core.slot n = s.core.slot n) ∧
        (lat = some 1 → t.core.slot (w.base + d) = v ∧ t.core.pend = []) ∧
        (lat ≠ some 1 → t.core.slot (w.base + d) = s.core.slot (w.base + d)) ∧
        (lat = none → t.core.pend = [{ kind := .flight, writes := [(w.base + d, v)] }]) ∧
        (∀ l, lat = some l → l ≠ 1 → t.core.pend =
          [{ kind := .fixed (s.core.issueCycle + l), writes := [(w.base + d, v)], chk := s.core.sbchk }])

/-- A vector write to a shared group of a struck window, no result being pending: the word delivers all eight doubles of the
group, those of its inactive lanes with what the name read before, so that no slot has to be copied and none changes (R128,
R203). -/
def StruckVector (s : State) (i : Instr) (len stl : Nat) (u : Use) (ns : List Nat) (cost d : Nat)
    (P : BitVec 512 → Flags → Prop) : Prop :=
  s.Ready u → (∀ n ∈ ns, s.core.bound s.core.cur n = none) →
    let w := s.core.curWin
    w.s = true → w.voff % 8 = 0 → w.share.getLsbD (w.voff / 8 + d) = true → s.core.pend = [] →
      ∃ t v fl, exec i s = .next t ∧ P v fl ∧ CopyFault s t (w.voff / 8 + d) (s.core.pc + BitVec.ofNat 64 len) stl ∧
        t.core.fp = s.core.fp ∧ (∀ n, t.core.slot n = s.core.slot n) ∧ t.core.pend =
          [{ kind := if cost = 0 then .flight else .queued cost, writes := vectorWrites s d v, flags := fl }]

/-- The instructions that deliver a scalar result, each with the names it uses, its latency, value and FP flags, and what it
needs: the integer operations, the FP operations that raise no enabled flag, the reads of control registers, and the loads
from scratchpad of the core's own cluster (R134, R147 to R150, R154 to R157, R161, R164). -/
noncomputable def scalarResults (s : State) (d a b : Nat) (imm : BitVec 10) (amt : BitVec 6) (top : BitVec 16) (stl : Nat) :
    List (Instr × Use × Option Nat × Word × Flags × Prop) :=
  let x := s.core.x
  let int := fun (i : Instr) xs lat v => (i, scalar xs d, lat, v, (0 : Flags), True)
  let fp := fun (i : Instr) xs (lat : Option Nat) (r : Word × Flags) =>
    (i, scalar xs d, if s.core.fp.fenable = 0 then lat else some (lat.getD 1), r.1, r.2, r.2 &&& s.core.fp.fenable = 0)
  (integerRR d a b stl).map (fun o => int o.1 [a, b] (some o.2.1) (o.2.2 (x a) (x b))) ++
  (integerR d a stl).map (fun o => int o.1 [a] (some 1) (o.2 (x a))) ++
  (integerRI d a imm stl).map (fun o => int o.1 [a] (some 1) (o.2 (x a))) ++
  (integerSh d a amt stl).map (fun o => int o.1 [a] (some 1) (o.2 (x a))) ++
  [int (.lui d top stl) [0] (some 1) ((top ++ (0 : BitVec 16)).signExtend 64),
   int (.lmid d top stl) [d] (some 1) ((x d).extractLsb' 48 16 ++ top ++ (x d).extractLsb' 0 32),
   int (.ltop d top stl) [d] (some 1) (top ++ (x d).extractLsb' 0 48)] ++
  (divisions d a b stl).map (fun o => (o.1, scalar [a, b] d, none, o.2 (x a) (x b), (0 : Flags), x b ≠ 0)) ++
  [(Fmt.f64, fp64), (Fmt.f32, fp32)].flatMap (fun g =>
    let el := fun n => (x n).toNat % 2 ^ g.1.width
    g.2.rr.map (fun o => let r := o.2.2 s.core.fp.frm (el a) (el b); fp (o.2.1 d a b stl) [a, b] o.1 (word r.1, r.2)) ++
    g.2.cmp.map (fun o => let r := o.2 (el a) (el b); fp (o.1 d a b stl) [a, b] (some 1) (truth r.1, r.2)) ++
    [let r := g.1.mac s.core.fp.frm (el d) (el a) (el b); fp (g.2.mac d a b stl) [d, a, b] (some 3) (word r.1, r.2)] ++
    g.2.un.map (fun o => fp (o.2.1 d a stl) [a] o.1 (o.2.2 s.core.fp.frm (x a)))) ++
  (registers s s.core.issueCycle).map (fun r =>
    (.csrr r.1 d stl, { priv := csrSv r.1, xd := [d], mem := false }, none, r.2, (0 : Flags), True)) ++
  (loads d a imm stl).map (fun o => let ea := effective s a imm o.2.1
    (o.1, access [a] [d], none, extended o.2.1 o.2.2 (little s (ownKey s ea) o.2.1), (0 : Flags),
      Quiet s ∧ OwnScratch s ea o.2.1))

end Sys2Proof.Claims

/-- In a struck window a write to a shared group takes a copy fault: the group's mask bit alone is cleared, and the fault is
counted and takes four cycles. A scalar result, whichever instruction delivers it, goes to the window's own slot, the group's
other offsets being copied from the billet; a vector result, of a lane or unary operation or a load, in full or under a
predicate, delivers the whole group, its inactive lanes with what the name read before. Every other name of the window reads
as before, and no slot outside it changes. The billets' slots lie outside the window in the scalar case, and no result is
pending (R128). -/
def Obligations.StruckWindows : Prop :=
  ∀ (s : State) (d a b stl : Nat),
    (∀ (imm : BitVec 10) (amt : BitVec 6) (top : BitVec 16), ∀ o ∈ Claims.scalarResults s d a b imm amt top stl,
      o.2.2.2.2.2 → Claims.StruckScalar s o.1 o.2.1 o.2.2.1 d o.2.2.2.1 o.2.2.2.2.1 stl) ∧
    (∀ (p : Pfx),
      (∀ o ∈ Claims.laneInstrs,
        Claims.LaneResultBy (Claims.StruckVector s) s (o.2.2 d a b stl) 4 stl {} o.1 o.2.1 d a b ∧
        Claims.LaneResultBy (Claims.StruckVector s) s (.pfx p (.lane o.1 o.2.1 d a b)) 8 p.stl p o.1 o.2.1 d a b) ∧
      (∀ (ty : LaneTy), ∀ o ∈ Claims.unaryInstrs,
        Claims.UnaryResultBy (Claims.StruckVector s) s (o.2 ty d a stl) 4 stl {} o.1 ty d a ∧
        Claims.UnaryResultBy (Claims.StruckVector s) s (.pfx p (.un o.1 ty d a)) 8 p.stl p o.1 ty d a) ∧
      (Claims.Quiet s → ∀ o ∈ Claims.laneLoads s p d a b stl, let op := o.2.2.2.2.1; let n := o.2.2.2.2.2.1
        o.2.2.2.2.2.2.2 →
        Claims.StruckVector s o.1 o.2.1 o.2.2.1 (op.uses o.2.2.2.1) (vSrcs' o.2.2.2.1 op) 0 d fun v fl => fl = 0 ∧
          Claims.Lanes o.2.2.2.1 (8 * n) (Claims.active s o.2.2.2.1 (64 / n))
            (fun k => Claims.little s (Claims.ownKey s (o.2.2.2.2.2.2.1 k)) n) (s.core.vec d) v))

/-- `tdef` gives the negative of the first failing check of those of its five blocks that could be read, or the number of
the new type, which holds them. `tspawn` releases at dev scope, and gives the negative of the first failing check of its
record, or the sequence number of the new task, the youngest of its die, with the record's type, priority and coordinates.
`tquery` gives of a live task that this logical die numbered its state, team, type, missing dependences and counter; of one
that is over its state alone; of one of another logical die 0; of −1 the versions not settled, the ready tasks and the free
task slots; of −2 the copy faults (R280, R290, R291, R292, R296). -/
def Obligations.TaskRecords : Prop :=
  ∀ (s : State) (d a stl : Nat),
    let x := s.core.x a
    (s.Clear { xs := [a], xd := [d] } → Claims.Blocks s (.tdef d a stl) x 5 fun rs s2 =>
      let code := s2.tdefCode rs
      (code ≠ 0 → Claims.Leaves s (.tdef d a stl) stl d (-(word code)) s2) ∧
      (code = 0 → ∃ bs l, rs = bs.map some ∧ s2.launchOf s.core.dom.launch = some l ∧
        Claims.Leaves s (.tdef d a stl) stl d (word l.types.length) { s2 with launches := s2.launches.map fun m =>
          if m.lid = l.lid then { m with types := m.types ++ [bs] } else m })) ∧
    (s.Clear { xs := [a, d], xd := [d] } →
      let hi := s.core.x d
      let e := s.atIssue.taskRelease
      let code := e.spawnCode hi x
      (code ≠ 0 → Claims.Leaves s (.tspawn d a stl) stl d (-(word code)) e) ∧
      (code = 0 → ∃ rs, e.typeOf s.core.dom.launch (hi.bits 0 12) = some rs ∧
        let r := e.spawn hi x rs
        Claims.Leaves s (.tspawn d a stl) stl d r.1 r.2 ∧
        let seq := 2 ^ 48 * s.core.dom.ldie + (sget {} (e.dieAt s.die).sched s.core.dom.launch).spawned + 1
        r.1 = word seq ∧
        ∃ t, (r.2.dieAt s.die).tasks.getLast? = some t ∧
          (r.2.dieAt s.die).tasks.length = (e.dieAt s.die).tasks.length + 1 ∧ t.seq = seq ∧
          t.lid = s.core.dom.launch ∧ t.vf = s.core.vf ∧ t.typ = hi.bits 0 12 ∧ t.pri = hi.bits 14 2 ∧ t.rcd = hi ++ x)) ∧
    (s.Clear { xs := [a], xd := [d] } → let i := Instr.tquery d a stl
      let mine := fun (t : Task) => t.lid = s.core.dom.launch
      let die := s.dieAt s.die
      (x = -2 → Claims.Answers s i stl d (word (s.core.eng.copyFaults % 2 ^ 48))) ∧
      (x = -1 → Claims.Answers s i stl d (word (
        ((((List.range 8).flatMap fun e => (s.dieAt e).versions).filter fun v =>
          v.lid = s.core.dom.launch ∧ v.settled = false ∧ v.watch = s.die).length) % 2 ^ 16 * 2 ^ 32 +
        (die.tasks.filter fun t => mine t ∧ t.state = .ready).length % 2 ^ 16 * 2 ^ 16 +
        (4096 - die.tasks.length) % 2 ^ 16))) ∧
      (x.toInt < 1 → x ≠ -1 → x ≠ -2 → Claims.Answers s i stl d (-1)) ∧
      (1 ≤ x.toInt → x.toNat / 2 ^ 48 ≠ s.core.dom.ldie → Claims.Answers s i stl d 0) ∧
      (∀ t, 1 ≤ x.toInt → x.toNat / 2 ^ 48 = s.core.dom.ldie →
        die.tasks.find? (fun t => mine t ∧ t.seq = x.toNat) = some t →
        let state := match t.state with | .waiting => 1 | .ready => 2 | .running => 3 | .yielded => 4 | .done => 5
        let missing := (t.deps.eraseDups.filter fun n =>
          (List.range 8).any fun e => (s.dieAt e).tasks.any fun u => u.lid = t.lid ∧ u.seq = n).length
        Claims.Answers s i stl d (word (state * 2 ^ 56 + t.team % 2 ^ 16 * 2 ^ 40 + t.typ % 2 ^ 12 * 2 ^ 28 +
          min missing 4095 * 2 ^ 16 + (if t.satisfied = true then 0 else 1)))) ∧
      (1 ≤ x.toInt → x.toNat / 2 ^ 48 = s.core.dom.ldie →
        die.tasks.find? (fun t => mine t ∧ t.seq = x.toNat) = none →
        let n := x.toNat % 2 ^ 48
        Claims.Answers s i stl d (if 1 ≤ n ∧ n ≤ (sget {} die.sched s.core.dom.launch).spawned then word (5 * 2 ^ 56) else 0)))

/-- `tnext xD, xA, i` raises WINDOW with i where entry i is valid. Otherwise it waits; with an offer, the checks of the
strike raise their traps, or the task is struck into entry i: the window is that of its type on the billet, its first slots
hold the entry, the sequence number, the coordinates and the bindings, and it gives the sequence number; at the deadline
without an offer it gives −1. A core that waits at its deadline is served, and without an offer is answered −1 by the event
(R279, R289, R293). -/
def Sys2Proof.Claims.TaskStarts : Prop :=
  ∀ (s : State) (d a i stl core : Nat),
    (s.Clear { xs := [a], xd := [d] } →
      ((s.core.win i).v = true → s.core.trapOk = true →
        ∃ t, exec (.tnext d a i stl) s = .next t ∧ s.TakesTrap t s.core.pc 0x04 (word i)) ∧
      ((s.core.win i).v = false → ∃ s1, s.atIssue.waiting .tnext (s.time + 1024) = .next s1 ∧
        let s2 := s1.serve s.die
        let base := (s.core.x a).toNat
        (s2.myOffer = none → s2.core.wait.all (fun w => decide (s.time < w.deadline)) = true →
          s2.core.wait ≠ none → exec (.tnext d a i stl) s = .next s2) ∧
        (∀ w, s2.myOffer = none → s2.core.wait = some w → w.deadline ≤ s.time →
          Claims.Leaves s (.tnext d a i stl) stl d (-1) s2) ∧
        (∀ t, s2.myOffer = some t →
          let h := s2.header t
          let b := s2.core.win (h.toNat / 2 ^ 64 % 2 ^ 5)
          let win : Win := { base, size := h.toNat / 2 ^ 96 % 2 ^ 14, voff := b.voff, parent := h.toNat / 2 ^ 64 % 2 ^ 5
                             v := true, s := true, share := BitVec.ofNat 128 (2 ^ (b.size / 8) - 4), lid := t.lid
                             task := t.seq, team := t.team }
          (∀ c v, s2.strikeCheck h win base = some (c, v) →
            exec (.tnext d a i stl) s = .next (s2.trapAt s2.core.pc c v)) ∧
          (s2.strikeCheck h win base = none → (∀ k ∈ [2, 3], s2.core.src b k ∉ s2.core.bad) →
            Claims.Leaves s (.tnext d a i stl) stl d (word t.seq) (s2.strike t i base) ∧
            let e := s2.strike t i base
            e.core.win i = { win with ready := (s2.core.win i).ready } ∧
            e.core.slot base = word (h.toNat % 2 ^ 64) ∧ e.core.slot (base + 1) = word t.seq ∧
            (∀ k < 4, e.core.slot (base + 4 + k) = word (t.rcd.toNat / 2 ^ (16 * k) % 2 ^ 16)) ∧
            (∀ k < 8, e.core.slot (base + 8 + k) = (t.binds[k]?).getD 0))))) ∧
    (let c := s.coreAt core
     let r := s.serve (dieOf core)
     ((∀ w, c.wait = some w → w.kind ≠ .tnext ∨ w.addr ≠ 0 ∨ s.time < w.deadline) →
       exec (.tnextTimeout core) s = .next s) ∧
     (∀ w u, c.wait = some w → w.kind = .tnext → w.addr = 0 → w.deadline ≤ s.time → (r.coreAt core).wait = some u →
       u.addr ≠ 0 → exec (.tnextTimeout core) s = .next r) ∧
     (∀ w, c.wait = some w → w.kind = .tnext → w.addr = 0 → w.deadline ≤ s.time → (r.coreAt core).wait = some w →
       c.curWin.s = false →
       ∃ t, exec (.tnextTimeout core) s = .next t ∧ (t.coreAt core).pc = c.pc + 4 ∧ (t.coreAt core).wait = none ∧
         c.Receives (t.coreAt core) none (c.ibits.toNat / 2 ^ 10 % 2 ^ 6) (-1) ∧ t.mem = s.mem))

namespace Sys2Proof.Claims

/-- A core refuses the billet that `freeze` sends to its entry n: it is current, halted, a billet or a struck window (R297).
-/
def refuses (s : State) (loc n : Nat) : Bool :=
  let y := (s.coreAt loc).win n
  decide ((s.coreAt loc).cur = n) || (y.v && (y.h || y.t || y.s))

end Sys2Proof.Claims

/-- `tdone i` and `tyield i` raise TEMPLATE with the current entry where its window is not struck, and WINDOW with i where
entry i is current, halted or not valid. In a struck window, with the header of entry i at hand, `tdone` drains the store
buffer and ends its task, which is live no more; its entry is invalid, unless it is a billet; `tyield`, in a window that is
no billet, stores PC + 4 in its header, and its task has yielded. Both go on in entry i at its header. `freeze` makes the
current window a billet of the launch, sends it to the launch's other cores, but for those whose entry is current, halted, a
billet or a struck window, whose number X(D) of entry i receives, over whatever else stood there, and goes on in entry i at
the next instruction; its checks raise TEMPLATE or WINDOW; that a destination within the frozen window raises TEMPLATE with
its slot is log 48 (R294, R295, R297). -/
def Sys2Proof.Claims.TaskEnds : Prop :=
  ∀ (s : State) (i stl : Nat),
    let w := s.core.curWin
    let n := s.core.cur
    let x := s.core.win i
    let header := s.core.src x 0
    let usable := x.v = true ∧ x.h = false
    (s.Clear {} → s.core.pend = [] → s.core.bad = [] → s.core.trapOk = true → ∀ j ∈ [Instr.tdone i stl, .tyield i stl],
      ∃ t, exec j s = .next t ∧ s.TakesTrap t s.core.pc 0x0B (word n)) ∧
    (s.Ready {} → w.s = true → s.core.trapOk = true → s.core.pend = [] → s.core.bad = [] →
      (¬ usable ∨ i = n → ∀ j ∈ [Instr.tdone i stl, .tyield i stl],
        ∃ t, exec j s = .next t ∧ s.TakesTrap t s.core.pc 0x04 (word i)) ∧
      (usable → i ≠ n → w.t = true →
        ∃ t, exec (.tyield i stl) s = .next t ∧ s.TakesTrap t s.core.pc 0x0B (word w.base))) ∧
    (s.Ready {} → w.s = true → usable → i ≠ n → s.core.pend = [] → s.core.bad = [] →
      (∃ t, exec (.tdone i stl) s = .next t ∧ t.core.cur = i ∧ t.core.sup = s.core.sup ∧
        (s.core.m.sbuf = [] → s.core.m.plog = [] → s.reds = [] →
          t.core.pc = s.core.slot header &&& ~~~1#64 ∧ t.mem = s.mem) ∧
        (∀ u ∈ (t.dieAt s.die).tasks, ¬ (u.lid = w.lid ∧ u.seq = w.task)) ∧
        (w.t = false → (t.core.win n).v = false)) ∧
      (w.t = false → s.core.inBillet w.base = false → w.share.getLsbD 0 = false →
        ∃ t, exec (.tyield i stl) s = .next t ∧ t.core.cur = i ∧ t.core.sup = s.core.sup ∧ t.mem = s.mem ∧
          t.core.pc = s.core.slot header &&& ~~~1#64 ∧ t.core.slot w.base = s.core.pc + 4 ∧
          (∀ k, k ≠ w.base → t.core.slot k = s.core.slot k) ∧
          (∀ u ∈ (t.dieAt s.die).tasks, u.lid = w.lid → u.seq = w.task →
            (x.s = true ∧ x.t = false ∧ x.lid = w.lid ∧ x.task = w.task) ∨ u.state = .yielded))) ∧
    (∀ d, s.Clear {} → s.core.pend = [] → let j := Instr.freeze d i stl
      let billet : Win := { w with t := true, lid := s.core.dom.launch, froze := s.focus }
      let names := usable → d ≠ 0 → d < x.size ∧ x.s = false ∧ s.core.inBillet (x.base + d) = false
      let within := fun k => w.base ≤ k ∧ k < w.base + w.size
      (usable → d ≠ 0 → x.size ≤ d → s.core.trapOk = true →
        ∃ t, exec j s = .next t ∧ s.TakesTrap t s.core.pc 0x04 (word d)) ∧
      (∀ c v, names → s.core.trapOk = true → s.freezeCheck i = some (c, v) →
        ∃ t, exec j s = .next t ∧ s.TakesTrap t s.core.pc c v) ∧
      (names → s.core.trapOk = true → s.freezeCheck i = none → d ≠ 0 → within (x.base + d) →
        ∃ t, exec j s = .next t ∧ s.TakesTrap t s.core.pc 0x0B (word (x.base + d))) ∧
      (∀ l, names → s.launchOf s.core.dom.launch = some l →
        n < 28 → w.t = false → w.size % 8 = 0 → 16 ≤ w.size → w.size ≤ 1024 → l.tlo ≤ w.base → w.base + w.size ≤ l.thi →
        usable → i ≠ n → (d ≠ 0 → ¬ within (x.base + d)) → (∀ k, within k → k ∉ s.core.bad) →
        (∀ loc ∈ s.launchCores l, ∀ k ∈ (s.coreAt loc).owed, ¬ within k) →
        ∃ t, exec j s = .next t ∧ t.core.cur = i ∧ t.core.pc = s.core.pc + 4 ∧ t.mem = s.mem ∧
          (∀ k, t.core.slot k = s.core.slot k) ∧ t.core.win n = { billet with ready := (t.core.win n).ready } ∧
          (d = 0 → t.core.pend = []) ∧
          (d ≠ 0 → (s.launchCores l).Nodup → t.core.pend = [{ kind := .flight, writes := [(x.base + d,
            word ((s.launchCores l).filter fun loc => decide (loc ≠ s.focus) && Claims.refuses s loc n).length)] }]) ∧
          ∀ loc ∈ s.launchCores l, loc ≠ s.focus →
            (Claims.refuses s loc n = true → (s.launchCores l).Nodup → t.coreAt loc = s.coreAt loc) ∧
            (Claims.refuses s loc n = false →
              (t.coreAt loc).win n = { billet with ready := ((s.coreAt loc).win n).ready } ∧
              ∀ k, within k → (t.coreAt loc).slot k = s.core.slot k)))

/-- TaskStarts and TaskEnds: the statements above together. -/
def Obligations.TaskStartsAndEnds : Prop :=
  Claims.TaskStarts ∧ Claims.TaskEnds

/-- `tclaim` and `tlaunch` read their record as a plain load does; a claim or a release, and a start, give the negative of
the first failing check, the rest of the state as before. A claim gives the first identifier after the last one given that
no launch holds, for a launch of the record's VF over the clusters of its rectangle of columns and rows, where the package
is listed, and of none where it is not; it stands last, its clusters name it, and nothing else changes (that a claim also
lets a cluster's incoming buffer take tiles of the VF again is log 54); a release gives 0, its launch being gone; a start
gives 0, and every core of the launch within the contexts of its cluster runs at the entry, in entry 0, in user mode (R290,
R300, R301, R302, R303). -/
def Obligations.Launches : Prop :=
  ∀ (s : State) (d a stl : Nat), s.Clear { priv := true, xs := [a], xd := [d] } →
    let x := s.core.x a
    Claims.Blocks s (.tclaim d a stl) x 1 (fun rs s1 =>
      let r := rs.head?.join
      let p := match r with
        | some r => s1.pkgList r
        | none => (none, s1)
      let code := p.2.claimCode r p.1
      (code ≠ 0 → Claims.Leaves s (.tclaim d a stl) stl d (-(word code)) p.2) ∧
      (code = 0 → ∃ c e, r = some c ∧
        (clmRelease c = true → Claims.Leaves s (.tclaim d a stl) stl d 0 e ∧
          e.launches = p.2.launches.filter fun l => l.lid ≠ clmLid c) ∧
        (clmRelease c = false → ∃ l, Claims.Leaves s (.tclaim d a stl) stl d (word l.lid) e ∧
          e = { p.2 with launches := p.2.launches ++ [l], lastLid := l.lid, clusters := e.clusters } ∧
          l.vf = clmVf c ∧ l.started = false ∧ l.roam = c.getLsbD 27 ∧ p.1 = some l.pkgs ∧
          (∃ i < 65535, l.lid = (p.2.lastLid + i) % 65535 + 1 ∧ p.2.launchOf l.lid = none ∧
            ∀ j < i, p.2.launchOf ((p.2.lastLid + j) % 65535 + 1) ≠ none) ∧
          (∀ k, k ∈ l.clusters ↔ p.2.fabric.endpt ∈ l.pkgs ∧ k < 512 ∧ k % 64 < 32 ∧
            let col := 2 * (k / 64 % 4) + k % 64 % 2
            let row := 16 * (k / 64 / 4) + k % 64 / 2
            rfld c 11 3 ≤ col ∧ col ≤ rfld c 14 3 ∧ rfld c 17 5 ≤ row ∧ row ≤ rfld c 22 5) ∧
          l.clusters.Pairwise (· < ·) ∧
          ∀ k, e.clAt k = if k ∈ l.clusters then { p.2.clAt k with lid := l.lid, away := (e.clAt k).away } else p.2.clAt k))) ∧
    Claims.Blocks s (.tlaunch d a stl) x 1 (fun rs s1 =>
      let r := rs.head?.join
      let code := s1.launchCode (some s.core.vf) r
      (code ≠ 0 → Claims.Leaves s (.tlaunch d a stl) stl d (-(word code)) s1) ∧
      (code = 0 → ∃ c l e, r = some c ∧ s1.launchOf (dscLid c) = some l ∧
        Claims.Leaves s (.tlaunch d a stl) stl d 0 e ∧
        (e.launchOf l.lid).any (·.started) = true ∧ e.mem = s1.mem ∧
        ∀ loc ∈ s1.launchCores l, posOf loc < dscCpc c →
          (e.coreAt loc).run = .running ∧ (e.coreAt loc).pc = dscEntry c &&& ~~~1#64 ∧ (e.coreAt loc).cur = 0 ∧
          (e.coreAt loc).sup = false ∧ (e.coreAt loc).asid = rfld c 336 16 ∧ (e.coreAt loc).dom.launch = l.lid ∧
          (e.coreAt loc).x 3 = word (rfld c 64 64)))

namespace Sys2Proof.Claims

/-- A candidate for an offer to a waiting core: a ready task of its launch on its die that no waiting core of the die has been
offered (R335). -/
def Candidate (s : State) (loc : Nat) (t : Task) : Prop :=
  t ∈ (s.dieAt (dieOf loc)).tasks ∧ t.lid = (s.coreAt loc).dom.launch ∧ t.state = .ready ∧
    ∀ c w, dieOf c = dieOf loc → (s.coreAt c).dom.launch = t.lid → (s.coreAt c).wait = some w → w.kind = .tnext →
      w.addr ≠ word t.seq

/-- The scratch quota that the task asks for is free in the core's cluster: what running tasks hold and what tasks offered
there will take is set off against it (R293, R335). -/
def Fits (s : State) (loc : Nat) (l : Launch) (t : Task) : Prop :=
  tyScr (s.header t) + ((s.clAt (s.clOf loc)).scrUsed + s.scrOffered (s.clOf loc) l.lid) ≤ l.quota

/-- A task that has been ready for 400,000 ticks is overdue; its level is its priority, one more for every 100,000 ticks, at
most 3 (R334); a task is older where it has been ready longer, or as long with the lower sequence number (R335). -/
def Overdue (s : State) (t : Task) : Prop := t.readyTick + 400000 ≤ s.time
def levelOf (s : State) (t : Task) : Nat := min 3 (t.pri + (s.time - t.readyTick) / 100000)
def Older (a b : Task) : Prop := a.readyTick < b.readyTick ∨ a.readyTick = b.readyTick ∧ a.seq < b.seq

/-- The set C from which the scheduler chooses: the candidates that fit, and of these those older than every overdue
candidate that does not (R335). -/
def Choice (s : State) (loc : Nat) (t : Task) : Prop :=
  ∃ l, s.launchOf (s.coreAt loc).dom.launch = some l ∧ Candidate s loc t ∧ Fits s loc l t ∧
    ∀ u, Candidate s loc u → Overdue s u → ¬ Fits s loc l u → Older t u

/-- The oldest of the members of C that p holds of. -/
def OldestOf (s : State) (loc : Nat) (p : Task → Prop) (t : Task) : Prop :=
  Choice s loc t ∧ p t ∧ ∀ u, Choice s loc u → p u → ¬ Older u t

/-- A member of C of the highest level. -/
def Top (s : State) (loc : Nat) (t : Task) : Prop := ∀ u, Choice s loc u → levelOf s u ≤ levelOf s t

/-- A task is resident for the core's cluster: of its bindings on path 2 one that is read names the core's logical cluster,
and none names another (R335). -/
def Resident (s : State) (loc : Nat) (t : Task) : Prop :=
  let far := (s.bindings t).filter fun b => bdMode b.1 ≠ 0 ∧ b.2.bits 60 4 = 2
  (∃ b ∈ far, (bdMode b.1 = 1 ∨ bdMode b.1 = 3) ∧ b.2.bits 40 8 = (s.coreAt loc).dom.vcl) ∧
    ∀ b ∈ far, b.2.bits 40 8 = (s.coreAt loc).dom.vcl

/-- The task that R335 chooses for a core: the oldest overdue member of C, or else, of the highest level, the oldest resident
one, or else the oldest. -/
def Chosen (s : State) (loc : Nat) (t : Task) : Prop :=
  ((∃ u, Choice s loc u ∧ Overdue s u) → OldestOf s loc (Overdue s) t) ∧
  ((∀ u, Choice s loc u → ¬ Overdue s u) →
    ((∃ u, Choice s loc u ∧ Top s loc u ∧ Resident s loc u) →
      OldestOf s loc (fun u => Top s loc u ∧ Resident s loc u) t) ∧
    ((∀ u, Choice s loc u → Top s loc u → ¬ Resident s loc u) → OldestOf s loc (Top s loc) t))

/-- The copy that settles a version: of its bytes from the pool tile to the home tile, by the engines of the pool's cluster,
with no ticket of any core (R119). One that has faulted is made anew (log 47). -/
def settleCmd (s : State) (v : Version) : Cmd :=
  let cluster := fun (a : Word) =>
    if a.bits 60 4 = 2 then (s.clOfLogical v.lid (a.bits 40 8)).getD (64 * v.watch) else 64 * v.watch
  { ticket := 0, form := .cpy, pc := 0, win := 0, vf := v.vf, asid := v.asid, vcore := 0xFFFF, die := v.watch
    cl := cluster v.pool, lid := v.lid, sup := false, src := byteWalk v.pool v.size, dst := byteWalk v.home v.size
    sw := if v.faulted = true then s.switches else v.sw }

/-- A version is marked, wherever the die lists it. -/
def marked (s : State) (die : Nat) (v : Version) (f : Version → Version) : State :=
  s.updDie die fun x => { x with versions := x.versions.map fun u => if u.id = v.id then f u else u }

/-- A version whose settle meets nothing in its way: its pool tile, of whole doubles, lies in the die's own memory under one
leaf that its VF may read, at the physical address P, its home tile in scratchpad of cluster kh from offset oh, whose Tongs
the VF owns and whose banks have stayed scratchpad since it began; the die holds no translation and no copy, and no word is
uncorrectable (R43, R50, R82, R107, R286). -/
structure Settles (s : State) (v : Version) (P kh oh : Nat) : Prop where
  tile : 0 < v.size ∧ v.size % 8 = 0 ∧ v.pool.toNat + v.size ≤ 2 ^ 48
  leaf : ∃ pte level, s.walk { die := v.watch, vf := v.vf, asid := v.asid, sup := false, vcore := 0xFFFF } v.pool.toNat =
    .ok (pte, level) ∧ ¬ (level = 3 ∧ pte.bit 7 = true) ∧ v.pool.toNat % leafSize pte level + v.size ≤ leafSize pte level ∧
    Access.permitted .load pte false = true ∧ P = leafPa pte level v.pool.toNat
  own : ∀ k < v.size, isHbm (P + k) = true ∧ homeDie (P + k) = v.watch ∧ s.groupOwned v.vf (P + k) = true
  home : ∃ n < 256, v.home = word (2 ^ 61 + 2 ^ 40 * n + oh) ∧ s.clOfLogical v.lid n = some kh
  scratch : kh < 512 ∧ oh % 8 = 0 ∧ oh + v.size ≤ 0x600000 ∧ s.tongsOwned v.vf kh = true
  banks : ∀ b < 24, (s.bank kh b).role = .scratch ∧ (s.bank kh b).switching = none ∧ (s.bank kh b).queue = [] ∧
    (s.bank kh b).left ≤ v.sw
  quiet : v.faulted = false ∧ (s.dieAt v.watch).tlb = [] ∧ (s.dieAt v.watch).l2 = [] ∧ s.wbacks = [] ∧ s.poison = []

end Sys2Proof.Claims

/-- The schedulers of the dies: a task whose counter reads zero is satisfied; the first waiting core in placement order for
which R335 has a choice is offered the task that it chooses; the ranks are taken again at every multiple of 10,000 ticks,
every cluster of the die in the order of its key; the first version that may settle starts to; when a started one's copy
succeeds it has settled, and its home tile holds the bytes of the version; where the copy faults it stays renamed, and the
first fault of it is recorded with ticket 0 and the bytes it has moved; a roaming launch migrates teams at every multiple of
50,000 ticks, once at a tick. That an event makes one offer, the ranks of one die and one decision, and none a step has made
at that tick, is log 10; that a settle which has faulted is made anew, and where its engines look, is log 47 (R119, R285,
R286, R287, R335, R336, R337, R338, R345). -/
def Obligations.SchedulerEvents : Prop :=
  ∀ (s : State) (die k lid : Nat),
    (∀ t, (s.dieAt die).tasks[k]? = some t →
      (t.counter = none ∨ t.satisfied = true → exec (.counterSatisfied die k) s = .next s) ∧
      (∀ a, t.counter = some a → t.satisfied = false → let r := s.counterValue die t a
        (r.1 ≠ 0 → exec (.counterSatisfied die k) s = .next r.2) ∧
        (r.1 = 0 → ∃ e u, exec (.counterSatisfied die k) s = .next e ∧ (e.dieAt die).tasks[k]? = some u ∧
          u.satisfied = true ∧ u.seq = t.seq ∧ u.lid = t.lid ∧ u.rcd = t.rcd))) ∧
    ((s.dieAt die).tasks[k]? = none → exec (.counterSatisfied die k) s = .next s) ∧
    ((∀ x ∈ s.placement die, ∀ u, ¬ Claims.Choice s x u) → exec (.taskOffer die) s = .next s) ∧
    (∀ l loc r, s.placement die = l ++ loc :: r → (∀ x ∈ l, ∀ u, ¬ Claims.Choice s x u) → (∃ u, Claims.Choice s loc u) →
      ∃ t w, Claims.Chosen s loc t ∧ (s.coreAt loc).wait = some w ∧ exec (.taskOffer die) s = .next
        (s.updCoreAt loc fun c => { c with wait := some { w with addr := word t.seq } })) ∧
    (s.time % 10000 ≠ 0 → exec (.placementRank die) s = .next s) ∧
    (s.time % 10000 = 0 → ∃ r, exec (.placementRank die) s = .next (s.updDie die fun x => { x with rank := r }) ∧
      r.length = 32 ∧ (∀ n < 32, 64 * die + n ∈ r) ∧
      r.Pairwise fun a b => keyLe (s.rankKey a) (s.rankKey b) = true) ∧
    ((∀ v ∈ (s.dieAt die).versions, v.settling = true ∨ s.mayComplete die v = false) → exec (.settle die) s = .next s) ∧
    (∀ l v r, (s.dieAt die).versions = l ++ v :: r → (∀ x ∈ l, x.settling = true ∨ s.mayComplete die x = false) →
      v.settling = false → s.mayComplete die v = true →
      exec (.settle die) s = .next (s.updDie die fun x => { x with versions := x.versions.map fun u =>
        if u.id = v.id then { u with settling := true, sw := s.switches } else u })) ∧
    ((s.dieAt die).versions[k]? = none → exec (.settleComplete die k) s = .next s) ∧
    (∀ v, (s.dieAt die).versions[k]? = some v →
      (v.settling = false ∨ v.settled = true → exec (.settleComplete die k) s = .next s) ∧
      (v.settling = true → v.settled = false → let i := Instr.settleComplete die k
        let r := s.settleCopy (Claims.settleCmd s v) (List.range ((v.size + 255) / 256))
        (r.2.1 = none → exec i s = .next (Claims.marked r.2.2 die v fun u => { u with settled := true }).refresh) ∧
        (∀ P kh oh, Claims.Settles s v P kh oh → ∃ t, exec i s = .next t ∧
          (∀ u ∈ (t.dieAt die).versions, u.id = v.id → u.settled = true) ∧
          ∀ n, let home := scratchKey kh oh
            t.byte n = if home ≤ n ∧ n < home + v.size then s.byte (P + (n - home)) else s.byte n) ∧
        (∀ f, r.2.1 = some f →
          (v.faulted = true → exec i s = .next s) ∧
          (v.faulted = false → exec i s = .next ((Claims.marked r.2.2 die v fun u => { u with faulted := true }).pushFault
            v.watch v.vf 0xFFFF (faultRecord s.time f.2 r.1.progress 0 0 0 0 f.1 v.vf 5 0 0 0 0)))))) ∧
    (∀ l, s.launchOf lid = some l → let due := s.time % 50000 = 0 ∧ s.epoch ≠ s.time
      (¬ (l.roam = true ∧ l.started = true ∧ due) → exec (.migrationDecision lid) s = .next s) ∧
      (l.roam = true → l.started = true → due → exec (.migrationDecision lid) s = .next (s.migrate l) ∧
        ∀ e, ∀ t ∈ ((s.migrate l).dieAt e).tasks, ∃ d, ∃ u ∈ (s.dieAt d).tasks,
          u.seq = t.seq ∧ u.lid = t.lid ∧ u.rcd = t.rcd ∧ u.binds = t.binds)) ∧
    (s.launchOf lid = none → exec (.migrationDecision lid) s = .next s)

namespace Sys2Proof.Claims

/-- The writes of control registers with hypervisor rights that have events of their own: unit, offset, register and value
written (R5, R51, R52, R342, R344, R371, R373, R379, R398, R408, R411). -/
noncomputable def controlWrites (die vf log core v row ep : Nat) (x : Word) : List (Instr × Nat × Nat × Reg × Word) :=
  [(.haltQueueRemove die vf, die, 0x010000 + 0x40 * vf + 0x28, .haltQ die vf 5, 0),
   (.faultQueueRemove die vf, die, 0x020000 + 0x100 * vf + 0xC0, .faultQ die vf 24, 0),
   (.errorLogRemove die log, die, 0x030000 + 0x40 * log + 0x20, .errLog die log 4, 0),
   (.invalidateCmd die vf x, die, 0x041000 + 0x20 * vf + 0x10, .inv die vf 2, x),
   (.commit die, die, 0x050200, .commit die, 1),
   (.corevfWrite core vf, dieOf core, 0x082000 + 8 * numOf core, .corevf core, word vf),
   (.remapWrite v x, 8, 0x0D0000 + 8 * v, .remap v, x), (.sparectl die x, die, 0x0D1000, .sparectl die, x),
   (.packageBudgetWrite x, 8, 0x0C0000, .budget, x),
   (.coreclkWrite core x, dieOf core, 0x0B0000 + 8 * numOf core, .coreclk core, x),
   (.rowvWrite die row x, die, 0x0B1000 + 8 * row, .rowv die row, x), (.frouteWrite ep x, 8, 0x100800 + 8 * ep, .froute ep, x)]

/-- A write of a register with hypervisor rights: the register's own effect, or, where it refuses the value, an entry of
code 6 in the error log for firmware (R7, R39, R408). -/
def Written (s : State) (i : Instr) (unit off : Nat) (r : Reg) (x : Word) : Prop :=
  match s.regSet r x with
  | some t => exec i s = .next t
  | none => exec i s = .next ((s.refused r).logAt (if unit < 8 then unit else 0) 16 0xFFFF
      (word (9 * 2 ^ 60 + unit * 2 ^ 24 + off)) 6)

/-- The step changes no core, no cluster and no byte of memory. -/
def DiesOnly (s t : State) : Prop := t.core = s.core ∧ t.others = s.others ∧ t.clusters = s.clusters ∧ t.mem = s.mem

/-- A context of VF vf is the tenant of a core now: the core is the VF's and not quenched, and where it is stopped no
context of that name stands captured or parked (R363). -/
def tenant (s : State) (loc vf vcore : Nat) : Prop :=
  (s.coreAt loc).vf = vf ∧ (s.coreAt loc).run ≠ .quenched ∧
    ((s.coreAt loc).run = .stopped → (∀ k ∈ (s.coreAt loc).ctx.captures, ¬ (k.vf = vf ∧ k.vcore = vcore)) ∧
      ∀ p ∈ (s.dieAt (dieOf loc)).parked, ¬ (p.vf = vf ∧ p.vcore = vcore))

/-- The clock of a core after a step that changes no other core and no byte of memory. -/
def Clocked (s : State) (i : Instr) (core : Nat) (clk : Clk) : Prop :=
  exec i s = .next (s.updCoreAt core fun c => { c with clk })

end Sys2Proof.Claims

/-- Each register write that is an event reaches its register and has the register's effect, or is refused and logged; an
offset that names no register is logged with code 7. The head of a halt queue, a fault queue or an error log is gone; COREVF
of a stopped core, an ownership bitmap that takes nothing of another VF, the budget, a route, a divider and a row's level
hold what was written; COMMIT takes the staged groups; an invalidation runs on the range as it stood until it completes, and
then no translation of the VF that it names, no line of the cluster ways that it covers and no reduction of the VF's cores
on the die is left. Until the boot is complete firmware does not run, and writes none of them (R402). That a refused write
enters log 16 of the unit's die, die 0 for the I/O dies, with code 6, and an offset that names no register with code 7, is
log 64; whether a quenched core counts as stopped for COREVF, log 60 (R5, R39, R49, R51, R52, R342, R344, R371, R373, R374,
R379, R398, R408, R411). -/
def Obligations.ControlWrites : Prop :=
  ∀ (s : State) (die vf log core v row ep unit off : Nat) (x : Word),
    die < 8 → vf < 16 → log < 17 → isCore core = true → v < 2048 → row < 16 → ep < 256 →
    (s.boot.stat ≠ 2 → (∀ o ∈ Claims.controlWrites die vf log core v row ep x, exec o.1 s = .next s) ∧
      (¬ (unit = 8 ∧ 0x120000 ≤ off ∧ off < 0x120400) → exec (.registerWrite unit off x) s = .next s) ∧
      exec (.ownershipBitmapWrite unit off x) s = .next s) ∧
    (s.boot.stat = 2 →
    (∀ o ∈ Claims.controlWrites die vf log core v row ep x, Claims.Written s o.1 o.2.1 o.2.2.1 o.2.2.2.1 o.2.2.2.2) ∧
    (regAt unit off = none → off < 2 ^ 24 → unit < 16 → exec (.registerWrite unit off x) s = .next
      (s.logAt (if unit < 8 then unit else 0) 16 0xFFFF (word (9 * 2 ^ 60 + unit * 2 ^ 24 + off)) 7)) ∧
    (∀ r, regAt unit off = some r → Claims.Written s (.registerWrite unit off x) unit off r x) ∧
    exec (.ownershipBitmapWrite unit off x) s =
      (if 0x060000 ≤ off ∧ off < 0x060400 then exec (.registerWrite unit off x) s else .next s) ∧
    (let new : Own := { sget {} (s.dieAt die).own vf with clusters := x.setWidth 32 }
     (∀ u < 16, u ≠ vf → (sget {} (s.dieAt die).own u).clusters &&& new.clusters = 0) →
      ∃ t, exec (.ownershipBitmapWrite die (0x060000 + 0x40 * vf) x) s = .next t ∧ Claims.DiesOnly s t ∧
        sget {} (t.dieAt die).own vf = new) ∧
    (∃ t, exec (.haltQueueRemove die vf) s = .next t ∧ Claims.DiesOnly s t ∧
      ∀ n, (sget {} (t.dieAt die).haltQ n) = { sget {} (s.dieAt die).haltQ n with
        entries := (sget {} (s.dieAt die).haltQ n).entries.drop (if n = vf then 1 else 0) }) ∧
    (∃ t, exec (.faultQueueRemove die vf) s = .next t ∧ Claims.DiesOnly s t ∧
      ∀ n, (sget {} (t.dieAt die).faultQ n) = { sget {} (s.dieAt die).faultQ n with
        records := (sget {} (s.dieAt die).faultQ n).records.drop (if n = vf then 1 else 0) }) ∧
    (∃ t, exec (.errorLogRemove die log) s = .next t ∧ Claims.DiesOnly s t ∧
      ∀ n, (sget {} (t.dieAt die).errLog n) = { sget {} (s.dieAt die).errLog n with
        entries := (sget {} (s.dieAt die).errLog n).entries.drop (if n = log then 1 else 0) }) ∧
    exec (.packageBudgetWrite x) s = .next { s with budget := min (x.bits 0 16) 3200 } ∧
    (∃ t, exec (.frouteWrite ep x) s = .next t ∧ Claims.DiesOnly s t ∧ sget 0 t.fabric.sel ep = x.bits 0 4 ∧
      ∀ e, sget none t.fabric.route e =
        if e = ep then (if x.getLsbD 63 then some (x.bits 0 4) else none) else sget none s.fabric.route e) ∧
    (let c := s.coreAt core
     c.run = .stopped ∨ c.run = .quenched → (∀ k ∈ c.ctx.captures, k.unsaved = true → k.vf = vf) →
      exec (.corevfWrite core vf) s = .next (s.updCoreAt core fun c => { c with vf })) ∧
    (let old := s.remapAt v
     let loc := 512 * x.bits 16 3 + x.bits 0 9
     let logged := fun (l : Nat) => (s.coreAt l).m.sbuf ≠ [] ∨ (s.coreAt l).m.plog ≠ []
     (x.getLsbD 63 = true → x.bits 0 9 < 256 ∧ ∀ u < 2048, u ≠ v → (s.remapAt u).valid = true → (s.remapAt u).loc ≠ loc) →
     (old.valid = true → (s.coreAt old.loc).run = .stopped) →
      ∃ t, exec (.remapWrite v x) s = .next t ∧ (old.valid = false ∨ ¬ logged old.loc → Claims.DiesOnly s t) ∧
        (t.coreAt old.loc).m.sbuf = (if old.valid then [] else (s.coreAt old.loc).m.sbuf) ∧
        (t.coreAt old.loc).m.plog = (if old.valid then [] else (s.coreAt old.loc).m.plog) ∧
        t.remapAt v = ⟨x.getLsbD 63, loc⟩ ∧ ∀ u, u ≠ v → t.remapAt u = s.remapAt u) ∧
    (x.getLsbD 63 = false → exec (.sparectl die x) s = .next s) ∧
    (let clu := 64 * die + x.bits 0 6
     x.getLsbD 63 = true → x.bits 0 6 < 32 → (s.clAt clu).lid = 0 → (∀ l ∈ s.coresOf clu, (s.coreAt l).run = .stopped) →
     sget none (s.dieAt die).spares (x.bits 8 1) = none →
      ∃ t, exec (.sparectl die x) s = .next t ∧ sget none (t.dieAt die).spares (x.bits 8 1) = some (x.bits 0 6) ∧
        ((∀ l ∈ s.coresOf clu, (s.coreAt l).m.sbuf = [] ∧ (s.coreAt l).m.plog = []) → t.mem = s.mem)) ∧
    (let c := s.coreAt core
     divFloor (s.level8 (dieOf core) (s.rowOfCore core)) ≤ x.bits 0 4 →
     x.getLsbD 8 = false ∨ c.run = .stopped →
      ∃ t, exec (.coreclkWrite core x) s = .next t ∧ (t.coreAt core).clk.off = x.getLsbD 8 ∧
        (c.clk.pend = none → t.divOf core = x.bits 0 4) ∧
        (∀ p, c.clk.pend = some p → (t.coreAt core).clk.pend = some (x.bits 0 4, p.2) ∧ t.divOf core = s.divOf core)) ∧
    ((∀ l ∈ s.coresOf (64 * die + 2 * row) ++ s.coresOf (64 * die + 2 * row + 1), divFloor (x.bits 0 3) ≤ s.divOf l ∧
        ∀ p, (s.coreAt l).clk.pend = some p → divFloor (x.bits 0 3) ≤ p.1) →
      ∃ t, exec (.rowvWrite die row x) s = .next t ∧ Claims.DiesOnly s t ∧ t.level8 die row = x.bits 0 3) ∧
    ((s.dieAt die).commitOk = true → ∃ t, exec (.commit die) s = .next t ∧
      (t.dieAt die).groupL = (s.dieAt die).stagedL ∧ (t.dieAt die).commitRefused = false ∧ t.core = s.core) ∧
    (let b := sget {} (s.dieAt die).inv vf
     ∃ t, exec (.invalidateCmd die vf x) s = .next t ∧ (sget {} (t.dieAt die).inv vf).cmd = x &&& 0x1FFFF#64 ∧
       (sget {} (t.dieAt die).inv vf).run = some (b.va, b.len, x &&& 0x1FFFF#64))) ∧
    (let b := sget {} (s.dieAt die).inv vf
     (b.run = none → exec (.invalidateComplete die vf) s = .next s) ∧
     (∀ va len cmd, b.run = some (va, len, cmd) → ∃ t, exec (.invalidateComplete die vf) s = .next t ∧
       (sget {} (t.dieAt die).inv vf).run = none ∧ (∀ r ∈ t.reds, ¬ (r.vf = vf ∧ dieOf r.core = die)) ∧
       let named := fun (v asid : Nat) (pte : Word) =>
         v = vf ∧ (cmd.getLsbD 16 = true ∨ asid = cmd.bits 0 16 ∨ pte.getLsbD 6 = true)
       let lo := va.toNat / 4096 * 4096
       let hi := lo + (len.toNat + 4095) / 4096 * 4096
       let inside := fun (base size : Nat) => len = 0 ∨ (base < hi ∧ lo < base + size)
       (∀ e ∈ (t.dieAt die).tlb, named e.vf e.asid e.pte →
         let size := leafSize e.pte e.level
         ¬ inside (e.vpn * 4096 / size * size) size) ∧
       ∀ k < 64, ∀ l ∈ (t.clAt (64 * die + k)).ways, named l.vf l.asid l.pte → ¬ inside (64 * l.line) 64))

/-- The quench: GO with a tick 20,000 ticks ahead or more arms it, with an earlier one is rejected, and while a quench waits
for its flush changes nothing (log 56); at its tick every core of the VF is captured, and stops, a sliced one going on in
its other half; STATUS waits for the tokens of their dies; the token of the last one ends it, with no reduction of the VF's
cores on that die left. A spill ends without a fault or with one. CORECMD answers 1 where there is nothing to continue or to
run in place; a restore, and a run in place, that fail no check point the core at the context, which a sliced core holds
staged and another runs at its saved PC (which VF's image, and which code where several hold or none is given, is log 53; a
malformed block, log 76; when a cluster image is saved and put back, log 54). A packet held for 2,000 ticks leaves, and a
released orphan slot is empty. What the hypervisor writes changes nothing before the boot is complete (R402) (R251, R348,
R349, R350, R352, R358 to R364). -/
def Obligations.QuenchEvents : Prop :=
  ∀ (s : State) (vf tick die core cl vcore k : Nat) (mask : BitVec 64),
    let q := sget {} s.quench vf
    let armed := fun (q : Quench) => ({ s with quench := sput {} s.quench vf q } : State)
    (s.boot.stat ≠ 2 → ∀ i ∈ [Instr.qctlGo vf tick, .corecmdContinueSpill core, .corecmdRestore core vcore,
      .corecmdRunInPlace core vcore, .orphrel die cl mask], exec i s = .next s) ∧
    (s.boot.stat = 2 → q.status = 2 → exec (.qctlGo vf tick) s = .next s) ∧
    (s.boot.stat = 2 → q.status ≠ 2 → exec (.qctlGo vf tick) s = .next (armed (if tick < s.time + 20000 then
      { q with tick := word tick, go := false, status := 3 } else { q with tick := word tick, go := true, status := 1 }))) ∧
    (q.status ≠ 1 ∨ s.time < q.tick.toNat → exec (.quenchTick vf) s = .next s) ∧
    (q.status = 1 → q.tick.toNat ≤ s.time → ∃ t, exec (.quenchTick vf) s = .next t ∧
      let dies := ((s.coresOfVf vf).map dieOf).eraseDups
      (sget {} t.quench vf).dies = dies ∧ (sget {} t.quench vf).status = (if dies = [] then 4 else 2) ∧
      (s.coresOfVf vf = [] → t.core = s.core ∧ t.others = s.others ∧ t.mem = s.mem) ∧
      ∀ loc, isCore loc = true → (s.coreAt loc).vf = vf → (s.coreAt loc).run ≠ .quenched →
        let c := s.coreAt loc
        let side := c.arena.side
        ∃ k : Capture, (t.coreAt loc).ctx.captures = c.ctx.captures ++ [k] ∧ k.vf = vf ∧ k.vcore = s.vcoreOf loc ∧
          k.sliced = c.arena.sliced ∧ k.half = (if c.arena.sliced = true ∧ side = true then 1 else 0) ∧
          (c.arena.sliced = false → (t.coreAt loc).run = .quenched) ∧
          (c.arena.sliced = true → (t.coreAt loc).arena.side = !side ∧
            (c.ctx.staged = none → (t.coreAt loc).run = .stopped ∧ (t.coreAt loc).cur = 28))) ∧
    (q.status ≠ 2 ∨ die ∉ q.dies → exec (.flushToken die vf) s = .next s) ∧
    (q.status = 2 → die ∈ q.dies → ∃ t, exec (.flushToken die vf) s = .next t ∧
      let dies := q.dies.filter fun d => d ≠ die
      (sget {} t.quench vf).dies = dies ∧ (sget {} t.quench vf).status = (if dies = [] then 4 else 2) ∧
      (∀ r ∈ t.reds, r.vf = vf → dieOf r.core ≠ die) ∧ (∀ f ∈ t.fstores, f.vf = vf → dieOf f.core ≠ die)) ∧
    ((∀ c ∈ (s.coreAt core).ctx.captures, c.spilling = false) →
      exec (.spillDone core) s = .next s ∧ exec (.spillFault core) s = .next s) ∧
    (∀ l c r, (s.coreAt core).ctx.captures = l ++ c :: r → (∀ x ∈ l, x.spilling = false) → c.spilling = true →
      let w := s.spill core c
      (w.1 = false → exec (.spillDone core) s = .next w.2 ∧ exec (.spillFault core) s = .next s) ∧
      (w.1 = true → exec (.spillFault core) s = .next w.2 ∧ exec (.spillDone core) s = .next s)) ∧
    (let clu := 64 * die + cl
     let x := s.clAt clu
     (x.toSave = [] → x.spill = none → (∀ i ∈ x.staged, s.entered clu i.1 = false) →
       exec (.clusterSpill die cl) s = .next s) ∧
     (x.toSave = [] → x.spill = none → ∀ i, x.staged.find? (fun i => s.entered clu i.1) = some i →
       exec (.clusterSpill die cl) s = .next (s.loadCluster i.2.1 i.1 clu i.2.2)) ∧
     (∀ p, x.toSave = [] → x.spill = some p → p.spilling = false → exec (.clusterSpill die cl) s = .next s) ∧
     (∀ p, x.toSave = [] → x.spill = some p → p.spilling = true →
       let w := s.spillTo (s.saveWho die p.vf 0xFFFF) (s.clBlock p.vf clu) p.image p.done
       cl < 64 → ∃ t, exec (.clusterSpill die cl) s = .next t ∧ t.mem = w.2.2.mem ∧ (t.clAt clu).spill =
         (if w.1 = none then none else some { p with done := w.2.1, spilling := false, unsaved := true }))) ∧
    (isCore core = false → exec (.corecmdContinueSpill core) s = .next s ∧ exec (.corecmdRestore core vcore) s = .next s ∧
      exec (.corecmdRunInPlace core vcore) s = .next s) ∧
    (isCore core = true → s.boot.stat = 2 →
      let result := fun (e : State) (op code : Nat) => e.updCoreAt core fun c =>
        { c with ctx := { c.ctx with cmdOp := op, cmdCode := code, cmdBusy := false } }
      let c := s.coreAt core
      ((∀ x ∈ c.ctx.captures, x.unsaved = false) → (s.clAt (s.clOf core)).spill.all (fun p => !p.unsaved) = true →
        exec (.corecmdContinueSpill core) s = .next (result s 1 1)) ∧
      (∀ x, c.ctx.captures = [x] → x.unsaved = true → ∃ t, exec (.corecmdContinueSpill core) s = .next t ∧
        (t.coreAt core).ctx.captures = [{ x with spilling := true }] ∧ (t.coreAt core).ctx.cmdCode = 0) ∧
      ((∀ x ∈ c.ctx.captures, x.vcore ≠ vcore) → exec (.corecmdRunInPlace core vcore) s = .next (result s 3 1)) ∧
      (∃ t code, exec (.corecmdRunInPlace core vcore) s = .next t ∧ (t.coreAt core).ctx.cmdOp = 3 ∧
        (t.coreAt core).ctx.cmdCode = code ∧ (code = 0 ∨ code = 1 ∨ code = 5)) ∧
      (∀ k cl u, c.ctx.captures.find? (fun x => decide (x.vcore = vcore)) = some k → s.readCluster core k.vf = (some cl, u) →
        ∃ t, exec (.corecmdRunInPlace core vcore) s = .next t ∧ (t.coreAt core).ctx.cmdCode = 0 ∧
          (t.coreAt core).ctx.captures = c.ctx.captures.filter (fun x => decide (x.half ≠ k.half)) ∧
          (c.arena.sliced = true → (t.coreAt core).ctx.staged = some ⟨k.half, k.vf, k.vcore, k.header⟩) ∧
          (c.arena.sliced = false → (t.coreAt core).pc = hdrPc k.header &&& ~~~1#64 ∧ (t.coreAt core).vf = hdrVf k.header)) ∧
      (∃ t code, exec (.corecmdRestore core vcore) s = .next t ∧ (t.coreAt core).ctx.cmdOp = 2 ∧
        (t.coreAt core).ctx.cmdCode = code ∧ code ≤ 6 ∧
        (c.arena.sliced = false → c.ctx.captures ≠ [] → (∀ x ∈ c.ctx.captures, x.half = 0) → code = 1)) ∧
      (let v := s.imageVf core vcore
       let w := v.2.saveWho (dieOf core) v.1 vcore
       let b := v.2.readBlock w (v.2.coreBlock v.1 vcore)
       ∀ r h d cl, b.1 = some r → let i := b.2.readImage w r; i.1 = (some h, some d) →
         let g := i.2.readCluster core v.1
         g.1 = some cl → g.2.restoreCode core v.1 vcore (some r) (some h) true = 0 →
         ∃ t, exec (.corecmdRestore core vcore) s = .next t ∧ (t.coreAt core).ctx.cmdCode = 0 ∧
           t.remapAt vcore = ⟨true, core⟩ ∧
           (c.arena.sliced = true → (t.coreAt core).ctx.staged = some ⟨1 - b2n c.arena.side, v.1, vcore, h⟩) ∧
           (c.arena.sliced = false → (t.coreAt core).pc = hdrPc h &&& ~~~1#64 ∧ (t.coreAt core).vf = hdrVf h))) ∧
    (∀ p, s.held[k]? = some p →
      (s.locOf p.vcore = none → exec (.packetHoldExpiry k) s = .next s) ∧
      (∀ loc, s.locOf p.vcore = some loc → let here := Claims.tenant s loc p.vf p.vcore
        (here → exec (.packetHoldExpiry k) s = .next (s.deliverHeld loc p.vf p.vcore)) ∧
        (¬ here → s.time < p.since + 2000 ∨ p.data = [] ∨ p.met = true → exec (.packetHoldExpiry k) s = .next s) ∧
        (¬ here → p.since + 2000 ≤ s.time → p.data ≠ [] → p.met = false →
          let m := (s.unhold (· = p)).mailAppend (dieOf loc) p
          exec (.packetHoldExpiry k) s = .next (if m.1 = true then m.2
            else m.2.logAt (dieOf ((m.2.locOf p.src).getD loc)) p.vf p.src p.addr 1)))) ∧
    (s.boot.stat = 2 → ∃ t, exec (.orphrel die cl mask) s = .next t ∧ t.core = s.core ∧ t.mem = s.mem ∧
      ∀ n < 64, sget {} (t.clAt (64 * die + cl)).accs n =
        if mask.getLsbD n = true ∧ (sget {} (s.clAt (64 * die + cl)).accs n).orphan = true then {}
        else sget {} (s.clAt (64 * die + cl)).accs n)

/-- Power: a window of 128 ns ends with an estimate that is the sum of the weights in force times the counts, those of the
cores being the instructions they issued and those of the array its busy cycles, 64 for each `mmac`, and the weights as they
stand are in force in the next; once at a multiple of 10,000 ticks every die's share stays below its ceiling, every core's
new duty between 1 and 16, and the averages start again. A hop that is aborted goes back to the old divider, and is tried
again 2,000 ticks later. A core that has idled for 1,000 ticks since the last reset is clock-gated, and for 50,000
power-gated. A wait of 10^8 ticks is reported as HANG. A sleeping core wakes at its deadline, without cause, and by its
doorbell. That a hop lasts until the tick after its start, and that a budget round already made at a tick is not made again,
is log 10; that the other counts of a window are free, log 59; when a window, a retry or a gate that is due comes, log 10
(R172, R229, R369, R371, R374, R376, R377, R401). -/
def Obligations.PowerEvents : Prop :=
  ∀ (s : State) (die cl core : Nat),
    let c := s.coreAt core
    let clu := 64 * die + cl
    let k := s.clAt clu
    (s.time < k.winAt + 128 → exec (.activityWindow die cl) s = .next s) ∧
    (k.winAt + 128 ≤ s.time → ∃ t, ∃ n : Nat → Nat, exec (.activityWindow die cl) s = .next t ∧ t.mem = s.mem ∧
      (∀ e < 8, n e = (s.coreAt (s.coreOf clu e)).obs.issues ∧ (t.coreAt (s.coreOf clu e)).obs.issues = 0) ∧
      (∀ e, 8 ≤ e → e < 16 → n e ≤ 128) ∧ (∀ e, 16 ≤ e → e < 20 → n e = sget 0 k.macBusy e) ∧
      let sum := ((List.range 48).map fun e => ((sget none k.inForce e).getD (Config.fuseWeight die cl e)).toNat * n e).sum
      (cl < 64 → t.clAt clu = { k with
        estimate := BitVec.ofNat 32 (min sum 0xFFFFFFFF), energy := k.energy + sum, windows := k.windows + 1
        inForce := k.weights, winAt := k.winAt + 128, macBusy := [] })) ∧
    (s.time % 10000 ≠ 0 ∨ s.epoch = s.time → exec .budgetInterval s = .next s) ∧
    (s.time % 10000 = 0 → s.epoch ≠ s.time → ∃ t, exec .budgetInterval s = .next t ∧ t.mem = s.mem ∧
      (∀ d < 8, (t.dieAt d).share ≤ watts (Config.dieCeiling d)) ∧
      (∀ d < 8, ∀ k < 32, ∀ p < 8, let duty := (t.coreAt (s.coreOf (64 * d + k) p)).clk.dutyNew
        1 ≤ duty ∧ duty ≤ 16) ∧
      (∀ k, (t.clAt k).energy = 0 ∧ (t.clAt k).windows = 0)) ∧
    (∀ old n, c.clk.hop = some (old, n) →
      (n + 1 < s.time → exec (.hopAbort core) s = .next s) ∧
      (s.time ≤ n + 1 → Claims.Clocked s (.hopAbort core) core { c.clk with
        div := some old, hop := none, pend := some (c.clk.div.getD old, s.time + 2000) })) ∧
    (c.clk.hop = none → exec (.hopAbort core) s = .next s) ∧
    (∀ div n, c.clk.pend = some (div, n) →
      (s.time < n → exec (.hopRetry core) s = .next s) ∧
      (n ≤ s.time → Claims.Clocked s (.hopRetry core) core { c.clk with
        div := some div, hop := some (s.divOf core, s.time), pend := none })) ∧
    (c.clk.pend = none → exec (.hopRetry core) s = .next s) ∧
    (∀ n, (c.run = .stopped ∨ (∃ u, c.run = .asleep u)) ∧ n = max c.clk.idleSince s.resetAt ∨
        (∃ w, c.run = .running ∧ c.wait = some w ∧ n = max w.since s.resetAt) →
      (s.time < n + 1000 → exec (.clockGate core) s = .next s) ∧
      (n + 1000 ≤ s.time → Claims.Clocked s (.clockGate core) core { c.clk with gate := 1 }) ∧
      (s.time < n + 50000 → exec (.powerGate core) s = .next s) ∧
      (n + 50000 ≤ s.time → Claims.Clocked s (.powerGate core) core { c.clk with gate := 2 })) ∧
    (c.run = .quenched ∨ c.run = .running ∧ c.wait = none →
      exec (.clockGate core) s = .next s ∧ exec (.powerGate core) s = .next s) ∧
    ((∀ w, c.wait = some w → c.run ≠ .running ∨ s.time < w.report + 100000000) →
      exec (.residencyTimer core) s = .next s) ∧
    (∀ w, c.wait = some w → c.run = .running → w.report + 100000000 ≤ s.time →
      ∃ t, exec (.residencyTimer core) s = .next t ∧ t.mem = s.mem ∧
        (t.coreAt core) = { c with wait := some { w with report := s.time } } ∧
        ((sget {} (s.dieAt (dieOf core)).haltQ c.vf).entries.length < 64 →
          (sget {} (t.dieAt (dieOf core)).haltQ c.vf).entries = (sget {} (s.dieAt (dieOf core)).haltQ c.vf).entries ++
            [⟨haltMsg s.time c.ibits.toNat c.pc c.vf (s.vcoreOf core) 0 (b2n c.sup) c.ilen w.win 0x14,
              ({ c.win w.win with h := false } : Win).desc⟩])) ∧
    (∀ u, c.run = .asleep u →
      let awake := s.updCoreAt core fun c => { c with run := .running, clk := { c.clk with gate := 0 } }
      exec (.sleepEndWithoutCause core) s = .next awake ∧ exec (.wakeDoorbell core) s = .next awake ∧
      (∀ n, u = some n → exec (.sleepDeadline core) s = .next (if n ≤ s.time then awake else s)) ∧
      (u = none → exec (.sleepDeadline core) s = .next s)) ∧
    ((∀ u, c.run ≠ .asleep u) → ∃ t, exec (.sleepEndWithoutCause core) s = .next t ∧
      exec (.wakeDoorbell core) s = .next t ∧ (∀ n, t.coreAt n = s.coreAt n) ∧ t.mem = s.mem ∧ t.dies = s.dies ∧
      exec (.sleepDeadline core) s = .next s)

/-- Observation: a credit of a shared unit counts in the core of its VF, and waits while the context is stopped; a sample
gives its records: of the PC, where the core takes samples and its period has ended as far as the model counts its cycles,
with the reason the core's state shows or else the given one, and of the oldest request the core has marked for a sample
(log 68); the oldest record of a trace buffer is written at PUT, which moves on, or, where it cannot be, the buffer is
emptied, its EN cleared and its address logged with code 8. A flit that fails 16 times in a row is logged; a scrub may find
a word of HBM4 uncorrectable, and spares of it are logged (both of these come as events, and where their entries stand, log
69) (R382, R383, R387, R388, R390, R391, R392, R399, R409). -/
def Obligations.ObservationEvents : Prop :=
  ∀ (s : State) (vcore vf ev n core reason die fails w : Nat) (m : MemSample) (bad spare : Bool),
    let c := s.coreAt core
    let counted := 18 ≤ ev ∧ ev ≤ 22 ∧ (21 ≤ ev → (sget {} s.vfpol vf).tenant = false)
    (¬ counted → exec (.counterCredit vcore vf ev n) s = .next s) ∧
    (s.locOf vcore = none → exec (.counterCredit vcore vf ev n) s = .next s) ∧
    (∀ loc, counted → s.locOf vcore = some loc →
      let here := Claims.tenant s loc vf vcore
      let drawn := { s with oracle := s.oracle + 1 }
      (here → ∃ sup, exec (.counterCredit vcore vf ev n) s =
        .next (drawn.updCoreAt loc fun c => c.countAs sup none ev n)) ∧
      (¬ here → (∃ k ∈ (s.coreAt loc).ctx.captures, k.vf = vf ∧ k.vcore = vcore) → ∃ sup,
        exec (.counterCredit vcore vf ev n) s = .next { drawn with credits := s.credits ++ [(vcore, vf, ev, n, sup)] })) ∧
    (let on := fun k => c.clk.samp.getLsbD k = true ∧ c.run ≠ .stopped ∧ c.run ≠ .quenched
     let next := c.clk.sampAt + max 1 (c.clk.samp.bits 8 24)
     let due := c.run ≠ .running ∨ c.wait ≠ none ∨ c.held = true ∨ next ≤ c.cycle
     let at_ := min c.cycle next
     (¬ on 0 ∨ ¬ due → exec (.pcSample core reason) s = .next s) ∧
     (on 0 → due → exec (.pcSample core reason) s =
       .next ((s.updCoreAt core fun c => { c with clk := { c.clk with sampAt := at_ } }).trace (dieOf core) c.vf
         (s.vcoreOf core) c.cur 1 c.pc (s.reason core at_ reason))) ∧
     ((∃ t, c.run = .asleep t) → s.reason core at_ reason = 15) ∧
     (∀ w, c.run = .running → c.wait = some w → s.reason core at_ reason = w.kind.reason) ∧
     (c.run = .running → c.wait = none →
       (c.held = true → 16 ≤ c.queued → s.reason core at_ reason = 4) ∧
       (c.held = true → c.queued < 16 → c.eng.trip = none → 48 ≤ s.requests core → s.reason core at_ reason = 17) ∧
       (c.held = false → at_ < c.curWin.ready → s.reason core at_ reason = 1)) ∧
     (c.obs.sampled = [] → exec (.memorySample core m) s = .next s) ∧
     (∀ pc ea win rest, c.obs.sampled = (pc, ea, win) :: rest →
       let put := fun (e : State) kind data => e.trace (dieOf core) c.vf (e.vcoreOf core) win kind data 0
       let s0 := s.updCoreAt core fun c => { c with obs := { c.obs with sampled := rest } }
       exec (.memorySample core m) s = .next (put (put (put (put (put s0 2 pc) 3 ea) 4 (hopWord m.hops 0)) 5
         (hopWord m.hops 1)) 6 (hopWord m.hops 2)))) ∧
    (let b := sget {} (s.dieAt die).trace vf
     let a := b.tbase + word b.put
     (b.queue = [] → exec (.traceRecordPerformed die vf) s = .next s) ∧
     (∀ r rs, b.queue = r :: rs →
       let o := s.saveWrite (s.saveWho die vf 0xFFFF) a (bytesOf r.toNat 16)
       let set := fun (b : TraceBuf) => o.2.updDie die fun x => { x with trace := sput {} x.trace vf b }
       exec (.traceRecordPerformed die vf) s = .next
         (if o.1 = none then set { b with queue := rs, put := (b.put + 16) % b.tsize.toNat }
          else (set { b with queue := [], ctl := b.ctl &&& 6 }).logAt die vf 0xFFFF a 8))) ∧
    (fails < 16 → exec (.flitCrcFailure die fails) s = .next s) ∧
    (16 ≤ fails → exec (.flitCrcFailure die fails) s = .next (s.logAt die 16 0xFFFF 0 11)) ∧
    (let pa := w / 8 * 8
     (isHbm pa = false → exec (.hbm4Scrub w bad spare) s = .next s) ∧
     (isHbm pa = true → ∃ t, exec (.hbm4Scrub w bad spare) s = .next t ∧ t.mem = s.mem ∧
       (bad = true → pa ∈ t.poison) ∧ (bad = false → t.poison = s.poison) ∧
       (spare = false → t.dies = s.dies) ∧
       (spare = true → t = { (s.logAt (homeDie pa) 16 0xFFFF (word pa) 12) with poison := t.poison })))

/-- Power-up and reset give the machine right after reset but for the timebase and memory, and what of memory they keep is
log 62. BOOTGO starts the check of the image, once, and STAT says 1 while it runs; a code other than 2 then stands in STAT
and nothing else changes; on 2 the measurements are extended, the fabric registers locked, and the service cores start at
ENTRY. ATTGO starts a report, which, once it is done, holds the nonce as it stands then, the measurements and the device
identifier, with its signature (byte orders, and what HBM4 answers before and after the boot, are log 61). A write of TAIL
brings the records from HEAD up to it to their service core, which takes them, in the order they came, moving HEAD (log 49);
before the boot is complete it changes nothing. An access from the fabric to HBM4 of this package reads or writes its bytes;
one that fits no mapped range, or that a register refuses, is logged, in the log of die 0 (log 43) (R333, R397, R400, R402,
R403, R404, R405, R406). -/
def Obligations.HostEvents : Prop :=
  ∀ (s : State) (q core : Nat) (tail : BitVec 32) (r : FabricReq),
    exec .powerUpReset s = .next { State.reset with
      time := s.time, resetAt := s.time, oracle := s.oracle, seq := s.seq, agenda := s.agenda, focus := s.focus
      epoch := s.epoch, mem := s.mem, poison := s.poison } ∧
    exec .bootgo s = .next (if s.boot.stat = 0 then { s with boot := { s.boot with stat := 1 } } else s) ∧
    (s.boot.stat ≠ 1 → s.turn .bootCheck = .next s) ∧
    (s.boot.stat = 1 → s.bootCode ≠ 2 → s.turn .bootCheck = .next { s with boot := { s.boot with stat := s.bootCode } }) ∧
    (s.boot.stat = 1 → s.bootCode = 2 → ∃ t, s.turn .bootCheck = .next t ∧ t.core = s.core ∧ t.mem = s.mem ∧
      t.fabric.lock = true ∧ t.fabric.rateLock = true ∧ t.fabric.endpt < 256 ∧ t.boot = { s.boot with
        stat := 2, entry := some (word (s.bootField 0x18 8))
        meas0 := extend s.boot.meas0 (sha512 (s.bytes 0 0x300 ++ s.bytes 0x800 (s.bootField 8 8)))
        meas1 := extend s.boot.meas1 (s.bytes (0x800 + s.bootField 0x20 8) 64) }) ∧
    exec .attgo s = .next (if s.boot.attBusy = true then s
      else { s with boot := { s.boot with attBusy := true, attDone := false } }) ∧
    (s.boot.attBusy = false → exec .attestationDone s = .next s) ∧
    (s.boot.attBusy = true → ∃ t salt, exec .attestationDone s = .next t ∧
      t = { s with boot := t.boot, oracle := s.oracle + 1 } ∧
      t.boot.attBusy = false ∧ t.boot.attDone = true ∧ t.boot.sig = attSign t.boot.rep (bytesOf salt 64) ∧
      t.boot.rep.extractLsb' 0 512 = s.boot.nonce ∧ t.boot.rep.extractLsb' 512 512 = s.boot.meas0 ∧
      t.boot.rep.extractLsb' 1024 512 = s.boot.meas1 ∧ t.boot.rep.extractLsb' 1536 512 = Config.deviceId ∧ t.boot.stat = s.boot.stat) ∧
    (s.boot.stat ≠ 2 → exec (.hostRequestTail q tail) s = .next s) ∧
    (s.boot.stat = 2 → let owed := (tail - (sget {} s.queues q).head).toNat
      let total := fun (as : List (Nat × Nat)) => ((as.filter fun a => a.1 = q).map (·.2)).sum
      ∃ as, exec (.hostRequestTail q tail) s = .next { s with
          queues := sput {} s.queues q { sget {} s.queues q with tail }, arrivals := as } ∧ total as = owed ∧
        (total s.arrivals < owed → as = s.arrivals ++ [(q, owed - total s.arrivals)]) ∧
        (as.filter fun a => a.1 ≠ q) = s.arrivals.filter fun a => a.1 ≠ q) ∧
    (s.boot.stat ≠ 2 → exec (.hostRequestTake core) s = .next s) ∧
    ((∀ a ∈ s.arrivals, serverOf a.1 ≠ core) → exec (.hostRequestTake core) s = .next s) ∧
    (∀ l n rest, s.boot.stat = 2 → s.arrivals = l ++ (q, n) :: rest → (∀ a ∈ l, serverOf a.1 ≠ core) →
      serverOf q = core → ∃ t, exec (.hostRequestTake core) s = .next t ∧
        t.arrivals = l ++ (if n ≤ 1 then rest else (q, n - 1) :: rest) ∧
        (sget {} t.queues q).head = (sget {} s.queues q).head + 1) ∧
    (let hbm := r.off < 0x8000000000
     let ctl := 0x40000000000 ≤ r.off ∧ r.off < 0x40010000000
     let refused := fun (e : State) (c : Nat) =>
       e.logAt 0 16 0xFFFF (word (2 ^ 51 + s.fabric.endpt % 2 ^ 8 * 2 ^ 43 + r.off % 2 ^ 43)) c
     (¬ hbm → ¬ ctl → exec (.fabricRequest r) s = .next (refused s 1)) ∧
     (hbm → s.boot.stat = 2 ∨ r.off / 2 ^ 36 = 0 → isHbm r.off = true → s.poison = [] →
       (r.op = .read → exec (.fabricRequest r) s = .next s) ∧
       (∀ bs, r.op = .write bs → ∃ t, exec (.fabricRequest r) s = .next t ∧ t.core = s.core ∧
         ∀ j, t.byte j = if r.off ≤ j ∧ j < r.off + bs.length then bs.getD (j - r.off) 0 else s.byte j)) ∧
     (ctl → r.size ≠ 8 ∨ r.off % 8 ≠ 0 → exec (.fabricRequest r) s = .next (refused s 6)) ∧
     (∀ bs, ctl → r.size = 8 → r.off % 8 = 0 → s.boot.stat = 2 → r.src = s.fabric.hostep → r.op = .write bs →
       let p := r.off - 0x40000000000
       ∀ g, regAt (p / 2 ^ 24) (p % 2 ^ 24) = some g →
         (∀ t, s.regSet g (word (natOf bs)) = some t → exec (.fabricRequest r) s = .next t) ∧
         (s.regSet g (word (natOf bs)) = none → exec (.fabricRequest r) s = .next (refused (s.refused g) 6))))

namespace Sys2Proof.Claims

open Sys2Proof.Machine

/-- The parcels at an address and after it, fetched in order (R16). -/
def Reads : List Nat → Word → State → State → Prop
  | [], _, s, t => t = s
  | p :: ps, va, s, t => ∃ u, s.parcel va = (.ok p, u) ∧ Reads ps (va + 2) u t

/-- The issuing core fetches its next instruction: no turn stands on the agenda, the core issues, and it neither waits nor
is held. -/
def Fetches (s : State) : Prop :=
  s.agenda = [] ∧ s.tick.core.idle = false ∧ s.tick.core.stuck = false

/-- Words put together from the field tables (R18, R24 to R29), with their bits, and the instructions they stand for. -/
noncomputable def words : List (Nat × Nat × Instr) :=
  [(32, 0b0000_000010_000001_000011_000_000000_1, .add 3 1 2 0),
   (32, 0b1111111111_000100_000101_010_000010_1, .addi 5 4 (-1) 2),
   (32, 0b0000_000010_000001_000011_000_001100_1, .faddF64 3 1 2 0),
   (32, 0b1111111111110_001_000110_000_001110_1, .bnez 6 (-2) 0),
   (32, 0b0000000000000000000100_000_010001_1, .call 4 0),
   (32, 0b0000000011_001000_001001_000_010100_1, .ldW 9 8 3 0),
   (32, 0b000000_0001000000_000010_000_011110_1, .csrr 0x040 2 0),
   (32, 0b000101_0000_000000_000000_000_100000_1, .trap 5 0),
   (32, 0b00011_0_0001_000000_000001_000_100001_1, .wget 1 3 0),
   (32, 0b0000_000010_000001_000011_000_100010_1, .vaddF32 3 1 2 0),
   (32, 0b0011_000010_000101_000100_000_101010_1, .vabs .bf16 4 5 0),
   (32, 0b010000_0010_000011_01_0101_000_101110_1, .vtrip 3 5 1 2 16 0),
   (32, 0b000000_0011_000101_000111_000_110000_1, .mmac 7 5 0),
   (32, 0b1_000_000010_000001_000011_000_110001_1, .atomAddBlk true 3 1 2 0),
   (32, 0b000110_0010_000101_000111_000_110110_1, .put 7 5 6 0),
   (32, 0b0001_000010_000001_000011_000_111001_1, .cpyFe 3 1 2 0),
   (32, 0b00100_0_0010_000010_000001_000_111011_1, .tnext 1 2 4 0),
   (32, 0b000_011_0000_000000_000000_000_111100_1, .fence .dev 0),
   (16, 0b1_00011_00010_0000_0, .vadd16 true 2 3),
   (64, 0b0000_000010_000001_000011_000_100010_1 * 2 ^ 32 + 0b00000000_0_000000_1_000_001_000_111110_1,
     .pfx { pm := 1, z := true } (.lane .f32 .add 3 1 2))]

/-- The control registers after reset: `cr.frm` 1, `cr.win` MODE 1 and CUR 28, the formats 1, `cr.lease` N 16, `cr.vwt` 1,
`cr.vcl` and TEAM 0xFFFF; the others zero (R403). -/
def resetRegisters : List (Nat × Word) :=
  [(0x000, 1), (0x001, 0), (0x002, 0), (0x003, 0), (0x004, 0x11C), (0x005, 0), (0x010, 0), (0x011, 0), (0x012, 0), (0x013, 0),
   (0x014, 0), (0x015, 0), (0x016, 0), (0x020, 1), (0x021, 1), (0x022, 0), (0x023, 0), (0x030, 16), (0x031, 1),
   (0x041, 0xFFFF), (0x042, 0xFFFF0000), (0x043, 0), (0x060, 0), (0x070, 0), (0x071, 0), (0x072, 0), (0x073, 0), (0x074, 0),
   (0x075, 0), (0x076, 0), (0x077, 0), (0x078, 0), (0x079, 0), (0x07A, 0), (0x07B, 0), (0x07C, 0), (0x07D, 0), (0x07E, 0),
   (0x07F, 0), (0x080, 0), (0x081, 0), (0x082, 0), (0x083, 0), (0x084, 0), (0x085, 0), (0x086, 0), (0x087, 0)]

/-- The package's memory is in its canonical form: addresses strictly rise, and no entry holds what an unlisted address
reads as. -/
def Canonical (s : State) : Prop := Memory.wf s.mem = true

end Sys2Proof.Claims

/-- Decoding gives back what was encoded: the parcels of a well-formed instruction, whatever stands after them, decode to
that instruction and to their number, which is its length in halves; each is 16 bits. Every well-formed instruction but the
events and the encodings that are no instruction has parcels (R16, R18 to R31). -/
def Obligations.RoundTrip : Prop :=
  ∀ (i : Instr), i.wf = true →
    (∀ ps, encode i = some ps → (∀ rest, decodeParcels (ps ++ rest) = .ok (i, ps.length)) ∧ instrLen i = 2 * ps.length ∧
      ∀ p ∈ ps, p < 2 ^ 16) ∧
    (encode i = none → i.isEvent = true ∨ ∃ bits len, i = .illegalEncoding bits len)

/-- Words written out bit by bit from the field tables decode to the instructions they stand for; a reserved major, and a
one in a field that must be zero, to none (R18, R24 to R31). -/
def Obligations.DecodedWords : Prop :=
  (∀ w ∈ Claims.words, decodeTableWord w.1 w.2.1 = some w.2.2) ∧
  decodeTableWord 32 0b0000_000000_000000_000000_000_111111_1 = none ∧
  decodeTableWord 32 0b1000_000001_000001_000011_000_000001_1 = none

/-- A step of a core that fetches runs the instruction that the parcels at its PC decode to, on the state that the fetch
leaves, the next tick having come and, where the core takes PC samples, those that are due (log 68), with those parcels
latched; parcels that are no instruction stand for themselves (R31). A fetch that fails traps with its cause and the address
of the parcel, the parcels before it latched (log 31) (R17, R160). A core that waits or is held goes on with the instruction
it has latched, which it does not fetch again (log 72), after the engines beside it; an idle core executes nothing; and a
turn of the agenda is taken before any of these (log 1). -/
def Obligations.StepRunsDecoded : Prop :=
  ∀ (s : State),
    (Claims.Fetches s → ∀ ps t, Claims.Reads ps s.tick.core.pc s.tick.periodic t →
      (∀ i, decodeParcels ps = .ok (i, ps.length) → step s = exec i (t.latch ps)) ∧
      (∀ e, e ≠ .truncated → decodeParcels ps = .error e → ps.length = parcelsNeeded ps →
        step s = exec (.illegalEncoding (bitsOf ps) ps.length) (t.latch ps)) ∧
      (ps.length < 4 → (ps = [] ∨ ps.length < parcelsNeeded ps) → ∀ c u,
        t.parcel (s.tick.core.pc + BitVec.ofNat 64 (2 * ps.length)) = (.error c, u) →
          step s = ({ u.latch ps with core := (u.latch ps).core.toIssue } : State).trap c (s.tick.core.pc + BitVec.ofNat 64 (2 * ps.length)))) ∧
    (s.tick.core.samples = false → s.tick.periodic = s.tick) ∧
    (s.agenda = [] → s.tick.core.idle = false → s.tick.core.stuck = true →
      s.tick.engines.core.idle = false → s.tick.engines.core.stuck = true →
        step s = exec (instrOf s.tick.engines.core.latched) s.tick.engines) ∧
    (s.agenda = [] → s.tick.core.idle = true → s.tick.engines.sleepEnds.core.idle = true →
      step s = .next s.tick.engines.sleepEnds) ∧
    (∀ i ts, s.agenda = .event i :: ts → i.isEvent = true → i.wf = true →
      step s = exec i (({ s with agenda := ts } : State).tick)) ∧
    (∀ loc ts, s.agenda = .focus loc :: ts → isCore loc = true →
      step s = .next ((({ s with agenda := ts } : State).tick).refocus loc))

/-- No step stops: from every state a step answers a next state, but where the agenda names a core the package does not
have (log 1): no instruction is refused, and none faults. -/
def Obligations.EveryStepGoesOn : Prop :=
  ∀ (s : State), s.goesOn ∨ ∃ loc ts, s.agenda = .focus loc :: ts ∧ isCore loc = false ∧ step s = .fault .noSuchCore

/-- Every step keeps memory in its canonical form, so that equal memories are equal data. -/
def Obligations.MemoryStaysCanonical : Prop :=
  ∀ (s t : State), Claims.Canonical s → step s = .next t → Claims.Canonical t

/-- Memory is in its canonical form after reset, and every byte of it reads zero (log 4). -/
def Obligations.ResetMemory : Prop :=
  Claims.Canonical State.reset ∧ ∀ k, State.reset.byte k = 0

/-- After reset every core is stopped in supervisor mode in window 28, the only valid entry, at PC 0, with zero in every
slot, nothing in flight or pending, no ticket issued, and its control registers as R403 says; entry 256·d + n of the remap
table names core n of die d (R379); VF 0 owns every resource, its way masks are all ones, every other bitmap and mask is
zero, and each stack is one group of 64 (R52); every bank is a cache way (R79); the latch's current is empty and incoming
free (R234); every accumulator slot has ATY 3, a zero tag and no flag (R235); no lease is held and position 7 counts as the
last holder (R236, R237); the measurements are zero (R402). -/
def Obligations.ResetState : Prop :=
  let s := State.reset
  (∀ loc, let c := s.coreAt loc
    Claims.descriptor (c.win 28) = 0x0400000000400000#64 ∧ (∀ i, i ≠ 28 → (c.win i).v = false) ∧ c.cur = 28 ∧ c.sup = true ∧
    c.run = .stopped ∧ c.pc = 0 ∧ (∀ n, c.slot n = 0) ∧ c.bad = [] ∧ c.pend = [] ∧ c.m.sbuf = [] ∧ c.m.plog = [] ∧
    c.m.lsn = 0 ∧ c.eng.streams = [] ∧ c.eng.trip = none ∧ c.eng.cmds = [] ∧ c.eng.ended = [] ∧ c.eng.nextTicket = 1 ∧
    (∀ r ∈ Claims.resetRegisters, s.csrOf loc r.1 = r.2) ∧ (s.csrOf loc 0x051).bits 0 5 = 16) ∧
  (∀ d < 8, ∀ n < 256, s.csrOf (512 * d + n) 0x040 = word (256 * d + n) ∧ s.locOf (256 * d + n) = some (512 * d + n)) ∧
  (∀ d, let x := s.dieAt d
    sget {} x.own 0 = { clusters := BitVec.allOnes 32, slices := BitVec.allOnes 32, pchan := BitVec.allOnes 64,
                        tongs := BitVec.allOnes 32, exec := true } ∧
    (∀ v, v ≠ 0 → sget {} x.own v = {}) ∧ (∀ k, sget 0 x.ways k = if k < 32 then BitVec.allOnes 16 else 0) ∧
    ∀ c < 64, x.group c = 6 ∧ sget (BitVec.allOnes 32) x.slices c = BitVec.allOnes 32) ∧
  (∀ k, let x := s.clAt k
    (∀ b, (s.bank k b).role = .cache ∧ (s.bank k b).switching = none) ∧ x.latchCur = none ∧ x.latchIn = none ∧
    x.lease.holder = none ∧ x.lease.last = 7 ∧
    ∀ n, let a := sget {} x.accs n
      a.aty = 3 ∧ a.vf = 0 ∧ a.vcore = 0 ∧ a.win = 0 ∧ a.orphan = false ∧ a.merr = false ∧ a.kerr = false ∧ a.sat = false ∧
      a.nv = false ∧ a.ovf = false) ∧
  s.boot.meas0 = 0 ∧ s.boot.meas1 = 0
end

