-- ==== Sys2Proof/Laws/Encoding.lean ====
section
/-! SUPPORT. The fields of words put together by the encoder, format by format, and what the decoder reads of them. -/
namespace Sys2Proof.Laws

/-- A word: 32 bits with bit 0 set. -/
structure Word32 (w maj stl : Nat) : Prop where
  lt : w < 2 ^ 32
  odd : w % 2 = 1
  maj : fld w 1 6 = maj
  stl : fld w 7 3 = stl

/-- Two parcels, a word. -/
theorem parcels2 {p0 p1 w : Nat} {i : Instr} (k0 : ¬ p0 % 2 = 0) (k1 : fld p0 1 6 ≠ 0x3E)
    (k2 : p0 + p1 * 2 ^ 16 = w) (h : decodeWord w = .ok i) : decodeParcels [p0, p1] = .ok (i, 2) := by
  subst k2; simp only [decodeParcels, if_neg k0, if_pos k1, h]

/-- One parcel. -/
theorem parcels1 {w : Nat} {i : Instr} (k0 : w % 2 = 0) (h : decode16 w = .ok i) :
    decodeParcels [w] = .ok (i, 1) := by
  simp [decodeParcels, k0, h]

theorem split32 {w : Nat} (h : w < 2 ^ 32) : fld w 0 16 + fld w 16 16 * 2 ^ 16 = w := by simp only [fld]; omega

theorem low16_odd {w : Nat} (h : w % 2 = 1) : ¬ fld w 0 16 % 2 = 0 := by simp only [fld]; omega

theorem low16_maj {w : Nat} : fld (fld w 0 16) 1 6 = fld w 1 6 := by simp only [fld]; omega

/-- Four fields over the function number at bit 28 (R18). -/
structure F28 (w maj stl d a b k : Nat) : Prop extends Word32 w maj stl where
  rd : fld w 10 6 = d
  ra : fld w 16 6 = a
  rb : fld w 22 6 = b
  fn : fld w 28 4 = k

theorem f28 {m maj k d a b stl : Nat} (hm : m = 1 + 2 * maj + k * 2 ^ 28) (h1 : maj < 64) (h2 : k < 16) (hd : d < 64)
    (ha : a < 64) (hb : b < 64) (hs : stl < 8) : F28 (enRR m d a b stl) maj stl d a b k := by
  subst hm
  constructor
  · constructor <;> simp only [fld, enRR] <;> omega
  all_goals simp only [fld, enRR]; omega

/-- The function number at bit 22, and a field e above it (R18). -/
structure F22 (w maj stl d a k e : Nat) : Prop extends Word32 w maj stl where
  rd : fld w 10 6 = d
  ra : fld w 16 6 = a
  rda : fld w 10 12 = d + 64 * a
  fn : fld w 22 4 = k
  u6 : fld w 26 6 = e
  e1 : fld w 26 1 = e % 2
  e2 : fld w 26 2 = e % 4
  e3 : fld w 26 3 = e % 8
  e4 : fld w 26 4 = e % 16
  u5 : fld w 27 5 = e / 2
  u4 : fld w 28 4 = e / 4
  u3 : fld w 29 3 = e / 8
  u1 : fld w 29 1 = e / 8 % 2
  u2 : fld w 30 2 = e / 16

theorem f22 {m maj k d a stl e w : Nat} (hm : m = 1 + 2 * maj + k * 2 ^ 22) (hw : w = enRR m d a 0 stl + e * 2 ^ 26)
    (h1 : maj < 64) (h2 : k < 16) (hd : d < 64) (ha : a < 64) (hs : stl < 8) (he : e < 64) :
    F22 w maj stl d a k e := by
  subst hm; subst hw
  constructor
  · constructor <;> simp only [fld, enRR] <;> omega
  all_goals simp only [fld, enRR]; omega

/-- An immediate of 10 bits at bit 22. -/
structure FI (w maj stl d a n : Nat) : Prop extends Word32 w maj stl where
  rd : fld w 10 6 = d
  ra : fld w 16 6 = a
  imm : fld w 22 10 = n

theorem fI {m maj d a stl : Nat} (imm : BitVec 10) (hm : m = 1 + 2 * maj) (h1 : maj < 64) (hd : d < 64) (ha : a < 64)
    (hs : stl < 8) : FI (enI m d a imm stl) maj stl d a imm.toNat := by
  subst hm
  have := imm.isLt
  constructor
  · constructor <;> simp only [fld, enI] <;> omega
  all_goals simp only [fld, enI]; omega

/-- An immediate of 16 bits at bit 16. -/
theorem f16 {m maj d stl : Nat} (imm : BitVec 16) (hm : m = 1 + 2 * maj) (h1 : maj < 64) (hd : d < 64) (hs : stl < 8) :
    let w := enRR m d 0 0 stl + imm.toNat * 2 ^ 16
    Word32 w maj stl ∧ fld w 10 6 = d ∧ fld w 16 16 = imm.toNat := by
  subst hm
  have := imm.isLt
  refine ⟨?_, ?_, ?_⟩
  · constructor <;> simp only [fld, enRR] <;> omega
  all_goals simp only [fld, enRR]; omega

/-- A conditional branch. -/
theorem fB {m maj k a stl : Nat} (imm : BitVec 13) (hm : m = 1 + 2 * maj + k * 2 ^ 16) (h1 : maj < 64) (hk : k < 8)
    (ha : a < 64) (hs : stl < 8) :
    let w := enRR m 0 0 0 stl + a * 2 ^ 10 + imm.toNat * 2 ^ 19
    Word32 w maj stl ∧ fld w 10 6 = a ∧ fld w 16 3 = k ∧ fld w 19 13 = imm.toNat := by
  subst hm
  have := imm.isLt
  refine ⟨?_, ?_, ?_, ?_⟩
  · constructor <;> simp only [fld, enRR] <;> omega
  all_goals simp only [fld, enRR]; omega

/-- A jump. -/
theorem fJ {m maj stl : Nat} (imm : BitVec 22) (hm : m = 1 + 2 * maj) (h1 : maj < 64) (hs : stl < 8) :
    let w := enRR m 0 0 0 stl + imm.toNat * 2 ^ 10
    Word32 w maj stl ∧ fld w 10 22 = imm.toNat := by
  subst hm
  have := imm.isLt
  refine ⟨?_, ?_⟩
  · constructor <;> simp only [fld, enRR] <;> omega
  all_goals simp only [fld, enRR]; omega

/-- A control-register access. -/
theorem fC {m maj k n x stl w : Nat} (hm : m = 1 + 2 * maj + k * 2 ^ 26) (hw : w = enRR m 0 0 0 stl + n * 2 ^ 16 + x * 2 ^ 10)
    (h1 : maj < 64) (hk : k < 64) (hn : n < 1024) (hx : x < 64) (hs : stl < 8) :
    Word32 w maj stl ∧ fld w 10 6 = x ∧ fld w 16 10 = n ∧ fld w 26 6 = k := by
  subst hm; subst hw
  refine ⟨?_, ?_, ?_, ?_⟩
  · constructor <;> simp only [fld, enRR] <;> omega
  all_goals simp only [fld, enRR]; omega

theorem b2n_lt (e : Bool) : b2n e < 2 := by cases e <;> decide

/-- An atomic. -/
theorem fA {m maj k d a b stl : Nat} (e : Bool) (hm : m = 1 + 2 * maj + k * 2 ^ 28) (h1 : maj < 64) (h2 : k < 8)
    (hd : d < 64) (ha : a < 64) (hb : b < 64) (hs : stl < 8) :
    let w := enAt m e d a b stl
    Word32 w maj stl ∧ fld w 10 6 = d ∧ fld w 16 6 = a ∧ fld w 22 6 = b ∧ fld w 28 3 = k ∧ fld w 31 1 = b2n e := by
  subst hm
  have := b2n_lt e
  refine ⟨?_, ?_, ?_, ?_, ?_, ?_⟩
  · constructor <;> simp only [fld, enAt, enRR] <;> omega
  all_goals simp only [fld, enAt, enRR]; omega

/-- A reduction. -/
theorem fR {m maj k a b stl : Nat} (sc : AtScope) (hm : m = 1 + 2 * maj + k * 2 ^ 10) (h1 : maj < 64) (h2 : k < 16)
    (ha : a < 64) (hb : b < 64) (hs : stl < 8) :
    let w := enRed m a b sc stl
    Word32 w maj stl ∧ fld w 10 4 = k ∧ fld w 14 2 = sc.code ∧ fld w 16 6 = a ∧ fld w 22 6 = b ∧ fld w 28 4 = 0 := by
  subst hm
  have hc : sc.code < 4 := by cases sc <;> decide
  refine ⟨?_, ?_, ?_, ?_, ?_, ?_⟩
  · constructor <;> simp only [fld, enRed] <;> omega
  all_goals simp only [fld, enRed]; omega

theorem b2n_eq_one (e : Bool) : decide (b2n e = 1) = e := by cases e <;> rfl

theorem ofCode_atScope (sc : AtScope) : AtScope.ofCode sc.code = sc := by cases sc <;> rfl

theorem ofCode_scope (sc : Scope) : Scope.ofCode sc.code = some sc ∧ sc.code < 8 := by cases sc <;> exact ⟨rfl, by decide⟩

theorem ofCode_phMode (m : PhMode) : PhMode.ofCode m.code = some m ∧ m.code < 4 := by cases m <;> exact ⟨rfl, by decide⟩

theorem ofCode_laneTy (ty : LaneTy) : LaneTy.ofCode ty.code = some ty ∧ ty.code < 16 := by cases ty <;> exact ⟨rfl, by decide⟩

theorem ofCode_ty (ty : Ty) : Ty.ofCode ty.code = some ty ∧ ty.code < 16 := by cases ty <;> exact ⟨rfl, by decide⟩

/-! The prefixable majors (R21). -/

/-- An unprefixed word of a prefixable major decodes to its row. -/
theorem decodeVWord_eq {w stl : Nat} {v : VOp} {i : Instr} (hs : fld w 7 3 = stl) (hv : decodeV w = .ok v)
    (hi : ofVOp v stl = some i) : decodeVWord w = .ok i := by
  unfold decodeVWord; rw [hv]; simp only [hs, hi]

theorem decodeV_lane {w maj stl d a b k : Nat} (f : F28 w maj stl d a b k) (h1 : 0x22 ≤ maj) (h2 : maj ≤ 0x29) :
    decodeV w = .ok (.lane (laneTyOf maj) (laneOpOf k) d a b) := by
  unfold decodeV
  rw [f.maj, if_neg (by omega), if_neg (by omega), if_neg (by omega), if_neg (by omega), if_neg (by omega), if_pos ⟨h1, h2⟩,
    f.fn, f.rd, f.ra, f.rb]

theorem decodeV_un {w stl d a b : Nat} {op : UnOp} {ty : LaneTy} (f : F28 w 0x2A stl d a b ty.code) (hb : unOpOf b = some op)
    (ho : unTyOk op ty = true) : decodeV w = .ok (.un op ty d a) := by
  unfold decodeV
  rw [f.maj]
  simp [f.fn, f.rb, f.rd, f.ra, hb, withOpt, guardOk, (ofCode_laneTy ty).1, ho]

theorem decodeV_cvt {w stl d a mode : Nat} {sty dty : Ty} (f : F22 w 0x2B stl d a dty.code (mode + 4 * sty.code))
    (hm : mode < 4) (ho : cvtOk sty mode dty = true) : decodeV w = .ok (.cvt sty mode dty d a) := by
  have h1 : fld w 28 4 = sty.code := by rw [f.u4]; omega
  have h2 : fld w 26 2 = mode := by rw [f.e2]; omega
  unfold decodeV
  rw [f.maj]
  simp [h1, h2, f.fn, f.rd, f.ra, withOpt, guardOk, (ofCode_ty sty).1, (ofCode_ty dty).1, ho]

theorem decodeV_vx {w stl d a k e : Nat} (f : F22 w 0x2C stl d a k e) : decodeV w = decodeVX w := by
  unfold decodeV; rw [f.maj]; rfl

theorem decodeV_mem {w stl d a b k : Nat} (f : F28 w 0x2D stl d a b k) : decodeV w = decodeVMem w := by
  unfold decodeV; rw [f.maj]; rfl

theorem decodeV_mat {w stl d a k : Nat} (f : F22 w 0x30 stl d a k 0) : decodeV w = decodeMat w := by
  unfold decodeV; rw [f.maj]; rfl

/-! Pairs (R21 to R23). -/

/-- What the encoder makes of a word behind a prefix. -/
def WordOf (v : VOp) (w maj : Nat) : Prop :=
  encodeVOp v = some w ∧ Word32 w maj 0 ∧ (0x22 ≤ maj ∧ maj ≤ 0x2D ∨ maj = 0x30) ∧ decodeV w = .ok v

/-- The fields of a prefix word, its flags as numbers. -/
theorem fP0 {v c z rm pm stl w : Nat}
    (hw : w = 0x7D + v * 2 ^ 23 + c * 2 ^ 17 + z * 2 ^ 16 + rm * 2 ^ 13 + pm * 2 ^ 10 + stl * 2 ^ 7)
    (hv : v < 2) (hc : c < 64) (hz : z < 2) (h1 : rm < 8) (h2 : pm < 8) (h3 : stl < 8) :
    Word32 w 0x3E stl ∧ fld w 24 8 = 0 ∧ fld w 23 1 = v ∧ fld w 17 6 = c ∧ fld w 16 1 = z ∧ fld w 13 3 = rm ∧
      fld w 10 3 = pm := by
  refine ⟨⟨?_, ?_, ?_, ?_⟩, ?_, ?_, ?_, ?_, ?_, ?_⟩ <;> try simp only [fld]
  all_goals omega

/-- The fields of a prefix word. -/
theorem fP {p : Pfx} (h : p.ranged = true) : Word32 (encodePfx p) 0x3E p.stl ∧ decodePfx (encodePfx p) = .ok p := by
  obtain ⟨h1, h2, h3, h4⟩ : p.c < 64 ∧ p.rm < 8 ∧ p.pm < 8 ∧ p.stl < 8 := by simpa [Pfx.ranged] using h
  generalize hw : encodePfx p = w
  obtain ⟨f, g1, g2, g3, g4, g5, g6⟩ := fP0 hw.symm (b2n_lt p.cv) h1 (b2n_lt p.z) h2 h3 h4
  refine ⟨f, ?_⟩
  simp only [decodePfx, needZero, g1, g2, g3, g4, g5, g6, f.stl, b2n_eq_one, if_true]

/-- Four parcels, a prefix and a word. -/
theorem parcels4 {p0 p1 p2 p3 pw w : Nat} {i : Instr} (k0 : ¬ p0 % 2 = 0) (k1 : fld p0 1 6 = 0x3E)
    (k2 : p0 + p1 * 2 ^ 16 = pw) (k3 : ¬ p2 % 2 = 0) (k4 : p2 + p3 * 2 ^ 16 = w) (h : decodePair pw w = .ok i) :
    decodeParcels [p0, p1, p2, p3] = .ok (i, 4) := by
  subst k2 k4; simp only [decodeParcels, if_neg k0, k1, ne_eq, not_true_eq_false, if_false, if_neg k3, h]

/-- The parcels of a prefix and its word. -/
theorem pairParcels {pw w maj s t : Nat} {i : Instr} (g : Word32 pw 0x3E s) (f : Word32 w maj t)
    (h : decodePair pw w = .ok i) :
    decodeParcels [fld pw 0 16, fld pw 16 16, fld w 0 16, fld w 16 16] = .ok (i, 4) := by
  exact parcels4 (low16_odd g.odd) (low16_maj.trans g.maj) (split32 g.lt) (low16_odd f.odd) (split32 f.lt) h

/-- A prefix and its word decode to their row. -/
theorem decodePair_eq {i : Instr} {p : Pfx} {v : VOp} {pw w maj : Nat} (hg : decodePfx pw = .ok p) (f : Word32 w maj 0)
    (hm : 0x22 ≤ maj ∧ maj ≤ 0x2D ∨ maj = 0x30) (hd : decodeV w = .ok v) (hp : pfxOk p v = true)
    (hi : pairInstr p v = i) : decodePair pw w = .ok i := by
  have hv : decodeVOp w = .ok v := by
    unfold decodeVOp
    rw [f.stl, f.maj, if_pos ⟨rfl, hm⟩, hd]
  unfold decodePair decodePV
  simp only [hg, hv, hp, if_true, hi]

/-! What a well-formed instruction says of its fields; the majors. -/

theorem wf2 {a b : Bool} (h : (a && b) = true) : a = true ∧ b = true := by simpa using h

theorem lt_reg {n : Nat} (h : reg n = true) : n < 64 := of_decide_eq_true h

theorem lt_stl {n : Nat} (h : stlOk n = true) : n < 8 := of_decide_eq_true h

theorem csr_lt {n : Nat} (h : csrKnown n = true) : n < 1024 := by
  have := of_decide_eq_true h
  omega

theorem dec00 {w : Nat} (h : fld w 1 6 = 0x00) : decodeWord w = decMaj00 w := by
  unfold decodeWord; rw [h]; rfl

theorem dec01 {w : Nat} (h : fld w 1 6 = 0x01) : decodeWord w = decMaj01 w := by
  unfold decodeWord; rw [h]; rfl

theorem dec02 {w : Nat} (h : fld w 1 6 = 0x02) : decodeWord w = decMaj02 w := by
  unfold decodeWord; rw [h]; rfl

theorem dec03 {w : Nat} (h : fld w 1 6 = 0x03) : decodeWord w = decMaj03 w := by
  unfold decodeWord; rw [h]; rfl

theorem dec04 {w : Nat} (h : fld w 1 6 = 0x04) : decodeWord w = decMaj04 w := by
  unfold decodeWord; rw [h]; rfl

theorem dec05 {w : Nat} (h : fld w 1 6 = 0x05) : decodeWord w = decMaj05 w := by
  unfold decodeWord; rw [h]; rfl

theorem dec06 {w : Nat} (h : fld w 1 6 = 0x06) : decodeWord w = decMaj06 w := by
  unfold decodeWord; rw [h]; rfl

theorem dec07 {w : Nat} (h : fld w 1 6 = 0x07) : decodeWord w = decMaj07 w := by
  unfold decodeWord; rw [h]; rfl

theorem dec08 {w : Nat} (h : fld w 1 6 = 0x08) : decodeWord w = decMaj08 w := by
  unfold decodeWord; rw [h]; rfl

theorem dec09 {w : Nat} (h : fld w 1 6 = 0x09) : decodeWord w = decMaj09 w := by
  unfold decodeWord; rw [h]; rfl

theorem dec0A {w : Nat} (h : fld w 1 6 = 0x0A) : decodeWord w = decMaj0A w := by
  unfold decodeWord; rw [h]; rfl

theorem dec0B {w : Nat} (h : fld w 1 6 = 0x0B) : decodeWord w = decMaj0B w := by
  unfold decodeWord; rw [h]; rfl

theorem dec0C {w : Nat} (h : fld w 1 6 = 0x0C) : decodeWord w = decMaj0C w := by
  unfold decodeWord; rw [h]; rfl

theorem dec0D {w : Nat} (h : fld w 1 6 = 0x0D) : decodeWord w = decMaj0D w := by
  unfold decodeWord; rw [h]; rfl

theorem dec0E {w : Nat} (h : fld w 1 6 = 0x0E) : decodeWord w = decMaj0E w := by
  unfold decodeWord; rw [h]; rfl

theorem dec0F {w : Nat} (h : fld w 1 6 = 0x0F) : decodeWord w = decMaj0F w := by
  unfold decodeWord; rw [h]; rfl

theorem dec10 {w : Nat} (h : fld w 1 6 = 0x10) : decodeWord w = decMaj10 w := by
  unfold decodeWord; rw [h]; rfl

theorem dec11 {w : Nat} (h : fld w 1 6 = 0x11) : decodeWord w = decMaj11 w := by
  unfold decodeWord; rw [h]; rfl

theorem dec12 {w : Nat} (h : fld w 1 6 = 0x12) : decodeWord w = decMaj12 w := by
  unfold decodeWord; rw [h]; rfl

theorem dec13 {w : Nat} (h : fld w 1 6 = 0x13) : decodeWord w = decMaj13 w := by
  unfold decodeWord; rw [h]; rfl

theorem dec14 {w : Nat} (h : fld w 1 6 = 0x14) : decodeWord w = decMaj14 w := by
  unfold decodeWord; rw [h]; rfl

theorem dec15 {w : Nat} (h : fld w 1 6 = 0x15) : decodeWord w = decMaj15 w := by
  unfold decodeWord; rw [h]; rfl

theorem dec16 {w : Nat} (h : fld w 1 6 = 0x16) : decodeWord w = decMaj16 w := by
  unfold decodeWord; rw [h]; rfl

theorem dec17 {w : Nat} (h : fld w 1 6 = 0x17) : decodeWord w = decMaj17 w := by
  unfold decodeWord; rw [h]; rfl

theorem dec18 {w : Nat} (h : fld w 1 6 = 0x18) : decodeWord w = decMaj18 w := by
  unfold decodeWord; rw [h]; rfl

theorem dec19 {w : Nat} (h : fld w 1 6 = 0x19) : decodeWord w = decMaj19 w := by
  unfold decodeWord; rw [h]; rfl

theorem dec1A {w : Nat} (h : fld w 1 6 = 0x1A) : decodeWord w = decMaj1A w := by
  unfold decodeWord; rw [h]; rfl

theorem dec1B {w : Nat} (h : fld w 1 6 = 0x1B) : decodeWord w = decMaj1B w := by
  unfold decodeWord; rw [h]; rfl

theorem dec1C {w : Nat} (h : fld w 1 6 = 0x1C) : decodeWord w = decMaj1C w := by
  unfold decodeWord; rw [h]; rfl

theorem dec1D {w : Nat} (h : fld w 1 6 = 0x1D) : decodeWord w = decMaj1D w := by
  unfold decodeWord; rw [h]; rfl

theorem dec1E {w : Nat} (h : fld w 1 6 = 0x1E) : decodeWord w = decMaj1E w := by
  unfold decodeWord; rw [h]; rfl

theorem dec1F {w : Nat} (h : fld w 1 6 = 0x1F) : decodeWord w = decMaj1F w := by
  unfold decodeWord; rw [h]; rfl

theorem dec20 {w : Nat} (h : fld w 1 6 = 0x20) : decodeWord w = decMaj20 w := by
  unfold decodeWord; rw [h]; rfl

theorem dec21 {w : Nat} (h : fld w 1 6 = 0x21) : decodeWord w = decMaj21 w := by
  unfold decodeWord; rw [h]; rfl

theorem dec22 {w : Nat} (h : fld w 1 6 = 0x22) : decodeWord w = decodeVWord w := by
  unfold decodeWord; rw [h]; rfl

theorem dec23 {w : Nat} (h : fld w 1 6 = 0x23) : decodeWord w = decodeVWord w := by
  unfold decodeWord; rw [h]; rfl

theorem dec24 {w : Nat} (h : fld w 1 6 = 0x24) : decodeWord w = decodeVWord w := by
  unfold decodeWord; rw [h]; rfl

theorem dec25 {w : Nat} (h : fld w 1 6 = 0x25) : decodeWord w = decodeVWord w := by
  unfold decodeWord; rw [h]; rfl

theorem dec26 {w : Nat} (h : fld w 1 6 = 0x26) : decodeWord w = decodeVWord w := by
  unfold decodeWord; rw [h]; rfl

theorem dec27 {w : Nat} (h : fld w 1 6 = 0x27) : decodeWord w = decodeVWord w := by
  unfold decodeWord; rw [h]; rfl

theorem dec28 {w : Nat} (h : fld w 1 6 = 0x28) : decodeWord w = decodeVWord w := by
  unfold decodeWord; rw [h]; rfl

theorem dec29 {w : Nat} (h : fld w 1 6 = 0x29) : decodeWord w = decodeVWord w := by
  unfold decodeWord; rw [h]; rfl

theorem dec2A {w : Nat} (h : fld w 1 6 = 0x2A) : decodeWord w = decodeVWord w := by
  unfold decodeWord; rw [h]; rfl

theorem dec2B {w : Nat} (h : fld w 1 6 = 0x2B) : decodeWord w = decodeVWord w := by
  unfold decodeWord; rw [h]; rfl

theorem dec2C {w : Nat} (h : fld w 1 6 = 0x2C) : decodeWord w = decodeVWord w := by
  unfold decodeWord; rw [h]; rfl

theorem dec2D {w : Nat} (h : fld w 1 6 = 0x2D) : decodeWord w = decodeVWord w := by
  unfold decodeWord; rw [h]; rfl

theorem dec2E {w : Nat} (h : fld w 1 6 = 0x2E) : decodeWord w = decMaj2E w := by
  unfold decodeWord; rw [h]; rfl

theorem dec2F {w : Nat} (h : fld w 1 6 = 0x2F) : decodeWord w = decMaj2F w := by
  unfold decodeWord; rw [h]; rfl

theorem dec30 {w : Nat} (h : fld w 1 6 = 0x30) : decodeWord w = decodeVWord w := by
  unfold decodeWord; rw [h]; rfl

theorem dec31 {w : Nat} (h : fld w 1 6 = 0x31) : decodeWord w = decMaj31 w := by
  unfold decodeWord; rw [h]; rfl

theorem dec32 {w : Nat} (h : fld w 1 6 = 0x32) : decodeWord w = decMaj32 w := by
  unfold decodeWord; rw [h]; rfl

theorem dec33 {w : Nat} (h : fld w 1 6 = 0x33) : decodeWord w = decMaj33 w := by
  unfold decodeWord; rw [h]; rfl

theorem dec34 {w : Nat} (h : fld w 1 6 = 0x34) : decodeWord w = decMaj34 w := by
  unfold decodeWord; rw [h]; rfl

theorem dec35 {w : Nat} (h : fld w 1 6 = 0x35) : decodeWord w = decMaj35 w := by
  unfold decodeWord; rw [h]; rfl

theorem dec36 {w : Nat} (h : fld w 1 6 = 0x36) : decodeWord w = decMaj36 w := by
  unfold decodeWord; rw [h]; rfl

theorem dec37 {w : Nat} (h : fld w 1 6 = 0x37) : decodeWord w = decMaj37 w := by
  unfold decodeWord; rw [h]; rfl

theorem dec38 {w : Nat} (h : fld w 1 6 = 0x38) : decodeWord w = decMaj38 w := by
  unfold decodeWord; rw [h]; rfl

theorem dec39 {w : Nat} (h : fld w 1 6 = 0x39) : decodeWord w = decMaj39 w := by
  unfold decodeWord; rw [h]; rfl

theorem dec3A {w : Nat} (h : fld w 1 6 = 0x3A) : decodeWord w = decMaj3A w := by
  unfold decodeWord; rw [h]; rfl

theorem dec3B {w : Nat} (h : fld w 1 6 = 0x3B) : decodeWord w = decMaj3B w := by
  unfold decodeWord; rw [h]; rfl

theorem dec3C {w : Nat} (h : fld w 1 6 = 0x3C) : decodeWord w = decMaj3C w := by
  unfold decodeWord; rw [h]; rfl

theorem dec3D {w : Nat} (h : fld w 1 6 = 0x3D) : decodeWord w = decMaj3D w := by
  unfold decodeWord; rw [h]; rfl

theorem cvt_mode {sty dty : Ty} {mode : Nat} (h : cvtOk sty mode dty = true) : mode < 4 := by
  unfold cvtOk at h
  split at h
  · have := of_decide_eq_true h; omega
  · have := of_decide_eq_true (wf2 h).2; omega

/-- The fields of a 16-bit parcel (R24). -/
theorem fH {k t d b w : Nat} (hw : w = 2 * k + t * 2 ^ 15 + d * 2 ^ 5 + b * 2 ^ 10) (hk : k < 16) (ht : t < 2) (hd : d < 32)
    (hb : b < 32) : w % 2 = 0 ∧ fld w 1 4 = k ∧ fld w 15 1 = t ∧ fld w 5 5 = d ∧ fld w 10 5 = b := by
  subst hw
  refine ⟨?_, ?_, ?_, ?_, ?_⟩ <;> try simp only [fld]
  all_goals omega

/-! The word behind a prefix, form by form. -/

/-- The major of a lane type. -/
def laneMaj : LaneTy → Nat
  | .f32 => 0x22 | .i32 => 0x23 | .n32 => 0x24 | .bf16 => 0x25 | .f16 => 0x26 | .i16 => 0x27 | .i8 => 0x28 | .f64 => 0x29

/-- The FN of a lane operation. -/
def laneFn : LaneOp → Nat
  | .add => 0 | .sub => 1 | .mul => 2 | .mac => 3 | .min => 4 | .max => 5 | .minp => 6 | .maxp => 7
  | .and => 8 | .or => 9 | .xor => 10 | .shl => 11 | .shr => 12 | .sra => 13 | .clt => 14 | .ceq => 15

theorem laneMaj_ok (ty : LaneTy) : laneTyOf (laneMaj ty) = ty ∧ 0x22 ≤ laneMaj ty ∧ laneMaj ty ≤ 0x29 := by
  cases ty <;> exact ⟨rfl, by decide, by decide⟩

theorem laneFn_ok (op : LaneOp) : laneOpOf (laneFn op) = op ∧ laneFn op < 16 := by
  cases op <;> exact ⟨rfl, by decide⟩

theorem encode_lane (ty : LaneTy) (op : LaneOp) (d a b stl : Nat) :
    encodeWord (laneInstr ty op d a b stl) = some (enRR (1 + 2 * laneMaj ty + laneFn op * 2 ^ 28) d a b stl) := by
  cases ty <;> cases op <;> rfl

theorem word_lane (ty : LaneTy) (op : LaneOp) {d a b : Nat} (hd : d < 64) (ha : a < 64) (hb : b < 64) :
    ∃ w maj, WordOf (.lane ty op d a b) w maj := by
  obtain ⟨t, t1, t2⟩ := laneMaj_ok ty
  obtain ⟨o, ol⟩ := laneFn_ok op
  have f := f28 (stl := 0) (rfl : 1 + 2 * laneMaj ty + laneFn op * 2 ^ 28 = _) (by omega) ol hd ha hb (by decide)
  have hv := decodeV_lane f t1 t2
  rw [t, o] at hv
  exact ⟨_, _, encode_lane ty op d a b 0, f.toWord32, .inl ⟨t1, by omega⟩, hv⟩

/-- The SUB of a unary operation. -/
def unSub : UnOp → Nat
  | .mov => 0 | .neg => 1 | .abs => 2 | .not => 3 | .rcp => 4 | .rsqrt => 5 | .sqrt => 6 | .exp2 => 7 | .log2 => 8
  | .tanh => 9 | .sigm => 10 | .rnd => 11 | .clz => 12 | .popc => 13 | .sumr => 14 | .maxr => 15 | .minr => 16 | .mxs => 17
  | .rev => 18 | .cls => 19

theorem unSub_ok (op : UnOp) : unOpOf (unSub op) = some op ∧ unSub op < 64 := by
  cases op <;> exact ⟨rfl, by decide⟩

theorem encode_un (op : UnOp) (ty : LaneTy) (d a stl : Nat) :
    encodeWord (unInstr op ty d a stl) = some (enRR (0x55 + unSub op * 2 ^ 22) d a 0 stl + ty.code * 2 ^ 28) := by
  cases op <;> rfl

theorem word_un (op : UnOp) (ty : LaneTy) {d a : Nat} (ho : unTyOk op ty = true) (hd : d < 64) (ha : a < 64) :
    ∃ w maj, WordOf (.un op ty d a) w maj := by
  obtain ⟨o, ol⟩ := unSub_ok op
  have f := f28 (stl := 0) (maj := 0x2A) (rfl : 1 + 2 * 0x2A + ty.code * 2 ^ 28 = _) (by decide) (ofCode_laneTy ty).2 hd ha ol
    (by decide)
  refine ⟨_, _, ?_, f.toWord32, .inl (by decide), decodeV_un f o ho⟩
  exact (encode_un op ty d a 0).trans (congrArg some (by unfold enRR; omega))

theorem word_cvt (sty dty : Ty) {mode d a : Nat} (ho : cvtOk sty mode dty = true) (hd : d < 64) (ha : a < 64) :
    ∃ w maj, WordOf (.cvt sty mode dty d a) w maj := by
  have hm := cvt_mode ho
  have hs := (ofCode_ty sty).2
  have f := f22 (stl := 0) (maj := 0x2B) (rfl : 1 + 2 * 0x2B + dty.code * 2 ^ 22 = _) rfl (by decide) (ofCode_ty dty).2 hd ha
    (by decide) (by omega : mode + 4 * sty.code < 64)
  refine ⟨_, _, ?_, f.toWord32, .inl (by decide), decodeV_cvt f hm ho⟩
  exact congrArg some (by unfold enRR; omega)

theorem word_ty (v : VOp) (ty : LaneTy) {k d a : Nat} (hk : k < 16) (hd : d < 64) (ha : a < 64)
    (he : encodeVOp v = some (enRR (0x59 + k * 2 ^ 22) d a 0 0 + ty.code * 2 ^ 26))
    (hv : ∀ w, F22 w 0x2C 0 d a k ty.code → fld w 26 4 = ty.code → fld w 30 2 = 0 → decodeVX w = .ok v) :
    ∃ w maj, WordOf v w maj := by
  have ht := (ofCode_laneTy ty).2
  have f := f22 (stl := 0) (maj := 0x2C) (rfl : 1 + 2 * 0x2C + k * 2 ^ 22 = _) rfl (by decide) hk hd ha (by decide)
    (by omega : ty.code < 64)
  refine ⟨_, _, ?_, f.toWord32, .inl (by decide), (decodeV_vx f).trans (hv _ f ?_ ?_)⟩
  · exact he.trans (congrArg some (by unfold enRR; omega))
  · exact f.e4.trans (by omega)
  · exact f.u2.trans (by omega)

theorem word_vx (v : VOp) {k d a e : Nat} (hk : k < 16) (hd : d < 64) (ha : a < 64) (he : e < 64)
    (hev : encodeVOp v = some (enRR (0x59 + k * 2 ^ 22) d a 0 0 + e * 2 ^ 26))
    (hv : ∀ w, F22 w 0x2C 0 d a k e → decodeVX w = .ok v) : ∃ w maj, WordOf v w maj := by
  have f := f22 (stl := 0) (maj := 0x2C) (rfl : 1 + 2 * 0x2C + k * 2 ^ 22 = _) rfl (by decide) hk hd ha (by decide) he
  refine ⟨_, _, ?_, f.toWord32, .inl (by decide), (decodeV_vx f).trans (hv _ f)⟩
  exact hev.trans (congrArg some (by unfold enRR; omega))

theorem word_bcast (ty : LaneTy) {d a : Nat} (hd : d < 64) (ha : a < 64) : ∃ w maj, WordOf (.bcast ty d a) w maj :=
  word_ty (k := 0) _ ty (by decide) hd ha (congrArg some (by unfold enRR; omega)) fun w f h1 h2 => by
    simp only [decodeVX, needZero, withOpt, f.fn, f.rd, f.ra, h1, h2, (ofCode_laneTy ty).1, if_true]

theorem word_pred (ty : LaneTy) {d a : Nat} (hd : decide (56 ≤ d ∧ d ≤ 62) = true) (ha : a < 64) :
    ∃ w maj, WordOf (.pred ty d a) w maj :=
  word_ty (k := 3) (d := d) _ ty (by decide) (by have := of_decide_eq_true hd; omega) ha (congrArg some (by unfold enRR; omega))
    fun w f h1 h2 => by
      simp only [decodeVX, needZero, withOpt, guardOk, f.fn, f.rd, f.ra, h1, h2, (ofCode_laneTy ty).1, hd, if_true]

theorem word_idx (ty : LaneTy) {d a : Nat} (ho : idxTyOk ty = true) (hd : d < 64) (ha : a < 64) :
    ∃ w maj, WordOf (.idx ty d a) w maj :=
  word_ty (k := 4) _ ty (by decide) hd ha (congrArg some (by unfold enRR; omega)) fun w f h1 h2 => by
    simp only [decodeVX, needZero, withOpt, guardOk, f.fn, f.rd, f.ra, h1, h2, (ofCode_laneTy ty).1, ho, if_true]

theorem word_ext (dbl : Bool) {d a k : Nat} (hd : d < 64) (ha : a < 64) (hk : k < if dbl then 8 else 16) :
    ∃ w maj, WordOf (.ext dbl d a k) w maj := by
  cases dbl
  · exact word_vx (k := 1) (e := k) _ (by decide) hd ha (by simp at hk; omega) (congrArg some (by unfold enRR; omega))
      fun w f => by
        have h1 : fld w 26 4 = k := f.e4.trans (by simp at hk; omega)
        have h2 : fld w 30 2 = 0 := f.u2.trans (by simp at hk; omega)
        simp only [decodeVX, f.fn, f.rd, f.ra, h1, h2]
  · exact word_vx (k := 1) (e := k + 16) _ (by decide) hd ha (by simp at hk; omega) (congrArg some (by unfold enRR; omega))
      fun w f => by
        have h1 : fld w 26 3 = k := f.e3.trans (by simp at hk; omega)
        have h2 : fld w 30 2 = 1 := f.u2.trans (by simp at hk; omega)
        have h3 : fld w 29 1 = 0 := f.u1.trans (by simp at hk; omega)
        simp only [decodeVX, needZero, f.fn, f.rd, f.ra, h1, h2, h3, if_true]

theorem word_ins (dbl : Bool) {d a k : Nat} (hd : d < 64) (ha : a < 64) (hk : k < if dbl then 8 else 16) :
    ∃ w maj, WordOf (.ins dbl d a k) w maj := by
  cases dbl
  · exact word_vx (k := 2) (e := k) _ (by decide) hd ha (by simp at hk; omega) (congrArg some (by unfold enRR; omega))
      fun w f => by
        have h1 : fld w 26 4 = k := f.e4.trans (by simp at hk; omega)
        have h2 : fld w 30 2 = 0 := f.u2.trans (by simp at hk; omega)
        simp only [decodeVX, f.fn, f.rd, f.ra, h1, h2]
  · exact word_vx (k := 2) (e := k + 16) _ (by decide) hd ha (by simp at hk; omega) (congrArg some (by unfold enRR; omega))
      fun w f => by
        have h1 : fld w 26 3 = k := f.e3.trans (by simp at hk; omega)
        have h2 : fld w 30 2 = 1 := f.u2.trans (by simp at hk; omega)
        have h3 : fld w 29 1 = 0 := f.u1.trans (by simp at hk; omega)
        simp only [decodeVX, needZero, f.fn, f.rd, f.ra, h1, h2, h3, if_true]

theorem word_mem (v : VOp) {k d a b : Nat} (hk : k < 16) (hd : d < 64) (ha : a < 64) (hb : b < 64)
    (hev : encodeVOp v = some (enRR (0x5B + k * 2 ^ 28) d a b 0))
    (hv : ∀ w, F28 w 0x2D 0 d a b k → decodeVMem w = .ok v) : ∃ w maj, WordOf v w maj := by
  have f := f28 (stl := 0) (maj := 0x2D) (rfl : 1 + 2 * 0x2D + k * 2 ^ 28 = _) (by decide) hk hd ha hb (by decide)
  refine ⟨_, _, ?_, f.toWord32, .inl (by decide), (decodeV_mem f).trans (hv _ f)⟩
  exact hev.trans (congrArg some (by unfold enRR; omega))

theorem word_ld (sz : VSize) {d a b : Nat} (hd : d < 64) (ha : a < 64) (hb : b < 64) : ∃ w maj, WordOf (.ld sz d a b) w maj := by
  cases sz
  · exact word_mem (k := 0) _ (by decide) hd ha hb rfl fun w f => by simp only [decodeVMem, f.fn, f.rd, f.ra, f.rb]
  · exact word_mem (k := 1) _ (by decide) hd ha hb rfl fun w f => by simp only [decodeVMem, f.fn, f.rd, f.ra, f.rb]
  · exact word_mem (k := 2) _ (by decide) hd ha hb rfl fun w f => by simp only [decodeVMem, f.fn, f.rd, f.ra, f.rb]
  · exact word_mem (k := 3) _ (by decide) hd ha hb rfl fun w f => by simp only [decodeVMem, f.fn, f.rd, f.ra, f.rb]

theorem word_st (sz : VSize) {d a b : Nat} (hd : d < 64) (ha : a < 64) (hb : b < 64) : ∃ w maj, WordOf (.st sz d a b) w maj := by
  cases sz
  · exact word_mem (k := 4) _ (by decide) hd ha hb rfl fun w f => by simp only [decodeVMem, f.fn, f.rd, f.ra, f.rb]
  · exact word_mem (k := 5) _ (by decide) hd ha hb rfl fun w f => by simp only [decodeVMem, f.fn, f.rd, f.ra, f.rb]
  · exact word_mem (k := 6) _ (by decide) hd ha hb rfl fun w f => by simp only [decodeVMem, f.fn, f.rd, f.ra, f.rb]
  · exact word_mem (k := 7) _ (by decide) hd ha hb rfl fun w f => by simp only [decodeVMem, f.fn, f.rd, f.ra, f.rb]

theorem word_ldt (h : Bool) {d a b : Nat} (hd : decide (d ≤ 48) = true) (ha : a < 64) (hb : b < 64) :
    ∃ w maj, WordOf (.ldt h d a b) w maj := by
  have hd' : d < 64 := by have := of_decide_eq_true hd; omega
  cases h
  · exact word_mem (k := 12) _ (by decide) hd' ha hb rfl fun w f => by
      simp only [decodeVMem, guardOk, f.fn, f.rd, f.ra, f.rb, hd, if_true]
  · exact word_mem (k := 13) _ (by decide) hd' ha hb rfl fun w f => by
      simp only [decodeVMem, guardOk, f.fn, f.rd, f.ra, f.rb, hd, if_true]

theorem word_swap {d : Nat} (hd : decide (d ≤ 48) = true) : ∃ w maj, WordOf (.swap d) w maj :=
  word_mem (k := 14) (a := 0) (b := 0) _ (by decide) (by have := of_decide_eq_true hd; omega) (by decide) (by decide) rfl
    fun w f => by
      have ez : fld w 16 12 = 0 := by have h1 := f.ra; have h2 := f.rb; simp only [fld] at *; omega
      simp only [decodeVMem, needZero, guardOk, f.fn, f.rd, ez, hd, if_true]

theorem word_mat0 (v : VOp) {k d a : Nat} (hk : k < 16) (hd : d < 64) (ha : a < 64)
    (hev : encodeVOp v = some (enRR (0x61 + k * 2 ^ 22) d a 0 0))
    (hv : ∀ w, F22 w 0x30 0 d a k 0 → decodeMat w = .ok v) : ∃ w maj, WordOf v w maj := by
  have f := f22 (stl := 0) (maj := 0x30) (rfl : 1 + 2 * 0x30 + k * 2 ^ 22 = _) rfl (by decide) hk hd ha (by decide)
    (by decide : 0 < 64)
  refine ⟨_, _, ?_, f.toWord32, .inr rfl, (decodeV_mat f).trans (hv _ f)⟩
  exact hev.trans (congrArg some (by unfold enRR; omega))

theorem word_mat (op : MatOp) (h : op.wf = true) : ∃ w maj, WordOf (.mat op) w maj := by
  cases op with
  | lease =>
    exact word_mat0 (k := 0) (d := 0) (a := 0) _ (by decide) (by decide) (by decide) rfl fun w f => by
      have ez := f.rda
      simp only [decodeMat, needZero, f.u6, f.fn, ez, Nat.mul_zero, Nat.add_zero, if_true]
  | rel =>
    exact word_mat0 (k := 1) (d := 0) (a := 0) _ (by decide) (by decide) (by decide) rfl fun w f => by
      have ez := f.rda
      simp only [decodeMat, needZero, f.u6, f.fn, ez, Nat.mul_zero, Nat.add_zero, if_true]
  | bload a =>
    exact word_mat0 (k := 2) (d := 0) (a := a) _ (by decide) (by decide) (lt_reg h) rfl fun w f => by
      have ez := f.rda
      simp only [decodeMat, needZero, f.u6, f.fn, f.rd, f.ra, if_true]
  | mac d a =>
    obtain ⟨h0, h1⟩ := wf2 h
    exact word_mat0 (k := 3) (d := d) (a := a) _ (by decide) (lt_reg h0) (lt_reg h1) rfl fun w f => by
      have ez := f.rda
      simp only [decodeMat, needZero, f.u6, f.fn, f.rd, f.ra, if_true]
  | rot =>
    exact word_mat0 (k := 4) (d := 0) (a := 0) _ (by decide) (by decide) (by decide) rfl fun w f => by
      have ez := f.rda
      simp only [decodeMat, needZero, f.u6, f.fn, ez, Nat.mul_zero, Nat.add_zero, if_true]
  | zero d =>
    exact word_mat0 (k := 5) (d := d) (a := 0) _ (by decide) (lt_reg h) (by decide) rfl fun w f => by
      have ez := f.rda
      simp only [decodeMat, needZero, f.u6, f.fn, f.rd, f.ra, if_true]
  | st d a =>
    obtain ⟨h0, h1⟩ := wf2 h
    exact word_mat0 (k := 6) (d := d) (a := a) _ (by decide) (lt_reg h0) (lt_reg h1) rfl fun w f => by
      have ez := f.rda
      simp only [decodeMat, needZero, f.u6, f.fn, f.rd, f.ra, if_true]
  | ld d a =>
    obtain ⟨h0, h1⟩ := wf2 h
    exact word_mat0 (k := 7) (d := d) (a := a) _ (by decide) (lt_reg h0) (lt_reg h1) rfl fun w f => by
      have ez := f.rda
      simp only [decodeMat, needZero, f.u6, f.fn, f.rd, f.ra, if_true]
  | acc d a =>
    obtain ⟨h0, h1⟩ := wf2 h
    exact word_mat0 (k := 8) (d := d) (a := a) _ (by decide) (lt_reg h0) (lt_reg h1) rfl fun w f => by
      have ez := f.rda
      simp only [decodeMat, needZero, f.u6, f.fn, f.rd, f.ra, if_true]
  | wait a d =>
    obtain ⟨h0, h1⟩ := wf2 h
    exact word_mat0 (k := 9) (d := d) (a := a) _ (by decide) (lt_reg h1) (lt_reg h0) rfl fun w f => by
      have ez := f.rda
      simp only [decodeMat, needZero, f.u6, f.fn, f.rd, f.ra, if_true]
  | claim a d =>
    obtain ⟨h0, h1⟩ := wf2 h
    exact word_mat0 (k := 10) (d := d) (a := a) _ (by decide) (lt_reg h1) (lt_reg h0) rfl fun w f => by
      have ez := f.rda
      simp only [decodeMat, needZero, f.u6, f.fn, f.rd, f.ra, if_true]
  | stat a d =>
    obtain ⟨h0, h1⟩ := wf2 h
    exact word_mat0 (k := 11) (d := d) (a := a) _ (by decide) (lt_reg h1) (lt_reg h0) rfl fun w f => by
      have ez := f.rda
      simp only [decodeMat, needZero, f.u6, f.fn, f.rd, f.ra, if_true]

theorem wordOf (v : VOp) (h : v.wf = true)
    (hn : ∀ p, pairInstr p v = .pfx p v) : ∃ w maj, WordOf v w maj := by
  cases v with
  | lane ty op d a b =>
    obtain ⟨h, h2⟩ := wf2 h
    obtain ⟨h0, h1⟩ := wf2 h
    exact word_lane ty op (lt_reg h0) (lt_reg h1) (lt_reg h2)
  | un op ty d a =>
    obtain ⟨h, h2⟩ := wf2 h
    obtain ⟨h0, h1⟩ := wf2 h
    exact word_un op ty h0 (lt_reg h1) (lt_reg h2)
  | cvt sty mode dty d a =>
    obtain ⟨h, h2⟩ := wf2 h
    obtain ⟨h0, h1⟩ := wf2 h
    exact word_cvt sty dty h0 (lt_reg h1) (lt_reg h2)
  | bcast ty d a =>
    obtain ⟨h0, h1⟩ := wf2 h
    exact word_bcast ty (lt_reg h0) (lt_reg h1)
  | idx ty d a =>
    obtain ⟨h, h2⟩ := wf2 h
    obtain ⟨h0, h1⟩ := wf2 h
    exact word_idx ty h0 (lt_reg h1) (lt_reg h2)
  | pred ty d a =>
    obtain ⟨h0, h1⟩ := wf2 h
    exact word_pred ty h0 (lt_reg h1)
  | ext dbl d a k =>
    obtain ⟨h, h2⟩ := wf2 h
    obtain ⟨h0, h1⟩ := wf2 h
    exact word_ext dbl (lt_reg h0) (lt_reg h1) (of_decide_eq_true h2)
  | ins dbl d a k =>
    obtain ⟨h, h2⟩ := wf2 h
    obtain ⟨h0, h1⟩ := wf2 h
    exact word_ins dbl (lt_reg h0) (lt_reg h1) (of_decide_eq_true h2)
  | ld sz d a b =>
    obtain ⟨h, h2⟩ := wf2 h
    obtain ⟨h0, h1⟩ := wf2 h
    exact word_ld sz (lt_reg h0) (lt_reg h1) (lt_reg h2)
  | st sz d a b =>
    obtain ⟨h, h2⟩ := wf2 h
    obtain ⟨h0, h1⟩ := wf2 h
    exact word_st sz (lt_reg h0) (lt_reg h1) (lt_reg h2)
  | ldff byte d a b => cases byte <;> exact absurd (hn .none) nofun
  | ldg d a b => exact absurd (hn .none) nofun
  | sts d a b => exact absurd (hn .none) nofun
  | ldt hf d a b =>
    obtain ⟨h, h2⟩ := wf2 h
    obtain ⟨h0, h1⟩ := wf2 h
    exact word_ldt hf h0 (lt_reg h1) (lt_reg h2)
  | swap d => exact word_swap h
  | mat op => exact word_mat op h

end Sys2Proof.Laws
end

