-- ==== Sys2Proof/Laws/Exec.lean ====
section
/-! SUPPORT. `exec` of each constructor is its meaning: one equation per constructor, so that no proof unfolds the
dispatch. -/
namespace Sys2Proof.Machine

variable (s : State)

theorem exec_add d a b st : exec (.add d a b st) s = execAdd d a b st s := rfl
theorem exec_sub d a b st : exec (.sub d a b st) s = execSub d a b st s := rfl
theorem exec_and d a b st : exec (.and d a b st) s = execAnd d a b st s := rfl
theorem exec_or d a b st : exec (.or d a b st) s = execOr d a b st s := rfl
theorem exec_xor d a b st : exec (.xor d a b st) s = execXor d a b st s := rfl
theorem exec_andn d a b st : exec (.andn d a b st) s = execAndn d a b st s := rfl
theorem exec_sll d a b st : exec (.sll d a b st) s = execSll d a b st s := rfl
theorem exec_srl d a b st : exec (.srl d a b st) s = execSrl d a b st s := rfl
theorem exec_sra d a b st : exec (.sra d a b st) s = execSra d a b st s := rfl
theorem exec_slt d a b st : exec (.slt d a b st) s = execSlt d a b st s := rfl
theorem exec_sltu d a b st : exec (.sltu d a b st) s = execSltu d a b st s := rfl
theorem exec_seq d a b st : exec (.seq d a b st) s = execSeq d a b st s := rfl
theorem exec_min d a b st : exec (.min d a b st) s = execMin d a b st s := rfl
theorem exec_max d a b st : exec (.max d a b st) s = execMax d a b st s := rfl
theorem exec_minn d a b st : exec (.minn d a b st) s = execMinn d a b st s := rfl
theorem exec_maxn d a b st : exec (.maxn d a b st) s = execMaxn d a b st s := rfl
theorem exec_mul d a b st : exec (.mul d a b st) s = execMul d a b st s := rfl
theorem exec_mulh d a b st : exec (.mulh d a b st) s = execMulh d a b st s := rfl
theorem exec_mulhn d a b st : exec (.mulhn d a b st) s = execMulhn d a b st s := rfl
theorem exec_div d a b st : exec (.div d a b st) s = execDiv d a b st s := rfl
theorem exec_divn d a b st : exec (.divn d a b st) s = execDivn d a b st s := rfl
theorem exec_rem d a b st : exec (.rem d a b st) s = execRem d a b st s := rfl
theorem exec_remn d a b st : exec (.remn d a b st) s = execRemn d a b st s := rfl
theorem exec_clz d a st : exec (.clz d a st) s = execClz d a st s := rfl
theorem exec_ctz d a st : exec (.ctz d a st) s = execCtz d a st s := rfl
theorem exec_popc d a st : exec (.popc d a st) s = execPopc d a st s := rfl
theorem exec_bswap d a st : exec (.bswap d a st) s = execBswap d a st s := rfl
theorem exec_rotl d a b st : exec (.rotl d a b st) s = execRotl d a b st s := rfl
theorem exec_rotr d a b st : exec (.rotr d a b st) s = execRotr d a b st s := rfl
theorem exec_sextw d a st : exec (.sextw d a st) s = execSextw d a st s := rfl
theorem exec_zextw d a st : exec (.zextw d a st) s = execZextw d a st s := rfl
theorem exec_addi d a imm st : exec (.addi d a imm st) s = execAddi d a imm st s := rfl
theorem exec_andi d a imm st : exec (.andi d a imm st) s = execAndi d a imm st s := rfl
theorem exec_ori d a imm st : exec (.ori d a imm st) s = execOri d a imm st s := rfl
theorem exec_xori d a imm st : exec (.xori d a imm st) s = execXori d a imm st s := rfl
theorem exec_slti d a imm st : exec (.slti d a imm st) s = execSlti d a imm st s := rfl
theorem exec_sltni d a imm st : exec (.sltni d a imm st) s = execSltni d a imm st s := rfl
theorem exec_slli d a amt st : exec (.slli d a amt st) s = execSlli d a amt st s := rfl
theorem exec_srli d a amt st : exec (.srli d a amt st) s = execSrli d a amt st s := rfl
theorem exec_srai d a amt st : exec (.srai d a amt st) s = execSrai d a amt st s := rfl
theorem exec_rotli d a amt st : exec (.rotli d a amt st) s = execRotli d a amt st s := rfl
theorem exec_lui d imm st : exec (.lui d imm st) s = execLui d imm st s := rfl
theorem exec_lmid d imm st : exec (.lmid d imm st) s = execLmid d imm st s := rfl
theorem exec_ltop d imm st : exec (.ltop d imm st) s = execLtop d imm st s := rfl
theorem exec_faddF64 d a b st : exec (.faddF64 d a b st) s = execFaddF64 d a b st s := rfl
theorem exec_fsubF64 d a b st : exec (.fsubF64 d a b st) s = execFsubF64 d a b st s := rfl
theorem exec_fmulF64 d a b st : exec (.fmulF64 d a b st) s = execFmulF64 d a b st s := rfl
theorem exec_fdivF64 d a b st : exec (.fdivF64 d a b st) s = execFdivF64 d a b st s := rfl
theorem exec_fsqrtF64 d a st : exec (.fsqrtF64 d a st) s = execFsqrtF64 d a st s := rfl
theorem exec_fminF64 d a b st : exec (.fminF64 d a b st) s = execFminF64 d a b st s := rfl
theorem exec_fmaxF64 d a b st : exec (.fmaxF64 d a b st) s = execFmaxF64 d a b st s := rfl
theorem exec_fmacF64 d a b st : exec (.fmacF64 d a b st) s = execFmacF64 d a b st s := rfl
theorem exec_fltF64 d a b st : exec (.fltF64 d a b st) s = execFltF64 d a b st s := rfl
theorem exec_fleF64 d a b st : exec (.fleF64 d a b st) s = execFleF64 d a b st s := rfl
theorem exec_feqF64 d a b st : exec (.feqF64 d a b st) s = execFeqF64 d a b st s := rfl
theorem exec_fclassF64 d a st : exec (.fclassF64 d a st) s = execFclassF64 d a st s := rfl
theorem exec_fcvtI64F64 d a st : exec (.fcvtI64F64 d a st) s = execFcvtI64F64 d a st s := rfl
theorem exec_fcvtN64F64 d a st : exec (.fcvtN64F64 d a st) s = execFcvtN64F64 d a st s := rfl
theorem exec_fcvtI32F64 d a st : exec (.fcvtI32F64 d a st) s = execFcvtI32F64 d a st s := rfl
theorem exec_fcvtN32F64 d a st : exec (.fcvtN32F64 d a st) s = execFcvtN32F64 d a st s := rfl
theorem exec_fcvtF64I64 d a st : exec (.fcvtF64I64 d a st) s = execFcvtF64I64 d a st s := rfl
theorem exec_fcvtF64N64 d a st : exec (.fcvtF64N64 d a st) s = execFcvtF64N64 d a st s := rfl
theorem exec_fcvtF64I32 d a st : exec (.fcvtF64I32 d a st) s = execFcvtF64I32 d a st s := rfl
theorem exec_fcvtF64N32 d a st : exec (.fcvtF64N32 d a st) s = execFcvtF64N32 d a st s := rfl
theorem exec_fcvtF64F32 d a st : exec (.fcvtF64F32 d a st) s = execFcvtF64F32 d a st s := rfl
theorem exec_fminpF64 d a b st : exec (.fminpF64 d a b st) s = execFminpF64 d a b st s := rfl
theorem exec_fmaxpF64 d a b st : exec (.fmaxpF64 d a b st) s = execFmaxpF64 d a b st s := rfl
theorem exec_faddF32 d a b st : exec (.faddF32 d a b st) s = execFaddF32 d a b st s := rfl
theorem exec_fsubF32 d a b st : exec (.fsubF32 d a b st) s = execFsubF32 d a b st s := rfl
theorem exec_fmulF32 d a b st : exec (.fmulF32 d a b st) s = execFmulF32 d a b st s := rfl
theorem exec_fdivF32 d a b st : exec (.fdivF32 d a b st) s = execFdivF32 d a b st s := rfl
theorem exec_fsqrtF32 d a st : exec (.fsqrtF32 d a st) s = execFsqrtF32 d a st s := rfl
theorem exec_fminF32 d a b st : exec (.fminF32 d a b st) s = execFminF32 d a b st s := rfl
theorem exec_fmaxF32 d a b st : exec (.fmaxF32 d a b st) s = execFmaxF32 d a b st s := rfl
theorem exec_fmacF32 d a b st : exec (.fmacF32 d a b st) s = execFmacF32 d a b st s := rfl
theorem exec_fltF32 d a b st : exec (.fltF32 d a b st) s = execFltF32 d a b st s := rfl
theorem exec_fleF32 d a b st : exec (.fleF32 d a b st) s = execFleF32 d a b st s := rfl
theorem exec_feqF32 d a b st : exec (.feqF32 d a b st) s = execFeqF32 d a b st s := rfl
theorem exec_fclassF32 d a st : exec (.fclassF32 d a st) s = execFclassF32 d a st s := rfl
theorem exec_fcvtI64F32 d a st : exec (.fcvtI64F32 d a st) s = execFcvtI64F32 d a st s := rfl
theorem exec_fcvtN64F32 d a st : exec (.fcvtN64F32 d a st) s = execFcvtN64F32 d a st s := rfl
theorem exec_fcvtI32F32 d a st : exec (.fcvtI32F32 d a st) s = execFcvtI32F32 d a st s := rfl
theorem exec_fcvtN32F32 d a st : exec (.fcvtN32F32 d a st) s = execFcvtN32F32 d a st s := rfl
theorem exec_fcvtF32I64 d a st : exec (.fcvtF32I64 d a st) s = execFcvtF32I64 d a st s := rfl
theorem exec_fcvtF32N64 d a st : exec (.fcvtF32N64 d a st) s = execFcvtF32N64 d a st s := rfl
theorem exec_fcvtF32I32 d a st : exec (.fcvtF32I32 d a st) s = execFcvtF32I32 d a st s := rfl
theorem exec_fcvtF32N32 d a st : exec (.fcvtF32N32 d a st) s = execFcvtF32N32 d a st s := rfl
theorem exec_fcvtF32F64 d a st : exec (.fcvtF32F64 d a st) s = execFcvtF32F64 d a st s := rfl
theorem exec_fminpF32 d a b st : exec (.fminpF32 d a b st) s = execFminpF32 d a b st s := rfl
theorem exec_fmaxpF32 d a b st : exec (.fmaxpF32 d a b st) s = execFmaxpF32 d a b st s := rfl
theorem exec_beqz a imm st : exec (.beqz a imm st) s = execBeqz a imm st s := rfl
theorem exec_bnez a imm st : exec (.bnez a imm st) s = execBnez a imm st s := rfl
theorem exec_bltz a imm st : exec (.bltz a imm st) s = execBltz a imm st s := rfl
theorem exec_bgez a imm st : exec (.bgez a imm st) s = execBgez a imm st s := rfl
theorem exec_blez a imm st : exec (.blez a imm st) s = execBlez a imm st s := rfl
theorem exec_bgtz a imm st : exec (.bgtz a imm st) s = execBgtz a imm st s := rfl
theorem exec_dbnz a imm st : exec (.dbnz a imm st) s = execDbnz a imm st s := rfl
theorem exec_j imm st : exec (.j imm st) s = execJ imm st s := rfl
theorem exec_call imm st : exec (.call imm st) s = execCall imm st s := rfl
theorem exec_jr a st : exec (.jr a st) s = execJr a st s := rfl
theorem exec_callr a st : exec (.callr a st) s = execCallr a st s := rfl
theorem exec_ldD d a imm st : exec (.ldD d a imm st) s = execLdD d a imm st s := rfl
theorem exec_ldW d a imm st : exec (.ldW d a imm st) s = execLdW d a imm st s := rfl
theorem exec_ldWn d a imm st : exec (.ldWn d a imm st) s = execLdWn d a imm st s := rfl
theorem exec_ldH d a imm st : exec (.ldH d a imm st) s = execLdH d a imm st s := rfl
theorem exec_ldHn d a imm st : exec (.ldHn d a imm st) s = execLdHn d a imm st s := rfl
theorem exec_ldB d a imm st : exec (.ldB d a imm st) s = execLdB d a imm st s := rfl
theorem exec_ldBn d a imm st : exec (.ldBn d a imm st) s = execLdBn d a imm st s := rfl
theorem exec_stD d a imm st : exec (.stD d a imm st) s = execStD d a imm st s := rfl
theorem exec_stW d a imm st : exec (.stW d a imm st) s = execStW d a imm st s := rfl
theorem exec_stH d a imm st : exec (.stH d a imm st) s = execStH d a imm st s := rfl
theorem exec_stB d a imm st : exec (.stB d a imm st) s = execStB d a imm st s := rfl
theorem exec_csrr csr d st : exec (.csrr csr d st) s = execCsrr csr d st s := rfl
theorem exec_csrw csr x st : exec (.csrw csr x st) s = execCsrw csr x st s := rfl
theorem exec_csrs csr x st : exec (.csrs csr x st) s = execCsrs csr x st s := rfl
theorem exec_csrc csr x st : exec (.csrc csr x st) s = execCsrc csr x st s := rfl
theorem exec_trap code st : exec (.trap code st) s = execTrap code st s := rfl
theorem exec_rett st : exec (.rett st) s = execRett st s := rfl
theorem exec_halt st : exec (.halt st) s = execHalt st s := rfl
theorem exec_sleep a st : exec (.sleep a st) s = execSleep a st s := rfl
theorem exec_ibar st : exec (.ibar st) s = execIbar st s := rfl
theorem exec_iinv d a sc st : exec (.iinv d a sc st) s = execIinv d a sc st s := rfl
theorem exec_brk code st : exec (.brk code st) s = execBrk code st s := rfl
theorem exec_resume d a st : exec (.resume d a st) s = execResume d a st s := rfl
theorem exec_wset a idx st : exec (.wset a idx st) s = execWset a idx st s := rfl
theorem exec_wget d idx st : exec (.wget d idx st) s = execWget d idx st s := rfl
theorem exec_wsw idx st : exec (.wsw idx st) s = execWsw idx st s := rfl
theorem exec_wswj idx st : exec (.wswj idx st) s = execWswj idx st s := rfl
theorem exec_wshr d a idx st : exec (.wshr d a idx st) s = execWshr d a idx st s := rfl
theorem exec_wclr idx st : exec (.wclr idx st) s = execWclr idx st s := rfl
theorem exec_warena d a st : exec (.warena d a st) s = execWarena d a st s := rfl
theorem exec_pfx p v : exec (.pfx p v) s = execPfx p v s := rfl
theorem exec_vaddF32 d a b st : exec (.vaddF32 d a b st) s = execVaddF32 d a b st s := rfl
theorem exec_vsubF32 d a b st : exec (.vsubF32 d a b st) s = execVsubF32 d a b st s := rfl
theorem exec_vmulF32 d a b st : exec (.vmulF32 d a b st) s = execVmulF32 d a b st s := rfl
theorem exec_vmacF32 d a b st : exec (.vmacF32 d a b st) s = execVmacF32 d a b st s := rfl
theorem exec_vminF32 d a b st : exec (.vminF32 d a b st) s = execVminF32 d a b st s := rfl
theorem exec_vmaxF32 d a b st : exec (.vmaxF32 d a b st) s = execVmaxF32 d a b st s := rfl
theorem exec_vminpF32 d a b st : exec (.vminpF32 d a b st) s = execVminpF32 d a b st s := rfl
theorem exec_vmaxpF32 d a b st : exec (.vmaxpF32 d a b st) s = execVmaxpF32 d a b st s := rfl
theorem exec_vandF32 d a b st : exec (.vandF32 d a b st) s = execVandF32 d a b st s := rfl
theorem exec_vorF32 d a b st : exec (.vorF32 d a b st) s = execVorF32 d a b st s := rfl
theorem exec_vxorF32 d a b st : exec (.vxorF32 d a b st) s = execVxorF32 d a b st s := rfl
theorem exec_vshlF32 d a b st : exec (.vshlF32 d a b st) s = execVshlF32 d a b st s := rfl
theorem exec_vshrF32 d a b st : exec (.vshrF32 d a b st) s = execVshrF32 d a b st s := rfl
theorem exec_vsraF32 d a b st : exec (.vsraF32 d a b st) s = execVsraF32 d a b st s := rfl
theorem exec_vcltF32 d a b st : exec (.vcltF32 d a b st) s = execVcltF32 d a b st s := rfl
theorem exec_vceqF32 d a b st : exec (.vceqF32 d a b st) s = execVceqF32 d a b st s := rfl
theorem exec_vaddI32 d a b st : exec (.vaddI32 d a b st) s = execVaddI32 d a b st s := rfl
theorem exec_vsubI32 d a b st : exec (.vsubI32 d a b st) s = execVsubI32 d a b st s := rfl
theorem exec_vmulI32 d a b st : exec (.vmulI32 d a b st) s = execVmulI32 d a b st s := rfl
theorem exec_vmacI32 d a b st : exec (.vmacI32 d a b st) s = execVmacI32 d a b st s := rfl
theorem exec_vminI32 d a b st : exec (.vminI32 d a b st) s = execVminI32 d a b st s := rfl
theorem exec_vmaxI32 d a b st : exec (.vmaxI32 d a b st) s = execVmaxI32 d a b st s := rfl
theorem exec_vminpI32 d a b st : exec (.vminpI32 d a b st) s = execVminpI32 d a b st s := rfl
theorem exec_vmaxpI32 d a b st : exec (.vmaxpI32 d a b st) s = execVmaxpI32 d a b st s := rfl
theorem exec_vandI32 d a b st : exec (.vandI32 d a b st) s = execVandI32 d a b st s := rfl
theorem exec_vorI32 d a b st : exec (.vorI32 d a b st) s = execVorI32 d a b st s := rfl
theorem exec_vxorI32 d a b st : exec (.vxorI32 d a b st) s = execVxorI32 d a b st s := rfl
theorem exec_vshlI32 d a b st : exec (.vshlI32 d a b st) s = execVshlI32 d a b st s := rfl
theorem exec_vshrI32 d a b st : exec (.vshrI32 d a b st) s = execVshrI32 d a b st s := rfl
theorem exec_vsraI32 d a b st : exec (.vsraI32 d a b st) s = execVsraI32 d a b st s := rfl
theorem exec_vcltI32 d a b st : exec (.vcltI32 d a b st) s = execVcltI32 d a b st s := rfl
theorem exec_vceqI32 d a b st : exec (.vceqI32 d a b st) s = execVceqI32 d a b st s := rfl
theorem exec_vaddN32 d a b st : exec (.vaddN32 d a b st) s = execVaddN32 d a b st s := rfl
theorem exec_vsubN32 d a b st : exec (.vsubN32 d a b st) s = execVsubN32 d a b st s := rfl
theorem exec_vmulN32 d a b st : exec (.vmulN32 d a b st) s = execVmulN32 d a b st s := rfl
theorem exec_vmacN32 d a b st : exec (.vmacN32 d a b st) s = execVmacN32 d a b st s := rfl
theorem exec_vminN32 d a b st : exec (.vminN32 d a b st) s = execVminN32 d a b st s := rfl
theorem exec_vmaxN32 d a b st : exec (.vmaxN32 d a b st) s = execVmaxN32 d a b st s := rfl
theorem exec_vminpN32 d a b st : exec (.vminpN32 d a b st) s = execVminpN32 d a b st s := rfl
theorem exec_vmaxpN32 d a b st : exec (.vmaxpN32 d a b st) s = execVmaxpN32 d a b st s := rfl
theorem exec_vandN32 d a b st : exec (.vandN32 d a b st) s = execVandN32 d a b st s := rfl
theorem exec_vorN32 d a b st : exec (.vorN32 d a b st) s = execVorN32 d a b st s := rfl
theorem exec_vxorN32 d a b st : exec (.vxorN32 d a b st) s = execVxorN32 d a b st s := rfl
theorem exec_vshlN32 d a b st : exec (.vshlN32 d a b st) s = execVshlN32 d a b st s := rfl
theorem exec_vshrN32 d a b st : exec (.vshrN32 d a b st) s = execVshrN32 d a b st s := rfl
theorem exec_vsraN32 d a b st : exec (.vsraN32 d a b st) s = execVsraN32 d a b st s := rfl
theorem exec_vcltN32 d a b st : exec (.vcltN32 d a b st) s = execVcltN32 d a b st s := rfl
theorem exec_vceqN32 d a b st : exec (.vceqN32 d a b st) s = execVceqN32 d a b st s := rfl
theorem exec_vaddBf16 d a b st : exec (.vaddBf16 d a b st) s = execVaddBf16 d a b st s := rfl
theorem exec_vsubBf16 d a b st : exec (.vsubBf16 d a b st) s = execVsubBf16 d a b st s := rfl
theorem exec_vmulBf16 d a b st : exec (.vmulBf16 d a b st) s = execVmulBf16 d a b st s := rfl
theorem exec_vmacBf16 d a b st : exec (.vmacBf16 d a b st) s = execVmacBf16 d a b st s := rfl
theorem exec_vminBf16 d a b st : exec (.vminBf16 d a b st) s = execVminBf16 d a b st s := rfl
theorem exec_vmaxBf16 d a b st : exec (.vmaxBf16 d a b st) s = execVmaxBf16 d a b st s := rfl
theorem exec_vminpBf16 d a b st : exec (.vminpBf16 d a b st) s = execVminpBf16 d a b st s := rfl
theorem exec_vmaxpBf16 d a b st : exec (.vmaxpBf16 d a b st) s = execVmaxpBf16 d a b st s := rfl
theorem exec_vandBf16 d a b st : exec (.vandBf16 d a b st) s = execVandBf16 d a b st s := rfl
theorem exec_vorBf16 d a b st : exec (.vorBf16 d a b st) s = execVorBf16 d a b st s := rfl
theorem exec_vxorBf16 d a b st : exec (.vxorBf16 d a b st) s = execVxorBf16 d a b st s := rfl
theorem exec_vshlBf16 d a b st : exec (.vshlBf16 d a b st) s = execVshlBf16 d a b st s := rfl
theorem exec_vshrBf16 d a b st : exec (.vshrBf16 d a b st) s = execVshrBf16 d a b st s := rfl
theorem exec_vsraBf16 d a b st : exec (.vsraBf16 d a b st) s = execVsraBf16 d a b st s := rfl
theorem exec_vcltBf16 d a b st : exec (.vcltBf16 d a b st) s = execVcltBf16 d a b st s := rfl
theorem exec_vceqBf16 d a b st : exec (.vceqBf16 d a b st) s = execVceqBf16 d a b st s := rfl
theorem exec_vaddF16 d a b st : exec (.vaddF16 d a b st) s = execVaddF16 d a b st s := rfl
theorem exec_vsubF16 d a b st : exec (.vsubF16 d a b st) s = execVsubF16 d a b st s := rfl
theorem exec_vmulF16 d a b st : exec (.vmulF16 d a b st) s = execVmulF16 d a b st s := rfl
theorem exec_vmacF16 d a b st : exec (.vmacF16 d a b st) s = execVmacF16 d a b st s := rfl
theorem exec_vminF16 d a b st : exec (.vminF16 d a b st) s = execVminF16 d a b st s := rfl
theorem exec_vmaxF16 d a b st : exec (.vmaxF16 d a b st) s = execVmaxF16 d a b st s := rfl
theorem exec_vminpF16 d a b st : exec (.vminpF16 d a b st) s = execVminpF16 d a b st s := rfl
theorem exec_vmaxpF16 d a b st : exec (.vmaxpF16 d a b st) s = execVmaxpF16 d a b st s := rfl
theorem exec_vandF16 d a b st : exec (.vandF16 d a b st) s = execVandF16 d a b st s := rfl
theorem exec_vorF16 d a b st : exec (.vorF16 d a b st) s = execVorF16 d a b st s := rfl
theorem exec_vxorF16 d a b st : exec (.vxorF16 d a b st) s = execVxorF16 d a b st s := rfl
theorem exec_vshlF16 d a b st : exec (.vshlF16 d a b st) s = execVshlF16 d a b st s := rfl
theorem exec_vshrF16 d a b st : exec (.vshrF16 d a b st) s = execVshrF16 d a b st s := rfl
theorem exec_vsraF16 d a b st : exec (.vsraF16 d a b st) s = execVsraF16 d a b st s := rfl
theorem exec_vcltF16 d a b st : exec (.vcltF16 d a b st) s = execVcltF16 d a b st s := rfl
theorem exec_vceqF16 d a b st : exec (.vceqF16 d a b st) s = execVceqF16 d a b st s := rfl
theorem exec_vaddI16 d a b st : exec (.vaddI16 d a b st) s = execVaddI16 d a b st s := rfl
theorem exec_vsubI16 d a b st : exec (.vsubI16 d a b st) s = execVsubI16 d a b st s := rfl
theorem exec_vmulI16 d a b st : exec (.vmulI16 d a b st) s = execVmulI16 d a b st s := rfl
theorem exec_vmacI16 d a b st : exec (.vmacI16 d a b st) s = execVmacI16 d a b st s := rfl
theorem exec_vminI16 d a b st : exec (.vminI16 d a b st) s = execVminI16 d a b st s := rfl
theorem exec_vmaxI16 d a b st : exec (.vmaxI16 d a b st) s = execVmaxI16 d a b st s := rfl
theorem exec_vminpI16 d a b st : exec (.vminpI16 d a b st) s = execVminpI16 d a b st s := rfl
theorem exec_vmaxpI16 d a b st : exec (.vmaxpI16 d a b st) s = execVmaxpI16 d a b st s := rfl
theorem exec_vandI16 d a b st : exec (.vandI16 d a b st) s = execVandI16 d a b st s := rfl
theorem exec_vorI16 d a b st : exec (.vorI16 d a b st) s = execVorI16 d a b st s := rfl
theorem exec_vxorI16 d a b st : exec (.vxorI16 d a b st) s = execVxorI16 d a b st s := rfl
theorem exec_vshlI16 d a b st : exec (.vshlI16 d a b st) s = execVshlI16 d a b st s := rfl
theorem exec_vshrI16 d a b st : exec (.vshrI16 d a b st) s = execVshrI16 d a b st s := rfl
theorem exec_vsraI16 d a b st : exec (.vsraI16 d a b st) s = execVsraI16 d a b st s := rfl
theorem exec_vcltI16 d a b st : exec (.vcltI16 d a b st) s = execVcltI16 d a b st s := rfl
theorem exec_vceqI16 d a b st : exec (.vceqI16 d a b st) s = execVceqI16 d a b st s := rfl
theorem exec_vaddI8 d a b st : exec (.vaddI8 d a b st) s = execVaddI8 d a b st s := rfl
theorem exec_vsubI8 d a b st : exec (.vsubI8 d a b st) s = execVsubI8 d a b st s := rfl
theorem exec_vmulI8 d a b st : exec (.vmulI8 d a b st) s = execVmulI8 d a b st s := rfl
theorem exec_vmacI8 d a b st : exec (.vmacI8 d a b st) s = execVmacI8 d a b st s := rfl
theorem exec_vminI8 d a b st : exec (.vminI8 d a b st) s = execVminI8 d a b st s := rfl
theorem exec_vmaxI8 d a b st : exec (.vmaxI8 d a b st) s = execVmaxI8 d a b st s := rfl
theorem exec_vminpI8 d a b st : exec (.vminpI8 d a b st) s = execVminpI8 d a b st s := rfl
theorem exec_vmaxpI8 d a b st : exec (.vmaxpI8 d a b st) s = execVmaxpI8 d a b st s := rfl
theorem exec_vandI8 d a b st : exec (.vandI8 d a b st) s = execVandI8 d a b st s := rfl
theorem exec_vorI8 d a b st : exec (.vorI8 d a b st) s = execVorI8 d a b st s := rfl
theorem exec_vxorI8 d a b st : exec (.vxorI8 d a b st) s = execVxorI8 d a b st s := rfl
theorem exec_vshlI8 d a b st : exec (.vshlI8 d a b st) s = execVshlI8 d a b st s := rfl
theorem exec_vshrI8 d a b st : exec (.vshrI8 d a b st) s = execVshrI8 d a b st s := rfl
theorem exec_vsraI8 d a b st : exec (.vsraI8 d a b st) s = execVsraI8 d a b st s := rfl
theorem exec_vcltI8 d a b st : exec (.vcltI8 d a b st) s = execVcltI8 d a b st s := rfl
theorem exec_vceqI8 d a b st : exec (.vceqI8 d a b st) s = execVceqI8 d a b st s := rfl
theorem exec_vaddF64 d a b st : exec (.vaddF64 d a b st) s = execVaddF64 d a b st s := rfl
theorem exec_vsubF64 d a b st : exec (.vsubF64 d a b st) s = execVsubF64 d a b st s := rfl
theorem exec_vmulF64 d a b st : exec (.vmulF64 d a b st) s = execVmulF64 d a b st s := rfl
theorem exec_vmacF64 d a b st : exec (.vmacF64 d a b st) s = execVmacF64 d a b st s := rfl
theorem exec_vminF64 d a b st : exec (.vminF64 d a b st) s = execVminF64 d a b st s := rfl
theorem exec_vmaxF64 d a b st : exec (.vmaxF64 d a b st) s = execVmaxF64 d a b st s := rfl
theorem exec_vminpF64 d a b st : exec (.vminpF64 d a b st) s = execVminpF64 d a b st s := rfl
theorem exec_vmaxpF64 d a b st : exec (.vmaxpF64 d a b st) s = execVmaxpF64 d a b st s := rfl
theorem exec_vandF64 d a b st : exec (.vandF64 d a b st) s = execVandF64 d a b st s := rfl
theorem exec_vorF64 d a b st : exec (.vorF64 d a b st) s = execVorF64 d a b st s := rfl
theorem exec_vxorF64 d a b st : exec (.vxorF64 d a b st) s = execVxorF64 d a b st s := rfl
theorem exec_vshlF64 d a b st : exec (.vshlF64 d a b st) s = execVshlF64 d a b st s := rfl
theorem exec_vshrF64 d a b st : exec (.vshrF64 d a b st) s = execVshrF64 d a b st s := rfl
theorem exec_vsraF64 d a b st : exec (.vsraF64 d a b st) s = execVsraF64 d a b st s := rfl
theorem exec_vcltF64 d a b st : exec (.vcltF64 d a b st) s = execVcltF64 d a b st s := rfl
theorem exec_vceqF64 d a b st : exec (.vceqF64 d a b st) s = execVceqF64 d a b st s := rfl
theorem exec_vmov ty d a st : exec (.vmov ty d a st) s = execVmov ty d a st s := rfl
theorem exec_vneg ty d a st : exec (.vneg ty d a st) s = execVneg ty d a st s := rfl
theorem exec_vabs ty d a st : exec (.vabs ty d a st) s = execVabs ty d a st s := rfl
theorem exec_vnot ty d a st : exec (.vnot ty d a st) s = execVnot ty d a st s := rfl
theorem exec_vrcp ty d a st : exec (.vrcp ty d a st) s = execVrcp ty d a st s := rfl
theorem exec_vrsqrt ty d a st : exec (.vrsqrt ty d a st) s = execVrsqrt ty d a st s := rfl
theorem exec_vsqrt ty d a st : exec (.vsqrt ty d a st) s = execVsqrt ty d a st s := rfl
theorem exec_vexp2 ty d a st : exec (.vexp2 ty d a st) s = execVexp2 ty d a st s := rfl
theorem exec_vlog2 ty d a st : exec (.vlog2 ty d a st) s = execVlog2 ty d a st s := rfl
theorem exec_vtanh ty d a st : exec (.vtanh ty d a st) s = execVtanh ty d a st s := rfl
theorem exec_vsigm ty d a st : exec (.vsigm ty d a st) s = execVsigm ty d a st s := rfl
theorem exec_vrnd ty d a st : exec (.vrnd ty d a st) s = execVrnd ty d a st s := rfl
theorem exec_vclz ty d a st : exec (.vclz ty d a st) s = execVclz ty d a st s := rfl
theorem exec_vpopc ty d a st : exec (.vpopc ty d a st) s = execVpopc ty d a st s := rfl
theorem exec_vsumr ty d a st : exec (.vsumr ty d a st) s = execVsumr ty d a st s := rfl
theorem exec_vmaxr ty d a st : exec (.vmaxr ty d a st) s = execVmaxr ty d a st s := rfl
theorem exec_vminr ty d a st : exec (.vminr ty d a st) s = execVminr ty d a st s := rfl
theorem exec_vmxs ty d a st : exec (.vmxs ty d a st) s = execVmxs ty d a st s := rfl
theorem exec_vrev ty d a st : exec (.vrev ty d a st) s = execVrev ty d a st s := rfl
theorem exec_vclass ty d a st : exec (.vclass ty d a st) s = execVclass ty d a st s := rfl
theorem exec_vcvt sty mode dty d a st : exec (.vcvt sty mode dty d a st) s = execVcvt sty mode dty d a st s := rfl
theorem exec_vbcast ty d a st : exec (.vbcast ty d a st) s = execVbcast ty d a st s := rfl
theorem exec_vextW d a k st : exec (.vextW d a k st) s = execVextW d a k st s := rfl
theorem exec_vextD d a k st : exec (.vextD d a k st) s = execVextD d a k st s := rfl
theorem exec_vinsW d a k st : exec (.vinsW d a k st) s = execVinsW d a k st s := rfl
theorem exec_vinsD d a k st : exec (.vinsD d a k st) s = execVinsD d a k st s := rfl
theorem exec_vpred ty d a st : exec (.vpred ty d a st) s = execVpred ty d a st s := rfl
theorem exec_vidx ty d a st : exec (.vidx ty d a st) s = execVidx ty d a st s := rfl
theorem exec_vldW d a b st : exec (.vldW d a b st) s = execVldW d a b st s := rfl
theorem exec_vldH d a b st : exec (.vldH d a b st) s = execVldH d a b st s := rfl
theorem exec_vldB d a b st : exec (.vldB d a b st) s = execVldB d a b st s := rfl
theorem exec_vldD d a b st : exec (.vldD d a b st) s = execVldD d a b st s := rfl
theorem exec_vstW d a b st : exec (.vstW d a b st) s = execVstW d a b st s := rfl
theorem exec_vstH d a b st : exec (.vstH d a b st) s = execVstH d a b st s := rfl
theorem exec_vstB d a b st : exec (.vstB d a b st) s = execVstB d a b st s := rfl
theorem exec_vstD d a b st : exec (.vstD d a b st) s = execVstD d a b st s := rfl
theorem exec_vldffW p d a b : exec (.vldffW p d a b) s = execVldffW p d a b s := rfl
theorem exec_vldffB p d a b : exec (.vldffB p d a b) s = execVldffB p d a b s := rfl
theorem exec_vldgW p d a b : exec (.vldgW p d a b) s = execVldgW p d a b s := rfl
theorem exec_vstsW p d a b : exec (.vstsW p d a b) s = execVstsW p d a b s := rfl
theorem exec_vldtW d a b st : exec (.vldtW d a b st) s = execVldtW d a b st s := rfl
theorem exec_vldtH d a b st : exec (.vldtH d a b st) s = execVldtH d a b st s := rfl
theorem exec_vswap d st : exec (.vswap d st) s = execVswap d st s := rfl
theorem exec_vtrip a n1 mode ns bs st : exec (.vtrip a n1 mode ns bs st) s = execVtrip a n1 mode ns bs st s := rfl
theorem exec_vadd16 int d b : exec (.vadd16 int d b) s = execVadd16 int d b s := rfl
theorem exec_vsub16 int d b : exec (.vsub16 int d b) s = execVsub16 int d b s := rfl
theorem exec_vmul16 int d b : exec (.vmul16 int d b) s = execVmul16 int d b s := rfl
theorem exec_vmin16 int d b : exec (.vmin16 int d b) s = execVmin16 int d b s := rfl
theorem exec_vmax16 int d b : exec (.vmax16 int d b) s = execVmax16 int d b s := rfl
theorem exec_vand16 int d b : exec (.vand16 int d b) s = execVand16 int d b s := rfl
theorem exec_vor16 int d b : exec (.vor16 int d b) s = execVor16 int d b s := rfl
theorem exec_vxor16 int d b : exec (.vxor16 int d b) s = execVxor16 int d b s := rfl
theorem exec_vmov16 int d b : exec (.vmov16 int d b) s = execVmov16 int d b s := rfl
theorem exec_vneg16 int d b : exec (.vneg16 int d b) s = execVneg16 int d b s := rfl
theorem exec_vabs16 int d b : exec (.vabs16 int d b) s = execVabs16 int d b s := rfl
theorem exec_vshl16 d b : exec (.vshl16 d b) s = execVshl16 d b s := rfl
theorem exec_vsra16 d b : exec (.vsra16 d b) s = execVsra16 d b s := rfl
theorem exec_vclt16 int d b : exec (.vclt16 int d b) s = execVclt16 int d b s := rfl
theorem exec_vceq16 int d b : exec (.vceq16 int d b) s = execVceq16 int d b s := rfl
theorem exec_vrcp16 d b : exec (.vrcp16 d b) s = execVrcp16 d b s := rfl
theorem exec_vpopc16 d b : exec (.vpopc16 d b) s = execVpopc16 d b s := rfl
theorem exec_brk16 : exec (.brk16) s = execBrk16 s := rfl
theorem exec_vstrm d a v st : exec (.vstrm d a v st) s = execVstrm d a v st s := rfl
theorem exec_vsunb d a st : exec (.vsunb d a st) s = execVsunb d a st s := rfl
theorem exec_vsq d a st : exec (.vsq d a st) s = execVsq d a st s := rfl
theorem exec_mlease st : exec (.mlease st) s = execMlease st s := rfl
theorem exec_mrel st : exec (.mrel st) s = execMrel st s := rfl
theorem exec_mbload a st : exec (.mbload a st) s = execMbload a st s := rfl
theorem exec_mmac d a st : exec (.mmac d a st) s = execMmac d a st s := rfl
theorem exec_mrot st : exec (.mrot st) s = execMrot st s := rfl
theorem exec_mzero d st : exec (.mzero d st) s = execMzero d st s := rfl
theorem exec_mst d a st : exec (.mst d a st) s = execMst d a st s := rfl
theorem exec_mld d a st : exec (.mld d a st) s = execMld d a st s := rfl
theorem exec_macc d a st : exec (.macc d a st) s = execMacc d a st s := rfl
theorem exec_mwait d a st : exec (.mwait d a st) s = execMwait d a st s := rfl
theorem exec_mclaim d a st : exec (.mclaim d a st) s = execMclaim d a st s := rfl
theorem exec_mstat d a st : exec (.mstat d a st) s = execMstat d a st s := rfl
theorem exec_atomAddBlk dbl d a b st : exec (.atomAddBlk dbl d a b st) s = execAtomAddBlk dbl d a b st s := rfl
theorem exec_atomAndBlk dbl d a b st : exec (.atomAndBlk dbl d a b st) s = execAtomAndBlk dbl d a b st s := rfl
theorem exec_atomOrBlk dbl d a b st : exec (.atomOrBlk dbl d a b st) s = execAtomOrBlk dbl d a b st s := rfl
theorem exec_atomXorBlk dbl d a b st : exec (.atomXorBlk dbl d a b st) s = execAtomXorBlk dbl d a b st s := rfl
theorem exec_atomMinBlk dbl d a b st : exec (.atomMinBlk dbl d a b st) s = execAtomMinBlk dbl d a b st s := rfl
theorem exec_atomMaxBlk dbl d a b st : exec (.atomMaxBlk dbl d a b st) s = execAtomMaxBlk dbl d a b st s := rfl
theorem exec_atomSwapBlk dbl d a b st : exec (.atomSwapBlk dbl d a b st) s = execAtomSwapBlk dbl d a b st s := rfl
theorem exec_atomCasBlk dbl d a b st : exec (.atomCasBlk dbl d a b st) s = execAtomCasBlk dbl d a b st s := rfl
theorem exec_atomAddCls dbl d a b st : exec (.atomAddCls dbl d a b st) s = execAtomAddCls dbl d a b st s := rfl
theorem exec_atomAndCls dbl d a b st : exec (.atomAndCls dbl d a b st) s = execAtomAndCls dbl d a b st s := rfl
theorem exec_atomOrCls dbl d a b st : exec (.atomOrCls dbl d a b st) s = execAtomOrCls dbl d a b st s := rfl
theorem exec_atomXorCls dbl d a b st : exec (.atomXorCls dbl d a b st) s = execAtomXorCls dbl d a b st s := rfl
theorem exec_atomMinCls dbl d a b st : exec (.atomMinCls dbl d a b st) s = execAtomMinCls dbl d a b st s := rfl
theorem exec_atomMaxCls dbl d a b st : exec (.atomMaxCls dbl d a b st) s = execAtomMaxCls dbl d a b st s := rfl
theorem exec_atomSwapCls dbl d a b st : exec (.atomSwapCls dbl d a b st) s = execAtomSwapCls dbl d a b st s := rfl
theorem exec_atomCasCls dbl d a b st : exec (.atomCasCls dbl d a b st) s = execAtomCasCls dbl d a b st s := rfl
theorem exec_atomAddDev dbl d a b st : exec (.atomAddDev dbl d a b st) s = execAtomAddDev dbl d a b st s := rfl
theorem exec_atomAndDev dbl d a b st : exec (.atomAndDev dbl d a b st) s = execAtomAndDev dbl d a b st s := rfl
theorem exec_atomOrDev dbl d a b st : exec (.atomOrDev dbl d a b st) s = execAtomOrDev dbl d a b st s := rfl
theorem exec_atomXorDev dbl d a b st : exec (.atomXorDev dbl d a b st) s = execAtomXorDev dbl d a b st s := rfl
theorem exec_atomMinDev dbl d a b st : exec (.atomMinDev dbl d a b st) s = execAtomMinDev dbl d a b st s := rfl
theorem exec_atomMaxDev dbl d a b st : exec (.atomMaxDev dbl d a b st) s = execAtomMaxDev dbl d a b st s := rfl
theorem exec_atomSwapDev dbl d a b st : exec (.atomSwapDev dbl d a b st) s = execAtomSwapDev dbl d a b st s := rfl
theorem exec_atomCasDev dbl d a b st : exec (.atomCasDev dbl d a b st) s = execAtomCasDev dbl d a b st s := rfl
theorem exec_atomAddSys dbl d a b st : exec (.atomAddSys dbl d a b st) s = execAtomAddSys dbl d a b st s := rfl
theorem exec_atomAndSys dbl d a b st : exec (.atomAndSys dbl d a b st) s = execAtomAndSys dbl d a b st s := rfl
theorem exec_atomOrSys dbl d a b st : exec (.atomOrSys dbl d a b st) s = execAtomOrSys dbl d a b st s := rfl
theorem exec_atomXorSys dbl d a b st : exec (.atomXorSys dbl d a b st) s = execAtomXorSys dbl d a b st s := rfl
theorem exec_atomMinSys dbl d a b st : exec (.atomMinSys dbl d a b st) s = execAtomMinSys dbl d a b st s := rfl
theorem exec_atomMaxSys dbl d a b st : exec (.atomMaxSys dbl d a b st) s = execAtomMaxSys dbl d a b st s := rfl
theorem exec_atomSwapSys dbl d a b st : exec (.atomSwapSys dbl d a b st) s = execAtomSwapSys dbl d a b st s := rfl
theorem exec_atomCasSys dbl d a b st : exec (.atomCasSys dbl d a b st) s = execAtomCasSys dbl d a b st s := rfl
theorem exec_redAddW a b sc st : exec (.redAddW a b sc st) s = execRedAddW a b sc st s := rfl
theorem exec_redAddD a b sc st : exec (.redAddD a b sc st) s = execRedAddD a b sc st s := rfl
theorem exec_redAndW a b sc st : exec (.redAndW a b sc st) s = execRedAndW a b sc st s := rfl
theorem exec_redAndD a b sc st : exec (.redAndD a b sc st) s = execRedAndD a b sc st s := rfl
theorem exec_redOrW a b sc st : exec (.redOrW a b sc st) s = execRedOrW a b sc st s := rfl
theorem exec_redOrD a b sc st : exec (.redOrD a b sc st) s = execRedOrD a b sc st s := rfl
theorem exec_redXorW a b sc st : exec (.redXorW a b sc st) s = execRedXorW a b sc st s := rfl
theorem exec_redXorD a b sc st : exec (.redXorD a b sc st) s = execRedXorD a b sc st s := rfl
theorem exec_redMinW a b sc st : exec (.redMinW a b sc st) s = execRedMinW a b sc st s := rfl
theorem exec_redMinD a b sc st : exec (.redMinD a b sc st) s = execRedMinD a b sc st s := rfl
theorem exec_redMaxW a b sc st : exec (.redMaxW a b sc st) s = execRedMaxW a b sc st s := rfl
theorem exec_redMaxD a b sc st : exec (.redMaxD a b sc st) s = execRedMaxD a b sc st s := rfl
theorem exec_redFaddF32 a b sc st : exec (.redFaddF32 a b sc st) s = execRedFaddF32 a b sc st s := rfl
theorem exec_redFaddF64 a b sc st : exec (.redFaddF64 a b sc st) s = execRedFaddF64 a b sc st s := rfl
theorem exec_ldSync d a st : exec (.ldSync d a st) s = execLdSync d a st s := rfl
theorem exec_take d a st : exec (.take d a st) s = execTake d a st s := rfl
theorem exec_put d a src st : exec (.put d a src st) s = execPut d a src st s := rfl
theorem exec_feSet a l st : exec (.feSet a l st) s = execFeSet a l st s := rfl
theorem exec_feClr a l st : exec (.feClr a l st) s = execFeClr a l st s := rfl
theorem exec_feQ d a st : exec (.feQ d a st) s = execFeQ d a st s := rfl
theorem exec_feWait a l st : exec (.feWait a l st) s = execFeWait a l st s := rfl
theorem exec_bcfgC d a st : exec (.bcfgC d a st) s = execBcfgC d a st s := rfl
theorem exec_bcfgS d a st : exec (.bcfgS d a st) s = execBcfgS d a st s := rfl
theorem exec_bcfgF d a st : exec (.bcfgF d a st) s = execBcfgF d a st s := rfl
theorem exec_bq d a st : exec (.bq d a st) s = execBq d a st s := rfl
theorem exec_fpush d a src st : exec (.fpush d a src st) s = execFpush d a src st s := rfl
theorem exec_fpop d a st : exec (.fpop d a st) s = execFpop d a st s := rfl
theorem exec_fq d a st : exec (.fq d a st) s = execFq d a st s := rfl
theorem exec_cpy d a b st : exec (.cpy d a b st) s = execCpy d a b st s := rfl
theorem exec_cpyFe d a b st : exec (.cpyFe d a b st) s = execCpyFe d a b st s := rfl
theorem exec_mcast d a b st : exec (.mcast d a b st) s = execMcast d a b st s := rfl
theorem exec_putsig d a b st : exec (.putsig d a b st) s = execPutsig d a b st s := rfl
theorem exec_cpyPh d a b st : exec (.cpyPh d a b st) s = execCpyPh d a b st s := rfl
theorem exec_cpwait d a st : exec (.cpwait d a st) s = execCpwait d a st s := rfl
theorem exec_cpq d a st : exec (.cpq d a st) s = execCpq d a st s := rfl
theorem exec_cpcan d a b st : exec (.cpcan d a b st) s = execCpcan d a b st s := rfl
theorem exec_mark a off st : exec (.mark a off st) s = execMark a off st s := rfl
theorem exec_ttarm d a st : exec (.ttarm d a st) s = execTtarm d a st s := rfl
theorem exec_ttq d a st : exec (.ttq d a st) s = execTtq d a st s := rfl
theorem exec_ttreplay d a st : exec (.ttreplay d a st) s = execTtreplay d a st s := rfl
theorem exec_ttoff d st : exec (.ttoff d st) s = execTtoff d st s := rfl
theorem exec_tdef d a st : exec (.tdef d a st) s = execTdef d a st s := rfl
theorem exec_tspawn d a st : exec (.tspawn d a st) s = execTspawn d a st s := rfl
theorem exec_tnext d a idx st : exec (.tnext d a idx st) s = execTnext d a idx st s := rfl
theorem exec_tdone idx st : exec (.tdone idx st) s = execTdone idx st s := rfl
theorem exec_freeze d idx st : exec (.freeze d idx st) s = execFreeze d idx st s := rfl
theorem exec_tquery d a st : exec (.tquery d a st) s = execTquery d a st s := rfl
theorem exec_tclaim d a st : exec (.tclaim d a st) s = execTclaim d a st s := rfl
theorem exec_tlaunch d a st : exec (.tlaunch d a st) s = execTlaunch d a st s := rfl
theorem exec_tyield idx st : exec (.tyield idx st) s = execTyield idx st s := rfl
theorem exec_fence sc st : exec (.fence sc st) s = execFence sc st s := rfl
theorem exec_ldAcq d a sc st : exec (.ldAcq d a sc st) s = execLdAcq d a sc st s := rfl
theorem exec_stRel d a sc st : exec (.stRel d a sc st) s = execStRel d a sc st s := rfl
theorem exec_acqpDev d a b st : exec (.acqpDev d a b st) s = execAcqpDev d a b st s := rfl
theorem exec_acqpSys d a b st : exec (.acqpSys d a b st) s = execAcqpSys d a b st s := rfl
theorem exec_phnew d a sc st : exec (.phnew d a sc st) s = execPhnew d a sc st s := rfl
theorem exec_phfree d a st : exec (.phfree d a st) s = execPhfree d a st s := rfl
theorem exec_phreg d a md st : exec (.phreg d a md st) s = execPhreg d a md st s := rfl
theorem exec_phdrop d a st : exec (.phdrop d a st) s = execPhdrop d a st s := rfl
theorem exec_phsig d a st : exec (.phsig d a st) s = execPhsig d a st s := rfl
theorem exec_phwait d a st : exec (.phwait d a st) s = execPhwait d a st s := rfl
theorem exec_phnext d a st : exec (.phnext d a st) s = execPhnext d a st s := rfl
theorem exec_phq d a st : exec (.phq d a st) s = execPhq d a st s := rfl
theorem exec_illegalEncoding ibits len : exec (.illegalEncoding ibits len) s = execIllegalEncoding ibits len s := rfl
theorem exec_resultLands core k : exec (.resultLands core k) s = execResultLands core k s := rfl
theorem exec_storeBufferEntryLeaves core : exec (.storeBufferEntryLeaves core) s = execStoreBufferEntryLeaves core s := rfl
theorem exec_atomicPerformed core : exec (.atomicPerformed core) s = execAtomicPerformed core s := rfl
theorem exec_reductionApplied k : exec (.reductionApplied k) s = execReductionApplied k s := rfl
theorem exec_reductionAtPort core : exec (.reductionAtPort core) s = execReductionAtPort core s := rfl
theorem exec_combiningEntryExpiry port k : exec (.combiningEntryExpiry port k) s = execCombiningEntryExpiry port k s := rfl
theorem exec_promotionRequest core : exec (.promotionRequest core) s = execPromotionRequest core s := rfl
theorem exec_bankSwitchBegin die cl bank : exec (.bankSwitchBegin die cl bank) s = execBankSwitchBegin die cl bank s := rfl
theorem exec_bankSwitchEnd die cl bank : exec (.bankSwitchEnd die cl bank) s = execBankSwitchEnd die cl bank s := rfl
theorem exec_sectorDone die slot entry sector : exec (.sectorDone die slot entry sector) s = execSectorDone die slot entry sector s := rfl
theorem exec_entryFault die slot entry : exec (.entryFault die slot entry) s = execEntryFault die slot entry s := rfl
theorem exec_copyStart core : exec (.copyStart core) s = execCopyStart core s := rfl
theorem exec_segmentDone core ticket seg : exec (.segmentDone core ticket seg) s = execSegmentDone core ticket seg s := rfl
theorem exec_copyFault core ticket : exec (.copyFault core ticket) s = execCopyFault core ticket s := rfl
theorem exec_streamWordDelivery core strm : exec (.streamWordDelivery core strm) s = execStreamWordDelivery core strm s := rfl
theorem exec_vectorBind die cl : exec (.vectorBind die cl) s = execVectorBind die cl s := rfl
theorem exec_tripIssue core : exec (.tripIssue core) s = execTripIssue core s := rfl
theorem exec_matrixCommandStart die cl : exec (.matrixCommandStart die cl) s = execMatrixCommandStart die cl s := rfl
theorem exec_matrixCommandComplete die cl : exec (.matrixCommandComplete die cl) s = execMatrixCommandComplete die cl s := rfl
theorem exec_rotationTileArrival die cl : exec (.rotationTileArrival die cl) s = execRotationTileArrival die cl s := rfl
theorem exec_leaseIdleTimeout die cl : exec (.leaseIdleTimeout die cl) s = execLeaseIdleTimeout die cl s := rfl
theorem exec_counterSatisfied die k : exec (.counterSatisfied die k) s = execCounterSatisfied die k s := rfl
theorem exec_taskOffer die : exec (.taskOffer die) s = execTaskOffer die s := rfl
theorem exec_tnextTimeout core : exec (.tnextTimeout core) s = execTnextTimeout core s := rfl
theorem exec_placementRank die : exec (.placementRank die) s = execPlacementRank die s := rfl
theorem exec_settle die : exec (.settle die) s = execSettle die s := rfl
theorem exec_settleComplete die k : exec (.settleComplete die k) s = execSettleComplete die k s := rfl
theorem exec_migrationDecision lid : exec (.migrationDecision lid) s = execMigrationDecision lid s := rfl
theorem exec_quenchTick vf : exec (.quenchTick vf) s = execQuenchTick vf s := rfl
theorem exec_flushToken die vf : exec (.flushToken die vf) s = execFlushToken die vf s := rfl
theorem exec_spillDone core : exec (.spillDone core) s = execSpillDone core s := rfl
theorem exec_spillFault core : exec (.spillFault core) s = execSpillFault core s := rfl
theorem exec_clusterSpill die cl : exec (.clusterSpill die cl) s = execClusterSpill die cl s := rfl
theorem exec_qctlGo vf tick : exec (.qctlGo vf tick) s = execQctlGo vf tick s := rfl
theorem exec_corecmdContinueSpill core : exec (.corecmdContinueSpill core) s = execCorecmdContinueSpill core s := rfl
theorem exec_corecmdRestore core vcore : exec (.corecmdRestore core vcore) s = execCorecmdRestore core vcore s := rfl
theorem exec_corecmdRunInPlace core vcore : exec (.corecmdRunInPlace core vcore) s = execCorecmdRunInPlace core vcore s := rfl
theorem exec_packetHoldExpiry k : exec (.packetHoldExpiry k) s = execPacketHoldExpiry k s := rfl
theorem exec_orphrel die cl mask : exec (.orphrel die cl mask) s = execOrphrel die cl mask s := rfl
theorem exec_haltQueueRemove die vf : exec (.haltQueueRemove die vf) s = execHaltQueueRemove die vf s := rfl
theorem exec_faultQueueRemove die vf : exec (.faultQueueRemove die vf) s = execFaultQueueRemove die vf s := rfl
theorem exec_errorLogRemove die log : exec (.errorLogRemove die log) s = execErrorLogRemove die log s := rfl
theorem exec_invalidateCmd die vf cmd : exec (.invalidateCmd die vf cmd) s = execInvalidateCmd die vf cmd s := rfl
theorem exec_invalidateComplete die vf : exec (.invalidateComplete die vf) s = execInvalidateComplete die vf s := rfl
theorem exec_commit die : exec (.commit die) s = execCommit die s := rfl
theorem exec_ownershipBitmapWrite unit off val : exec (.ownershipBitmapWrite unit off val) s = execOwnershipBitmapWrite unit off val s := rfl
theorem exec_corevfWrite core vf : exec (.corevfWrite core vf) s = execCorevfWrite core vf s := rfl
theorem exec_remapWrite v val : exec (.remapWrite v val) s = execRemapWrite v val s := rfl
theorem exec_sparectl die val : exec (.sparectl die val) s = execSparectl die val s := rfl
theorem exec_packageBudgetWrite val : exec (.packageBudgetWrite val) s = execPackageBudgetWrite val s := rfl
theorem exec_coreclkWrite core val : exec (.coreclkWrite core val) s = execCoreclkWrite core val s := rfl
theorem exec_rowvWrite die row val : exec (.rowvWrite die row val) s = execRowvWrite die row val s := rfl
theorem exec_hopAbort core : exec (.hopAbort core) s = execHopAbort core s := rfl
theorem exec_hopRetry core : exec (.hopRetry core) s = execHopRetry core s := rfl
theorem exec_activityWindow die cl : exec (.activityWindow die cl) s = execActivityWindow die cl s := rfl
theorem exec_budgetInterval : exec (.budgetInterval) s = execBudgetInterval s := rfl
theorem exec_clockGate core : exec (.clockGate core) s = execClockGate core s := rfl
theorem exec_powerGate core : exec (.powerGate core) s = execPowerGate core s := rfl
theorem exec_residencyTimer core : exec (.residencyTimer core) s = execResidencyTimer core s := rfl
theorem exec_sleepDeadline core : exec (.sleepDeadline core) s = execSleepDeadline core s := rfl
theorem exec_wakeDoorbell core : exec (.wakeDoorbell core) s = execWakeDoorbell core s := rfl
theorem exec_counterCredit vcore vf ev n : exec (.counterCredit vcore vf ev n) s = execCounterCredit vcore vf ev n s := rfl
theorem exec_pcSample core reason : exec (.pcSample core reason) s = execPcSample core reason s := rfl
theorem exec_memorySample core req : exec (.memorySample core req) s = execMemorySample core req s := rfl
theorem exec_hostRequestTail q tail : exec (.hostRequestTail q tail) s = execHostRequestTail q tail s := rfl
theorem exec_hostRequestTake core : exec (.hostRequestTake core) s = execHostRequestTake core s := rfl
theorem exec_frouteWrite ep val : exec (.frouteWrite ep val) s = execFrouteWrite ep val s := rfl
theorem exec_fabricRequest req : exec (.fabricRequest req) s = execFabricRequest req s := rfl
theorem exec_flitCrcFailure die fails : exec (.flitCrcFailure die fails) s = execFlitCrcFailure die fails s := rfl
theorem exec_powerUpReset : exec (.powerUpReset) s = execPowerUpReset s := rfl
theorem exec_bootgo : exec (.bootgo) s = execBootgo s := rfl
theorem exec_attgo : exec (.attgo) s = execAttgo s := rfl
theorem exec_attestationDone : exec (.attestationDone) s = execAttestationDone s := rfl
theorem exec_hbm4Scrub word uncorrectable spare : exec (.hbm4Scrub word uncorrectable spare) s = execHbm4Scrub word uncorrectable spare s := rfl
theorem exec_registerWrite unit off val : exec (.registerWrite unit off val) s = execRegisterWrite unit off val s := rfl
theorem exec_sleepEndWithoutCause core : exec (.sleepEndWithoutCause core) s = execSleepEndWithoutCause core s := rfl
theorem exec_writeBackAcknowledged die line : exec (.writeBackAcknowledged die line) s = execWriteBackAcknowledged die line s := rfl
theorem exec_endpointStoreApplied k : exec (.endpointStoreApplied k) s = execEndpointStoreApplied k s := rfl
theorem exec_traceRecordPerformed die vf : exec (.traceRecordPerformed die vf) s = execTraceRecordPerformed die vf s := rfl

end Sys2Proof.Machine
end

