-- ==== Sys2Proof/Laws/Sparse.lean ====
section
/-! SUPPORT. Reading and writing sparse maps: a read after a write gives the value written, a write leaves every other
key alone, on any map at all; and a write keeps the canonical form. -/
namespace Sys2Proof.Machine

variable {α : Type}

/-- Dropping the entries of another key changes no read. -/
theorem sget_drop (d : α) (m : Sparse α) {k k' : Nat} (h : k' ≠ k) :
    sget d (m.filter (·.1 ≠ k)) k' = sget d m k' := by
  induction m with
  | nil => rfl
  | cons e m ih =>
    rw [List.filter_cons]
    by_cases hk : e.1 = k
    · have : e.1 ≠ k' := fun hc => h (hc.symm.trans hk)
      simp only [hk, ne_eq, not_true_eq_false, decide_false, Bool.false_eq_true, if_false]
      rw [ih]; conv => rhs; unfold sget
      simp [this]
    · simp only [ne_eq, hk, not_false_eq_true, decide_true, if_true]
      unfold sget; rw [ih]

/-- A key whose entries are dropped reads as the default. -/
theorem sget_dropped (d : α) (m : Sparse α) (k : Nat) : sget d (m.filter (·.1 ≠ k)) k = d := by
  induction m with
  | nil => rfl
  | cons e m ih =>
    rw [List.filter_cons]
    by_cases hk : e.1 = k
    · simpa [hk] using ih
    · simp only [ne_eq, hk, not_false_eq_true, decide_true, if_true]
      unfold sget; simp only [hk, if_false]; simpa using ih

/-- Inserting an entry changes no read of another key. -/
theorem sget_sins_ne (d : α) (m : Sparse α) {k k' : Nat} (v : α) (h : k' ≠ k) :
    sget d (sins m k v) k' = sget d m k' := by
  induction m with
  | nil => simp [sins, sget, h.symm]
  | cons e m ih =>
    unfold sins; split
    · simp [sget, h.symm]
    · simp only [sget, ih]

/-- An inserted entry is read at its key, where no earlier entry has it. -/
theorem sget_sins_self (d : α) (m : Sparse α) (k : Nat) (v : α) (h : ∀ e ∈ m, e.1 ≠ k) :
    sget d (sins m k v) k = v := by
  induction m with
  | nil => simp [sins, sget]
  | cons e m ih =>
    unfold sins; split
    · simp [sget]
    · simp only [sget, h e (List.mem_cons_self ..), if_false]
      exact ih fun x hx => h x (List.mem_cons_of_mem _ hx)

@[simp] theorem sget_nil (d : α) (k : Nat) : sget d [] k = d := rfl

variable [DecidableEq α]

/-- A read after a write. -/
theorem sget_sput (d : α) (m : Sparse α) (k : Nat) (v : α) (k' : Nat) :
    sget d (sput d m k v) k' = if k' = k then v else sget d m k' := by
  unfold sput
  by_cases h : k' = k
  · subst h; simp only [if_true]
    split
    · subst v; exact sget_dropped ..
    · exact sget_sins_self _ _ _ _ fun e he => by simpa using (List.mem_filter.1 he).2
  · simp only [h, if_false]
    split
    · exact sget_drop _ _ h
    · rw [sget_sins_ne _ _ _ h]; exact sget_drop _ _ h

@[simp] theorem sget_sput_self (d : α) (m : Sparse α) (k : Nat) (v : α) : sget d (sput d m k v) k = v := by
  simp [sget_sput]

@[simp] theorem sget_sput_ne (d : α) (m : Sparse α) {k k' : Nat} (v : α) (h : k' ≠ k) :
    sget d (sput d m k v) k' = sget d m k' := by simp [sget_sput, h]

/-- A read after an update. -/
theorem sget_supd (d : α) (m : Sparse α) (k : Nat) (f : α → α) (k' : Nat) :
    sget d (supd d m k f) k' = if k' = k then f (sget d m k) else sget d m k' := by
  simp [supd, sget_sput]

@[simp] theorem sget_supd_self (d : α) (m : Sparse α) (k : Nat) (f : α → α) :
    sget d (supd d m k f) k = f (sget d m k) := by simp [sget_supd]

@[simp] theorem sget_supd_ne (d : α) (m : Sparse α) {k k' : Nat} (f : α → α) (h : k' ≠ k) :
    sget d (supd d m k f) k' = sget d m k' := by simp [sget_supd, h]

/-! The canonical form. -/

/-- A lower bound of the listed keys may be lowered. -/
theorem scanon_mono {d : α} {m : Sparse α} {b b' : Nat} (hb : b' ≤ b) (h : scanon d b m = true) :
    scanon d b' m = true := by
  cases m with
  | nil => rfl
  | cons e m => simp only [scanon, Bool.and_eq_true, decide_eq_true_eq] at h ⊢; exact ⟨⟨by omega, h.1.2⟩, h.2⟩

/-- Dropping entries keeps the canonical form. -/
theorem scanon_filter {d : α} (f : Nat × α → Bool) {m : Sparse α} {b : Nat} (h : scanon d b m = true) :
    scanon d b (m.filter f) = true := by
  induction m generalizing b with
  | nil => rfl
  | cons e m ih =>
    simp only [scanon, Bool.and_eq_true, decide_eq_true_eq] at h
    rw [List.filter_cons]; split
    · simp only [scanon, Bool.and_eq_true, decide_eq_true_eq]; exact ⟨h.1, ih h.2⟩
    · exact scanon_mono (by omega) (ih h.2)

/-- Inserting an entry whose key is not listed and whose value is not the default keeps the canonical form. -/
theorem scanon_sins {d : α} {m : Sparse α} {b k : Nat} {v : α} (hb : b ≤ k) (hv : v ≠ d)
    (hk : ∀ e ∈ m, e.1 ≠ k) (h : scanon d b m = true) : scanon d b (sins m k v) = true := by
  induction m generalizing b with
  | nil => simp [sins, scanon, hb, hv]
  | cons e m ih =>
    simp only [scanon, Bool.and_eq_true, decide_eq_true_eq] at h
    have he := hk e (List.mem_cons_self ..)
    unfold sins; split
    · simp only [scanon, Bool.and_eq_true, decide_eq_true_eq]; exact ⟨⟨hb, hv⟩, ⟨by omega, h.1.2⟩, h.2⟩
    · simp only [scanon, Bool.and_eq_true, decide_eq_true_eq]
      exact ⟨h.1, ih (by omega) (fun x hx => hk x (List.mem_cons_of_mem _ hx)) h.2⟩

/-- A write keeps the canonical form. -/
theorem scanon_sput {d : α} {m : Sparse α} {b k : Nat} (v : α) (hb : b ≤ k) (h : scanon d b m = true) :
    scanon d b (sput d m k v) = true := by
  have hf := scanon_filter (d := d) (fun e : Nat × α => decide (e.1 ≠ k)) h
  unfold sput; split
  · exact hf
  · exact scanon_sins hb ‹_› (fun e he => by simpa using (List.mem_filter.1 he).2) hf

end Sys2Proof.Machine
end

