-- ==== Sys2Proof/Laws/State.lean ====
section
/-! SUPPORT. One lemma for each field after each of the state's and a core's plain updates, so that no later proof
unfolds a record update. -/
namespace Sys2Proof.Machine


/-! State.updCore -/

@[simp] theorem State.updCore_time (s : State) (f : Core → Core) : (s.updCore f).time = s.time := rfl
@[simp] theorem State.updCore_oracle (s : State) (f : Core → Core) : (s.updCore f).oracle = s.oracle := rfl
@[simp] theorem State.updCore_seq (s : State) (f : Core → Core) : (s.updCore f).seq = s.seq := rfl
@[simp] theorem State.updCore_agenda (s : State) (f : Core → Core) : (s.updCore f).agenda = s.agenda := rfl
@[simp] theorem State.updCore_focus (s : State) (f : Core → Core) : (s.updCore f).focus = s.focus := rfl
@[simp] theorem State.updCore_core (s : State) (f : Core → Core) : (s.updCore f).core = f s.core := rfl
@[simp] theorem State.updCore_others (s : State) (f : Core → Core) : (s.updCore f).others = s.others := rfl
@[simp] theorem State.updCore_clusters (s : State) (f : Core → Core) : (s.updCore f).clusters = s.clusters := rfl
@[simp] theorem State.updCore_dies (s : State) (f : Core → Core) : (s.updCore f).dies = s.dies := rfl
@[simp] theorem State.updCore_mem (s : State) (f : Core → Core) : (s.updCore f).mem = s.mem := rfl
@[simp] theorem State.updCore_poison (s : State) (f : Core → Core) : (s.updCore f).poison = s.poison := rfl
@[simp] theorem State.updCore_vfpol (s : State) (f : Core → Core) : (s.updCore f).vfpol = s.vfpol := rfl
@[simp] theorem State.updCore_quench (s : State) (f : Core → Core) : (s.updCore f).quench = s.quench := rfl
@[simp] theorem State.updCore_save (s : State) (f : Core → Core) : (s.updCore f).save = s.save := rfl
@[simp] theorem State.updCore_ioOwn (s : State) (f : Core → Core) : (s.updCore f).ioOwn = s.ioOwn := rfl
@[simp] theorem State.updCore_switches (s : State) (f : Core → Core) : (s.updCore f).switches = s.switches := rfl
@[simp] theorem State.updCore_ports (s : State) (f : Core → Core) : (s.updCore f).ports = s.ports := rfl
@[simp] theorem State.updCore_reds (s : State) (f : Core → Core) : (s.updCore f).reds = s.reds := rfl
@[simp] theorem State.updCore_fstores (s : State) (f : Core → Core) : (s.updCore f).fstores = s.fstores := rfl
@[simp] theorem State.updCore_promos (s : State) (f : Core → Core) : (s.updCore f).promos = s.promos := rfl
@[simp] theorem State.updCore_wbacks (s : State) (f : Core → Core) : (s.updCore f).wbacks = s.wbacks := rfl
@[simp] theorem State.updCore_remap (s : State) (f : Core → Core) : (s.updCore f).remap = s.remap := rfl
@[simp] theorem State.updCore_launches (s : State) (f : Core → Core) : (s.updCore f).launches = s.launches := rfl
@[simp] theorem State.updCore_lastLid (s : State) (f : Core → Core) : (s.updCore f).lastLid = s.lastLid := rfl
@[simp] theorem State.updCore_budget (s : State) (f : Core → Core) : (s.updCore f).budget = s.budget := rfl
@[simp] theorem State.updCore_epoch (s : State) (f : Core → Core) : (s.updCore f).epoch = s.epoch := rfl
@[simp] theorem State.updCore_fabric (s : State) (f : Core → Core) : (s.updCore f).fabric = s.fabric := rfl
@[simp] theorem State.updCore_queues (s : State) (f : Core → Core) : (s.updCore f).queues = s.queues := rfl
@[simp] theorem State.updCore_arrivals (s : State) (f : Core → Core) : (s.updCore f).arrivals = s.arrivals := rfl
@[simp] theorem State.updCore_boot (s : State) (f : Core → Core) : (s.updCore f).boot = s.boot := rfl
@[simp] theorem State.updCore_held (s : State) (f : Core → Core) : (s.updCore f).held = s.held := rfl
@[simp] theorem State.updCore_credits (s : State) (f : Core → Core) : (s.updCore f).credits = s.credits := rfl
@[simp] theorem State.updCore_tport (s : State) (f : Core → Core) : (s.updCore f).tport = s.tport := rfl
@[simp] theorem State.updCore_tlost (s : State) (f : Core → Core) : (s.updCore f).tlost = s.tlost := rfl

/-! State.setDie -/

@[simp] theorem State.setDie_time (s : State) (d : Nat) (x : Die) : (s.setDie d x).time = s.time := rfl
@[simp] theorem State.setDie_oracle (s : State) (d : Nat) (x : Die) : (s.setDie d x).oracle = s.oracle := rfl
@[simp] theorem State.setDie_seq (s : State) (d : Nat) (x : Die) : (s.setDie d x).seq = s.seq := rfl
@[simp] theorem State.setDie_agenda (s : State) (d : Nat) (x : Die) : (s.setDie d x).agenda = s.agenda := rfl
@[simp] theorem State.setDie_focus (s : State) (d : Nat) (x : Die) : (s.setDie d x).focus = s.focus := rfl
@[simp] theorem State.setDie_core (s : State) (d : Nat) (x : Die) : (s.setDie d x).core = s.core := rfl
@[simp] theorem State.setDie_others (s : State) (d : Nat) (x : Die) : (s.setDie d x).others = s.others := rfl
@[simp] theorem State.setDie_clusters (s : State) (d : Nat) (x : Die) : (s.setDie d x).clusters = s.clusters := rfl
@[simp] theorem State.setDie_dies (s : State) (d : Nat) (x : Die) :
    (s.setDie d x).dies = sput Die.reset s.dies d x := rfl
@[simp] theorem State.setDie_mem (s : State) (d : Nat) (x : Die) : (s.setDie d x).mem = s.mem := rfl
@[simp] theorem State.setDie_poison (s : State) (d : Nat) (x : Die) : (s.setDie d x).poison = s.poison := rfl
@[simp] theorem State.setDie_vfpol (s : State) (d : Nat) (x : Die) : (s.setDie d x).vfpol = s.vfpol := rfl
@[simp] theorem State.setDie_quench (s : State) (d : Nat) (x : Die) : (s.setDie d x).quench = s.quench := rfl
@[simp] theorem State.setDie_save (s : State) (d : Nat) (x : Die) : (s.setDie d x).save = s.save := rfl
@[simp] theorem State.setDie_ioOwn (s : State) (d : Nat) (x : Die) : (s.setDie d x).ioOwn = s.ioOwn := rfl
@[simp] theorem State.setDie_switches (s : State) (d : Nat) (x : Die) : (s.setDie d x).switches = s.switches := rfl
@[simp] theorem State.setDie_ports (s : State) (d : Nat) (x : Die) : (s.setDie d x).ports = s.ports := rfl
@[simp] theorem State.setDie_reds (s : State) (d : Nat) (x : Die) : (s.setDie d x).reds = s.reds := rfl
@[simp] theorem State.setDie_fstores (s : State) (d : Nat) (x : Die) : (s.setDie d x).fstores = s.fstores := rfl
@[simp] theorem State.setDie_promos (s : State) (d : Nat) (x : Die) : (s.setDie d x).promos = s.promos := rfl
@[simp] theorem State.setDie_wbacks (s : State) (d : Nat) (x : Die) : (s.setDie d x).wbacks = s.wbacks := rfl
@[simp] theorem State.setDie_remap (s : State) (d : Nat) (x : Die) : (s.setDie d x).remap = s.remap := rfl
@[simp] theorem State.setDie_launches (s : State) (d : Nat) (x : Die) : (s.setDie d x).launches = s.launches := rfl
@[simp] theorem State.setDie_lastLid (s : State) (d : Nat) (x : Die) : (s.setDie d x).lastLid = s.lastLid := rfl
@[simp] theorem State.setDie_budget (s : State) (d : Nat) (x : Die) : (s.setDie d x).budget = s.budget := rfl
@[simp] theorem State.setDie_epoch (s : State) (d : Nat) (x : Die) : (s.setDie d x).epoch = s.epoch := rfl
@[simp] theorem State.setDie_fabric (s : State) (d : Nat) (x : Die) : (s.setDie d x).fabric = s.fabric := rfl
@[simp] theorem State.setDie_queues (s : State) (d : Nat) (x : Die) : (s.setDie d x).queues = s.queues := rfl
@[simp] theorem State.setDie_arrivals (s : State) (d : Nat) (x : Die) : (s.setDie d x).arrivals = s.arrivals := rfl
@[simp] theorem State.setDie_boot (s : State) (d : Nat) (x : Die) : (s.setDie d x).boot = s.boot := rfl
@[simp] theorem State.setDie_held (s : State) (d : Nat) (x : Die) : (s.setDie d x).held = s.held := rfl
@[simp] theorem State.setDie_credits (s : State) (d : Nat) (x : Die) : (s.setDie d x).credits = s.credits := rfl
@[simp] theorem State.setDie_tport (s : State) (d : Nat) (x : Die) : (s.setDie d x).tport = s.tport := rfl
@[simp] theorem State.setDie_tlost (s : State) (d : Nat) (x : Die) : (s.setDie d x).tlost = s.tlost := rfl

/-! State.updDie -/

@[simp] theorem State.updDie_time (s : State) (d : Nat) (g : Die → Die) : (s.updDie d g).time = s.time := rfl
@[simp] theorem State.updDie_oracle (s : State) (d : Nat) (g : Die → Die) : (s.updDie d g).oracle = s.oracle := rfl
@[simp] theorem State.updDie_seq (s : State) (d : Nat) (g : Die → Die) : (s.updDie d g).seq = s.seq := rfl
@[simp] theorem State.updDie_agenda (s : State) (d : Nat) (g : Die → Die) : (s.updDie d g).agenda = s.agenda := rfl
@[simp] theorem State.updDie_focus (s : State) (d : Nat) (g : Die → Die) : (s.updDie d g).focus = s.focus := rfl
@[simp] theorem State.updDie_core (s : State) (d : Nat) (g : Die → Die) : (s.updDie d g).core = s.core := rfl
@[simp] theorem State.updDie_others (s : State) (d : Nat) (g : Die → Die) : (s.updDie d g).others = s.others := rfl
@[simp] theorem State.updDie_clusters (s : State) (d : Nat) (g : Die → Die) :
    (s.updDie d g).clusters = s.clusters := rfl
@[simp] theorem State.updDie_mem (s : State) (d : Nat) (g : Die → Die) : (s.updDie d g).mem = s.mem := rfl
@[simp] theorem State.updDie_poison (s : State) (d : Nat) (g : Die → Die) : (s.updDie d g).poison = s.poison := rfl
@[simp] theorem State.updDie_vfpol (s : State) (d : Nat) (g : Die → Die) : (s.updDie d g).vfpol = s.vfpol := rfl
@[simp] theorem State.updDie_quench (s : State) (d : Nat) (g : Die → Die) : (s.updDie d g).quench = s.quench := rfl
@[simp] theorem State.updDie_save (s : State) (d : Nat) (g : Die → Die) : (s.updDie d g).save = s.save := rfl
@[simp] theorem State.updDie_ioOwn (s : State) (d : Nat) (g : Die → Die) : (s.updDie d g).ioOwn = s.ioOwn := rfl
@[simp] theorem State.updDie_switches (s : State) (d : Nat) (g : Die → Die) :
    (s.updDie d g).switches = s.switches := rfl
@[simp] theorem State.updDie_ports (s : State) (d : Nat) (g : Die → Die) : (s.updDie d g).ports = s.ports := rfl
@[simp] theorem State.updDie_reds (s : State) (d : Nat) (g : Die → Die) : (s.updDie d g).reds = s.reds := rfl
@[simp] theorem State.updDie_fstores (s : State) (d : Nat) (g : Die → Die) : (s.updDie d g).fstores = s.fstores := rfl
@[simp] theorem State.updDie_promos (s : State) (d : Nat) (g : Die → Die) : (s.updDie d g).promos = s.promos := rfl
@[simp] theorem State.updDie_wbacks (s : State) (d : Nat) (g : Die → Die) : (s.updDie d g).wbacks = s.wbacks := rfl
@[simp] theorem State.updDie_remap (s : State) (d : Nat) (g : Die → Die) : (s.updDie d g).remap = s.remap := rfl
@[simp] theorem State.updDie_launches (s : State) (d : Nat) (g : Die → Die) :
    (s.updDie d g).launches = s.launches := rfl
@[simp] theorem State.updDie_lastLid (s : State) (d : Nat) (g : Die → Die) : (s.updDie d g).lastLid = s.lastLid := rfl
@[simp] theorem State.updDie_budget (s : State) (d : Nat) (g : Die → Die) : (s.updDie d g).budget = s.budget := rfl
@[simp] theorem State.updDie_epoch (s : State) (d : Nat) (g : Die → Die) : (s.updDie d g).epoch = s.epoch := rfl
@[simp] theorem State.updDie_fabric (s : State) (d : Nat) (g : Die → Die) : (s.updDie d g).fabric = s.fabric := rfl
@[simp] theorem State.updDie_queues (s : State) (d : Nat) (g : Die → Die) : (s.updDie d g).queues = s.queues := rfl
@[simp] theorem State.updDie_arrivals (s : State) (d : Nat) (g : Die → Die) :
    (s.updDie d g).arrivals = s.arrivals := rfl
@[simp] theorem State.updDie_boot (s : State) (d : Nat) (g : Die → Die) : (s.updDie d g).boot = s.boot := rfl
@[simp] theorem State.updDie_held (s : State) (d : Nat) (g : Die → Die) : (s.updDie d g).held = s.held := rfl
@[simp] theorem State.updDie_credits (s : State) (d : Nat) (g : Die → Die) : (s.updDie d g).credits = s.credits := rfl
@[simp] theorem State.updDie_tport (s : State) (d : Nat) (g : Die → Die) : (s.updDie d g).tport = s.tport := rfl
@[simp] theorem State.updDie_tlost (s : State) (d : Nat) (g : Die → Die) : (s.updDie d g).tlost = s.tlost := rfl

/-! State.setCl -/

@[simp] theorem State.setCl_time (s : State) (k : Nat) (x : Cluster) : (s.setCl k x).time = s.time := rfl
@[simp] theorem State.setCl_oracle (s : State) (k : Nat) (x : Cluster) : (s.setCl k x).oracle = s.oracle := rfl
@[simp] theorem State.setCl_seq (s : State) (k : Nat) (x : Cluster) : (s.setCl k x).seq = s.seq := rfl
@[simp] theorem State.setCl_agenda (s : State) (k : Nat) (x : Cluster) : (s.setCl k x).agenda = s.agenda := rfl
@[simp] theorem State.setCl_focus (s : State) (k : Nat) (x : Cluster) : (s.setCl k x).focus = s.focus := rfl
@[simp] theorem State.setCl_core (s : State) (k : Nat) (x : Cluster) : (s.setCl k x).core = s.core := rfl
@[simp] theorem State.setCl_others (s : State) (k : Nat) (x : Cluster) : (s.setCl k x).others = s.others := rfl
@[simp] theorem State.setCl_clusters (s : State) (k : Nat) (x : Cluster) :
    (s.setCl k x).clusters = sput {} s.clusters k x := rfl
@[simp] theorem State.setCl_dies (s : State) (k : Nat) (x : Cluster) : (s.setCl k x).dies = s.dies := rfl
@[simp] theorem State.setCl_mem (s : State) (k : Nat) (x : Cluster) : (s.setCl k x).mem = s.mem := rfl
@[simp] theorem State.setCl_poison (s : State) (k : Nat) (x : Cluster) : (s.setCl k x).poison = s.poison := rfl
@[simp] theorem State.setCl_vfpol (s : State) (k : Nat) (x : Cluster) : (s.setCl k x).vfpol = s.vfpol := rfl
@[simp] theorem State.setCl_quench (s : State) (k : Nat) (x : Cluster) : (s.setCl k x).quench = s.quench := rfl
@[simp] theorem State.setCl_save (s : State) (k : Nat) (x : Cluster) : (s.setCl k x).save = s.save := rfl
@[simp] theorem State.setCl_ioOwn (s : State) (k : Nat) (x : Cluster) : (s.setCl k x).ioOwn = s.ioOwn := rfl
@[simp] theorem State.setCl_switches (s : State) (k : Nat) (x : Cluster) : (s.setCl k x).switches = s.switches := rfl
@[simp] theorem State.setCl_ports (s : State) (k : Nat) (x : Cluster) : (s.setCl k x).ports = s.ports := rfl
@[simp] theorem State.setCl_reds (s : State) (k : Nat) (x : Cluster) : (s.setCl k x).reds = s.reds := rfl
@[simp] theorem State.setCl_fstores (s : State) (k : Nat) (x : Cluster) : (s.setCl k x).fstores = s.fstores := rfl
@[simp] theorem State.setCl_promos (s : State) (k : Nat) (x : Cluster) : (s.setCl k x).promos = s.promos := rfl
@[simp] theorem State.setCl_wbacks (s : State) (k : Nat) (x : Cluster) : (s.setCl k x).wbacks = s.wbacks := rfl
@[simp] theorem State.setCl_remap (s : State) (k : Nat) (x : Cluster) : (s.setCl k x).remap = s.remap := rfl
@[simp] theorem State.setCl_launches (s : State) (k : Nat) (x : Cluster) : (s.setCl k x).launches = s.launches := rfl
@[simp] theorem State.setCl_lastLid (s : State) (k : Nat) (x : Cluster) : (s.setCl k x).lastLid = s.lastLid := rfl
@[simp] theorem State.setCl_budget (s : State) (k : Nat) (x : Cluster) : (s.setCl k x).budget = s.budget := rfl
@[simp] theorem State.setCl_epoch (s : State) (k : Nat) (x : Cluster) : (s.setCl k x).epoch = s.epoch := rfl
@[simp] theorem State.setCl_fabric (s : State) (k : Nat) (x : Cluster) : (s.setCl k x).fabric = s.fabric := rfl
@[simp] theorem State.setCl_queues (s : State) (k : Nat) (x : Cluster) : (s.setCl k x).queues = s.queues := rfl
@[simp] theorem State.setCl_arrivals (s : State) (k : Nat) (x : Cluster) : (s.setCl k x).arrivals = s.arrivals := rfl
@[simp] theorem State.setCl_boot (s : State) (k : Nat) (x : Cluster) : (s.setCl k x).boot = s.boot := rfl
@[simp] theorem State.setCl_held (s : State) (k : Nat) (x : Cluster) : (s.setCl k x).held = s.held := rfl
@[simp] theorem State.setCl_credits (s : State) (k : Nat) (x : Cluster) : (s.setCl k x).credits = s.credits := rfl
@[simp] theorem State.setCl_tport (s : State) (k : Nat) (x : Cluster) : (s.setCl k x).tport = s.tport := rfl
@[simp] theorem State.setCl_tlost (s : State) (k : Nat) (x : Cluster) : (s.setCl k x).tlost = s.tlost := rfl

/-! State.updCl -/

@[simp] theorem State.updCl_time (s : State) (k : Nat) (g : Cluster → Cluster) : (s.updCl k g).time = s.time := rfl
@[simp] theorem State.updCl_oracle (s : State) (k : Nat) (g : Cluster → Cluster) :
    (s.updCl k g).oracle = s.oracle := rfl
@[simp] theorem State.updCl_seq (s : State) (k : Nat) (g : Cluster → Cluster) : (s.updCl k g).seq = s.seq := rfl
@[simp] theorem State.updCl_agenda (s : State) (k : Nat) (g : Cluster → Cluster) :
    (s.updCl k g).agenda = s.agenda := rfl
@[simp] theorem State.updCl_focus (s : State) (k : Nat) (g : Cluster → Cluster) : (s.updCl k g).focus = s.focus := rfl
@[simp] theorem State.updCl_core (s : State) (k : Nat) (g : Cluster → Cluster) : (s.updCl k g).core = s.core := rfl
@[simp] theorem State.updCl_others (s : State) (k : Nat) (g : Cluster → Cluster) :
    (s.updCl k g).others = s.others := rfl
@[simp] theorem State.updCl_dies (s : State) (k : Nat) (g : Cluster → Cluster) : (s.updCl k g).dies = s.dies := rfl
@[simp] theorem State.updCl_mem (s : State) (k : Nat) (g : Cluster → Cluster) : (s.updCl k g).mem = s.mem := rfl
@[simp] theorem State.updCl_poison (s : State) (k : Nat) (g : Cluster → Cluster) :
    (s.updCl k g).poison = s.poison := rfl
@[simp] theorem State.updCl_vfpol (s : State) (k : Nat) (g : Cluster → Cluster) : (s.updCl k g).vfpol = s.vfpol := rfl
@[simp] theorem State.updCl_quench (s : State) (k : Nat) (g : Cluster → Cluster) :
    (s.updCl k g).quench = s.quench := rfl
@[simp] theorem State.updCl_save (s : State) (k : Nat) (g : Cluster → Cluster) : (s.updCl k g).save = s.save := rfl
@[simp] theorem State.updCl_ioOwn (s : State) (k : Nat) (g : Cluster → Cluster) : (s.updCl k g).ioOwn = s.ioOwn := rfl
@[simp] theorem State.updCl_switches (s : State) (k : Nat) (g : Cluster → Cluster) :
    (s.updCl k g).switches = s.switches := rfl
@[simp] theorem State.updCl_ports (s : State) (k : Nat) (g : Cluster → Cluster) : (s.updCl k g).ports = s.ports := rfl
@[simp] theorem State.updCl_reds (s : State) (k : Nat) (g : Cluster → Cluster) : (s.updCl k g).reds = s.reds := rfl
@[simp] theorem State.updCl_fstores (s : State) (k : Nat) (g : Cluster → Cluster) :
    (s.updCl k g).fstores = s.fstores := rfl
@[simp] theorem State.updCl_promos (s : State) (k : Nat) (g : Cluster → Cluster) :
    (s.updCl k g).promos = s.promos := rfl
@[simp] theorem State.updCl_wbacks (s : State) (k : Nat) (g : Cluster → Cluster) :
    (s.updCl k g).wbacks = s.wbacks := rfl
@[simp] theorem State.updCl_remap (s : State) (k : Nat) (g : Cluster → Cluster) : (s.updCl k g).remap = s.remap := rfl
@[simp] theorem State.updCl_launches (s : State) (k : Nat) (g : Cluster → Cluster) :
    (s.updCl k g).launches = s.launches := rfl
@[simp] theorem State.updCl_lastLid (s : State) (k : Nat) (g : Cluster → Cluster) :
    (s.updCl k g).lastLid = s.lastLid := rfl
@[simp] theorem State.updCl_budget (s : State) (k : Nat) (g : Cluster → Cluster) :
    (s.updCl k g).budget = s.budget := rfl
@[simp] theorem State.updCl_epoch (s : State) (k : Nat) (g : Cluster → Cluster) : (s.updCl k g).epoch = s.epoch := rfl
@[simp] theorem State.updCl_fabric (s : State) (k : Nat) (g : Cluster → Cluster) :
    (s.updCl k g).fabric = s.fabric := rfl
@[simp] theorem State.updCl_queues (s : State) (k : Nat) (g : Cluster → Cluster) :
    (s.updCl k g).queues = s.queues := rfl
@[simp] theorem State.updCl_arrivals (s : State) (k : Nat) (g : Cluster → Cluster) :
    (s.updCl k g).arrivals = s.arrivals := rfl
@[simp] theorem State.updCl_boot (s : State) (k : Nat) (g : Cluster → Cluster) : (s.updCl k g).boot = s.boot := rfl
@[simp] theorem State.updCl_held (s : State) (k : Nat) (g : Cluster → Cluster) : (s.updCl k g).held = s.held := rfl
@[simp] theorem State.updCl_credits (s : State) (k : Nat) (g : Cluster → Cluster) :
    (s.updCl k g).credits = s.credits := rfl
@[simp] theorem State.updCl_tport (s : State) (k : Nat) (g : Cluster → Cluster) : (s.updCl k g).tport = s.tport := rfl
@[simp] theorem State.updCl_tlost (s : State) (k : Nat) (g : Cluster → Cluster) : (s.updCl k g).tlost = s.tlost := rfl

/-! State.logAt -/

@[simp] theorem State.logAt_time (s : State) (d v vc : Nat) (a : Word) (c : Nat) :
    (s.logAt d v vc a c).time = s.time := rfl
@[simp] theorem State.logAt_oracle (s : State) (d v vc : Nat) (a : Word) (c : Nat) :
    (s.logAt d v vc a c).oracle = s.oracle := rfl
@[simp] theorem State.logAt_seq (s : State) (d v vc : Nat) (a : Word) (c : Nat) :
    (s.logAt d v vc a c).seq = s.seq := rfl
@[simp] theorem State.logAt_agenda (s : State) (d v vc : Nat) (a : Word) (c : Nat) :
    (s.logAt d v vc a c).agenda = s.agenda := rfl
@[simp] theorem State.logAt_focus (s : State) (d v vc : Nat) (a : Word) (c : Nat) :
    (s.logAt d v vc a c).focus = s.focus := rfl
@[simp] theorem State.logAt_core (s : State) (d v vc : Nat) (a : Word) (c : Nat) :
    (s.logAt d v vc a c).core = s.core := rfl
@[simp] theorem State.logAt_others (s : State) (d v vc : Nat) (a : Word) (c : Nat) :
    (s.logAt d v vc a c).others = s.others := rfl
@[simp] theorem State.logAt_clusters (s : State) (d v vc : Nat) (a : Word) (c : Nat) :
    (s.logAt d v vc a c).clusters = s.clusters := rfl
@[simp] theorem State.logAt_mem (s : State) (d v vc : Nat) (a : Word) (c : Nat) :
    (s.logAt d v vc a c).mem = s.mem := rfl
@[simp] theorem State.logAt_poison (s : State) (d v vc : Nat) (a : Word) (c : Nat) :
    (s.logAt d v vc a c).poison = s.poison := rfl
@[simp] theorem State.logAt_vfpol (s : State) (d v vc : Nat) (a : Word) (c : Nat) :
    (s.logAt d v vc a c).vfpol = s.vfpol := rfl
@[simp] theorem State.logAt_quench (s : State) (d v vc : Nat) (a : Word) (c : Nat) :
    (s.logAt d v vc a c).quench = s.quench := rfl
@[simp] theorem State.logAt_save (s : State) (d v vc : Nat) (a : Word) (c : Nat) :
    (s.logAt d v vc a c).save = s.save := rfl
@[simp] theorem State.logAt_ioOwn (s : State) (d v vc : Nat) (a : Word) (c : Nat) :
    (s.logAt d v vc a c).ioOwn = s.ioOwn := rfl
@[simp] theorem State.logAt_switches (s : State) (d v vc : Nat) (a : Word) (c : Nat) :
    (s.logAt d v vc a c).switches = s.switches := rfl
@[simp] theorem State.logAt_ports (s : State) (d v vc : Nat) (a : Word) (c : Nat) :
    (s.logAt d v vc a c).ports = s.ports := rfl
@[simp] theorem State.logAt_reds (s : State) (d v vc : Nat) (a : Word) (c : Nat) :
    (s.logAt d v vc a c).reds = s.reds := rfl
@[simp] theorem State.logAt_fstores (s : State) (d v vc : Nat) (a : Word) (c : Nat) :
    (s.logAt d v vc a c).fstores = s.fstores := rfl
@[simp] theorem State.logAt_promos (s : State) (d v vc : Nat) (a : Word) (c : Nat) :
    (s.logAt d v vc a c).promos = s.promos := rfl
@[simp] theorem State.logAt_wbacks (s : State) (d v vc : Nat) (a : Word) (c : Nat) :
    (s.logAt d v vc a c).wbacks = s.wbacks := rfl
@[simp] theorem State.logAt_remap (s : State) (d v vc : Nat) (a : Word) (c : Nat) :
    (s.logAt d v vc a c).remap = s.remap := rfl
@[simp] theorem State.logAt_launches (s : State) (d v vc : Nat) (a : Word) (c : Nat) :
    (s.logAt d v vc a c).launches = s.launches := rfl
@[simp] theorem State.logAt_lastLid (s : State) (d v vc : Nat) (a : Word) (c : Nat) :
    (s.logAt d v vc a c).lastLid = s.lastLid := rfl
@[simp] theorem State.logAt_budget (s : State) (d v vc : Nat) (a : Word) (c : Nat) :
    (s.logAt d v vc a c).budget = s.budget := rfl
@[simp] theorem State.logAt_epoch (s : State) (d v vc : Nat) (a : Word) (c : Nat) :
    (s.logAt d v vc a c).epoch = s.epoch := rfl
@[simp] theorem State.logAt_fabric (s : State) (d v vc : Nat) (a : Word) (c : Nat) :
    (s.logAt d v vc a c).fabric = s.fabric := rfl
@[simp] theorem State.logAt_queues (s : State) (d v vc : Nat) (a : Word) (c : Nat) :
    (s.logAt d v vc a c).queues = s.queues := rfl
@[simp] theorem State.logAt_arrivals (s : State) (d v vc : Nat) (a : Word) (c : Nat) :
    (s.logAt d v vc a c).arrivals = s.arrivals := rfl
@[simp] theorem State.logAt_boot (s : State) (d v vc : Nat) (a : Word) (c : Nat) :
    (s.logAt d v vc a c).boot = s.boot := rfl
@[simp] theorem State.logAt_held (s : State) (d v vc : Nat) (a : Word) (c : Nat) :
    (s.logAt d v vc a c).held = s.held := rfl
@[simp] theorem State.logAt_credits (s : State) (d v vc : Nat) (a : Word) (c : Nat) :
    (s.logAt d v vc a c).credits = s.credits := rfl
@[simp] theorem State.logAt_tport (s : State) (d v vc : Nat) (a : Word) (c : Nat) :
    (s.logAt d v vc a c).tport = s.tport := rfl
@[simp] theorem State.logAt_tlost (s : State) (d v vc : Nat) (a : Word) (c : Nat) :
    (s.logAt d v vc a c).tlost = s.tlost := rfl

/-! State.free -/

@[simp] theorem State.free_time (s : State) : (s.free.2).time = s.time := rfl
@[simp] theorem State.free_oracle (s : State) : (s.free.2).oracle = s.oracle + 1 := rfl
@[simp] theorem State.free_seq (s : State) : (s.free.2).seq = s.seq := rfl
@[simp] theorem State.free_agenda (s : State) : (s.free.2).agenda = s.agenda := rfl
@[simp] theorem State.free_focus (s : State) : (s.free.2).focus = s.focus := rfl
@[simp] theorem State.free_core (s : State) : (s.free.2).core = s.core := rfl
@[simp] theorem State.free_others (s : State) : (s.free.2).others = s.others := rfl
@[simp] theorem State.free_clusters (s : State) : (s.free.2).clusters = s.clusters := rfl
@[simp] theorem State.free_dies (s : State) : (s.free.2).dies = s.dies := rfl
@[simp] theorem State.free_mem (s : State) : (s.free.2).mem = s.mem := rfl
@[simp] theorem State.free_poison (s : State) : (s.free.2).poison = s.poison := rfl
@[simp] theorem State.free_vfpol (s : State) : (s.free.2).vfpol = s.vfpol := rfl
@[simp] theorem State.free_quench (s : State) : (s.free.2).quench = s.quench := rfl
@[simp] theorem State.free_save (s : State) : (s.free.2).save = s.save := rfl
@[simp] theorem State.free_ioOwn (s : State) : (s.free.2).ioOwn = s.ioOwn := rfl
@[simp] theorem State.free_switches (s : State) : (s.free.2).switches = s.switches := rfl
@[simp] theorem State.free_ports (s : State) : (s.free.2).ports = s.ports := rfl
@[simp] theorem State.free_reds (s : State) : (s.free.2).reds = s.reds := rfl
@[simp] theorem State.free_fstores (s : State) : (s.free.2).fstores = s.fstores := rfl
@[simp] theorem State.free_promos (s : State) : (s.free.2).promos = s.promos := rfl
@[simp] theorem State.free_wbacks (s : State) : (s.free.2).wbacks = s.wbacks := rfl
@[simp] theorem State.free_remap (s : State) : (s.free.2).remap = s.remap := rfl
@[simp] theorem State.free_launches (s : State) : (s.free.2).launches = s.launches := rfl
@[simp] theorem State.free_lastLid (s : State) : (s.free.2).lastLid = s.lastLid := rfl
@[simp] theorem State.free_budget (s : State) : (s.free.2).budget = s.budget := rfl
@[simp] theorem State.free_epoch (s : State) : (s.free.2).epoch = s.epoch := rfl
@[simp] theorem State.free_fabric (s : State) : (s.free.2).fabric = s.fabric := rfl
@[simp] theorem State.free_queues (s : State) : (s.free.2).queues = s.queues := rfl
@[simp] theorem State.free_arrivals (s : State) : (s.free.2).arrivals = s.arrivals := rfl
@[simp] theorem State.free_boot (s : State) : (s.free.2).boot = s.boot := rfl
@[simp] theorem State.free_held (s : State) : (s.free.2).held = s.held := rfl
@[simp] theorem State.free_credits (s : State) : (s.free.2).credits = s.credits := rfl
@[simp] theorem State.free_tport (s : State) : (s.free.2).tport = s.tport := rfl
@[simp] theorem State.free_tlost (s : State) : (s.free.2).tlost = s.tlost := rfl

/-! Core.setWin -/

@[simp] theorem Core.setWin_pc (c : Core) (i : Nat) (w : Win) : (c.setWin i w).pc = c.pc := rfl
@[simp] theorem Core.setWin_cur (c : Core) (i : Nat) (w : Win) : (c.setWin i w).cur = c.cur := rfl
@[simp] theorem Core.setWin_sup (c : Core) (i : Nat) (w : Win) : (c.setWin i w).sup = c.sup := rfl
@[simp] theorem Core.setWin_run (c : Core) (i : Nat) (w : Win) : (c.setWin i w).run = c.run := rfl
@[simp] theorem Core.setWin_wins (c : Core) (i : Nat) (w : Win) : (c.setWin i w).wins = sput {} c.wins i w := rfl
@[simp] theorem Core.setWin_arena (c : Core) (i : Nat) (w : Win) : (c.setWin i w).arena = c.arena := rfl
@[simp] theorem Core.setWin_store (c : Core) (i : Nat) (w : Win) : (c.setWin i w).store = c.store := rfl
@[simp] theorem Core.setWin_bad (c : Core) (i : Nat) (w : Win) : (c.setWin i w).bad = c.bad := rfl
@[simp] theorem Core.setWin_pend (c : Core) (i : Nat) (w : Win) : (c.setWin i w).pend = c.pend := rfl
@[simp] theorem Core.setWin_cycle (c : Core) (i : Nat) (w : Win) : (c.setWin i w).cycle = c.cycle := rfl
@[simp] theorem Core.setWin_ready (c : Core) (i : Nat) (w : Win) : (c.setWin i w).ready = c.ready := rfl
@[simp] theorem Core.setWin_ibits (c : Core) (i : Nat) (w : Win) : (c.setWin i w).ibits = c.ibits := rfl
@[simp] theorem Core.setWin_ilen (c : Core) (i : Nat) (w : Win) : (c.setWin i w).ilen = c.ilen := rfl
@[simp] theorem Core.setWin_wait (c : Core) (i : Nat) (w : Win) : (c.setWin i w).wait = c.wait := rfl
@[simp] theorem Core.setWin_held (c : Core) (i : Nat) (w : Win) : (c.setWin i w).held = c.held := rfl
@[simp] theorem Core.setWin_seen (c : Core) (i : Nat) (w : Win) : (c.setWin i w).seen = c.seen := rfl
@[simp] theorem Core.setWin_feErr (c : Core) (i : Nat) (w : Win) : (c.setWin i w).feErr = c.feErr := rfl
@[simp] theorem Core.setWin_trap (c : Core) (i : Nat) (w : Win) : (c.setWin i w).trap = c.trap := rfl
@[simp] theorem Core.setWin_fp (c : Core) (i : Nat) (w : Win) : (c.setWin i w).fp = c.fp := rfl
@[simp] theorem Core.setWin_sbchk (c : Core) (i : Nat) (w : Win) : (c.setWin i w).sbchk = c.sbchk := rfl
@[simp] theorem Core.setWin_mat (c : Core) (i : Nat) (w : Win) : (c.setWin i w).mat = c.mat := rfl
@[simp] theorem Core.setWin_vf (c : Core) (i : Nat) (w : Win) : (c.setWin i w).vf = c.vf := rfl
@[simp] theorem Core.setWin_asid (c : Core) (i : Nat) (w : Win) : (c.setWin i w).asid = c.asid := rfl
@[simp] theorem Core.setWin_dom (c : Core) (i : Nat) (w : Win) : (c.setWin i w).dom = c.dom := rfl
@[simp] theorem Core.setWin_m (c : Core) (i : Nat) (w : Win) : (c.setWin i w).m = c.m := rfl
@[simp] theorem Core.setWin_eng (c : Core) (i : Nat) (w : Win) : (c.setWin i w).eng = c.eng := rfl
@[simp] theorem Core.setWin_obs (c : Core) (i : Nat) (w : Win) : (c.setWin i w).obs = c.obs := rfl
@[simp] theorem Core.setWin_clk (c : Core) (i : Nat) (w : Win) : (c.setWin i w).clk = c.clk := rfl
@[simp] theorem Core.setWin_ctx (c : Core) (i : Nat) (w : Win) : (c.setWin i w).ctx = c.ctx := rfl

/-! Core.setSlot -/

@[simp] theorem Core.setSlot_pc (c : Core) (n : Nat) (v : Word) : (c.setSlot n v).pc = c.pc := rfl
@[simp] theorem Core.setSlot_cur (c : Core) (n : Nat) (v : Word) : (c.setSlot n v).cur = c.cur := rfl
@[simp] theorem Core.setSlot_sup (c : Core) (n : Nat) (v : Word) : (c.setSlot n v).sup = c.sup := rfl
@[simp] theorem Core.setSlot_run (c : Core) (n : Nat) (v : Word) : (c.setSlot n v).run = c.run := rfl
@[simp] theorem Core.setSlot_wins (c : Core) (n : Nat) (v : Word) : (c.setSlot n v).wins = c.wins := rfl
@[simp] theorem Core.setSlot_arena (c : Core) (n : Nat) (v : Word) : (c.setSlot n v).arena = c.arena := rfl
@[simp] theorem Core.setSlot_store (c : Core) (n : Nat) (v : Word) : (c.setSlot n v).store = sput 0 c.store n v := rfl
@[simp] theorem Core.setSlot_pend (c : Core) (n : Nat) (v : Word) : (c.setSlot n v).pend = c.pend := rfl
@[simp] theorem Core.setSlot_cycle (c : Core) (n : Nat) (v : Word) : (c.setSlot n v).cycle = c.cycle := rfl
@[simp] theorem Core.setSlot_ready (c : Core) (n : Nat) (v : Word) : (c.setSlot n v).ready = c.ready := rfl
@[simp] theorem Core.setSlot_ibits (c : Core) (n : Nat) (v : Word) : (c.setSlot n v).ibits = c.ibits := rfl
@[simp] theorem Core.setSlot_ilen (c : Core) (n : Nat) (v : Word) : (c.setSlot n v).ilen = c.ilen := rfl
@[simp] theorem Core.setSlot_wait (c : Core) (n : Nat) (v : Word) : (c.setSlot n v).wait = c.wait := rfl
@[simp] theorem Core.setSlot_held (c : Core) (n : Nat) (v : Word) : (c.setSlot n v).held = c.held := rfl
@[simp] theorem Core.setSlot_seen (c : Core) (n : Nat) (v : Word) : (c.setSlot n v).seen = c.seen := rfl
@[simp] theorem Core.setSlot_feErr (c : Core) (n : Nat) (v : Word) : (c.setSlot n v).feErr = c.feErr := rfl
@[simp] theorem Core.setSlot_trap (c : Core) (n : Nat) (v : Word) : (c.setSlot n v).trap = c.trap := rfl
@[simp] theorem Core.setSlot_fp (c : Core) (n : Nat) (v : Word) : (c.setSlot n v).fp = c.fp := rfl
@[simp] theorem Core.setSlot_sbchk (c : Core) (n : Nat) (v : Word) : (c.setSlot n v).sbchk = c.sbchk := rfl
@[simp] theorem Core.setSlot_mat (c : Core) (n : Nat) (v : Word) : (c.setSlot n v).mat = c.mat := rfl
@[simp] theorem Core.setSlot_vf (c : Core) (n : Nat) (v : Word) : (c.setSlot n v).vf = c.vf := rfl
@[simp] theorem Core.setSlot_asid (c : Core) (n : Nat) (v : Word) : (c.setSlot n v).asid = c.asid := rfl
@[simp] theorem Core.setSlot_dom (c : Core) (n : Nat) (v : Word) : (c.setSlot n v).dom = c.dom := rfl
@[simp] theorem Core.setSlot_m (c : Core) (n : Nat) (v : Word) : (c.setSlot n v).m = c.m := rfl
@[simp] theorem Core.setSlot_eng (c : Core) (n : Nat) (v : Word) : (c.setSlot n v).eng = c.eng := rfl
@[simp] theorem Core.setSlot_obs (c : Core) (n : Nat) (v : Word) : (c.setSlot n v).obs = c.obs := rfl
@[simp] theorem Core.setSlot_clk (c : Core) (n : Nat) (v : Word) : (c.setSlot n v).clk = c.clk := rfl
@[simp] theorem Core.setSlot_ctx (c : Core) (n : Nat) (v : Word) : (c.setSlot n v).ctx = c.ctx := rfl

/-! Core.count -/

@[simp] theorem Core.count_pc (c : Core) (w : Option Nat) (e n : Nat) : (c.count w e n).pc = c.pc := rfl
@[simp] theorem Core.count_cur (c : Core) (w : Option Nat) (e n : Nat) : (c.count w e n).cur = c.cur := rfl
@[simp] theorem Core.count_sup (c : Core) (w : Option Nat) (e n : Nat) : (c.count w e n).sup = c.sup := rfl
@[simp] theorem Core.count_run (c : Core) (w : Option Nat) (e n : Nat) : (c.count w e n).run = c.run := rfl
@[simp] theorem Core.count_wins (c : Core) (w : Option Nat) (e n : Nat) : (c.count w e n).wins = c.wins := rfl
@[simp] theorem Core.count_arena (c : Core) (w : Option Nat) (e n : Nat) : (c.count w e n).arena = c.arena := rfl
@[simp] theorem Core.count_store (c : Core) (w : Option Nat) (e n : Nat) : (c.count w e n).store = c.store := rfl
@[simp] theorem Core.count_bad (c : Core) (w : Option Nat) (e n : Nat) : (c.count w e n).bad = c.bad := rfl
@[simp] theorem Core.count_pend (c : Core) (w : Option Nat) (e n : Nat) : (c.count w e n).pend = c.pend := rfl
@[simp] theorem Core.count_cycle (c : Core) (w : Option Nat) (e n : Nat) : (c.count w e n).cycle = c.cycle := rfl
@[simp] theorem Core.count_ready (c : Core) (w : Option Nat) (e n : Nat) : (c.count w e n).ready = c.ready := rfl
@[simp] theorem Core.count_ibits (c : Core) (w : Option Nat) (e n : Nat) : (c.count w e n).ibits = c.ibits := rfl
@[simp] theorem Core.count_ilen (c : Core) (w : Option Nat) (e n : Nat) : (c.count w e n).ilen = c.ilen := rfl
@[simp] theorem Core.count_wait (c : Core) (w : Option Nat) (e n : Nat) : (c.count w e n).wait = c.wait := rfl
@[simp] theorem Core.count_held (c : Core) (w : Option Nat) (e n : Nat) : (c.count w e n).held = c.held := rfl
@[simp] theorem Core.count_seen (c : Core) (w : Option Nat) (e n : Nat) : (c.count w e n).seen = c.seen := rfl
@[simp] theorem Core.count_feErr (c : Core) (w : Option Nat) (e n : Nat) : (c.count w e n).feErr = c.feErr := rfl
@[simp] theorem Core.count_trap (c : Core) (w : Option Nat) (e n : Nat) : (c.count w e n).trap = c.trap := rfl
@[simp] theorem Core.count_fp (c : Core) (w : Option Nat) (e n : Nat) : (c.count w e n).fp = c.fp := rfl
@[simp] theorem Core.count_sbchk (c : Core) (w : Option Nat) (e n : Nat) : (c.count w e n).sbchk = c.sbchk := rfl
@[simp] theorem Core.count_mat (c : Core) (w : Option Nat) (e n : Nat) : (c.count w e n).mat = c.mat := rfl
@[simp] theorem Core.count_vf (c : Core) (w : Option Nat) (e n : Nat) : (c.count w e n).vf = c.vf := rfl
@[simp] theorem Core.count_asid (c : Core) (w : Option Nat) (e n : Nat) : (c.count w e n).asid = c.asid := rfl
@[simp] theorem Core.count_dom (c : Core) (w : Option Nat) (e n : Nat) : (c.count w e n).dom = c.dom := rfl
@[simp] theorem Core.count_m (c : Core) (w : Option Nat) (e n : Nat) : (c.count w e n).m = c.m := rfl
@[simp] theorem Core.count_eng (c : Core) (w : Option Nat) (e n : Nat) : (c.count w e n).eng = c.eng := rfl
@[simp] theorem Core.count_clk (c : Core) (w : Option Nat) (e n : Nat) : (c.count w e n).clk = c.clk := rfl
@[simp] theorem Core.count_ctx (c : Core) (w : Option Nat) (e n : Nat) : (c.count w e n).ctx = c.ctx := rfl

/-! Core.supersede -/

@[simp] theorem Core.supersede_pc (c : Core) (r : Nat) (ss : List Nat) : (c.supersede r ss).pc = c.pc := rfl
@[simp] theorem Core.supersede_cur (c : Core) (r : Nat) (ss : List Nat) : (c.supersede r ss).cur = c.cur := rfl
@[simp] theorem Core.supersede_sup (c : Core) (r : Nat) (ss : List Nat) : (c.supersede r ss).sup = c.sup := rfl
@[simp] theorem Core.supersede_run (c : Core) (r : Nat) (ss : List Nat) : (c.supersede r ss).run = c.run := rfl
@[simp] theorem Core.supersede_wins (c : Core) (r : Nat) (ss : List Nat) : (c.supersede r ss).wins = c.wins := rfl
@[simp] theorem Core.supersede_arena (c : Core) (r : Nat) (ss : List Nat) : (c.supersede r ss).arena = c.arena := rfl
@[simp] theorem Core.supersede_store (c : Core) (r : Nat) (ss : List Nat) : (c.supersede r ss).store = c.store := rfl
@[simp] theorem Core.supersede_bad (c : Core) (r : Nat) (ss : List Nat) : (c.supersede r ss).bad = c.bad := rfl
@[simp] theorem Core.supersede_cycle (c : Core) (r : Nat) (ss : List Nat) : (c.supersede r ss).cycle = c.cycle := rfl
@[simp] theorem Core.supersede_ready (c : Core) (r : Nat) (ss : List Nat) : (c.supersede r ss).ready = c.ready := rfl
@[simp] theorem Core.supersede_ibits (c : Core) (r : Nat) (ss : List Nat) : (c.supersede r ss).ibits = c.ibits := rfl
@[simp] theorem Core.supersede_ilen (c : Core) (r : Nat) (ss : List Nat) : (c.supersede r ss).ilen = c.ilen := rfl
@[simp] theorem Core.supersede_wait (c : Core) (r : Nat) (ss : List Nat) : (c.supersede r ss).wait = c.wait := rfl
@[simp] theorem Core.supersede_held (c : Core) (r : Nat) (ss : List Nat) : (c.supersede r ss).held = c.held := rfl
@[simp] theorem Core.supersede_seen (c : Core) (r : Nat) (ss : List Nat) : (c.supersede r ss).seen = c.seen := rfl
@[simp] theorem Core.supersede_feErr (c : Core) (r : Nat) (ss : List Nat) : (c.supersede r ss).feErr = c.feErr := rfl
@[simp] theorem Core.supersede_trap (c : Core) (r : Nat) (ss : List Nat) : (c.supersede r ss).trap = c.trap := rfl
@[simp] theorem Core.supersede_fp (c : Core) (r : Nat) (ss : List Nat) : (c.supersede r ss).fp = c.fp := rfl
@[simp] theorem Core.supersede_sbchk (c : Core) (r : Nat) (ss : List Nat) : (c.supersede r ss).sbchk = c.sbchk := rfl
@[simp] theorem Core.supersede_mat (c : Core) (r : Nat) (ss : List Nat) : (c.supersede r ss).mat = c.mat := rfl
@[simp] theorem Core.supersede_vf (c : Core) (r : Nat) (ss : List Nat) : (c.supersede r ss).vf = c.vf := rfl
@[simp] theorem Core.supersede_asid (c : Core) (r : Nat) (ss : List Nat) : (c.supersede r ss).asid = c.asid := rfl
@[simp] theorem Core.supersede_dom (c : Core) (r : Nat) (ss : List Nat) : (c.supersede r ss).dom = c.dom := rfl
@[simp] theorem Core.supersede_m (c : Core) (r : Nat) (ss : List Nat) : (c.supersede r ss).m = c.m := rfl
@[simp] theorem Core.supersede_eng (c : Core) (r : Nat) (ss : List Nat) : (c.supersede r ss).eng = c.eng := rfl
@[simp] theorem Core.supersede_obs (c : Core) (r : Nat) (ss : List Nat) : (c.supersede r ss).obs = c.obs := rfl
@[simp] theorem Core.supersede_clk (c : Core) (r : Nat) (ss : List Nat) : (c.supersede r ss).clk = c.clk := rfl
@[simp] theorem Core.supersede_ctx (c : Core) (r : Nat) (ss : List Nat) : (c.supersede r ss).ctx = c.ctx := rfl

/-! Core.addPend -/

@[simp] theorem Core.addPend_pc (c : Core) (p : Pend) : (c.addPend p).pc = c.pc := rfl
@[simp] theorem Core.addPend_cur (c : Core) (p : Pend) : (c.addPend p).cur = c.cur := rfl
@[simp] theorem Core.addPend_sup (c : Core) (p : Pend) : (c.addPend p).sup = c.sup := rfl
@[simp] theorem Core.addPend_run (c : Core) (p : Pend) : (c.addPend p).run = c.run := rfl
@[simp] theorem Core.addPend_wins (c : Core) (p : Pend) : (c.addPend p).wins = c.wins := rfl
@[simp] theorem Core.addPend_arena (c : Core) (p : Pend) : (c.addPend p).arena = c.arena := rfl
@[simp] theorem Core.addPend_store (c : Core) (p : Pend) : (c.addPend p).store = c.store := rfl
@[simp] theorem Core.addPend_bad (c : Core) (p : Pend) : (c.addPend p).bad = c.bad := rfl
@[simp] theorem Core.addPend_cycle (c : Core) (p : Pend) : (c.addPend p).cycle = c.cycle := rfl
@[simp] theorem Core.addPend_ready (c : Core) (p : Pend) : (c.addPend p).ready = c.ready := rfl
@[simp] theorem Core.addPend_ibits (c : Core) (p : Pend) : (c.addPend p).ibits = c.ibits := rfl
@[simp] theorem Core.addPend_ilen (c : Core) (p : Pend) : (c.addPend p).ilen = c.ilen := rfl
@[simp] theorem Core.addPend_wait (c : Core) (p : Pend) : (c.addPend p).wait = c.wait := rfl
@[simp] theorem Core.addPend_held (c : Core) (p : Pend) : (c.addPend p).held = c.held := rfl
@[simp] theorem Core.addPend_seen (c : Core) (p : Pend) : (c.addPend p).seen = c.seen := rfl
@[simp] theorem Core.addPend_feErr (c : Core) (p : Pend) : (c.addPend p).feErr = c.feErr := rfl
@[simp] theorem Core.addPend_trap (c : Core) (p : Pend) : (c.addPend p).trap = c.trap := rfl
@[simp] theorem Core.addPend_fp (c : Core) (p : Pend) : (c.addPend p).fp = c.fp := rfl
@[simp] theorem Core.addPend_sbchk (c : Core) (p : Pend) : (c.addPend p).sbchk = c.sbchk := rfl
@[simp] theorem Core.addPend_mat (c : Core) (p : Pend) : (c.addPend p).mat = c.mat := rfl
@[simp] theorem Core.addPend_vf (c : Core) (p : Pend) : (c.addPend p).vf = c.vf := rfl
@[simp] theorem Core.addPend_asid (c : Core) (p : Pend) : (c.addPend p).asid = c.asid := rfl
@[simp] theorem Core.addPend_dom (c : Core) (p : Pend) : (c.addPend p).dom = c.dom := rfl
@[simp] theorem Core.addPend_m (c : Core) (p : Pend) : (c.addPend p).m = c.m := rfl
@[simp] theorem Core.addPend_eng (c : Core) (p : Pend) : (c.addPend p).eng = c.eng := rfl
@[simp] theorem Core.addPend_obs (c : Core) (p : Pend) : (c.addPend p).obs = c.obs := rfl
@[simp] theorem Core.addPend_clk (c : Core) (p : Pend) : (c.addPend p).clk = c.clk := rfl
@[simp] theorem Core.addPend_ctx (c : Core) (p : Pend) : (c.addPend p).ctx = c.ctx := rfl

/-! Core.issued -/

@[simp] theorem Core.issued_pc (c : Core) (stl : Nat) : (c.issued stl).pc = c.pc := rfl
@[simp] theorem Core.issued_cur (c : Core) (stl : Nat) : (c.issued stl).cur = c.cur := rfl
@[simp] theorem Core.issued_sup (c : Core) (stl : Nat) : (c.issued stl).sup = c.sup := rfl
@[simp] theorem Core.issued_run (c : Core) (stl : Nat) : (c.issued stl).run = c.run := rfl
@[simp] theorem Core.issued_arena (c : Core) (stl : Nat) : (c.issued stl).arena = c.arena := rfl
@[simp] theorem Core.issued_store (c : Core) (stl : Nat) : (c.issued stl).store = c.store := rfl
@[simp] theorem Core.issued_bad (c : Core) (stl : Nat) : (c.issued stl).bad = c.bad := rfl
@[simp] theorem Core.issued_pend (c : Core) (stl : Nat) : (c.issued stl).pend = c.pend := rfl
@[simp] theorem Core.issued_cycle (c : Core) (stl : Nat) : (c.issued stl).cycle = c.cycle + 1 := rfl
@[simp] theorem Core.issued_ready (c : Core) (stl : Nat) : (c.issued stl).ready = c.ready := rfl
@[simp] theorem Core.issued_ibits (c : Core) (stl : Nat) : (c.issued stl).ibits = c.ibits := rfl
@[simp] theorem Core.issued_ilen (c : Core) (stl : Nat) : (c.issued stl).ilen = c.ilen := rfl
@[simp] theorem Core.issued_wait (c : Core) (stl : Nat) : (c.issued stl).wait = none := rfl
@[simp] theorem Core.issued_held (c : Core) (stl : Nat) : (c.issued stl).held = false := rfl
@[simp] theorem Core.issued_seen (c : Core) (stl : Nat) : (c.issued stl).seen = [] := rfl
@[simp] theorem Core.issued_feErr (c : Core) (stl : Nat) : (c.issued stl).feErr = c.feErr := rfl
@[simp] theorem Core.issued_trap (c : Core) (stl : Nat) : (c.issued stl).trap = c.trap := rfl
@[simp] theorem Core.issued_fp (c : Core) (stl : Nat) : (c.issued stl).fp = c.fp := rfl
@[simp] theorem Core.issued_sbchk (c : Core) (stl : Nat) : (c.issued stl).sbchk = c.sbchk := rfl
@[simp] theorem Core.issued_mat (c : Core) (stl : Nat) : (c.issued stl).mat = c.mat := rfl
@[simp] theorem Core.issued_vf (c : Core) (stl : Nat) : (c.issued stl).vf = c.vf := rfl
@[simp] theorem Core.issued_asid (c : Core) (stl : Nat) : (c.issued stl).asid = c.asid := rfl
@[simp] theorem Core.issued_dom (c : Core) (stl : Nat) : (c.issued stl).dom = c.dom := rfl
@[simp] theorem Core.issued_m (c : Core) (stl : Nat) : (c.issued stl).m = c.m := rfl
@[simp] theorem Core.issued_eng (c : Core) (stl : Nat) : (c.issued stl).eng = c.eng := rfl
@[simp] theorem Core.issued_clk (c : Core) (stl : Nat) : (c.issued stl).clk = c.clk := rfl
@[simp] theorem Core.issued_ctx (c : Core) (stl : Nat) : (c.issued stl).ctx = c.ctx := rfl
@[simp] theorem Core.issued_wins (c : Core) (stl : Nat) :
    (c.issued stl).wins = sput {} c.wins c.cur { c.curWin with ready := c.cycle + stl } := rfl

end Sys2Proof.Machine
end

