-- ==== Sys2Proof/Laws/Issue.lean ====
section
/-! SUPPORT. An instruction in whose way nothing stands issues: `issue_clear` reduces its meaning to its own effect, and
the lemmas after it say what a scalar result, a vector result and the end of an instruction do to the core. -/
namespace Sys2Proof.Machine

/-- Nothing is an element of the empty list. -/
theorem forall_mem_nil {α : Type} (p : α → Prop) : (∀ x ∈ ([] : List α), p x) ↔ True := by simp

/-! Landing. -/

theorem Core.landIf_none {c : Core} {f : Pend → Bool} (h : ∀ p ∈ c.pend, f p = false) : c.landIf f = c := by
  have h1 : c.pend.filter f = [] := List.filter_eq_nil_iff.2 fun p hp => by simp [h p hp]
  have h2 : c.pend.filter (fun p => !f p) = c.pend := List.filter_eq_self.2 fun p hp => by simp [h p hp]
  simp [Core.landIf, h1, h2]

theorem Pend.ripe_of_variable {p : Pend} (t : Nat) (h : p.variable = true) : p.ripe t = false := by
  cases p with | mk k w f => cases k <;> simp_all [Pend.variable, Pend.ripe]

theorem Pend.early_of_variable {p : Pend} (t : Nat) (h : p.variable = true) : p.early t = false := by
  cases p with | mk k w f => cases k <;> simp_all [Pend.variable, Pend.early]

/-- Pending results of variable latency are not superseded (R135). -/
theorem Core.supersede_variable {c : Core} (r : Nat) (ss : List Nat) (h : ∀ p ∈ c.pend, p.variable = true) :
    c.supersede r ss = c := by
  have keeps : ∀ p ∈ c.pend, p.keeps r = true := fun p hp => by
    have := h p hp
    unfold Pend.variable at this; unfold Pend.keeps
    cases hk : p.kind <;> rw [hk] at this
    · exact absurd this Bool.false_ne_true
    all_goals rfl
  have all : ∀ l : List Pend, (∀ p ∈ l, p.keeps r = true) → l.filterMap (fun p => if p.keeps r then some p
      else
        let ws := p.writes.filter fun w => !ss.contains w.1
        if ws = [] ∧ p.flags = 0 then none else some { p with writes := ws }) = l := by
    intro l hl
    induction l with
    | nil => rfl
    | cons p l ih =>
      rw [List.filterMap_cons, if_pos (hl p (List.mem_cons_self ..)), ih fun q hq => hl q (List.mem_cons_of_mem _ hq)]
  unfold Core.supersede; rw [all _ keeps]

/-! The cycle of issue. -/

theorem dutyCycle_ge (k : Clk) (n t : Nat) : t ≤ dutyCycle k n t := by
  induction n generalizing t with
  | zero => simp [dutyCycle]
  | succ n ih => unfold dutyCycle; split; · exact Nat.le_refl _
                 · exact Nat.le_trans (Nat.le_succ t) (ih (t + 1))

theorem Core.issueCycle_ge (c : Core) : c.cycle ≤ c.issueCycle :=
  Nat.le_trans (Nat.le_max_left ..) (dutyCycle_ge ..)

theorem Core.advance_cycle {c : Core} {t : Nat} (h : c.cycle ≤ t) : (c.advance t).cycle = t := by
  unfold Core.advance; split
  · omega
  · rfl

theorem Core.advance_eq (c : Core) (t : Nat) :
    c.advance t = { c with cycle := (c.advance t).cycle, obs := { c.obs with pmc := (c.advance t).obs.pmc } } := by
  unfold Core.advance; split <;> rfl

/-- The core in the cycle of issue differs in the cycle and the counts, where no fixed-latency result is pending. -/
theorem Core.toIssue_eq {c : Core} (h : ∀ p ∈ c.pend, p.variable = true) :
    c.toIssue = { c with cycle := c.issueCycle, obs := { c.obs with pmc := c.toIssue.obs.pmc } } := by
  have hv : ∀ d : Core, d.pend = c.pend → d.landIf (·.ripe d.cycle) = d := fun d hd =>
    Core.landIf_none fun p hp => Pend.ripe_of_variable _ (h p (hd ▸ hp))
  have key : c.toIssue = (c.count (some c.cur) 5
      (c.issueCycle - Nat.max c.cycle (Nat.max c.ready c.curWin.ready))).advance c.issueCycle := by
    unfold Core.toIssue
    exact hv _ (by rw [Core.advance_eq]; rfl)
  have hc : c.toIssue.cycle = c.issueCycle := by
    rw [key]; exact Core.advance_cycle (by simpa using c.issueCycle_ge)
  conv => lhs; rw [key, Core.advance_eq]
  rw [← key, hc]; rfl

/-- Results of variable latency are awaited by no cycle (R133, R134). -/
theorem Core.await_variable {c : Core} (h : ∀ p ∈ c.pend, p.variable = true) (ss : List Nat) : c.await ss = c := by
  have h0 : ∀ p ∈ c.pend, p.trackedFrom ss = 0 := fun p hp => by
    have := h p hp
    unfold Pend.variable at this; unfold Pend.trackedFrom
    cases hk : p.kind <;> simp_all
  have hf : ∀ l : List Pend, (∀ p ∈ l, p.trackedFrom ss = 0) →
      l.foldl (fun t p => Nat.max t (p.trackedFrom ss)) 0 = 0 := by
    intro l hl
    induction l with
    | nil => rfl
    | cons p l ih =>
      rw [List.foldl_cons, hl p (List.mem_cons_self ..)]
      exact ih fun q hq => hl q (List.mem_cons_of_mem _ hq)
  unfold Core.await
  rw [hf _ h0]
  have : c.advance 0 = c := by simp [Core.advance]
  rw [this]
  exact Core.landIf_none fun p hp => Pend.ripe_of_variable _ (h p hp)

/-! Issue. -/

theorem Core.watched_none {c : Core} (h : c.unwatched) (ks : List Nat) (hk : 0 ∉ ks) (lo n : Nat) :
    c.watched ks lo n = none := by
  unfold Core.watched
  rcases h with h | h
  · simp [h]
  · split
    · rfl
    · simp only [List.findSome?_eq_none_iff, List.mem_range]
      intro k hk4
      simp only [h k hk4]
      simp [hk]

theorem Core.stepping_none {c : Core} (h : c.unwatched) : c.stepping = none := by
  unfold Core.stepping
  rcases h with h | h
  · simp [h]
  · split
    · rfl
    · simp only [List.findSome?_eq_none_iff, List.mem_range]
      intro k hk
      simp only [ite_eq_right_iff, reduceCtorEq, imp_false, not_and]
      intro h5
      exact absurd (h5.symm.trans (h k hk)) (by decide)

theorem State.watchExec_unwatched {s : State} (h : s.core.unwatched) (k : State → Out) : s.watchExec k = k s := by
  simp [State.watchExec, State.watchHit, Core.watched_none h]

theorem State.watchAccess_unwatched {s : State} (h : s.core.unwatched) (ld st : Bool) (rs : List (Nat × Nat))
    (k : State → Out) : s.watchAccess ld st rs k = k s := by
  have : ∀ r : Nat × Nat, s.core.watched ((if ld then [1] else []) ++ (if st then [2] else []) ++ [3]) r.1 r.2 = none :=
    fun r => Core.watched_none h _ (by cases ld <;> cases st <;> decide) _ _
  have hn : rs.filterMap (fun r => (s.core.watched ((if ld then [1] else []) ++ (if st then [2] else []) ++ [3])
      r.1 r.2).map (·, r.1)) = [] := by
    simp only [List.filterMap_eq_nil_iff, this, Option.map_none, implies_true]
  unfold State.watchAccess; simp only [hn, List.foldl_nil, Core.stepping_none h]

theorem State.watchStep_unwatched {s : State} (h : s.core.unwatched) (u : Use) (k : State → Out) :
    s.watchStep u k = k s := by
  unfold State.watchStep; simp only [Core.stepping_none h, ite_self]

theorem Core.settle_clear {c : Core} {ss : List Nat}
    (h : ∀ p ∈ c.pend, p.variable = true ∧ p.touches ss = false) : c.settle ss = c :=
  Core.landIf_none fun p hp => by simp [h p hp]

theorem Pend.touches_append (p : Pend) (a b : List Nat) : p.touches (a ++ b) = (p.touches a || p.touches b) := by
  unfold Pend.touches
  induction p.writes with
  | nil => rfl
  | cons w ws ih =>
    simp only [List.any_cons, ih]
    simp only [List.contains_append]
    cases a.contains w.1 <;> cases b.contains w.1 <;> simp only [Bool.or_false, Bool.false_or, Bool.or_true, Bool.true_or]

/-- Slots on which nothing waits, none of them a billet's or uncorrectable, pass their checks. -/
theorem State.checkSlots_clear {s : State} {rd wr cp : List Nat}
    (hp : ∀ p ∈ s.core.pend, p.variable = true ∧ p.touches (rd ++ wr ++ cp) = false)
    (hb : ∀ n ∈ wr, s.core.inBillet n = false) (hg : ∀ n ∈ rd ++ cp, n ∉ s.core.bad) (k : State → Out) :
    s.checkSlots rd wr cp k = k s := by
  have ht : ∀ p ∈ s.core.pend, p.touches (rd ++ wr) = false ∧ p.touches cp = false := fun p hpm => by
    have := (hp p hpm).2; rw [Pend.touches_append] at this; exact Bool.or_eq_false_iff.1 this
  have h0 : s.core.settle (rd ++ wr) = s.core := Core.settle_clear fun p hpm => ⟨(hp p hpm).1, (ht p hpm).1⟩
  have h5 : s.core.settle cp = s.core := Core.settle_clear fun p hpm => ⟨(hp p hpm).1, (ht p hpm).2⟩
  have h1 : (if s.core.sbchk then rd.filter fun n => s.core.pend.any fun p => p.chk && p.early s.core.cycle && p.touches [n]
      else []) = [] := by
    split
    · simp only [List.filter_eq_nil_iff, List.any_eq_true, not_exists, not_and]
      intro n _ p hpm; simp [Pend.early_of_variable _ (hp p hpm).1]
    · rfl
  have h2 : ∀ ss, s.core.await ss = s.core := Core.await_variable fun p hpm => (hp p hpm).1
  have h3 : wr.filter s.core.inBillet = [] := List.filter_eq_nil_iff.2 fun n hn => by simp [hb n hn]
  have h4 : (rd ++ cp).filter s.core.bad.contains = [] := List.filter_eq_nil_iff.2 fun n hn => by simp [hg n hn]
  unfold State.checkSlots State.checkGood
  simp only [h0, h1]
  simp only [h2, h3, h5, h4]

/-- An instruction in whose way nothing stands issues: its meaning is its own effect. -/
theorem State.issue_ready {s : State} {u : Use} (h : s.Ready u) (k : State → Out) : s.issue u k = k s.atIssue := by
  have hv : ∀ p ∈ s.core.pend, p.variable = true := fun p hp => (h.settled p hp).1
  have he : s.atIssue.core = _ := Core.toIssue_eq hv
  have hu : s.atIssue.core.unwatched := by rw [he]; exact h.unwatched
  have hprio : (u.priv && !s.core.sup) = false := by
    cases hp : u.priv with
    | false => rfl
    | true => simp [h.mode hp]
  have hr : u.reads s.atIssue.core = u.reads s.core := by rw [he]; rfl
  have hw : u.writes s.atIssue.core = u.writes s.core := by rw [he]; rfl
  have hn : u.beyond s.atIssue.core.curWin = [] := by rw [he]; exact h.names
  have ha : s.atIssue.core.m.atom = none := by rw [he]; exact h.noAtom
  have ht : s.atIssue.core.eng.trip = none := by rw [he]; exact h.noTrip
  have hb : u.blocked s.atIssue.core = false := by rw [he]; exact h.free
  have hs : s.atIssue.core.tripStop = none := by rw [he]; exact h.noStop
  have hrep : s.atIssue.core.tripRaised = none := by rw [he]; exact h.noReport
  have hq : s.atIssue.core.queuedOn (u.reads s.core ++ u.writes s.core ++ u.copies s.core) = false := by
    rw [he]
    refine Bool.eq_false_iff.2 fun hq => ?_
    obtain ⟨p, hp, h2⟩ := List.any_eq_true.1 hq
    have := (h.settled p hp).2
    rw [Use.slots] at this
    rw [this, Bool.and_false] at h2
    exact Bool.false_ne_true h2
  have hcp : u.copies s.atIssue.core = u.copies s.core := by rw [he]; rfl
  have hc : ∀ k', s.atIssue.checkSlots (u.reads s.core) (u.writes s.core) (u.copies s.core) k' = k' s.atIssue := fun k' =>
    State.checkSlots_clear (by rw [he]; exact h.settled) (by rw [he]; exact h.noBillet) (by rw [he]; exact h.good) k'
  unfold State.issue
  rw [State.watchExec_unwatched h.unwatched]
  simp only [hprio, Bool.false_eq_true, if_false]
  show s.atIssue.checkNames u _ = _
  unfold State.checkNames
  simp only [hn, hr, hw, hcp, hq, hc, ha, ht, hb, hs, hrep, Option.any_none, Option.isSome_none, Bool.false_eq_true, and_false,
    if_false, ite_self]
  exact State.watchStep_unwatched hu u k

theorem State.issue_clear {s : State} {u : Use} (h : s.Clear u) (k : State → Out) : s.issue u k = k s.atIssue :=
  State.issue_ready h.toReady k

end Sys2Proof.Machine
end

