-- ==== Sys2Proof/Laws/Memory.lean ====
section
/-! SUPPORT. Memory: its form is kept by every write, a byte reads what was last written to it, and the checks of an
access leave the issuing core alone but for counts and the error response of a wait. -/
namespace Sys2Proof.Machine

/-! The form of memory. -/

theorem memPut_wf {m : List Host.Cell} (h : Memory.wf m = true) (k : Nat) (b : Byte) : Memory.wf (memPut m k b) = true :=
  scanon_sput b (Nat.zero_le k) h

theorem memPuts_wf {m : List Host.Cell} (h : Memory.wf m = true) (cs : List Host.Cell) :
    Memory.wf (memPuts m cs) = true := by
  unfold memPuts
  induction cs generalizing m with
  | nil => exact h
  | cons c cs ih => exact ih (memPut_wf h c.1 c.2)

theorem State.write_wf {s : State} (h : Memory.wf s.mem = true) (cs : List Host.Cell) :
    Memory.wf (s.write cs).1.mem = true := by
  unfold State.write; split
  · exact memPuts_wf h cs
  · exact memPuts_wf h _

theorem State.reset_mem_wf : Memory.wf State.reset.mem = true := rfl

/-! Reading what was written. -/

theorem sget_memPut (m : List Host.Cell) (k a : Nat) (b : Byte) :
    sget (0 : Byte) (memPut m k b) a = if a = k then b else sget 0 m a := sget_sput ..

/-- An address that no cell names reads as before. -/
theorem sget_memPuts_ne (m : List Host.Cell) (cs : List Host.Cell) (a : Nat) (h : ∀ c ∈ cs, c.1 ≠ a) :
    sget (0 : Byte) (memPuts m cs) a = sget 0 m a := by
  unfold memPuts
  induction cs generalizing m with
  | nil => rfl
  | cons c cs ih =>
    rw [List.foldl_cons, ih _ fun x hx => h x (List.mem_cons_of_mem _ hx), sget_memPut,
      if_neg (h c (List.mem_cons_self ..)).symm]

theorem mem_cellsAt {k : Nat} {bs : List Byte} {c : Host.Cell} (h : c ∈ cellsAt k bs) : k ≤ c.1 ∧ c.1 < k + bs.length := by
  induction bs generalizing k with
  | nil => cases h
  | cons b bs ih =>
    unfold cellsAt at h
    rcases List.mem_cons.1 h with rfl | h
    · simp
    · have := ih h; simp only [List.length_cons]; omega

/-- Cells laid out from an address read back as their bytes. -/
theorem sget_memPuts_cellsAt (m : List Host.Cell) (k : Nat) (bs : List Byte) (i : Nat) (h : i < bs.length) :
    sget (0 : Byte) (memPuts m (cellsAt k bs)) (k + i) = bs[i] := by
  induction bs generalizing k m i with
  | nil => simp at h
  | cons b bs ih =>
    unfold memPuts cellsAt
    rw [List.foldl_cons]
    show sget _ (memPuts (memPut m k b) (cellsAt (k + 1) bs)) _ = _
    match i with
    | 0 =>
      rw [sget_memPuts_ne _ _ _ fun c hc => by have := mem_cellsAt hc; omega, Nat.add_zero, sget_memPut, if_pos rfl]; rfl
    | i + 1 =>
      have := ih (memPut m k b) (k + 1) i (by simpa using h)
      rw [show k + (i + 1) = k + 1 + i by omega, this]; rfl

/-! What an access leaves alone. -/

/-- Two cores that differ in counts and the error responses of waits alone. -/
def Core.Near (c d : Core) : Prop :=
  d = { c with feErr := d.feErr, obs := { c.obs with pmc := d.obs.pmc }, eng := { c.eng with raised := d.eng.raised } }

theorem Core.Near.refl (c : Core) : c.Near c := rfl

theorem Core.Near.trans {a b c : Core} (h : a.Near b) (k : b.Near c) : a.Near c := by
  unfold Core.Near at *; rw [k, h]

theorem Core.near_count (c : Core) (w : Option Nat) (ev n : Nat) : c.Near (c.count w ev n) := rfl

/-- Two states with the same issuing core, which is near. -/
structure State.Near (s t : State) : Prop where
  focus : t.focus = s.focus
  core : s.core.Near t.core

theorem State.Near.refl (s : State) : s.Near s := ⟨rfl, rfl⟩

theorem State.Near.trans {a b c : State} (h : a.Near b) (k : b.Near c) : a.Near c :=
  ⟨k.focus.trans h.focus, h.core.trans k.core⟩

theorem State.near_updCoreAt (s : State) (loc : Nat) (f : Core → Core) (h : ∀ c : Core, c.Near (f c)) :
    s.Near (s.updCoreAt loc f) := by
  unfold State.updCoreAt; split
  · exact ⟨rfl, h _⟩
  · exact ⟨rfl, rfl⟩

theorem State.near_foldl {α : Type} (f : State → α → State) (h : ∀ (s : State) a, s.Near (f s a)) (l : List α) (s : State) :
    s.Near (l.foldl f s) := by
  induction l generalizing s with
  | nil => exact State.Near.refl s
  | cons a l ih => exact (h s a).trans (ih (f s a))

theorem State.near_pick {α : Type} (s : State) (d : α) (xs : List α) : s.Near (s.pick d xs).2 := by
  unfold State.pick; split <;> exact ⟨rfl, rfl⟩

theorem State.near_choose {α : Type} [DecidableEq α] (s : State) (a b : α) : s.Near (s.choose a b).2 := by
  unfold State.choose; split
  · exact State.Near.refl s
  · exact s.near_pick _ _

theorem State.near_logAt (s : State) (d v vc : Nat) (a : Word) (code : Nat) : s.Near (s.logAt d v vc a code) := ⟨rfl, rfl⟩

theorem State.near_updCl (s : State) (k : Nat) (f : Cluster → Cluster) : s.Near (s.updCl k f) := ⟨rfl, rfl⟩

theorem State.near_updBank (s : State) (k b : Nat) (f : Bank → Bank) : s.Near (s.updBank k b f) := ⟨rfl, rfl⟩

theorem State.near_failWaiters (s : State) (clu b : Nat) : s.Near (s.failWaiters clu b) := by
  unfold State.failWaiters
  refine State.Near.trans (State.near_foldl _ ?_ _ s) (State.near_updCl _ _ _)
  intro s loc
  unfold State.failWaiter
  dsimp only
  have h1 : s.Near (if s.waitsOn loc clu b then
      (s.logAt (dieOf loc) (s.coreAt loc).vf (s.vcoreOf loc) (((s.coreAt loc).wait.map (·.addr)).getD 0) 3).updCoreAt loc
        fun c => { c with feErr := some (((s.coreAt loc).wait.map (·.addr)).getD 0) } else s) := by
    split
    · refine State.Near.trans (s.near_logAt _ _ _ _ _) (State.near_updCoreAt _ loc _ ?_)
      intro c; rfl
    · exact State.Near.refl s
  refine h1.trans ?_
  generalize (if s.waitsOn loc clu b then
      (s.logAt (dieOf loc) (s.coreAt loc).vf (s.vcoreOf loc) (((s.coreAt loc).wait.map (·.addr)).getD 0) 3).updCoreAt loc
        fun c => { c with feErr := some (((s.coreAt loc).wait.map (·.addr)).getD 0) } else s) = t
  split
  · refine State.Near.trans (t.near_logAt _ _ _ _ _) (State.near_updCoreAt _ loc _ ?_)
    intro c; rfl
  · exact State.Near.refl t

theorem State.near_write (s : State) (cs : List Host.Cell) : s.Near (s.write cs).1 := by
  unfold State.write; split <;> exact ⟨rfl, rfl⟩

theorem State.near_applyWb (s : State) (w : WBack) : s.Near (s.applyWb w) := by
  have key : ∀ p : Bool × State, s.Near p.2 → s.Near
      (let (s, bad) := p.2.write (if p.1 then w.cells ++ w.clean else w.cells)
       if bad then s.logAt w.die 16 0xFFFF (word (64 * w.line)) 2 else s) := fun p hp => by
    have h := hp.trans (State.near_write p.2 (if p.1 then w.cells ++ w.clean else w.cells))
    generalize p.2.write (if p.1 then w.cells ++ w.clean else w.cells) = r at h ⊢
    obtain ⟨u, bad⟩ := r
    dsimp only at h ⊢
    split
    · exact h.trans (State.near_logAt _ _ _ _ _ _)
    · exact h
  unfold State.applyWb
  refine key (if (w.clean.all fun c => s.byte c.1 = c.2) ∧ !s.poisoned (64 * w.line) 64 then (false, s)
    else s.choose false true) ?_
  split
  · exact State.Near.refl s
  · exact s.near_choose false true

theorem State.near_ackWb (s : State) (f : WBack → Bool) : s.Near (s.ackWb f) :=
  State.Near.trans (b := { s with wbacks := s.wbacks.filter fun w => !f w }) ⟨rfl, rfl⟩
    (State.near_foldl _ State.near_applyWb _ _)

theorem State.near_writeHome (s : State) (d line : Nat) : s.Near (s.writeHome d line) := by
  refine State.Near.trans (b := s.writeBack d line) ?_ (State.near_ackWb _ _)
  unfold State.writeBack; split
  · exact State.Near.refl s
  · split
    · exact State.Near.refl s
    · exact ⟨rfl, rfl⟩

theorem State.near_dropLines (s : State) (d : Nat) (f : Nat → WayLine → Bool) : s.Near (s.dropLines d f) := by
  refine State.near_foldl _ (fun s k => State.Near.trans ?_ (State.near_updCl _ _ _)) _ s
  refine State.near_foldl _ (fun s l => ?_) _ s
  split
  · exact State.Near.refl s
  · exact s.near_writeHome _ _

theorem State.near_settleBank (s : State) (clu b : Nat) : s.Near (s.settleBank clu b) := by
  unfold State.settleBank; dsimp only; split
  · exact State.Near.refl s
  · refine State.Near.trans (b := s.bankBegin clu b) ?_ ?_
    · unfold State.bankBegin; dsimp only; split
      · exact State.Near.trans (s.near_failWaiters clu b) ⟨rfl, rfl⟩
      · exact State.Near.refl s
    · unfold State.bankEnd; dsimp only; split
      · exact State.Near.refl _
      · refine State.Near.trans ?_ (State.near_updBank _ _ _ _)
        refine State.Near.trans ?_ (State.near_updCl _ _ _)
        refine State.Near.trans ?_ (State.near_dropLines _ _ _)
        exact ⟨rfl, rfl⟩

theorem State.near_walkChoice (s : State) (w : Who) (va : Nat) : s.Near (s.walkChoice w va).2 := by
  unfold State.walkChoice; split
  · exact State.Near.refl s
  · split
    · dsimp only; split
      · exact State.Near.refl s
      · exact s.near_pick _ _
    · exact State.Near.refl s

theorem State.near_translate (s : State) (w : Who) (a : Access) (ea : Word) : s.Near (s.translate w a ea).2 := by
  unfold State.translate
  dsimp only
  split
  · exact State.Near.refl s
  have h1 := s.near_walkChoice w (ea.bits 0 48)
  revert h1
  generalize s.walkChoice w (ea.bits 0 48) = r
  obtain ⟨r, s1⟩ := r
  intro h1
  refine h1.trans ?_
  dsimp only
  generalize (s1.dieAt w.die).tlb.find? (·.hits w (ea.bits 0 48)) = old
  have fin : ∀ q : Except WalkErr (Word × Nat) × State × Bool, s1.Near q.2.1 → s1.Near
      (let s := if q.2.2 ∨ !w.own then q.2.1 else q.2.1.count 13 1
       match q.1 with
       | .error (some (x, c)) => ((none : Option Nat), s.logWho w x c)
       | .error none => (none, s)
       | .ok (pte, level) =>
         let s := if q.2.2 then s else s.tlbFill w (ea.bits 0 48) pte level
         let pa := leafPa pte level (ea.bits 0 48)
         if !a.permitted pte w.sup then (none, s)
         else if (ea.bits 60 4 = 5) ≠ isFabric pa then (none, s)
         else if !s.groupOwned w.vf pa then (none, s.logWho w ea 1)
         else (some pa, s)).2 := by
    intro q hq
    have h2 : s1.Near (if q.2.2 ∨ !w.own then q.2.1 else q.2.1.count 13 1) := by
      split
      · exact hq
      · exact hq.trans ⟨rfl, rfl⟩
    dsimp only
    generalize (if q.2.2 ∨ !w.own then q.2.1 else q.2.1.count 13 1) = s2 at h2
    match q.1 with
    | .error (some (x, c)) => exact h2.trans ⟨rfl, rfl⟩
    | .error none => exact h2
    | .ok (pte, level) =>
      dsimp only
      have h3 : s1.Near (if q.2.2 then s2 else s2.tlbFill w (ea.bits 0 48) pte level) := by
        split
        · exact h2
        · exact h2.trans ⟨rfl, rfl⟩
      generalize (if q.2.2 then s2 else s2.tlbFill w (ea.bits 0 48) pte level) = s3 at h3
      split
      · exact h3
      · split
        · exact h3
        · split
          · exact h3.trans ⟨rfl, rfl⟩
          · exact h3
  match old, r with
  | none, r => exact fin (r, s1, false) (State.Near.refl s1)
  | some e, .ok p =>
    exact fin (.ok (s1.choose (e.pte, e.level) p).1, (s1.choose (e.pte, e.level) p).2,
      decide ((s1.choose (e.pte, e.level) p).1 = (e.pte, e.level))) (s1.near_choose (e.pte, e.level) p)
  | some e, .error x =>
    exact fin (if (s1.choose true false).1 then .ok (e.pte, e.level) else .error x, (s1.choose true false).2,
      (s1.choose true false).1) (s1.near_choose true false)

theorem State.near_wayFill (s : State) (clu : Nat) (w : Who) (va : Nat) (ro : Bool) : s.Near (s.wayFill clu w va ro) := by
  unfold State.wayFill; split
  · exact State.Near.refl s
  · dsimp only; split
    · exact State.Near.refl s
    · exact s.near_updCl _ _

theorem State.near_wayTranslate (s : State) (a : Access) (ea : Word) : s.Near (s.wayTranslate a ea).2 := by
  have hs : s.Near (if ea.bits 60 4 = 0 ∨ ea.bits 60 4 = 3 then s.settleWays s.cl else s) := by
    split
    · exact State.near_foldl _ (fun s b => s.near_settleBank _ b) _ s
    · exact State.Near.refl s
  unfold State.wayTranslate
  dsimp only
  refine hs.trans ?_
  generalize (if ea.bits 60 4 = 0 ∨ ea.bits 60 4 = 3 then s.settleWays s.cl else s) = s
  split
  · exact s.near_translate _ _ _
  · split
    · split
      · exact State.Near.refl s
      · exact ⟨rfl, rfl⟩
    · have h : s.Near ((s.count 12 1).translate s.who a ea).2 :=
        State.Near.trans (b := s.count 12 1) ⟨rfl, rfl⟩ (State.near_translate _ _ _ _)
      revert h
      generalize (s.count 12 1).translate s.who a ea = r
      obtain ⟨_ | pa, t⟩ := r
      · exact id
      · exact fun h => h.trans (State.near_wayFill _ _ _ _ _)

theorem State.near_locate (s : State) (a : Access) (ea : Word) (n : Nat) : s.Near (s.locate a ea n).2 := by
  have h1 : s.Near (s.settlePath1 ea) := by
    unfold State.settlePath1; split
    · exact s.near_settleBank _ _
    · exact State.Near.refl s
  unfold State.locate
  refine h1.trans ?_
  generalize s.settlePath1 ea = s
  dsimp only
  split
  · exact State.Near.refl s
  · split
    · exact State.Near.refl s
    · split
      · exact State.Near.refl s
      · split
        · exact State.Near.refl s
        · have := s.near_wayTranslate a ea
          revert this
          generalize s.wayTranslate a ea = r
          obtain ⟨_ | pa, t⟩ := r <;> exact id

end Sys2Proof.Machine
end

