-- ==== Sys2Proof/Laws/Fetch.lean ====
section
/-! SUPPORT. Fetching: reading a parcel leaves the PC, and a step of a core that fetches executes what it has fetched. -/
namespace Sys2Proof.Machine

/-! Reading a line leaves the issuing core near. -/

theorem State.near_updDie (s : State) (d : Nat) (f : Die → Die) : s.Near (s.updDie d f) := ⟨rfl, rfl⟩

theorem State.near_writeBack (s : State) (d line : Nat) : s.Near (s.writeBack d line) := by
  unfold State.writeBack; simp only; repeat' split
  all_goals exact ⟨rfl, rfl⟩

theorem State.near_dropCopy (s : State) (d line : Nat) : s.Near (s.dropCopy d line) := ⟨rfl, rfl⟩

theorem State.near_l2Way (s : State) (vf d : Nat) (p : Nat × Nat) : s.Near (s.l2Way vf d p).2 := by
  unfold State.l2Way; dsimp only; split
  · exact State.Near.refl s
  · exact State.Near.refl s
  · rename_i w ws _ _
    have h := s.near_pick w (w :: ws)
    split
    · exact h.trans ((State.near_writeBack _ _ _).trans (State.near_dropCopy _ _ _))
    · exact h.trans ⟨rfl, rfl⟩

theorem State.near_homeTouch (s : State) (vf d line : Nat) : s.Near (s.homeTouch vf d line) := by
  unfold State.homeTouch; split
  · exact State.Near.refl s
  split
  · exact State.near_updDie _ _ _
  · have h := s.near_l2Way vf d (s.homePlace line)
    revert h
    generalize s.l2Way vf d (s.homePlace line) = r
    obtain ⟨_ | w, t⟩ := r
    · exact id
    · exact fun h => h.trans (State.near_updDie _ _ _)

theorem State.near_fillCopy (s : State) (vf d line : Nat) : s.Near (s.fillCopy vf d line).2 := by
  unfold State.fillCopy
  refine (s.near_ackWb fun w => w.die = d ∧ w.line = line).trans ?_
  generalize s.ackWb (fun w => w.die = d ∧ w.line = line) = s
  dsimp only; split
  · exact State.Near.refl s
  · have h := s.near_l2Way vf d (l2Place line)
    revert h
    generalize s.l2Way vf d (l2Place line) = r
    obtain ⟨_ | w, t⟩ := r
    · exact id
    · exact fun h => h.trans ⟨rfl, rfl⟩

theorem State.near_useCopy (s : State) (vf d line floor : Nat) : s.Near (s.useCopy vf d line floor).2 := by
  unfold State.useCopy; repeat' split
  · exact State.Near.refl s
  · exact (s.near_writeHome d line).trans ((State.near_dropCopy _ d line).trans (State.near_fillCopy _ vf d line))
  · exact s.near_fillCopy vf d line

theorem State.near_dieRead (s : State) (vf d pa n floor : Nat) : s.Near (s.dieRead vf d pa n floor).2 := by
  unfold State.dieRead; dsimp only; split
  · exact State.Near.refl s
  split
  · exact s.near_homeTouch _ _ _
  · have h := s.near_useCopy vf d (pa / 64) floor
    revert h
    generalize s.useCopy vf d (pa / 64) floor = r
    obtain ⟨_ | l, t⟩ := r <;> exact id

/-! A parcel. -/

theorem State.pc_near {s t : State} (h : s.Near t) : t.core.pc = s.core.pc := by rw [h.core]

/-- Fetching a parcel leaves the PC. -/
theorem State.parcel_pc (s : State) (va : Word) : (s.parcel va).2.core.pc = s.core.pc := by
  have h1 := s.near_translate s.who .fetch va
  unfold State.parcel; simp only
  split
  · rfl
  · split
    · rename_i h; rw [h] at h1; exact State.pc_near h1
    · rename_i pa t h
      rw [h] at h1
      have hp : (t.parcelAt va pa).2.core.pc = s.core.pc := by
        have h2 := t.near_dieRead t.core.vf t.die pa 2 t.core.m.floor
        rw [← State.pc_near h1]
        unfold State.parcelAt; simp only
        generalize t.dieRead t.core.vf t.die pa 2 t.core.m.floor = q at *
        obtain ⟨r, u⟩ := q
        simp only at h2 ⊢
        split
        · split
          · exact State.pc_near h2
          · exact State.pc_near (h2.trans (State.near_choose _ _ _))
        · exact State.pc_near h2
        · have h3 := u.near_dieRead u.core.vf u.die (pa / 64 * 64) 64 u.core.m.floor
          have h4 := (State.pc_near h3).trans (State.pc_near h2)
          generalize u.dieRead u.core.vf u.die (pa / 64 * 64) 64 u.core.m.floor = q at *
          obtain ⟨r, w⟩ := q
          simp only at h4
          cases r
          · exact h4
          · simp only [State.updCore, Core.keepLine]; exact h4
      split <;> (rename_i h; rw [h] at hp; exact hp)

/-- One more parcel, where those before it do not make up an instruction. -/
theorem State.fetchFrom_ok {s u : State} {n : Nat} {ps : List Nat} {p : Nat} (h : ps = [] ∨ ps.length < parcelsNeeded ps)
    (hp : s.parcel (s.core.pc + BitVec.ofNat 64 (2 * ps.length)) = (.ok p, u)) :
    s.fetchFrom (n + 1) ps = u.fetchFrom n (ps ++ [p]) ∧ u.core.pc = s.core.pc := by
  have := s.parcel_pc (s.core.pc + BitVec.ofNat 64 (2 * ps.length))
  rw [hp] at this
  refine ⟨?_, this⟩
  conv => lhs; unfold State.fetchFrom
  have hn : ¬ (ps ≠ [] ∧ parcelsNeeded ps ≤ ps.length) := fun ⟨h1, h2⟩ => h.elim h1 (by omega)
  rw [if_neg hn]
  simp only; rw [hp]

/-- Parcels that make up an instruction end the fetch. -/
theorem State.fetchFrom_done {s : State} {n : Nat} {ps : List Nat} (h : ps ≠ []) (hn : parcelsNeeded ps ≤ ps.length) :
    s.fetchFrom n ps = (.ok ps, s) := by
  cases n with
  | zero => rfl
  | succ n => unfold State.fetchFrom; rw [if_pos ⟨h, hn⟩]

/-! A step that fetches. -/

/-- With no turn on the agenda, a core that issues, neither waits nor is held, and takes no PC samples fetches, and executes
what it has fetched. -/
theorem step_fetches {s : State} (h : s.agenda = []) (hi : s.tick.core.idle = false) (hs : s.tick.core.stuck = false)
    (hp : s.tick.core.samples = false) :
    step s = match s.tick.fetch with
      | (.error e, t) => t.fetchTrap e
      | (.ok ps, t) => exec (instrOf ps) (t.latch ps) := by
  unfold step; rw [h]; simp only
  have hb : s.tick.background = s.tick := by 
    unfold State.background State.periodic; simp [hi, hs, hp]
  unfold coreTurn State.fetched; rw [hb, hi, hs]
  simp only [Bool.false_eq_true, if_false]
  generalize s.tick.fetch = r
  rcases r with ⟨r | r, t⟩ <;> rfl

end Sys2Proof.Machine
end

