-- ==== Sys2Proof/Laws/Result.lean ====
section
/-! SUPPORT. What the end of an instruction does: a scalar result is received, and the instruction is complete. -/
namespace Sys2Proof.Machine

/-! `Core.Same`. -/

theorem Core.Same.refl (c : Core) : c.Same c := by constructor <;> first | rfl | (intro; rfl)

theorem Core.Same.trans {a b c : Core} (h : a.Same b) (k : b.Same c) : a.Same c := by
  constructor
  case wins => intro i; rw [k.wins i, h.wins i]
  all_goals first
    | exact k.cur.trans h.cur | exact k.sup.trans h.sup | exact k.run.trans h.run | exact k.arena.trans h.arena
    | exact k.feErr.trans h.feErr | exact k.trap.trans h.trap | exact k.fp.trans h.fp | exact k.sbchk.trans h.sbchk
    | exact k.mat.trans h.mat | exact k.vf.trans h.vf | exact k.asid.trans h.asid | exact k.dom.trans h.dom
    | exact k.m.trans h.m | exact k.eng.trans h.eng | exact k.clk.trans h.clk | exact k.ctx.trans h.ctx
    | exact k.pme.trans h.pme | exact k.wpa.trans h.wpa | exact k.wpc.trans h.wpc

/-- Changing the PC, slots, results in flight, the cycle and the counts leaves a core the same. -/
theorem Core.same_with (c : Core) (pc : Word) (store : Sparse Word) (bad : List Nat) (pend : List Pend) (cycle ready : Nat)
    (wait : Option Wait) (held : Bool) (seen : List Nat) (pmc : Sparse (BitVec 48)) :
    c.Same { c with pc, store, bad, pend, cycle, ready, wait, held, seen, obs := { c.obs with pmc } } := by
  constructor <;> first | rfl | (intro; rfl)

theorem Core.win_setWin (c : Core) (i j : Nat) (w : Win) : (c.setWin i w).win j = if j = i then w else c.win j := by
  simp [Core.win, sget_sput]

/-- An instruction's issue leaves a core the same. -/
theorem Core.same_issued (c : Core) (stl : Nat) : c.Same (c.issued stl) := by
  constructor
  case wins =>
    intro i
    have hw : ∀ j, (c.issued stl).win j = if j = c.cur then { c.curWin with ready := c.cycle + stl } else c.win j :=
      fun j => Core.win_setWin c c.cur j _
    rw [hw i]; split
    · subst i; rfl
    · rfl
  all_goals rfl

theorem Core.issued_winReady (c : Core) (stl : Nat) : (c.issued stl).curWin.ready = c.cycle + stl := by
  show ((c.setWin c.cur _).win c.cur).ready = _
  rw [Core.win_setWin]; simp

/-! The state at issue. -/

/-- The state at issue differs in the cycle and the counts alone. -/
theorem State.Clear.atIssue_eq {s : State} {u : Use} (h : s.Clear u) :
    s.atIssue = { s with core := { s.core with
      cycle := s.core.issueCycle, obs := { s.core.obs with pmc := s.core.toIssue.obs.pmc } } } := by
  unfold State.atIssue; rw [Core.toIssue_eq fun p hp => (h.settled p hp).1]

theorem State.Clear.same_atIssue {s : State} {u : Use} (h : s.Clear u) : s.core.Same s.atIssue.core := by
  rw [h.atIssue_eq]; exact Core.same_with s.core _ _ _ _ _ _ _ _ _ _

/-- What is not the cycle or a count is at issue as before. -/
theorem State.Clear.atIssue_core {s : State} {u : Use} (h : s.Clear u) :
    s.atIssue.core.pc = s.core.pc ∧ s.atIssue.core.wins = s.core.wins ∧ s.atIssue.core.store = s.core.store ∧
    s.atIssue.core.pend = s.core.pend ∧ s.atIssue.core.cycle = s.core.issueCycle ∧
    s.atIssue.core.wait = s.core.wait ∧ s.atIssue.core.bad = s.core.bad ∧ s.atIssue.core.cur = s.core.cur := by
  rw [h.atIssue_eq]; exact ⟨rfl, rfl, rfl, rfl, rfl, rfl, rfl, rfl⟩

theorem Core.readSlot_congr {c d : Core} (hw : d.wins = c.wins) (f : Nat) (w : Win) (k : Nat) :
    d.readSlot f w k = c.readSlot f w k := by
  induction f generalizing w k with
  | zero => rfl
  | succ f ih =>
    unfold Core.readSlot; simp only [Core.win, hw]; split
    · exact ih _ _
    · rfl

/-- Cores with the same windows and slots read the same names. -/
theorem Core.x_congr {c d : Core} (hw : d.wins = c.wins) (hs : d.store = c.store) (hc : d.cur = c.cur) (n : Nat) :
    d.x n = c.x n := by
  unfold Core.x Core.slot Core.src Core.curWin Core.win
  rw [Core.readSlot_congr hw, hw, hs, hc]

/-- A name reads at issue what it read before. -/
theorem State.Clear.x_atIssue {s : State} {u : Use} (h : s.Clear u) (n : Nat) : s.atIssue.core.x n = s.core.x n :=
  let ⟨_, hw, hs, _, _, _, _, hc⟩ := h.atIssue_core
  Core.x_congr hw hs hc n

/-! Results. -/

/-- Of a window that is not struck, tagging a write changes nothing. -/
theorem Core.tagIn_own {c : Core} {i base : Nat} (h : (c.win i).s = false) (vals : List (Nat × Word)) :
    c.tagIn i base vals = (c, vals.map fun v => (base + v.1, v.2)) := by
  unfold Core.tagIn Core.claim; simp [h]

theorem Core.tag_own {c : Core} (h : c.curWin.s = false) (vals : List (Nat × Word)) :
    c.tag vals = (c, vals.map fun v => (c.curWin.base + v.1, v.2)) := Core.tagIn_own h vals

/-- A result readable at once in a window that is not struck is a plain write of its slot. -/
theorem Core.setX_own {c : Core} (h : c.curWin.s = false) (hv : ∀ p ∈ c.pend, p.variable = true) (d : Nat) (v : Word) :
    c.setX d v = if d = 0 then c else c.setSlot (c.curWin.base + d) v := by
  unfold Core.setX Core.writeNow
  rw [Core.tag_own h]
  simp only [Core.supersede_variable _ _ hv]
  unfold resX; split <;> simp [Core.setSlots]

/-- A result of another kind in a window that is not struck is pending. -/
theorem Core.writeLater_own {c : Core} (h : c.curWin.s = false) (hv : ∀ p ∈ c.pend, p.variable = true)
    (kind : PendKind) (d : Nat) (v : Word) :
    c.writeLater kind 0 (resX d v) =
      if d = 0 then c
      else { c with pend := c.pend ++ [{ kind, writes := [(c.curWin.base + d, v)], chk := c.sbchk && kind.isFixed }] } := by
  unfold Core.writeLater Core.writeLaterIn
  rw [Core.tagIn_own h]
  by_cases hd : d = 0
  · simp [resX, hd]
  · cases kind <;> simp [resX, hd, Core.addPend, Core.supersede_variable _ _ hv, PendKind.isFixed]

/-- A result of variable latency is a pending one of no request beyond the cluster. -/
theorem Core.setXVar_eq (c : Core) (d : Nat) (v : Word) : c.setXVar d v = c.writeLater .flight 0 (resX d v) := rfl

@[simp] theorem Core.slot_setSlot (c : Core) (n m : Nat) (v : Word) :
    (c.setSlot n v).slot m = if m = n then v else c.slot m := by simp [Core.slot, sget_sput]

/-- The way a scalar result of a latency is written (R134). -/
def Core.result (c : Core) (lat : Option Nat) (d : Nat) (v : Word) : Core :=
  match lat with
  | some 1 => c.setX d v
  | some l => c.setXIn l d v
  | none => c.setXVar d v

/-- A scalar result in a window that is not struck: what it changes, and what its name receives. -/
theorem Core.result_own {c : Core} (h : c.curWin.s = false) (hv : ∀ p ∈ c.pend, p.variable = true)
    (lat : Option Nat) (d : Nat) (v : Word) :
    ∃ store bad pend, c.result lat d v = { c with store, bad, pend } ∧
      (if d = 0 then store = c.store ∧ pend = c.pend
       else match lat with
        | some 1 => store = sput 0 c.store (c.curWin.base + d) v ∧ pend = c.pend
        | some l => store = c.store ∧
            pend = c.pend ++ [{ kind := .fixed (c.cycle + l), writes := [(c.curWin.base + d, v)], chk := c.sbchk }]
        | none => store = c.store ∧ pend = c.pend ++ [{ kind := .flight, writes := [(c.curWin.base + d, v)] }]) := by
  unfold Core.result
  by_cases hd : d = 0
  · refine ⟨c.store, c.bad, c.pend, ?_, by simp [hd]⟩
    split
    · rw [Core.setX_own h hv, if_pos hd]
    · unfold Core.setXIn; rw [Core.writeLater_own h hv, if_pos hd]
    · rw [Core.setXVar_eq, Core.writeLater_own h hv, if_pos hd]
  · simp only [if_neg hd]
    split
    · rw [Core.setX_own h hv, if_neg hd]; exact ⟨_, _, _, rfl, rfl, rfl⟩
    · unfold Core.setXIn; rw [Core.writeLater_own h hv, if_neg hd]
      exact ⟨_, c.bad, _, rfl, rfl, by simp [PendKind.isFixed]⟩
    · rw [Core.setXVar_eq, Core.writeLater_own h hv, if_neg hd]
      exact ⟨_, c.bad, _, rfl, rfl, by simp [PendKind.isFixed]⟩

/-- What the state at issue is, its core named. -/
theorem State.Clear.split {s : State} {u : Use} (h : s.Clear u) : ∃ c : Core, s.atIssue = { s with core := c } ∧
    s.core.Same c ∧ c.pc = s.core.pc ∧ c.wins = s.core.wins ∧ c.store = s.core.store ∧ c.pend = s.core.pend ∧
    c.cycle = s.core.issueCycle ∧ c.bad = s.core.bad ∧ c.cur = s.core.cur := by
  obtain ⟨h1, h2, h3, h4, h5, -, h7, h8⟩ := h.atIssue_core
  exact ⟨s.atIssue.core, rfl, h.same_atIssue, h1, h2, h3, h4, h5, h7, h8⟩

/-- An instruction that only sets its PC is complete. -/
theorem State.Clear.done {s : State} {u : Use} (h : s.Clear u) (pc : Word) (stl : Nat) :
    ∃ t, s.atIssue.retireTo pc stl = .next t ∧ s.Completes t pc stl ∧ s.core.SlotsSame t.core := by
  obtain ⟨c, he, hsame, hpc, hw, hst, hp, hcy, -, -⟩ := h.split
  rw [he]
  refine ⟨_, rfl, ⟨rfl, ?_, rfl, ?_, ?_, rfl, rfl⟩, fun n => ?_, hp⟩
  · exact (hsame.trans (Core.same_issued c stl)).trans (Core.same_with _ _ _ _ _ _ _ _ _ _ _)
  · show c.cycle + 1 = _; rw [hcy]
  · show (c.issued stl).curWin.ready = _; rw [Core.issued_winReady, hcy]
  · show sget 0 c.store n = _; rw [hst]; rfl

/-- An instruction that ends with a scalar result and a PC is complete, and its name receives the value. -/
theorem State.Clear.result {s : State} {u : Use} (h : s.Clear u) (lat : Option Nat) (d : Nat) (v pc : Word) (stl : Nat) :
    ∃ t, (s.atIssue.updCore fun c => c.result lat d v).retireTo pc stl = .next t ∧
      s.Completes t pc stl ∧ s.core.Receives t.core lat d v := by
  obtain ⟨c, he, hsame, hpc, hw, hst, hp, hcy, -, hcu⟩ := h.split
  have hcw : c.curWin = s.core.curWin := by unfold Core.curWin Core.win; rw [hw, hcu]
  obtain ⟨st, bd, pe, hr0, hr⟩ := Core.result_own (c := c) (by rw [hcw]; exact h.own)
    (by rw [hp]; exact fun p hp => (h.settled p hp).1) lat d v
  rw [hcw, hcy, hst, hp, hsame.sbchk] at hr
  rw [he]
  show ∃ t, ({ s with core := c.result lat d v } : State).retireTo pc stl = .next t ∧ _
  rw [hr0]
  have hsame' : s.core.Same { c with store := st, bad := bd, pend := pe } :=
    hsame.trans (Core.same_with c c.pc st bd pe c.cycle c.ready c.wait c.held c.seen c.obs.pmc)
  have hcy' : ({ c with store := st, bad := bd, pend := pe } : Core).cycle = s.core.issueCycle := hcy
  have h1 : ({ c with store := st, bad := bd, pend := pe } : Core).store = st := rfl
  have h2 : ({ c with store := st, bad := bd, pend := pe } : Core).pend = pe := rfl
  generalize ({ c with store := st, bad := bd, pend := pe } : Core) = e at hsame' hcy' h1 h2
  refine ⟨_, rfl, ⟨rfl, ?_, rfl, ?_, ?_, rfl, rfl⟩, ?_⟩
  · exact (hsame'.trans (Core.same_issued e stl)).trans (Core.same_with _ _ _ _ _ _ _ _ _ _ _)
  · show e.cycle + 1 = _; rw [hcy']
  · show (e.issued stl).curWin.ready = _; rw [Core.issued_winReady, hcy']
  · have hsl : ∀ m, ({ e.issued stl with pc } : Core).slot m = sget 0 st m := fun m => by
      show sget 0 e.store m = _; rw [h1]
    have hpe : ({ e.issued stl with pc } : Core).pend = pe := h2
    show s.core.Receives { e.issued stl with pc } lat d v
    generalize ({ e.issued stl with pc } : Core) = t at hsl hpe
    unfold Core.Receives Core.SlotsSame
    simp only [hsl, hpe]
    by_cases hd : d = 0
    · simp only [if_pos hd] at hr ⊢
      exact ⟨fun n => by rw [hr.1]; rfl, hr.2⟩
    · simp only [if_neg hd] at hr ⊢
      match lat, hr with
      | some 1, ⟨h1, h2⟩ =>
        exact ⟨by rw [h1, sget_sput_self], fun m hm => by rw [h1, sget_sput_ne _ _ _ hm]; rfl, h2⟩
      | some 0, ⟨h1, h2⟩ => exact ⟨fun m => by rw [h1]; rfl, h2⟩
      | some (l + 2), ⟨h1, h2⟩ => exact ⟨fun m => by rw [h1]; rfl, h2⟩
      | none, ⟨h1, h2⟩ => exact ⟨fun m => by rw [h1]; rfl, h2⟩

/-- The end of an instruction at its sequential successor is that at a PC. -/
theorem State.retire_eq (s : State) (len stl : Nat) :
    s.retire len stl = s.retireTo (s.core.pc + BitVec.ofNat 64 len) stl := rfl

/-- A scalar result in a window that is not struck leaves the PC. -/
theorem State.Clear.result_pc {s : State} {u : Use} (h : s.Clear u) (lat : Option Nat) (d : Nat) (v : Word) :
    (s.atIssue.core.result lat d v).pc = s.core.pc := by
  obtain ⟨c, he, -, hpc, hw, -, hp, -, -, hcu⟩ := h.split
  have hcw : c.curWin = s.core.curWin := by unfold Core.curWin Core.win; rw [hw, hcu]
  rw [he]
  obtain ⟨st, bd, pe, hr0, -⟩ := Core.result_own (c := c) (by rw [hcw]; exact h.own)
    (by rw [hp]; exact fun p hp => (h.settled p hp).1) lat d v
  show (c.result lat d v).pc = _
  rw [hr0]; exact hpc

/-- An instruction that ends with a scalar result at its sequential successor is complete. -/
theorem State.Clear.resultNext {s : State} {u : Use} (h : s.Clear u) (lat : Option Nat) (d : Nat) (v : Word)
    (len stl : Nat) : ∃ t, (s.atIssue.updCore fun c => c.result lat d v).retire len stl = .next t ∧
      s.Completes t (s.core.pc + BitVec.ofNat 64 len) stl ∧ s.core.Receives t.core lat d v := by
  have := h.result lat d v (s.core.pc + BitVec.ofNat 64 len) stl
  rw [State.retire_eq]
  show ∃ t, State.retireTo _ ((s.atIssue.core.result lat d v).pc + BitVec.ofNat 64 len) stl = .next t ∧ _
  rw [h.result_pc]; exact this

/-- Two updates of the issuing core that agree on it give the same state. -/
theorem State.updCore_congr {s : State} {f g : Core → Core} (h : f s.core = g s.core) : s.updCore f = s.updCore g := by
  unfold State.updCore; rw [h]

/-- The two ways to write a result of fixed latency. -/
theorem Core.result_fixed (c : Core) (lat d : Nat) (v : Word) :
    (if lat = 1 then c.setX d v else c.setXIn lat d v) = c.result (some lat) d v := by
  match lat with
  | 0 => rw [if_neg (by decide)]; rfl
  | 1 => rw [if_pos rfl]; rfl
  | n + 2 => rw [if_neg (by omega)]; rfl

/-- The meaning of an instruction whose body ends with a scalar result. -/
theorem State.Clear.scalar {s : State} {u : Use} (h : s.Clear u) {k : State → Out} {lat : Option Nat} {d len stl : Nat}
    {v : Word} (hk : k s.atIssue = (s.atIssue.updCore fun c => c.result lat d v).retire len stl) :
    ∃ t, s.issue u k = .next t ∧ s.Completes t (s.core.pc + BitVec.ofNat 64 len) stl ∧
      s.core.Receives t.core lat d v := by
  rw [s.issue_clear h, hk]; exact h.resultNext lat d v len stl

/-- What a scalar result makes of slots and pending results. -/
def Core.Got (c : Core) (lat : Option Nat) (d : Nat) (v : Word) (store : Sparse Word) (pend : List Pend) : Prop :=
  if d = 0 then store = c.store ∧ pend = c.pend
  else match lat with
    | some 1 => store = sput 0 c.store (c.curWin.base + d) v ∧ pend = c.pend
    | some l => store = c.store ∧
        pend = c.pend ++ [{ kind := .fixed (c.issueCycle + l), writes := [(c.curWin.base + d, v)], chk := c.sbchk }]
    | none => store = c.store ∧ pend = c.pend ++ [{ kind := .flight, writes := [(c.curWin.base + d, v)] }]

/-- A core that has got a result completes. -/
theorem State.finish {s : State} {e : Core} (hsame : s.core.Same e) (hcy : e.cycle = s.core.issueCycle)
    {lat : Option Nat} {d : Nat} {v : Word} (hr : s.core.Got lat d v e.store e.pend) (pc : Word) (stl : Nat) :
    ∃ t, ({ s with core := e } : State).retireTo pc stl = .next t ∧ t.core.fp = e.fp ∧ s.Completes t pc stl ∧
      s.core.Receives t.core lat d v := by
  refine ⟨_, rfl, rfl, ⟨rfl, ?_, rfl, ?_, ?_, rfl, rfl⟩, ?_⟩
  · exact (hsame.trans (Core.same_issued e stl)).trans (Core.same_with _ _ _ _ _ _ _ _ _ _ _)
  · show e.cycle + 1 = _; rw [hcy]
  · show (e.issued stl).curWin.ready = _; rw [Core.issued_winReady, hcy]
  · have hsl : ∀ m, ({ e.issued stl with pc } : Core).slot m = sget 0 e.store m := fun m => rfl
    have hpe : ({ e.issued stl with pc } : Core).pend = e.pend := rfl
    show s.core.Receives { e.issued stl with pc } lat d v
    generalize ({ e.issued stl with pc } : Core) = t at hsl hpe
    unfold Core.Receives Core.SlotsSame
    unfold Core.Got at hr
    simp only [hsl, hpe]
    by_cases hd : d = 0
    · simp only [if_pos hd] at hr ⊢
      exact ⟨fun n => by rw [hr.1]; rfl, hr.2⟩
    · simp only [if_neg hd] at hr ⊢
      match lat, hr with
      | some 1, ⟨h1, h2⟩ =>
        exact ⟨by rw [h1, sget_sput_self], fun m hm => by rw [h1, sget_sput_ne _ _ _ hm]; rfl, h2⟩
      | some 0, ⟨h1, h2⟩ => exact ⟨fun m => by rw [h1]; rfl, h2⟩
      | some (l + 2), ⟨h1, h2⟩ => exact ⟨fun m => by rw [h1]; rfl, h2⟩
      | none, ⟨h1, h2⟩ => exact ⟨fun m => by rw [h1]; rfl, h2⟩

/-- A core that stands at the issue of an instruction of another: nothing but the cycle and counts differs. -/
structure Core.Issuing (c d : Core) : Prop where
  same : c.Same d
  pc : d.pc = c.pc
  wins : d.wins = c.wins
  store : d.store = c.store
  pend : d.pend = c.pend
  cycle : d.cycle = c.issueCycle
  cur : d.cur = c.cur

theorem State.Clear.issuing {s : State} {u : Use} (h : s.Clear u) :
    ∃ c : Core, s.atIssue = { s with core := c } ∧ s.core.Issuing c := by
  obtain ⟨c, he, h1, h2, h3, h4, h5, h6, -, h8⟩ := h.split
  exact ⟨c, he, h1, h2, h3, h4, h5, h6, h8⟩

theorem Core.Issuing.count {c d : Core} (h : c.Issuing d) (w : Option Nat) (ev n : Nat) : c.Issuing (d.count w ev n) :=
  ⟨h.same.trans (Core.same_with d d.pc d.store d.bad d.pend d.cycle d.ready d.wait d.held d.seen _),
    h.pc, h.wins, h.store, h.pend, h.cycle, h.cur⟩

theorem Core.Issuing.curWin {c d : Core} (h : c.Issuing d) : d.curWin = c.curWin := by
  unfold Core.curWin Core.win; rw [h.wins, h.cur]

/-- A scalar result from a core at issue. -/
theorem State.Clear.resultOf {s : State} {u : Use} (h : s.Clear u) {c : Core} (hi : s.core.Issuing c)
    (lat : Option Nat) (d : Nat) (v : Word) (pc : Word) (stl : Nat) :
    ∃ t, (({ s with core := c } : State).updCore fun c => c.result lat d v).retireTo pc stl = .next t ∧
      s.Completes t pc stl ∧ s.core.Receives t.core lat d v := by
  have hcw := hi.curWin
  obtain ⟨st, bd, pe, hr0, hr⟩ := Core.result_own (c := c) (by rw [hcw]; exact h.own)
    (by rw [hi.pend]; exact fun p hp => (h.settled p hp).1) lat d v
  rw [hcw, hi.cycle, hi.store, hi.pend, hi.same.sbchk] at hr
  have hsame := hi.same.trans (Core.same_with c c.pc st bd pe c.cycle c.ready c.wait c.held c.seen c.obs.pmc)
  have hcy : ({ c with store := st, bad := bd, pend := pe } : Core).cycle = s.core.issueCycle := hi.cycle
  show ∃ t, ({ s with core := c.result lat d v } : State).retireTo pc stl = .next t ∧ _
  rw [hr0]
  have hst' : ({ c with store := st, bad := bd, pend := pe } : Core).store = st := rfl
  have hpe' : ({ c with store := st, bad := bd, pend := pe } : Core).pend = pe := rfl
  have hsame' : s.core.Same { c with store := st, bad := bd, pend := pe } := hsame
  generalize ({ c with store := st, bad := bd, pend := pe } : Core) = e at *
  obtain ⟨t, h1, -, h2, h3⟩ := State.finish hsame' hcy (lat := lat) (d := d) (v := v) (by subst hst' hpe'; exact hr) pc stl
  exact ⟨t, h1, h2, h3⟩

/-- An instruction that only sets its PC, from a core at issue. -/
theorem State.doneOf {s : State} {c : Core} (hi : s.core.Issuing c) (pc : Word) (stl : Nat) :
    ∃ t, ({ s with core := c } : State).retireTo pc stl = .next t ∧ s.Completes t pc stl ∧ s.core.SlotsSame t.core := by
  refine ⟨_, rfl, ⟨rfl, ?_, rfl, ?_, ?_, rfl, rfl⟩, fun n => ?_, hi.pend⟩
  · exact (hi.same.trans (Core.same_issued c stl)).trans (Core.same_with _ _ _ _ _ _ _ _ _ _ _)
  · show c.cycle + 1 = _; rw [hi.cycle]
  · show (c.issued stl).curWin.ready = _; rw [Core.issued_winReady, hi.cycle]
  · show sget 0 c.store n = _; rw [hi.store]; rfl

end Sys2Proof.Machine
end

