-- ==== Sys2Proof/Laws/Trap.lean ====
section
/-! SUPPORT. Taking a trap: the trap registers, the window, the mode and the PC after it, and what it leaves alone. -/
namespace Sys2Proof.Machine

/-- Where the trap window can be entered, entering it changes these fields of the core and no other (R136). -/
theorem State.enterTrap_eq {s : State} (h : s.core.trapOk = true) (tpc : Word) (cause : Nat) (val : Word) :
    s.enterTrap tpc cause val = { s with core := { s.core with
      trap := { s.core.trap with tpc := tpc &&& ~~~1#64, tfrom := s.core.cur, tcause := cause % 256, tval := val
                                 tstat := s.core.sup }
      wait := none, held := false, seen := [], cur := 28 + s.core.trap.twin, sup := true, pc := s.core.trap.tvec } } := by
  have h' : (s.core.win (28 + s.core.trap.twin)).v = true ∧ (!(s.core.win (28 + s.core.trap.twin)).h) = true := by
    simpa [Core.trapOk] using h
  unfold State.enterTrap; simp only [if_pos h']

/-- Taking a trap takes a core cycle and enters the trap window (R136, R381). -/
theorem State.trapAt_eq {s : State} (h : s.core.trapOk = true) (tpc : Word) (cause : Nat) (val : Word) :
    s.trapAt tpc cause val = { s with core := { s.core with
      cycle := (s.core.advance (s.core.cycle + 1)).cycle
      obs := { s.core.obs with pmc := (s.core.advance (s.core.cycle + 1)).obs.pmc }
      trap := { s.core.trap with tpc := tpc &&& ~~~1#64, tfrom := s.core.cur, tcause := cause % 256, tval := val
                                 tstat := s.core.sup }
      wait := none, held := false, seen := [], cur := 28 + s.core.trap.twin, sup := true, pc := s.core.trap.tvec } } := by
  have e := Core.advance_eq s.core (s.core.cycle + 1)
  have hk : (s.core.advance (s.core.cycle + 1)).trapOk = true := by rw [e]; exact h
  unfold State.trapAt
  refine (State.enterTrap_eq (s := s.updCore fun c => c.advance (c.cycle + 1)) hk tpc cause val).trans ?_
  show ({ s with core := { s.core.advance (s.core.cycle + 1) with
      trap := { (s.core.advance (s.core.cycle + 1)).trap with
        tpc := tpc &&& ~~~1#64, tfrom := (s.core.advance (s.core.cycle + 1)).cur, tcause := cause % 256, tval := val
        tstat := (s.core.advance (s.core.cycle + 1)).sup }
      wait := none, held := false, seen := [], cur := 28 + (s.core.advance (s.core.cycle + 1)).trap.twin, sup := true
      pc := (s.core.advance (s.core.cycle + 1)).trap.tvec } } : State) = _
  generalize s.core.advance (s.core.cycle + 1) = d at e ⊢
  rw [e]

/-- A core that takes a trap, from the state at issue. -/
theorem State.takesTrap_of {s : State} {c : Core} (hs : s.core.Same c) (hst : c.store = s.core.store)
    (hp : c.pend = s.core.pend) (h : s.core.trapOk = true) (tpc : Word) {cause : Nat} (hc : cause < 256) (val : Word) :
    s.TakesTrap (({ s with core := c } : State).enterTrap tpc cause val) tpc cause val := by
  have hk : c.trapOk = true := by
    have hv := hs.wins (28 + s.core.trap.twin)
    unfold Core.trapOk at h ⊢; rw [hs.trap, hv]; exact h
  rw [State.enterTrap_eq (s := { s with core := c }) hk]
  constructor
  case only => rfl
  case tpc => rfl
  case tfrom => exact hs.cur
  case tcause => exact Nat.mod_eq_of_lt hc
  case tval => rfl
  case tstat => exact hs.sup
  case vector => exact ⟨by show c.trap.tvec = _; rw [hs.trap], by show c.trap.twin = _; rw [hs.trap]⟩
  case cur => show 28 + c.trap.twin = _; rw [hs.trap]
  case sup => rfl
  case pc => show c.trap.tvec = _; rw [hs.trap]
  case slots => exact ⟨fun n => by show sget 0 c.store n = _; rw [hst]; rfl, hp⟩
  case same =>
    constructor
    case wins => exact hs.wins
    all_goals first
      | rfl | exact hs.cur | exact hs.sup | exact hs.run | exact hs.arena | exact hs.feErr | exact hs.fp
      | exact hs.sbchk | exact hs.mat | exact hs.vf | exact hs.asid | exact hs.dom | exact hs.m | exact hs.eng
      | exact hs.clk | exact hs.ctx | exact hs.pme | exact hs.wpa | exact hs.wpc

/-- Its core cycle apart, a core is the same (R381). -/
theorem Core.same_advance (c : Core) (t : Nat) : c.Same (c.advance t) := by
  rw [Core.advance_eq]; exact Core.same_with c _ _ _ _ _ _ _ _ _ _

/-- An instruction in whose way nothing stands, and that traps, takes its trap. -/
theorem State.Clear.traps {s : State} {u : Use} (h : s.Clear u) (hk : s.core.trapOk = true) {cause : Nat}
    (hc : cause < 256) (val : Word) :
    ∃ t, s.atIssue.trap cause val = .next t ∧ s.TakesTrap t s.core.pc cause val := by
  obtain ⟨c, he, hsame, hpc, hw, hst, hp, hcy, -, -⟩ := h.split
  rw [he, ← hpc]
  have hs : (c.advance (c.cycle + 1)).store = c.store ∧ (c.advance (c.cycle + 1)).pend = c.pend := by
    rw [Core.advance_eq]; exact ⟨rfl, rfl⟩
  exact ⟨_, rfl, State.takesTrap_of (hsame.trans (Core.same_advance c _)) (hs.1.trans hst) (hs.2.trans hp) hk c.pc hc val⟩

/-! Halting. -/

/-- The virtual core number of the issuing core depends on its context alone. -/
theorem State.vcore_core (s : State) (c : Core) (h : c.ctx = s.core.ctx) : ({ s with core := c } : State).vcore = s.vcore := by
  have : (({ s with core := c } : State).coreAt s.focus).ctx.vcore = (s.coreAt s.focus).ctx.vcore := by
    unfold State.coreAt; rw [if_pos rfl, if_pos rfl]; exact congrArg _ h
  unfold State.vcore State.vcoreOf
  rw [this]; rfl
/-- A halting fault outside the trap window halts the issuing context (R33). -/
theorem State.haltFault_halts {s : State} {cause : Nat} (hc : cause < 256) (hk : s.core.trapOk = true) (hcur : s.core.cur ≠ 28 + s.core.trap.twin)
  (hq : (sget {} (s.dieAt s.die).haltQ s.core.vf).entries.length < 64) (hl : (s.clAt s.cl).lease.holder ≠ some (posOf s.focus, s.core.cur)) :
   ∃ t, s.haltFault cause = .next t ∧ s.Halts t cause := by
  unfold State.haltFault
  have hd : ({ s with core := s.core.markHalted s.core.cur } : State).dropLease s.core.cur = { s with core := s.core.markHalted s.core.cur } := by
    unfold State.dropLease; exact if_neg hl
  simp only [hd, hcur, if_false]
  have hwake : ∀ (s : State) v, ∃ run clk oth, s.wakeV v = { s with core := { s.core with run, clk }, others := oth } := by
    intro s v
    unfold State.wakeV
    split
    · unfold State.updCoreAt
      split
      · unfold Core.wake State.updCore
        dsimp only
        split
        · exact ⟨_, _, _, rfl⟩
        · exact ⟨s.core.run, s.core.clk, s.others, rfl⟩
      · exact ⟨s.core.run, s.core.clk, _, rfl⟩
    · exact ⟨s.core.run, s.core.clk, s.others, rfl⟩
  have hpush : ∀ (s : State) d vf e, ∃ run clk oth, s.pushHalt d vf e = { (s.updDie d fun x => { x with haltQ := supd {} x.haltQ vf fun q =>
    if q.entries.length < 64 then { q with entries := q.entries ++ [e] }
    else { q with lost := if q.lost = BitVec.allOnes 32 then q.lost else q.lost + 1 } }) with core := { s.core with run, clk }, others := oth } := by
    intro s d vf e
    unfold State.pushHalt
    dsimp only
    split
    · exact hwake _ _
    · exact ⟨s.core.run, s.core.clk, s.others, rfl⟩
  unfold State.sendHalt
  dsimp only
  obtain ⟨run, clk, oth, e⟩ := hpush { s with core := s.core.markHalted s.core.cur } (State.die { s with core := s.core.markHalted s.core.cur }) (s.core.markHalted s.core.cur).vf
    { msg := haltMsg s.time (s.core.markHalted s.core.cur).ibits.toNat (s.core.markHalted s.core.cur).pc (s.core.markHalted s.core.cur).vf
          (State.vcore { s with core := s.core.markHalted s.core.cur }) 0 (b2n (s.core.markHalted s.core.cur).sup) (s.core.markHalted s.core.cur).ilen s.core.cur cause
      desc := ({ (s.core.markHalted s.core.cur).win s.core.cur with h := true } : Win).desc }
  refine ⟨_, rfl, ?_⟩
  rw [e]
  clear e
  have hwin : (s.core.markHalted s.core.cur).win s.core.cur = { s.core.win s.core.cur with h := true } :=
    (Core.win_setWin s.core s.core.cur s.core.cur _).trans (if_pos rfl)
  rw [hwin]
  generalize hen : (⟨haltMsg s.time (s.core.markHalted s.core.cur).ibits.toNat (s.core.markHalted s.core.cur).pc (s.core.markHalted s.core.cur).vf (State.vcore { s with core := s.core.markHalted s.core.cur }) 0 (b2n (s.core.markHalted s.core.cur).sup) (s.core.markHalted s.core.cur).ilen s.core.cur cause, ({ s.core.win s.core.cur with h := true } : Win).desc⟩ : HaltEntry) = en
  have hw : ∀ i, ({ s.core.markHalted s.core.cur with run, clk } : Core).win i = if i = s.core.cur then { s.core.win s.core.cur with h := true } else s.core.win i := fun i => Core.win_setWin s.core s.core.cur i _
  have hok : ({ s.core.markHalted s.core.cur with run, clk } : Core).trapOk = true := by
    unfold Core.trapOk at hk ⊢
    rw [hw]; dsimp only; rw [show (s.core.markHalted s.core.cur).trap = s.core.trap from rfl, if_neg (show ¬ (28 + s.core.trap.twin = s.core.cur) from fun h => hcur h.symm)]
    exact hk
  rw [State.trapAt_eq hok]
  have hwin : (s.core.markHalted s.core.cur).win s.core.cur = { s.core.win s.core.cur with h := true } := by
    have := hw s.core.cur; rw [if_pos rfl] at this; exact this
  constructor
  case halted => exact (hw _).trans (if_pos rfl)
  case others => exact fun i hi => (hw _).trans (if_neg hi)
  case message =>
    show (sget {} (sget Die.reset (sput Die.reset s.dies s.die _) s.die).haltQ s.core.vf).entries = _
    rw [sget_sput_self]
    change (sget {} (supd {} (s.dieAt s.die).haltQ s.core.vf fun q => if q.entries.length < 64 then { entries := q.entries ++ [en], lost := q.lost } else { entries := q.entries, lost := if q.lost = BitVec.allOnes 32 then q.lost else q.lost + 1 }) s.core.vf).entries = _
    rw [sget_supd_self, if_pos hq]
    refine congrArg (fun e : HaltEntry => (sget {} (s.dieAt s.die).haltQ s.core.vf).entries ++ [e]) ?_
    rw [← hen, State.vcore_core s (s.core.markHalted s.core.cur) rfl]
    rfl
  case tpc => rfl
  case tfrom => rfl
  case tcause => exact Nat.mod_eq_of_lt hc
  case tval => rfl
  case tstat => rfl
  case cur => rfl
  case sup => rfl
  case pc => rfl
  case slots => exact ⟨fun n => rfl, rfl⟩
  case mem => rfl

end Sys2Proof.Machine
end

