-- ==== Sys2Proof/Laws/Fp.lean ====
section
/-! SUPPORT. The shape of the scalar FP instructions: what each does where nothing stands in its way. -/
namespace Sys2Proof.Machine

/-- The end of a scalar FP instruction that raises no enabled flag. -/
theorem State.fpDone_eq {s : State} {lat : Option Nat} {d stl : Nat} {v : Word} {fl : Flags}
    (hz : fl &&& s.core.fp.fenable = 0) :
    s.fpDone lat d stl v fl = (s.updCore fun c =>
      let r := (c.raise fl).result (if s.core.fp.fenable = 0 then lat else some (lat.getD 1)) d v
      if s.core.fp.fenable = 0 then r else { r with ready := r.cycle + lat.getD 1 }).retire 4 stl := by
  unfold State.fpDone
  rw [if_neg (by rw [hz]; simp)]
  by_cases hen : s.core.fp.fenable = 0
  · refine congrArg (State.retire · 4 stl) (State.updCore_congr ?_)
    generalize s.core = c at *
    simp only [hen, ne_eq, not_true_eq_false, if_false, if_true]
    unfold Core.result
    match lat with
    | some 1 => rfl
    | some 0 => rfl
    | some (l + 2) => rfl
    | none => rfl
  · refine congrArg (State.retire · 4 stl) (State.updCore_congr ?_)
    generalize s.core = c at *
    simp only [hen, ne_eq, not_false_eq_true, if_true, if_false]
    unfold Core.result
    match lat with
    | some 1 => rfl
    | some 0 => rfl
    | some (l + 2) => rfl
    | none => rfl

theorem Core.same_raise {c d : Core} (h : c.Same d) (fl : Flags) :
    Core.Same { c with fp := { c.fp with fflags := c.fp.fflags ||| fl } } (d.raise fl) := by
  constructor
  case fp => show ({ d.fp with fflags := d.fp.fflags ||| fl } : FpRegs) = _; rw [h.fp]
  case wins => exact h.wins
  all_goals first
    | exact h.cur | exact h.sup | exact h.run | exact h.arena | exact h.feErr
    | exact h.trap | exact h.sbchk | exact h.mat | exact h.vf | exact h.asid | exact h.dom
    | exact h.m | exact h.eng | exact h.clk | exact h.ctx | exact h.pme | exact h.wpa
    | exact h.wpc

/-- What a scalar FP instruction does with its result and its flags (R153, R158). -/
theorem State.Clear.rounds {s : State} {u : Use} (h : s.Clear u) {k : State → Out} {lat : Option Nat} {d stl : Nat}
    {v : Word} {fl : Flags} (hk : k s.atIssue = s.atIssue.fpDone lat d stl v fl) :
    (fl &&& s.core.fp.fenable = 0 →
      ∃ t, s.issue u k = .next t ∧ t.core.fp = { s.core.fp with fflags := s.core.fp.fflags ||| fl } ∧
        ({ s with core := { s.core with fp := t.core.fp } } : State).Completes t (s.core.pc + 4) stl ∧
        s.core.Receives t.core (if s.core.fp.fenable = 0 then lat else some (lat.getD 1)) d v) ∧
    (fl &&& s.core.fp.fenable ≠ 0 → s.core.trapOk = true →
      ∃ t, s.issue u k = .next t ∧ s.TakesTrap t s.core.pc 0x13 (fl.setWidth 64)) := by
  rw [s.issue_clear h, hk]
  have hfp : s.atIssue.core.fp = s.core.fp := h.same_atIssue.fp
  refine ⟨fun hz => ?_, fun hn hok => ?_⟩
  · rw [← hfp] at hz
    rw [State.fpDone_eq hz, hfp]
    clear hz hk hfp k
    obtain ⟨c, he, hsame, hpc, hw, hst, hp, hcy, -, hcu⟩ := h.split
    have hcw : c.curWin = s.core.curWin := by unfold Core.curWin Core.win; rw [hw, hcu]
    rw [he]
    have hs1 := Core.same_raise hsame fl
    generalize hlat : (if s.core.fp.fenable = 0 then lat else some (lat.getD 1)) = lat'
    obtain ⟨st, bd, pe, hr0, hr⟩ := Core.result_own (c := c.raise fl) (by show c.curWin.s = false; rw [hcw]; exact h.own)
      (by show ∀ p ∈ c.pend, _; rw [hp]; exact fun p hp => (h.settled p hp).1) lat' d v
    have e1 : (c.raise fl).curWin = s.core.curWin := hcw
    have e2 : (c.raise fl).cycle = s.core.issueCycle := hcy
    have e3 : (c.raise fl).store = s.core.store := hst
    have e4 : (c.raise fl).pend = s.core.pend := hp
    have e5 : (c.raise fl).pc = s.core.pc := hpc
    have e6 : (c.raise fl).sbchk = s.core.sbchk := hsame.sbchk
    rw [e1, e2, e3, e4, e6] at hr
    change ∃ t, ({ s with core := if s.core.fp.fenable = 0 then (c.raise fl).result lat' d v
        else { (c.raise fl).result lat' d v with ready := ((c.raise fl).result lat' d v).cycle + lat.getD 1 } } :
        State).retire 4 stl = .next t ∧ _
    generalize c.raise fl = c1 at *
    have key : ∀ rd, ∃ t, ({ s with core := { c1.result lat' d v with ready := rd } } : State).retire 4 stl = .next t ∧
        t.core.fp = { s.core.fp with fflags := s.core.fp.fflags ||| fl } ∧
        ({ s with core := { s.core with fp := t.core.fp } } : State).Completes t (s.core.pc + 4) stl ∧
        s.core.Receives t.core lat' d v := fun rd => by
      rw [hr0]
      have h6 := hs1.trans (Core.same_with c1 c1.pc st bd pe c1.cycle rd c1.wait c1.held c1.seen c1.obs.pmc)
      have hpc' : ({ c1 with store := st, bad := bd, pend := pe, ready := rd } : Core).pc = s.core.pc := e5
      have hcy' : ({ c1 with store := st, bad := bd, pend := pe, ready := rd } : Core).cycle = s.core.issueCycle := e2
      have hst' : ({ c1 with store := st, bad := bd, pend := pe, ready := rd } : Core).store = st := rfl
      have hpe' : ({ c1 with store := st, bad := bd, pend := pe, ready := rd } : Core).pend = pe := rfl
      have h6' : Core.Same { s.core with fp := { s.core.fp with fflags := s.core.fp.fflags ||| fl } }
        { c1 with store := st, bad := bd, pend := pe, ready := rd } := h6
      show ∃ t, ({ s with core := { c1 with store := st, bad := bd, pend := pe, ready := rd } } : State).retire 4 stl = _ ∧ _
      generalize ({ c1 with store := st, bad := bd, pend := pe, ready := rd } : Core) = e at *
      obtain ⟨t, ht, hf, hc, hR⟩ := State.finish
        (s := { s with core := { s.core with fp := { s.core.fp with fflags := s.core.fp.fflags ||| fl } } }) (e := e)
        h6' hcy' (lat := lat') (d := d) (v := v) (by subst hst' hpe'; exact hr) (s.core.pc + 4) stl
      have hf' := hf.trans h6'.fp
      refine ⟨t, ?_, hf', by rw [hf']; exact hc, hR⟩
      rw [← ht, State.retire_eq]
      show State.retireTo { s with core := e } (e.pc + 4) stl = _
      rw [hpc']
    have hsplit : (if s.core.fp.fenable = 0 then c1.result lat' d v
        else { c1.result lat' d v with ready := (c1.result lat' d v).cycle + lat.getD 1 }) =
        { c1.result lat' d v with ready := if s.core.fp.fenable = 0 then (c1.result lat' d v).ready
          else (c1.result lat' d v).cycle + lat.getD 1 } := by split <;> rfl
    have := key (if s.core.fp.fenable = 0 then (c1.result lat' d v).ready
          else (c1.result lat' d v).cycle + lat.getD 1)
    rw [← hsplit] at this
    exact this
  · have := h.traps hok (cause := 0x13) (by decide) (fl.setWidth 64)
    unfold State.fpDone
    rw [hfp, if_pos hn]
    exact this

end Sys2Proof.Machine
end

