-- ==== Sys2Proof/Laws/Goes.lean ====
section
/-! SUPPORT. No shared operation stops the machine: each answers a next state, where what follows it does. -/
namespace Sys2Proof.Machine

/-- An outcome that is a next state. -/
def Goes (o : Out) : Prop := ∃ t, o = .next t

@[simp] theorem goes_next (t : State) : Goes (.next t) := ⟨t, rfl⟩
@[simp] theorem goes_trap (s : State) (c : Nat) (v : Word) : Goes (s.trap c v) := ⟨_, rfl⟩
@[simp] theorem goes_haltFault (s : State) (c : Nat) : Goes (s.haltFault c) := by
  unfold State.haltFault; simp only; repeat' split
  all_goals first | simp; done | exact ⟨_, rfl⟩
@[simp] theorem goes_retire (s : State) (n stl : Nat) : Goes (s.retire n stl) := ⟨_, rfl⟩
@[simp] theorem goes_retireTo (s : State) (pc : Word) (stl : Nat) : Goes (s.retireTo pc stl) := ⟨_, rfl⟩
@[simp] theorem goes_retireWin (s : State) (pc : Word) (stl : Nat) : Goes (s.retireWin pc stl) := ⟨_, rfl⟩
@[simp] theorem goes_doneWin (s : State) (d : Nat) (v : Word) (stl : Nat) : Goes (s.doneWin d v stl) := ⟨_, rfl⟩
@[simp] theorem goes_doneX (s : State) (d : Nat) (v : Word) (stl : Nat) : Goes (s.doneX d v stl) := ⟨_, rfl⟩
@[simp] theorem goes_leaveFor (s : State) (i : Nat) (pc : Word) (stl : Nat) : Goes (s.leaveFor i pc stl) := ⟨_, rfl⟩
@[simp] theorem goes_heldBack (s : State) : Goes s.heldBack := ⟨_, rfl⟩
@[simp] theorem goes_waiting (s : State) (k : WaitKind) (d : Nat) (a : Word) (l : Nat) : Goes (s.waiting k d a l) := by
  unfold State.waiting; simp only; repeat' split
  all_goals simp
theorem goes_watchHit (s : State) (h : Option (Nat × Bool)) (d : Word) (k : State → Out) (hk : ∀ s, Goes (k s)) :
    Goes (s.watchHit h d k) := by
  unfold State.watchHit; repeat' split
  all_goals first | exact hk _ | simp
theorem goes_watchExec (s : State) (k : State → Out) (hk : ∀ s, Goes (k s)) : Goes (s.watchExec k) := by
  unfold State.watchExec; exact goes_watchHit _ _ _ _ hk
theorem goes_stepHit (s : State) (h : Nat × Bool) (k : State → Out) (hk : ∀ s, Goes (k s)) : Goes (s.stepHit h k) := by
  unfold State.stepHit; exact goes_watchHit _ _ _ _ fun _ => hk _
theorem goes_watchAccess (s : State) (l st : Bool) (rs) (k : State → Out) (hk : ∀ s, Goes (k s)) :
    Goes (s.watchAccess l st rs k) := by
  unfold State.watchAccess; simp only; repeat' split
  all_goals first | exact hk _ | exact goes_watchHit _ _ _ _ hk | exact goes_stepHit _ _ _ hk
theorem goes_watchStep (s : State) (u : Use) (k : State → Out) (hk : ∀ s, Goes (k s)) : Goes (s.watchStep u k) := by
  unfold State.watchStep; repeat' split
  all_goals first | exact hk _ | exact goes_stepHit _ _ _ hk
theorem goes_checkGood (s : State) (rd : List Nat) (k : State → Out) (hk : ∀ s, Goes (k s)) : Goes (s.checkGood rd k) := by
  unfold State.checkGood; repeat' split
  all_goals first | exact hk _ | simp
theorem goes_checkSlots (s : State) (rd wr cp : List Nat) (k : State → Out) (hk : ∀ s, Goes (k s)) :
    Goes (s.checkSlots rd wr cp k) := by
  unfold State.checkSlots; simp only; repeat' split
  all_goals first | exact goes_checkGood _ _ _ hk | simp
theorem goes_checkNames (s : State) (u : Use) (k : List Nat → State → Out) (hk : ∀ n s, Goes (k n s)) :
    Goes (s.checkNames u k) := by
  unfold State.checkNames; dsimp only; repeat' split
  all_goals first | (exact goes_checkSlots _ _ _ _ _ (hk _)) | simp
theorem goes_issue (s : State) (u : Use) (k : State → Out) (hk : ∀ s, Goes (k s)) : Goes (s.issue u k) := by
  unfold State.issue
  refine goes_watchExec _ _ fun s => ?_
  split
  · simp
  · refine goes_checkNames _ _ _ fun n s => ?_
    simp only
    repeat' split
    all_goals first | simp; done | exact goes_watchStep _ _ _ hk | exact goes_trap _ _ _
theorem goes_async (o : Option (Nat × Nat)) (s : State) (k : State → Out) (hk : ∀ s, Goes (k s)) :
    Goes (State.async o k s) := by
  unfold State.async; repeat' split
  all_goals first | exact hk _ | simp
theorem goes_feError (s : State) (a : Word) (c : Nat) : Goes (s.feError a c) := ⟨_, rfl⟩
theorem goes_feReport (s : State) (a : Word) : Goes (s.feReport a) := ⟨_, rfl⟩
theorem goes_feResume (s : State) (k : WaitKind) (again : Word → Nat → State → Out) (fresh : State → Out)
    (ha : ∀ a n s, Goes (again a n s)) (hf : ∀ s, Goes (fresh s)) : Goes (s.feResume k again fresh) := by
  unfold State.feResume; repeat' split
  all_goals first | exact hf _ | exact ha _ _ _ | exact goes_feReport _ _
theorem goes_feAccess (s : State) (ld st : Bool) (ea : Word) (n al : Nat) (k : Nat → State → Out) (o : State → Out)
    (hk : ∀ n s, Goes (k n s)) (ho : ∀ s, Goes (o s)) : Goes (s.feAccess ld st ea n al k o) := by
  unfold State.feAccess; simp only; repeat' split
  all_goals first | exact ho _ | exact goes_watchAccess _ _ _ _ _ (hk _) | exact goes_watchAccess _ _ _ _ _ ho | simp
theorem goes_feRange (s : State) (st : Bool) (ea len : Word) (stl : Nat) (k : Nat → State → Out) (o : State → Out)
    (hk : ∀ n s, Goes (k n s)) (ho : ∀ s, Goes (o s)) : Goes (s.feRange st ea len stl k o) := by
  unfold State.feRange; simp only; repeat' split
  all_goals first
    | exact goes_watchAccess _ _ _ _ _ (hk _) | exact goes_watchAccess _ _ _ _ _ ho
    | exact goes_watchAccess _ _ _ _ _ fun _ => goes_retire _ _ _ | simp
theorem goes_fifoAccess (s : State) (st : Bool) (ea : Word) (n : Nat) (k : Nat → Nat → State → Out) (o : State → Out)
    (hk : ∀ n b s, Goes (k n b s)) (ho : ∀ s, Goes (o s)) : Goes (s.fifoAccess st ea n k o) := by
  unfold State.fifoAccess; simp only; repeat' split
  all_goals first | exact goes_watchAccess _ _ _ _ _ (hk _ _) | exact goes_watchAccess _ _ _ _ _ ho | simp
theorem goes_withBlocks (s : State) (ea : Word) (n : Nat) (k : List (Option (BitVec 512)) → State → Out)
    (hk : ∀ r s, Goes (k r s)) : Goes (s.withBlocks ea n k) := by
  unfold State.withBlocks; repeat' split
  all_goals first | exact goes_watchAccess _ _ _ _ _ fun _ => hk _ _ | simp
theorem goes_ldSync (d : Nat) (ea : Word) (stl a : Nat) (s : State) : Goes (State.ldSync d ea stl a s) := by
  unfold State.ldSync; repeat' split
  all_goals first | simp; done | exact goes_feError _ _ _ | exact ⟨_, rfl⟩
theorem goes_join (s : State) (k : WaitKind) (d : Nat) (ea : Word) (c o : Nat) : Goes (s.join k d ea c o) := by
  unfold State.join; simp only; repeat' split
  all_goals first | exact goes_feError _ _ _ | simp
theorem goes_farTake (k : WaitKind) (d : Nat) (ea : Word) (stl : Nat) (s : State) : Goes (State.farTake k d ea stl s) := by
  unfold State.farTake; simp only; repeat' split
  all_goals simp
theorem goes_farPut (d stl : Nat) (s : State) : Goes (State.farPut d stl s) := by
  unfold State.farPut; simp
theorem goes_served (s : State) (k : WaitKind) (d : Nat) (ea : Word) (stl : Nat) : Goes (s.served k d ea stl) := by
  unfold State.served; simp only; repeat' split
  all_goals first | exact goes_farTake _ _ _ _ _ | simp
theorem goes_feWait (ea : Word) (n stl c : Nat) (s : State) : Goes (State.feWait ea n stl c s) := by
  unfold State.feWait; simp only; repeat' split
  all_goals simp
end Sys2Proof.Machine
end

