-- ==== Sys2Proof/Laws/Integer.lean ====
section
/-! SUPPORT. The bit counts and the byte reversal of the integer instructions in closed form. -/
namespace Sys2Proof.Machine

/-- Trailing zeros: the lowest bit that is set. -/
theorem ctzN_eq (w n : Nat) : ctzN w n = ((List.range w).find? fun i => n.testBit i).getD w := by
  induction w generalizing n with
  | zero => rfl
  | succ w ih =>
    rw [List.range_succ_eq_map, List.find?_cons]
    unfold ctzN
    by_cases h : n % 2 = 1
    · simp [h, Nat.testBit_zero]
    · have h0 : n.testBit 0 = false := by simp [Nat.testBit_zero, h]
      simp only [h, if_false, h0, ih, List.find?_map]
      have : (fun i => n.testBit i) ∘ Nat.succ = fun i => (n / 2).testBit i := by
        funext i; simp [Nat.testBit_succ]
      rw [this]
      cases (List.range w).find? fun i => (n / 2).testBit i <;> simp [Nat.add_comm]

/-- One bits: how many are set. -/
theorem popN_eq (w n : Nat) : popN w n = ((List.range w).filter fun i => n.testBit i).length := by
  induction w generalizing n with
  | zero => rfl
  | succ w ih =>
    rw [List.range_succ_eq_map, List.filter_cons]
    unfold popN
    have hm : (((List.range w).map Nat.succ).filter fun i => n.testBit i).length = popN w (n / 2) := by
      rw [ih, List.filter_map, List.length_map]
      congr 2
      funext i; simp [Nat.testBit_succ]
    by_cases h : n % 2 = 1
    · have h0 : n.testBit 0 = true := by simp [Nat.testBit_zero, h]
      simp only [h0, if_true, List.length_cons, hm]; omega
    · have h0 : n.testBit 0 = false := by simp [Nat.testBit_zero, h]
      simp only [h0, Bool.false_eq_true, if_false, hm]; omega

/-- Leading zeros of a word. -/
theorem clzN_eq (a : Word) : clzN 64 a.toNat = if a = 0 then 64 else 63 - a.toNat.log2 := by
  unfold clzN bitLen
  rw [Nat.mod_eq_of_lt a.isLt]
  by_cases h : a.toNat = 0
  · have : a = 0 := BitVec.eq_of_toNat_eq (by simpa using h)
    simp [this]
  · have : a ≠ 0 := fun hc => h (by simp [hc])
    simp only [h, this, if_false]; omega

/-- Eight bytes, and the number eight bytes make. -/
theorem bytesOf8 (n : Nat) : bytesOf n 8 = [BitVec.ofNat 8 n, BitVec.ofNat 8 (n / 256), BitVec.ofNat 8 (n / 256 / 256),
    BitVec.ofNat 8 (n / 256 / 256 / 256), BitVec.ofNat 8 (n / 256 / 256 / 256 / 256),
    BitVec.ofNat 8 (n / 256 / 256 / 256 / 256 / 256), BitVec.ofNat 8 (n / 256 / 256 / 256 / 256 / 256 / 256),
    BitVec.ofNat 8 (n / 256 / 256 / 256 / 256 / 256 / 256 / 256)] := rfl

theorem natOf8 (a b c d e f g h : Byte) : natOf [a, b, c, d, e, f, g, h] = a.toNat + 256 * (b.toNat + 256 * (c.toNat +
   256 * (d.toNat + 256 * (e.toNat + 256 * (f.toNat + 256 * (g.toNat + 256 * (h.toNat + 256 * 0))))))) := rfl

/-- A sum of eight. -/
theorem sum8 (f : Nat → Nat) : ((List.range 8).map f).sum = f 0 + (f 1 + (f 2 + (f 3 + (f 4 + (f 5 + (f 6 + (f 7 + 0))))))) := rfl

/-- The bytes in reverse order. -/
theorem bswapW_eq (a : Word) :
    bswapW a = word (((List.range 8).map fun i => a.bits (8 * i) 8 * 2 ^ (56 - 8 * i)).sum) := by
  rw [sum8]
  unfold bswapW
  rw [bytesOf8]
  simp only [List.reverse_cons, List.reverse_nil, List.nil_append, List.cons_append]
  rw [natOf8]
  simp only [Word.bits, fld, BitVec.toNat_ofNat, Nat.div_div_eq_div_mul]
  congr 1
  simp only [Nat.reduceMul, Nat.reducePow, Nat.reduceSub, Nat.mul_zero, Nat.add_zero, Nat.pow_zero, Nat.div_one]
  generalize a.toNat / 72057594037927936 % 256 = b7
  generalize a.toNat / 281474976710656 % 256 = b6
  generalize a.toNat / 1099511627776 % 256 = b5
  generalize a.toNat / 4294967296 % 256 = b4
  generalize a.toNat / 16777216 % 256 = b3
  generalize a.toNat / 65536 % 256 = b2
  generalize a.toNat / 256 % 256 = b1
  generalize a.toNat % 256 = b0
  omega

/-- `lui`: the immediate above sixteen zero bits. -/
theorem lui_eq (imm : BitVec 16) : (imm.setWidth 32) <<< 16 = (imm ++ (0 : BitVec 16) : BitVec 32) := by
  apply BitVec.eq_of_toNat_eq
  have := imm.isLt
  simp only [BitVec.toNat_shiftLeft, BitVec.toNat_setWidth, BitVec.toNat_append, Nat.shiftLeft_eq, BitVec.toNat_zero,
    BitVec.ofNat_eq_ofNat, Nat.or_zero]
  omega

/-- The bits of the mask of sixteen ones. -/
theorem getLsbD_ffff (j : Nat) : (0xFFFF#64).getLsbD j = decide (j < 16) := by
  have : (0xFFFF : Nat) = 2 ^ 16 - 1 := rfl
  simp only [BitVec.getLsbD_ofNat, this, Nat.testBit_two_pow_sub_one]
  by_cases h : j < 16
  · simp [h]; omega
  · simp [h]

/-- `lmid`: bits 47..32 replaced. -/
theorem lmid_eq (a : Word) (imm : BitVec 16) :
    setHalf a 32 imm = (a.extractLsb' 48 16 ++ imm ++ a.extractLsb' 0 32 : BitVec 64) := by
  apply BitVec.eq_of_getLsbD_eq
  intro i hi
  unfold setHalf
  simp only [BitVec.getLsbD_or, BitVec.getLsbD_and, BitVec.getLsbD_not, BitVec.getLsbD_append, BitVec.getLsbD_extractLsb',
    BitVec.getLsbD_shiftLeft, BitVec.getLsbD_setWidth, getLsbD_ffff]
  have hi2 : ∀ j, 16 ≤ j → imm.getLsbD j = false := fun j h => BitVec.getLsbD_of_ge _ _ h
  by_cases h1 : i < 32
  · simp [h1, hi]
  · by_cases h2 : i < 48
    · have : i - 32 < 16 := by omega
      simp [h1, hi, this]
      omega
    · have h3 : ¬ i - 32 < 16 := by omega
      have : 48 + (i - 32 - 16) = i := by omega
      simp [h1, hi, h3, hi2 (i - 32) (by omega), this]
      omega

/-- `ltop`: bits 63..48 replaced. -/
theorem ltop_eq (a : Word) (imm : BitVec 16) :
    setHalf a 48 imm = (imm ++ a.extractLsb' 0 48 : BitVec 64) := by
  apply BitVec.eq_of_getLsbD_eq
  intro i hi
  unfold setHalf
  simp only [BitVec.getLsbD_or, BitVec.getLsbD_and, BitVec.getLsbD_not, BitVec.getLsbD_append, BitVec.getLsbD_extractLsb',
    BitVec.getLsbD_shiftLeft, BitVec.getLsbD_setWidth, getLsbD_ffff]
  by_cases h1 : i < 48
  · simp [h1, hi]
  · have : i - 48 < 16 := by omega
    simp [h1, hi, this]
    omega

end Sys2Proof.Machine
end

