-- ==== Sys2Proof/Laws/PerInstr.lean ====
section
/-! SUPPORT. The family RoundTrip: decoding an encoded well-formed instruction gives it back (R16, R18 to R31), with one
lemma per constructor of Instr. -/
namespace Sys2Proof.Laws

/-- A well-formed instruction with an encoding decodes to itself, from as many parcels as its length; the others are events
and encodings that are no instruction. -/
def RoundTrip.Statement (i : Instr) : Prop :=
  i.wf = true → match encode i with
    | some ps => decodeParcels ps = .ok (i, ps.length) ∧ instrLen i = 2 * ps.length
    | none => i.isEvent = true ∨ ∃ bits len, i = .illegalEncoding bits len

/-- A row without an encoding. -/
theorem trip_none {i : Instr} (he : encode i = none) (h : i.isEvent = true ∨ ∃ bits len, i = .illegalEncoding bits len) :
    RoundTrip.Statement i := by
  intro _; rw [he]; exact h

/-- A word decodes from its parcels as decodeWord says. -/
theorem trip32 {i : Instr} {w maj stl : Nat} (he : encode i = some [fld w 0 16, fld w 16 16]) (hl : instrLen i = 4)
    (hd : i.wf = true → Word32 w maj stl ∧ maj ≠ 0x3E ∧ decodeWord w = .ok i) : RoundTrip.Statement i := by
  intro hw
  obtain ⟨f, hm, hd⟩ := hd hw
  rw [he]
  exact ⟨parcels2 (low16_odd f.odd) (by rw [low16_maj, f.maj]; exact hm) (split32 f.lt) hd, hl⟩

/-- A parcel decodes as decode16 says. -/
theorem trip16 {i : Instr} {w : Nat} (he : encode i = some [w]) (hl : instrLen i = 2)
    (hd : i.wf = true → w % 2 = 0 ∧ decode16 w = .ok i) : RoundTrip.Statement i := by
  intro hw
  obtain ⟨hm, hd⟩ := hd hw
  rw [he]
  exact ⟨parcels1 hm hd, hl⟩

/-- A pair decodes to its row. -/
theorem tripPair {i : Instr} {p : Pfx} {v : VOp} {w maj : Nat} (he : encode i = encodePair p v) (hl : instrLen i = 8)
    (hi : pairInstr p v = i) (hd : i.wf = true → p.ranged = true ∧ pfxOk p v = true ∧ WordOf v w maj) :
    RoundTrip.Statement i := by
  intro hw
  obtain ⟨hr, hp, hv, f, hm, hd⟩ := hd hw
  obtain ⟨g, hg⟩ := fP hr
  have he' : encode i = some [fld (encodePfx p) 0 16, fld (encodePfx p) 16 16, fld w 0 16, fld w 16 16] := by
    rw [he, encodePair, hv]; rfl
  rw [he']
  exact ⟨pairParcels g f (decodePair_eq hg f hm hd hp hi), hl⟩

theorem trip_pfx (p : Pfx) (v : VOp) : RoundTrip.Statement (.pfx p v) := by
  intro hw
  obtain ⟨h, h3⟩ := wf2 hw
  obtain ⟨h, h2⟩ := wf2 h
  obtain ⟨h0, h1⟩ := wf2 h
  have hi : ∀ p, pairInstr p v = .pfx p v := by cases v <;> first | exact fun _ => rfl | cases h3
  obtain ⟨w, maj, hv⟩ := wordOf v h1 hi
  exact tripPair (v := v) rfl rfl (hi p) (fun _ => ⟨h0, h2, hv⟩) hw

end Sys2Proof.Laws

namespace Sys2Proof.Laws.RoundTrip

theorem add (d : Nat) (a : Nat) (b : Nat) (stl : Nat) : RoundTrip.Statement (.add d a b stl) :=
  trip32 (w := enRR 0x00000001 d a b stl) (maj := 0x00) (stl := stl) rfl rfl fun hw => by
    obtain ⟨hw, h3⟩ := wf2 hw
    obtain ⟨hw, h2⟩ := wf2 hw
    obtain ⟨h0, h1⟩ := wf2 hw
    have D : ∀ w, F28 w 0x00 stl d a b 0 → decodeWord w = .ok (.add d a b stl) := fun w f => by
      refine (dec00 f.maj).trans ?_
      simp only [decMaj00, f.fn, f.rd, f.ra, f.rb, f.stl]
    have f : F28 (enRR 0x00000001 d a b stl) 0x00 stl d a b 0 := f28 (maj := 0x00) (k := 0) rfl (by decide) (by decide) (lt_reg h0) (lt_reg h1) (lt_reg h2) (lt_stl h3)
    exact ⟨f.toWord32, by decide, D _ f⟩

theorem sub (d : Nat) (a : Nat) (b : Nat) (stl : Nat) : RoundTrip.Statement (.sub d a b stl) :=
  trip32 (w := enRR 0x10000001 d a b stl) (maj := 0x00) (stl := stl) rfl rfl fun hw => by
    obtain ⟨hw, h3⟩ := wf2 hw
    obtain ⟨hw, h2⟩ := wf2 hw
    obtain ⟨h0, h1⟩ := wf2 hw
    have D : ∀ w, F28 w 0x00 stl d a b 1 → decodeWord w = .ok (.sub d a b stl) := fun w f => by
      refine (dec00 f.maj).trans ?_
      simp only [decMaj00, f.fn, f.rd, f.ra, f.rb, f.stl]
    have f : F28 (enRR 0x10000001 d a b stl) 0x00 stl d a b 1 := f28 (maj := 0x00) (k := 1) rfl (by decide) (by decide) (lt_reg h0) (lt_reg h1) (lt_reg h2) (lt_stl h3)
    exact ⟨f.toWord32, by decide, D _ f⟩

theorem and (d : Nat) (a : Nat) (b : Nat) (stl : Nat) : RoundTrip.Statement (.and d a b stl) :=
  trip32 (w := enRR 0x20000001 d a b stl) (maj := 0x00) (stl := stl) rfl rfl fun hw => by
    obtain ⟨hw, h3⟩ := wf2 hw
    obtain ⟨hw, h2⟩ := wf2 hw
    obtain ⟨h0, h1⟩ := wf2 hw
    have D : ∀ w, F28 w 0x00 stl d a b 2 → decodeWord w = .ok (.and d a b stl) := fun w f => by
      refine (dec00 f.maj).trans ?_
      simp only [decMaj00, f.fn, f.rd, f.ra, f.rb, f.stl]
    have f : F28 (enRR 0x20000001 d a b stl) 0x00 stl d a b 2 := f28 (maj := 0x00) (k := 2) rfl (by decide) (by decide) (lt_reg h0) (lt_reg h1) (lt_reg h2) (lt_stl h3)
    exact ⟨f.toWord32, by decide, D _ f⟩

theorem or (d : Nat) (a : Nat) (b : Nat) (stl : Nat) : RoundTrip.Statement (.or d a b stl) :=
  trip32 (w := enRR 0x30000001 d a b stl) (maj := 0x00) (stl := stl) rfl rfl fun hw => by
    obtain ⟨hw, h3⟩ := wf2 hw
    obtain ⟨hw, h2⟩ := wf2 hw
    obtain ⟨h0, h1⟩ := wf2 hw
    have D : ∀ w, F28 w 0x00 stl d a b 3 → decodeWord w = .ok (.or d a b stl) := fun w f => by
      refine (dec00 f.maj).trans ?_
      simp only [decMaj00, f.fn, f.rd, f.ra, f.rb, f.stl]
    have f : F28 (enRR 0x30000001 d a b stl) 0x00 stl d a b 3 := f28 (maj := 0x00) (k := 3) rfl (by decide) (by decide) (lt_reg h0) (lt_reg h1) (lt_reg h2) (lt_stl h3)
    exact ⟨f.toWord32, by decide, D _ f⟩

theorem xor (d : Nat) (a : Nat) (b : Nat) (stl : Nat) : RoundTrip.Statement (.xor d a b stl) :=
  trip32 (w := enRR 0x40000001 d a b stl) (maj := 0x00) (stl := stl) rfl rfl fun hw => by
    obtain ⟨hw, h3⟩ := wf2 hw
    obtain ⟨hw, h2⟩ := wf2 hw
    obtain ⟨h0, h1⟩ := wf2 hw
    have D : ∀ w, F28 w 0x00 stl d a b 4 → decodeWord w = .ok (.xor d a b stl) := fun w f => by
      refine (dec00 f.maj).trans ?_
      simp only [decMaj00, f.fn, f.rd, f.ra, f.rb, f.stl]
    have f : F28 (enRR 0x40000001 d a b stl) 0x00 stl d a b 4 := f28 (maj := 0x00) (k := 4) rfl (by decide) (by decide) (lt_reg h0) (lt_reg h1) (lt_reg h2) (lt_stl h3)
    exact ⟨f.toWord32, by decide, D _ f⟩

theorem andn (d : Nat) (a : Nat) (b : Nat) (stl : Nat) : RoundTrip.Statement (.andn d a b stl) :=
  trip32 (w := enRR 0x50000001 d a b stl) (maj := 0x00) (stl := stl) rfl rfl fun hw => by
    obtain ⟨hw, h3⟩ := wf2 hw
    obtain ⟨hw, h2⟩ := wf2 hw
    obtain ⟨h0, h1⟩ := wf2 hw
    have D : ∀ w, F28 w 0x00 stl d a b 5 → decodeWord w = .ok (.andn d a b stl) := fun w f => by
      refine (dec00 f.maj).trans ?_
      simp only [decMaj00, f.fn, f.rd, f.ra, f.rb, f.stl]
    have f : F28 (enRR 0x50000001 d a b stl) 0x00 stl d a b 5 := f28 (maj := 0x00) (k := 5) rfl (by decide) (by decide) (lt_reg h0) (lt_reg h1) (lt_reg h2) (lt_stl h3)
    exact ⟨f.toWord32, by decide, D _ f⟩

theorem sll (d : Nat) (a : Nat) (b : Nat) (stl : Nat) : RoundTrip.Statement (.sll d a b stl) :=
  trip32 (w := enRR 0x60000001 d a b stl) (maj := 0x00) (stl := stl) rfl rfl fun hw => by
    obtain ⟨hw, h3⟩ := wf2 hw
    obtain ⟨hw, h2⟩ := wf2 hw
    obtain ⟨h0, h1⟩ := wf2 hw
    have D : ∀ w, F28 w 0x00 stl d a b 6 → decodeWord w = .ok (.sll d a b stl) := fun w f => by
      refine (dec00 f.maj).trans ?_
      simp only [decMaj00, f.fn, f.rd, f.ra, f.rb, f.stl]
    have f : F28 (enRR 0x60000001 d a b stl) 0x00 stl d a b 6 := f28 (maj := 0x00) (k := 6) rfl (by decide) (by decide) (lt_reg h0) (lt_reg h1) (lt_reg h2) (lt_stl h3)
    exact ⟨f.toWord32, by decide, D _ f⟩

theorem srl (d : Nat) (a : Nat) (b : Nat) (stl : Nat) : RoundTrip.Statement (.srl d a b stl) :=
  trip32 (w := enRR 0x70000001 d a b stl) (maj := 0x00) (stl := stl) rfl rfl fun hw => by
    obtain ⟨hw, h3⟩ := wf2 hw
    obtain ⟨hw, h2⟩ := wf2 hw
    obtain ⟨h0, h1⟩ := wf2 hw
    have D : ∀ w, F28 w 0x00 stl d a b 7 → decodeWord w = .ok (.srl d a b stl) := fun w f => by
      refine (dec00 f.maj).trans ?_
      simp only [decMaj00, f.fn, f.rd, f.ra, f.rb, f.stl]
    have f : F28 (enRR 0x70000001 d a b stl) 0x00 stl d a b 7 := f28 (maj := 0x00) (k := 7) rfl (by decide) (by decide) (lt_reg h0) (lt_reg h1) (lt_reg h2) (lt_stl h3)
    exact ⟨f.toWord32, by decide, D _ f⟩

theorem sra (d : Nat) (a : Nat) (b : Nat) (stl : Nat) : RoundTrip.Statement (.sra d a b stl) :=
  trip32 (w := enRR 0x80000001 d a b stl) (maj := 0x00) (stl := stl) rfl rfl fun hw => by
    obtain ⟨hw, h3⟩ := wf2 hw
    obtain ⟨hw, h2⟩ := wf2 hw
    obtain ⟨h0, h1⟩ := wf2 hw
    have D : ∀ w, F28 w 0x00 stl d a b 8 → decodeWord w = .ok (.sra d a b stl) := fun w f => by
      refine (dec00 f.maj).trans ?_
      simp only [decMaj00, f.fn, f.rd, f.ra, f.rb, f.stl]
    have f : F28 (enRR 0x80000001 d a b stl) 0x00 stl d a b 8 := f28 (maj := 0x00) (k := 8) rfl (by decide) (by decide) (lt_reg h0) (lt_reg h1) (lt_reg h2) (lt_stl h3)
    exact ⟨f.toWord32, by decide, D _ f⟩

theorem slt (d : Nat) (a : Nat) (b : Nat) (stl : Nat) : RoundTrip.Statement (.slt d a b stl) :=
  trip32 (w := enRR 0x90000001 d a b stl) (maj := 0x00) (stl := stl) rfl rfl fun hw => by
    obtain ⟨hw, h3⟩ := wf2 hw
    obtain ⟨hw, h2⟩ := wf2 hw
    obtain ⟨h0, h1⟩ := wf2 hw
    have D : ∀ w, F28 w 0x00 stl d a b 9 → decodeWord w = .ok (.slt d a b stl) := fun w f => by
      refine (dec00 f.maj).trans ?_
      simp only [decMaj00, f.fn, f.rd, f.ra, f.rb, f.stl]
    have f : F28 (enRR 0x90000001 d a b stl) 0x00 stl d a b 9 := f28 (maj := 0x00) (k := 9) rfl (by decide) (by decide) (lt_reg h0) (lt_reg h1) (lt_reg h2) (lt_stl h3)
    exact ⟨f.toWord32, by decide, D _ f⟩

theorem sltu (d : Nat) (a : Nat) (b : Nat) (stl : Nat) : RoundTrip.Statement (.sltu d a b stl) :=
  trip32 (w := enRR 0xA0000001 d a b stl) (maj := 0x00) (stl := stl) rfl rfl fun hw => by
    obtain ⟨hw, h3⟩ := wf2 hw
    obtain ⟨hw, h2⟩ := wf2 hw
    obtain ⟨h0, h1⟩ := wf2 hw
    have D : ∀ w, F28 w 0x00 stl d a b 10 → decodeWord w = .ok (.sltu d a b stl) := fun w f => by
      refine (dec00 f.maj).trans ?_
      simp only [decMaj00, f.fn, f.rd, f.ra, f.rb, f.stl]
    have f : F28 (enRR 0xA0000001 d a b stl) 0x00 stl d a b 10 := f28 (maj := 0x00) (k := 10) rfl (by decide) (by decide) (lt_reg h0) (lt_reg h1) (lt_reg h2) (lt_stl h3)
    exact ⟨f.toWord32, by decide, D _ f⟩

theorem seq (d : Nat) (a : Nat) (b : Nat) (stl : Nat) : RoundTrip.Statement (.seq d a b stl) :=
  trip32 (w := enRR 0xB0000001 d a b stl) (maj := 0x00) (stl := stl) rfl rfl fun hw => by
    obtain ⟨hw, h3⟩ := wf2 hw
    obtain ⟨hw, h2⟩ := wf2 hw
    obtain ⟨h0, h1⟩ := wf2 hw
    have D : ∀ w, F28 w 0x00 stl d a b 11 → decodeWord w = .ok (.seq d a b stl) := fun w f => by
      refine (dec00 f.maj).trans ?_
      simp only [decMaj00, f.fn, f.rd, f.ra, f.rb, f.stl]
    have f : F28 (enRR 0xB0000001 d a b stl) 0x00 stl d a b 11 := f28 (maj := 0x00) (k := 11) rfl (by decide) (by decide) (lt_reg h0) (lt_reg h1) (lt_reg h2) (lt_stl h3)
    exact ⟨f.toWord32, by decide, D _ f⟩

theorem min (d : Nat) (a : Nat) (b : Nat) (stl : Nat) : RoundTrip.Statement (.min d a b stl) :=
  trip32 (w := enRR 0xC0000001 d a b stl) (maj := 0x00) (stl := stl) rfl rfl fun hw => by
    obtain ⟨hw, h3⟩ := wf2 hw
    obtain ⟨hw, h2⟩ := wf2 hw
    obtain ⟨h0, h1⟩ := wf2 hw
    have D : ∀ w, F28 w 0x00 stl d a b 12 → decodeWord w = .ok (.min d a b stl) := fun w f => by
      refine (dec00 f.maj).trans ?_
      simp only [decMaj00, f.fn, f.rd, f.ra, f.rb, f.stl]
    have f : F28 (enRR 0xC0000001 d a b stl) 0x00 stl d a b 12 := f28 (maj := 0x00) (k := 12) rfl (by decide) (by decide) (lt_reg h0) (lt_reg h1) (lt_reg h2) (lt_stl h3)
    exact ⟨f.toWord32, by decide, D _ f⟩

theorem max (d : Nat) (a : Nat) (b : Nat) (stl : Nat) : RoundTrip.Statement (.max d a b stl) :=
  trip32 (w := enRR 0xD0000001 d a b stl) (maj := 0x00) (stl := stl) rfl rfl fun hw => by
    obtain ⟨hw, h3⟩ := wf2 hw
    obtain ⟨hw, h2⟩ := wf2 hw
    obtain ⟨h0, h1⟩ := wf2 hw
    have D : ∀ w, F28 w 0x00 stl d a b 13 → decodeWord w = .ok (.max d a b stl) := fun w f => by
      refine (dec00 f.maj).trans ?_
      simp only [decMaj00, f.fn, f.rd, f.ra, f.rb, f.stl]
    have f : F28 (enRR 0xD0000001 d a b stl) 0x00 stl d a b 13 := f28 (maj := 0x00) (k := 13) rfl (by decide) (by decide) (lt_reg h0) (lt_reg h1) (lt_reg h2) (lt_stl h3)
    exact ⟨f.toWord32, by decide, D _ f⟩

theorem minn (d : Nat) (a : Nat) (b : Nat) (stl : Nat) : RoundTrip.Statement (.minn d a b stl) :=
  trip32 (w := enRR 0xE0000001 d a b stl) (maj := 0x00) (stl := stl) rfl rfl fun hw => by
    obtain ⟨hw, h3⟩ := wf2 hw
    obtain ⟨hw, h2⟩ := wf2 hw
    obtain ⟨h0, h1⟩ := wf2 hw
    have D : ∀ w, F28 w 0x00 stl d a b 14 → decodeWord w = .ok (.minn d a b stl) := fun w f => by
      refine (dec00 f.maj).trans ?_
      simp only [decMaj00, f.fn, f.rd, f.ra, f.rb, f.stl]
    have f : F28 (enRR 0xE0000001 d a b stl) 0x00 stl d a b 14 := f28 (maj := 0x00) (k := 14) rfl (by decide) (by decide) (lt_reg h0) (lt_reg h1) (lt_reg h2) (lt_stl h3)
    exact ⟨f.toWord32, by decide, D _ f⟩

theorem maxn (d : Nat) (a : Nat) (b : Nat) (stl : Nat) : RoundTrip.Statement (.maxn d a b stl) :=
  trip32 (w := enRR 0xF0000001 d a b stl) (maj := 0x00) (stl := stl) rfl rfl fun hw => by
    obtain ⟨hw, h3⟩ := wf2 hw
    obtain ⟨hw, h2⟩ := wf2 hw
    obtain ⟨h0, h1⟩ := wf2 hw
    have D : ∀ w, F28 w 0x00 stl d a b 15 → decodeWord w = .ok (.maxn d a b stl) := fun w f => by
      refine (dec00 f.maj).trans ?_
      simp only [decMaj00, f.fn, f.rd, f.ra, f.rb, f.stl]
    have f : F28 (enRR 0xF0000001 d a b stl) 0x00 stl d a b 15 := f28 (maj := 0x00) (k := 15) rfl (by decide) (by decide) (lt_reg h0) (lt_reg h1) (lt_reg h2) (lt_stl h3)
    exact ⟨f.toWord32, by decide, D _ f⟩

theorem mul (d : Nat) (a : Nat) (b : Nat) (stl : Nat) : RoundTrip.Statement (.mul d a b stl) :=
  trip32 (w := enRR 0x00000003 d a b stl) (maj := 0x01) (stl := stl) rfl rfl fun hw => by
    obtain ⟨hw, h3⟩ := wf2 hw
    obtain ⟨hw, h2⟩ := wf2 hw
    obtain ⟨h0, h1⟩ := wf2 hw
    have D : ∀ w, F28 w 0x01 stl d a b 0 → decodeWord w = .ok (.mul d a b stl) := fun w f => by
      refine (dec01 f.maj).trans ?_
      simp only [decMaj01, f.fn, f.rd, f.ra, f.rb, f.stl]
    have f : F28 (enRR 0x00000003 d a b stl) 0x01 stl d a b 0 := f28 (maj := 0x01) (k := 0) rfl (by decide) (by decide) (lt_reg h0) (lt_reg h1) (lt_reg h2) (lt_stl h3)
    exact ⟨f.toWord32, by decide, D _ f⟩

theorem mulh (d : Nat) (a : Nat) (b : Nat) (stl : Nat) : RoundTrip.Statement (.mulh d a b stl) :=
  trip32 (w := enRR 0x10000003 d a b stl) (maj := 0x01) (stl := stl) rfl rfl fun hw => by
    obtain ⟨hw, h3⟩ := wf2 hw
    obtain ⟨hw, h2⟩ := wf2 hw
    obtain ⟨h0, h1⟩ := wf2 hw
    have D : ∀ w, F28 w 0x01 stl d a b 1 → decodeWord w = .ok (.mulh d a b stl) := fun w f => by
      refine (dec01 f.maj).trans ?_
      simp only [decMaj01, f.fn, f.rd, f.ra, f.rb, f.stl]
    have f : F28 (enRR 0x10000003 d a b stl) 0x01 stl d a b 1 := f28 (maj := 0x01) (k := 1) rfl (by decide) (by decide) (lt_reg h0) (lt_reg h1) (lt_reg h2) (lt_stl h3)
    exact ⟨f.toWord32, by decide, D _ f⟩

theorem mulhn (d : Nat) (a : Nat) (b : Nat) (stl : Nat) : RoundTrip.Statement (.mulhn d a b stl) :=
  trip32 (w := enRR 0x20000003 d a b stl) (maj := 0x01) (stl := stl) rfl rfl fun hw => by
    obtain ⟨hw, h3⟩ := wf2 hw
    obtain ⟨hw, h2⟩ := wf2 hw
    obtain ⟨h0, h1⟩ := wf2 hw
    have D : ∀ w, F28 w 0x01 stl d a b 2 → decodeWord w = .ok (.mulhn d a b stl) := fun w f => by
      refine (dec01 f.maj).trans ?_
      simp only [decMaj01, f.fn, f.rd, f.ra, f.rb, f.stl]
    have f : F28 (enRR 0x20000003 d a b stl) 0x01 stl d a b 2 := f28 (maj := 0x01) (k := 2) rfl (by decide) (by decide) (lt_reg h0) (lt_reg h1) (lt_reg h2) (lt_stl h3)
    exact ⟨f.toWord32, by decide, D _ f⟩

theorem div (d : Nat) (a : Nat) (b : Nat) (stl : Nat) : RoundTrip.Statement (.div d a b stl) :=
  trip32 (w := enRR 0x40000003 d a b stl) (maj := 0x01) (stl := stl) rfl rfl fun hw => by
    obtain ⟨hw, h3⟩ := wf2 hw
    obtain ⟨hw, h2⟩ := wf2 hw
    obtain ⟨h0, h1⟩ := wf2 hw
    have D : ∀ w, F28 w 0x01 stl d a b 4 → decodeWord w = .ok (.div d a b stl) := fun w f => by
      refine (dec01 f.maj).trans ?_
      simp only [decMaj01, f.fn, f.rd, f.ra, f.rb, f.stl]
    have f : F28 (enRR 0x40000003 d a b stl) 0x01 stl d a b 4 := f28 (maj := 0x01) (k := 4) rfl (by decide) (by decide) (lt_reg h0) (lt_reg h1) (lt_reg h2) (lt_stl h3)
    exact ⟨f.toWord32, by decide, D _ f⟩

theorem divn (d : Nat) (a : Nat) (b : Nat) (stl : Nat) : RoundTrip.Statement (.divn d a b stl) :=
  trip32 (w := enRR 0x50000003 d a b stl) (maj := 0x01) (stl := stl) rfl rfl fun hw => by
    obtain ⟨hw, h3⟩ := wf2 hw
    obtain ⟨hw, h2⟩ := wf2 hw
    obtain ⟨h0, h1⟩ := wf2 hw
    have D : ∀ w, F28 w 0x01 stl d a b 5 → decodeWord w = .ok (.divn d a b stl) := fun w f => by
      refine (dec01 f.maj).trans ?_
      simp only [decMaj01, f.fn, f.rd, f.ra, f.rb, f.stl]
    have f : F28 (enRR 0x50000003 d a b stl) 0x01 stl d a b 5 := f28 (maj := 0x01) (k := 5) rfl (by decide) (by decide) (lt_reg h0) (lt_reg h1) (lt_reg h2) (lt_stl h3)
    exact ⟨f.toWord32, by decide, D _ f⟩

theorem rem (d : Nat) (a : Nat) (b : Nat) (stl : Nat) : RoundTrip.Statement (.rem d a b stl) :=
  trip32 (w := enRR 0x60000003 d a b stl) (maj := 0x01) (stl := stl) rfl rfl fun hw => by
    obtain ⟨hw, h3⟩ := wf2 hw
    obtain ⟨hw, h2⟩ := wf2 hw
    obtain ⟨h0, h1⟩ := wf2 hw
    have D : ∀ w, F28 w 0x01 stl d a b 6 → decodeWord w = .ok (.rem d a b stl) := fun w f => by
      refine (dec01 f.maj).trans ?_
      simp only [decMaj01, f.fn, f.rd, f.ra, f.rb, f.stl]
    have f : F28 (enRR 0x60000003 d a b stl) 0x01 stl d a b 6 := f28 (maj := 0x01) (k := 6) rfl (by decide) (by decide) (lt_reg h0) (lt_reg h1) (lt_reg h2) (lt_stl h3)
    exact ⟨f.toWord32, by decide, D _ f⟩

theorem remn (d : Nat) (a : Nat) (b : Nat) (stl : Nat) : RoundTrip.Statement (.remn d a b stl) :=
  trip32 (w := enRR 0x70000003 d a b stl) (maj := 0x01) (stl := stl) rfl rfl fun hw => by
    obtain ⟨hw, h3⟩ := wf2 hw
    obtain ⟨hw, h2⟩ := wf2 hw
    obtain ⟨h0, h1⟩ := wf2 hw
    have D : ∀ w, F28 w 0x01 stl d a b 7 → decodeWord w = .ok (.remn d a b stl) := fun w f => by
      refine (dec01 f.maj).trans ?_
      simp only [decMaj01, f.fn, f.rd, f.ra, f.rb, f.stl]
    have f : F28 (enRR 0x70000003 d a b stl) 0x01 stl d a b 7 := f28 (maj := 0x01) (k := 7) rfl (by decide) (by decide) (lt_reg h0) (lt_reg h1) (lt_reg h2) (lt_stl h3)
    exact ⟨f.toWord32, by decide, D _ f⟩

theorem clz (d : Nat) (a : Nat) (stl : Nat) : RoundTrip.Statement (.clz d a stl) :=
  trip32 (w := enRR 0x80000003 d a 0 stl) (maj := 0x01) (stl := stl) rfl rfl fun hw => by
    obtain ⟨hw, h2⟩ := wf2 hw
    obtain ⟨h0, h1⟩ := wf2 hw
    have D : ∀ w, F28 w 0x01 stl d a 0 8 → decodeWord w = .ok (.clz d a stl) := fun w f => by
      refine (dec01 f.maj).trans ?_
      simp only [needZero, if_true, decMaj01, f.fn, f.rd, f.ra, f.rb, f.stl]
    have f : F28 (enRR 0x80000003 d a 0 stl) 0x01 stl d a 0 8 := f28 (maj := 0x01) (k := 8) rfl (by decide) (by decide) (lt_reg h0) (lt_reg h1) (by decide) (lt_stl h2)
    exact ⟨f.toWord32, by decide, D _ f⟩

theorem ctz (d : Nat) (a : Nat) (stl : Nat) : RoundTrip.Statement (.ctz d a stl) :=
  trip32 (w := enRR 0x90000003 d a 0 stl) (maj := 0x01) (stl := stl) rfl rfl fun hw => by
    obtain ⟨hw, h2⟩ := wf2 hw
    obtain ⟨h0, h1⟩ := wf2 hw
    have D : ∀ w, F28 w 0x01 stl d a 0 9 → decodeWord w = .ok (.ctz d a stl) := fun w f => by
      refine (dec01 f.maj).trans ?_
      simp only [needZero, if_true, decMaj01, f.fn, f.rd, f.ra, f.rb, f.stl]
    have f : F28 (enRR 0x90000003 d a 0 stl) 0x01 stl d a 0 9 := f28 (maj := 0x01) (k := 9) rfl (by decide) (by decide) (lt_reg h0) (lt_reg h1) (by decide) (lt_stl h2)
    exact ⟨f.toWord32, by decide, D _ f⟩

theorem popc (d : Nat) (a : Nat) (stl : Nat) : RoundTrip.Statement (.popc d a stl) :=
  trip32 (w := enRR 0xA0000003 d a 0 stl) (maj := 0x01) (stl := stl) rfl rfl fun hw => by
    obtain ⟨hw, h2⟩ := wf2 hw
    obtain ⟨h0, h1⟩ := wf2 hw
    have D : ∀ w, F28 w 0x01 stl d a 0 10 → decodeWord w = .ok (.popc d a stl) := fun w f => by
      refine (dec01 f.maj).trans ?_
      simp only [needZero, if_true, decMaj01, f.fn, f.rd, f.ra, f.rb, f.stl]
    have f : F28 (enRR 0xA0000003 d a 0 stl) 0x01 stl d a 0 10 := f28 (maj := 0x01) (k := 10) rfl (by decide) (by decide) (lt_reg h0) (lt_reg h1) (by decide) (lt_stl h2)
    exact ⟨f.toWord32, by decide, D _ f⟩

theorem bswap (d : Nat) (a : Nat) (stl : Nat) : RoundTrip.Statement (.bswap d a stl) :=
  trip32 (w := enRR 0xB0000003 d a 0 stl) (maj := 0x01) (stl := stl) rfl rfl fun hw => by
    obtain ⟨hw, h2⟩ := wf2 hw
    obtain ⟨h0, h1⟩ := wf2 hw
    have D : ∀ w, F28 w 0x01 stl d a 0 11 → decodeWord w = .ok (.bswap d a stl) := fun w f => by
      refine (dec01 f.maj).trans ?_
      simp only [needZero, if_true, decMaj01, f.fn, f.rd, f.ra, f.rb, f.stl]
    have f : F28 (enRR 0xB0000003 d a 0 stl) 0x01 stl d a 0 11 := f28 (maj := 0x01) (k := 11) rfl (by decide) (by decide) (lt_reg h0) (lt_reg h1) (by decide) (lt_stl h2)
    exact ⟨f.toWord32, by decide, D _ f⟩

theorem rotl (d : Nat) (a : Nat) (b : Nat) (stl : Nat) : RoundTrip.Statement (.rotl d a b stl) :=
  trip32 (w := enRR 0xC0000003 d a b stl) (maj := 0x01) (stl := stl) rfl rfl fun hw => by
    obtain ⟨hw, h3⟩ := wf2 hw
    obtain ⟨hw, h2⟩ := wf2 hw
    obtain ⟨h0, h1⟩ := wf2 hw
    have D : ∀ w, F28 w 0x01 stl d a b 12 → decodeWord w = .ok (.rotl d a b stl) := fun w f => by
      refine (dec01 f.maj).trans ?_
      simp only [decMaj01, f.fn, f.rd, f.ra, f.rb, f.stl]
    have f : F28 (enRR 0xC0000003 d a b stl) 0x01 stl d a b 12 := f28 (maj := 0x01) (k := 12) rfl (by decide) (by decide) (lt_reg h0) (lt_reg h1) (lt_reg h2) (lt_stl h3)
    exact ⟨f.toWord32, by decide, D _ f⟩

theorem rotr (d : Nat) (a : Nat) (b : Nat) (stl : Nat) : RoundTrip.Statement (.rotr d a b stl) :=
  trip32 (w := enRR 0xD0000003 d a b stl) (maj := 0x01) (stl := stl) rfl rfl fun hw => by
    obtain ⟨hw, h3⟩ := wf2 hw
    obtain ⟨hw, h2⟩ := wf2 hw
    obtain ⟨h0, h1⟩ := wf2 hw
    have D : ∀ w, F28 w 0x01 stl d a b 13 → decodeWord w = .ok (.rotr d a b stl) := fun w f => by
      refine (dec01 f.maj).trans ?_
      simp only [decMaj01, f.fn, f.rd, f.ra, f.rb, f.stl]
    have f : F28 (enRR 0xD0000003 d a b stl) 0x01 stl d a b 13 := f28 (maj := 0x01) (k := 13) rfl (by decide) (by decide) (lt_reg h0) (lt_reg h1) (lt_reg h2) (lt_stl h3)
    exact ⟨f.toWord32, by decide, D _ f⟩

theorem sextw (d : Nat) (a : Nat) (stl : Nat) : RoundTrip.Statement (.sextw d a stl) :=
  trip32 (w := enRR 0xE0000003 d a 0 stl) (maj := 0x01) (stl := stl) rfl rfl fun hw => by
    obtain ⟨hw, h2⟩ := wf2 hw
    obtain ⟨h0, h1⟩ := wf2 hw
    have D : ∀ w, F28 w 0x01 stl d a 0 14 → decodeWord w = .ok (.sextw d a stl) := fun w f => by
      refine (dec01 f.maj).trans ?_
      simp only [needZero, if_true, decMaj01, f.fn, f.rd, f.ra, f.rb, f.stl]
    have f : F28 (enRR 0xE0000003 d a 0 stl) 0x01 stl d a 0 14 := f28 (maj := 0x01) (k := 14) rfl (by decide) (by decide) (lt_reg h0) (lt_reg h1) (by decide) (lt_stl h2)
    exact ⟨f.toWord32, by decide, D _ f⟩

theorem zextw (d : Nat) (a : Nat) (stl : Nat) : RoundTrip.Statement (.zextw d a stl) :=
  trip32 (w := enRR 0xF0000003 d a 0 stl) (maj := 0x01) (stl := stl) rfl rfl fun hw => by
    obtain ⟨hw, h2⟩ := wf2 hw
    obtain ⟨h0, h1⟩ := wf2 hw
    have D : ∀ w, F28 w 0x01 stl d a 0 15 → decodeWord w = .ok (.zextw d a stl) := fun w f => by
      refine (dec01 f.maj).trans ?_
      simp only [needZero, if_true, decMaj01, f.fn, f.rd, f.ra, f.rb, f.stl]
    have f : F28 (enRR 0xF0000003 d a 0 stl) 0x01 stl d a 0 15 := f28 (maj := 0x01) (k := 15) rfl (by decide) (by decide) (lt_reg h0) (lt_reg h1) (by decide) (lt_stl h2)
    exact ⟨f.toWord32, by decide, D _ f⟩

theorem addi (d : Nat) (a : Nat) (imm : BitVec 10) (stl : Nat) : RoundTrip.Statement (.addi d a imm stl) :=
  trip32 (w := enI 0x00000005 d a imm stl) (maj := 0x02) (stl := stl) rfl rfl fun hw => by
    obtain ⟨hw, h2⟩ := wf2 hw
    obtain ⟨h0, h1⟩ := wf2 hw
    have D : ∀ w, FI w 0x02 stl d a imm.toNat → decodeWord w = .ok (.addi d a imm stl) := fun w f => by
      refine (dec02 f.maj).trans ?_
      simp only [decMaj02, f.rd, f.ra, f.imm, f.stl, BitVec.ofNat_toNat, BitVec.setWidth_eq]
    have f : FI (enI 0x00000005 d a imm stl) 0x02 stl d a imm.toNat := fI (maj := 0x02) imm rfl (by decide) (lt_reg h0) (lt_reg h1) (lt_stl h2)
    exact ⟨f.toWord32, by decide, D _ f⟩

theorem andi (d : Nat) (a : Nat) (imm : BitVec 10) (stl : Nat) : RoundTrip.Statement (.andi d a imm stl) :=
  trip32 (w := enI 0x00000007 d a imm stl) (maj := 0x03) (stl := stl) rfl rfl fun hw => by
    obtain ⟨hw, h2⟩ := wf2 hw
    obtain ⟨h0, h1⟩ := wf2 hw
    have D : ∀ w, FI w 0x03 stl d a imm.toNat → decodeWord w = .ok (.andi d a imm stl) := fun w f => by
      refine (dec03 f.maj).trans ?_
      simp only [decMaj03, f.rd, f.ra, f.imm, f.stl, BitVec.ofNat_toNat, BitVec.setWidth_eq]
    have f : FI (enI 0x00000007 d a imm stl) 0x03 stl d a imm.toNat := fI (maj := 0x03) imm rfl (by decide) (lt_reg h0) (lt_reg h1) (lt_stl h2)
    exact ⟨f.toWord32, by decide, D _ f⟩

theorem ori (d : Nat) (a : Nat) (imm : BitVec 10) (stl : Nat) : RoundTrip.Statement (.ori d a imm stl) :=
  trip32 (w := enI 0x00000009 d a imm stl) (maj := 0x04) (stl := stl) rfl rfl fun hw => by
    obtain ⟨hw, h2⟩ := wf2 hw
    obtain ⟨h0, h1⟩ := wf2 hw
    have D : ∀ w, FI w 0x04 stl d a imm.toNat → decodeWord w = .ok (.ori d a imm stl) := fun w f => by
      refine (dec04 f.maj).trans ?_
      simp only [decMaj04, f.rd, f.ra, f.imm, f.stl, BitVec.ofNat_toNat, BitVec.setWidth_eq]
    have f : FI (enI 0x00000009 d a imm stl) 0x04 stl d a imm.toNat := fI (maj := 0x04) imm rfl (by decide) (lt_reg h0) (lt_reg h1) (lt_stl h2)
    exact ⟨f.toWord32, by decide, D _ f⟩

theorem xori (d : Nat) (a : Nat) (imm : BitVec 10) (stl : Nat) : RoundTrip.Statement (.xori d a imm stl) :=
  trip32 (w := enI 0x0000000B d a imm stl) (maj := 0x05) (stl := stl) rfl rfl fun hw => by
    obtain ⟨hw, h2⟩ := wf2 hw
    obtain ⟨h0, h1⟩ := wf2 hw
    have D : ∀ w, FI w 0x05 stl d a imm.toNat → decodeWord w = .ok (.xori d a imm stl) := fun w f => by
      refine (dec05 f.maj).trans ?_
      simp only [decMaj05, f.rd, f.ra, f.imm, f.stl, BitVec.ofNat_toNat, BitVec.setWidth_eq]
    have f : FI (enI 0x0000000B d a imm stl) 0x05 stl d a imm.toNat := fI (maj := 0x05) imm rfl (by decide) (lt_reg h0) (lt_reg h1) (lt_stl h2)
    exact ⟨f.toWord32, by decide, D _ f⟩

theorem slti (d : Nat) (a : Nat) (imm : BitVec 10) (stl : Nat) : RoundTrip.Statement (.slti d a imm stl) :=
  trip32 (w := enI 0x0000000D d a imm stl) (maj := 0x06) (stl := stl) rfl rfl fun hw => by
    obtain ⟨hw, h2⟩ := wf2 hw
    obtain ⟨h0, h1⟩ := wf2 hw
    have D : ∀ w, FI w 0x06 stl d a imm.toNat → decodeWord w = .ok (.slti d a imm stl) := fun w f => by
      refine (dec06 f.maj).trans ?_
      simp only [decMaj06, f.rd, f.ra, f.imm, f.stl, BitVec.ofNat_toNat, BitVec.setWidth_eq]
    have f : FI (enI 0x0000000D d a imm stl) 0x06 stl d a imm.toNat := fI (maj := 0x06) imm rfl (by decide) (lt_reg h0) (lt_reg h1) (lt_stl h2)
    exact ⟨f.toWord32, by decide, D _ f⟩

theorem sltni (d : Nat) (a : Nat) (imm : BitVec 10) (stl : Nat) : RoundTrip.Statement (.sltni d a imm stl) :=
  trip32 (w := enI 0x0000000F d a imm stl) (maj := 0x07) (stl := stl) rfl rfl fun hw => by
    obtain ⟨hw, h2⟩ := wf2 hw
    obtain ⟨h0, h1⟩ := wf2 hw
    have D : ∀ w, FI w 0x07 stl d a imm.toNat → decodeWord w = .ok (.sltni d a imm stl) := fun w f => by
      refine (dec07 f.maj).trans ?_
      simp only [decMaj07, f.rd, f.ra, f.imm, f.stl, BitVec.ofNat_toNat, BitVec.setWidth_eq]
    have f : FI (enI 0x0000000F d a imm stl) 0x07 stl d a imm.toNat := fI (maj := 0x07) imm rfl (by decide) (lt_reg h0) (lt_reg h1) (lt_stl h2)
    exact ⟨f.toWord32, by decide, D _ f⟩

theorem slli (d : Nat) (a : Nat) (amt : BitVec 6) (stl : Nat) : RoundTrip.Statement (.slli d a amt stl) :=
  trip32 (w := enRR 0x00000011 d a amt.toNat stl) (maj := 0x08) (stl := stl) (congrArg some (congrArg (fun w => [fld w 0 16, fld w 16 16]) (by unfold enRR; omega))) rfl fun hw => by
    obtain ⟨hw, h2⟩ := wf2 hw
    obtain ⟨h0, h1⟩ := wf2 hw
    have D : ∀ w, F28 w 0x08 stl d a amt.toNat 0 → decodeWord w = .ok (.slli d a amt stl) := fun w f => by
      refine (dec08 f.maj).trans ?_
      simp only [decMaj08, f.fn, f.rd, f.ra, f.rb, f.stl, BitVec.ofNat_toNat, BitVec.setWidth_eq]
    have f : F28 (enRR 0x00000011 d a amt.toNat stl) 0x08 stl d a amt.toNat 0 := f28 (maj := 0x08) (k := 0) rfl (by decide) (by decide) (lt_reg h0) (lt_reg h1) amt.isLt (lt_stl h2)
    exact ⟨f.toWord32, by decide, D _ f⟩

theorem srli (d : Nat) (a : Nat) (amt : BitVec 6) (stl : Nat) : RoundTrip.Statement (.srli d a amt stl) :=
  trip32 (w := enRR 0x10000011 d a amt.toNat stl) (maj := 0x08) (stl := stl) (congrArg some (congrArg (fun w => [fld w 0 16, fld w 16 16]) (by unfold enRR; omega))) rfl fun hw => by
    obtain ⟨hw, h2⟩ := wf2 hw
    obtain ⟨h0, h1⟩ := wf2 hw
    have D : ∀ w, F28 w 0x08 stl d a amt.toNat 1 → decodeWord w = .ok (.srli d a amt stl) := fun w f => by
      refine (dec08 f.maj).trans ?_
      simp only [decMaj08, f.fn, f.rd, f.ra, f.rb, f.stl, BitVec.ofNat_toNat, BitVec.setWidth_eq]
    have f : F28 (enRR 0x10000011 d a amt.toNat stl) 0x08 stl d a amt.toNat 1 := f28 (maj := 0x08) (k := 1) rfl (by decide) (by decide) (lt_reg h0) (lt_reg h1) amt.isLt (lt_stl h2)
    exact ⟨f.toWord32, by decide, D _ f⟩

theorem srai (d : Nat) (a : Nat) (amt : BitVec 6) (stl : Nat) : RoundTrip.Statement (.srai d a amt stl) :=
  trip32 (w := enRR 0x20000011 d a amt.toNat stl) (maj := 0x08) (stl := stl) (congrArg some (congrArg (fun w => [fld w 0 16, fld w 16 16]) (by unfold enRR; omega))) rfl fun hw => by
    obtain ⟨hw, h2⟩ := wf2 hw
    obtain ⟨h0, h1⟩ := wf2 hw
    have D : ∀ w, F28 w 0x08 stl d a amt.toNat 2 → decodeWord w = .ok (.srai d a amt stl) := fun w f => by
      refine (dec08 f.maj).trans ?_
      simp only [decMaj08, f.fn, f.rd, f.ra, f.rb, f.stl, BitVec.ofNat_toNat, BitVec.setWidth_eq]
    have f : F28 (enRR 0x20000011 d a amt.toNat stl) 0x08 stl d a amt.toNat 2 := f28 (maj := 0x08) (k := 2) rfl (by decide) (by decide) (lt_reg h0) (lt_reg h1) amt.isLt (lt_stl h2)
    exact ⟨f.toWord32, by decide, D _ f⟩

theorem rotli (d : Nat) (a : Nat) (amt : BitVec 6) (stl : Nat) : RoundTrip.Statement (.rotli d a amt stl) :=
  trip32 (w := enRR 0x30000011 d a amt.toNat stl) (maj := 0x08) (stl := stl) (congrArg some (congrArg (fun w => [fld w 0 16, fld w 16 16]) (by unfold enRR; omega))) rfl fun hw => by
    obtain ⟨hw, h2⟩ := wf2 hw
    obtain ⟨h0, h1⟩ := wf2 hw
    have D : ∀ w, F28 w 0x08 stl d a amt.toNat 3 → decodeWord w = .ok (.rotli d a amt stl) := fun w f => by
      refine (dec08 f.maj).trans ?_
      simp only [decMaj08, f.fn, f.rd, f.ra, f.rb, f.stl, BitVec.ofNat_toNat, BitVec.setWidth_eq]
    have f : F28 (enRR 0x30000011 d a amt.toNat stl) 0x08 stl d a amt.toNat 3 := f28 (maj := 0x08) (k := 3) rfl (by decide) (by decide) (lt_reg h0) (lt_reg h1) amt.isLt (lt_stl h2)
    exact ⟨f.toWord32, by decide, D _ f⟩

theorem lui (d : Nat) (imm : BitVec 16) (stl : Nat) : RoundTrip.Statement (.lui d imm stl) :=
  trip32 (w := enRR 0x00000013 d 0 0 stl + imm.toNat * 2 ^ 16) (maj := 0x09) (stl := stl) rfl rfl fun hw => by
    obtain ⟨h0, h1⟩ := wf2 hw
    have D : ∀ w, Word32 w 0x09 stl ∧ fld w 10 6 = d ∧ fld w 16 16 = imm.toNat → decodeWord w = .ok (.lui d imm stl) := fun w f => by
      obtain ⟨f, g1, g2⟩ := f
      refine (dec09 f.maj).trans ?_
      simp only [decMaj09, f.stl, g1, g2, BitVec.ofNat_toNat, BitVec.setWidth_eq]
    have f : Word32 (enRR 0x00000013 d 0 0 stl + imm.toNat * 2 ^ 16) 0x09 stl ∧ fld (enRR 0x00000013 d 0 0 stl + imm.toNat * 2 ^ 16) 10 6 = d ∧ fld (enRR 0x00000013 d 0 0 stl + imm.toNat * 2 ^ 16) 16 16 = imm.toNat := f16 (maj := 0x09) imm rfl (by decide) (lt_reg h0) (lt_stl h1)
    exact ⟨f.1, by decide, D _ f⟩

theorem lmid (d : Nat) (imm : BitVec 16) (stl : Nat) : RoundTrip.Statement (.lmid d imm stl) :=
  trip32 (w := enRR 0x00000015 d 0 0 stl + imm.toNat * 2 ^ 16) (maj := 0x0A) (stl := stl) rfl rfl fun hw => by
    obtain ⟨h0, h1⟩ := wf2 hw
    have D : ∀ w, Word32 w 0x0A stl ∧ fld w 10 6 = d ∧ fld w 16 16 = imm.toNat → decodeWord w = .ok (.lmid d imm stl) := fun w f => by
      obtain ⟨f, g1, g2⟩ := f
      refine (dec0A f.maj).trans ?_
      simp only [decMaj0A, f.stl, g1, g2, BitVec.ofNat_toNat, BitVec.setWidth_eq]
    have f : Word32 (enRR 0x00000015 d 0 0 stl + imm.toNat * 2 ^ 16) 0x0A stl ∧ fld (enRR 0x00000015 d 0 0 stl + imm.toNat * 2 ^ 16) 10 6 = d ∧ fld (enRR 0x00000015 d 0 0 stl + imm.toNat * 2 ^ 16) 16 16 = imm.toNat := f16 (maj := 0x0A) imm rfl (by decide) (lt_reg h0) (lt_stl h1)
    exact ⟨f.1, by decide, D _ f⟩

theorem ltop (d : Nat) (imm : BitVec 16) (stl : Nat) : RoundTrip.Statement (.ltop d imm stl) :=
  trip32 (w := enRR 0x00000017 d 0 0 stl + imm.toNat * 2 ^ 16) (maj := 0x0B) (stl := stl) rfl rfl fun hw => by
    obtain ⟨h0, h1⟩ := wf2 hw
    have D : ∀ w, Word32 w 0x0B stl ∧ fld w 10 6 = d ∧ fld w 16 16 = imm.toNat → decodeWord w = .ok (.ltop d imm stl) := fun w f => by
      obtain ⟨f, g1, g2⟩ := f
      refine (dec0B f.maj).trans ?_
      simp only [decMaj0B, f.stl, g1, g2, BitVec.ofNat_toNat, BitVec.setWidth_eq]
    have f : Word32 (enRR 0x00000017 d 0 0 stl + imm.toNat * 2 ^ 16) 0x0B stl ∧ fld (enRR 0x00000017 d 0 0 stl + imm.toNat * 2 ^ 16) 10 6 = d ∧ fld (enRR 0x00000017 d 0 0 stl + imm.toNat * 2 ^ 16) 16 16 = imm.toNat := f16 (maj := 0x0B) imm rfl (by decide) (lt_reg h0) (lt_stl h1)
    exact ⟨f.1, by decide, D _ f⟩

theorem faddF64 (d : Nat) (a : Nat) (b : Nat) (stl : Nat) : RoundTrip.Statement (.faddF64 d a b stl) :=
  trip32 (w := enRR 0x00000019 d a b stl) (maj := 0x0C) (stl := stl) rfl rfl fun hw => by
    obtain ⟨hw, h3⟩ := wf2 hw
    obtain ⟨hw, h2⟩ := wf2 hw
    obtain ⟨h0, h1⟩ := wf2 hw
    have D : ∀ w, F28 w 0x0C stl d a b 0 → decodeWord w = .ok (.faddF64 d a b stl) := fun w f => by
      refine (dec0C f.maj).trans ?_
      simp only [decMaj0C, f.fn, f.rd, f.ra, f.rb, f.stl]
    have f : F28 (enRR 0x00000019 d a b stl) 0x0C stl d a b 0 := f28 (maj := 0x0C) (k := 0) rfl (by decide) (by decide) (lt_reg h0) (lt_reg h1) (lt_reg h2) (lt_stl h3)
    exact ⟨f.toWord32, by decide, D _ f⟩

theorem fsubF64 (d : Nat) (a : Nat) (b : Nat) (stl : Nat) : RoundTrip.Statement (.fsubF64 d a b stl) :=
  trip32 (w := enRR 0x10000019 d a b stl) (maj := 0x0C) (stl := stl) rfl rfl fun hw => by
    obtain ⟨hw, h3⟩ := wf2 hw
    obtain ⟨hw, h2⟩ := wf2 hw
    obtain ⟨h0, h1⟩ := wf2 hw
    have D : ∀ w, F28 w 0x0C stl d a b 1 → decodeWord w = .ok (.fsubF64 d a b stl) := fun w f => by
      refine (dec0C f.maj).trans ?_
      simp only [decMaj0C, f.fn, f.rd, f.ra, f.rb, f.stl]
    have f : F28 (enRR 0x10000019 d a b stl) 0x0C stl d a b 1 := f28 (maj := 0x0C) (k := 1) rfl (by decide) (by decide) (lt_reg h0) (lt_reg h1) (lt_reg h2) (lt_stl h3)
    exact ⟨f.toWord32, by decide, D _ f⟩

theorem fmulF64 (d : Nat) (a : Nat) (b : Nat) (stl : Nat) : RoundTrip.Statement (.fmulF64 d a b stl) :=
  trip32 (w := enRR 0x20000019 d a b stl) (maj := 0x0C) (stl := stl) rfl rfl fun hw => by
    obtain ⟨hw, h3⟩ := wf2 hw
    obtain ⟨hw, h2⟩ := wf2 hw
    obtain ⟨h0, h1⟩ := wf2 hw
    have D : ∀ w, F28 w 0x0C stl d a b 2 → decodeWord w = .ok (.fmulF64 d a b stl) := fun w f => by
      refine (dec0C f.maj).trans ?_
      simp only [decMaj0C, f.fn, f.rd, f.ra, f.rb, f.stl]
    have f : F28 (enRR 0x20000019 d a b stl) 0x0C stl d a b 2 := f28 (maj := 0x0C) (k := 2) rfl (by decide) (by decide) (lt_reg h0) (lt_reg h1) (lt_reg h2) (lt_stl h3)
    exact ⟨f.toWord32, by decide, D _ f⟩

theorem fdivF64 (d : Nat) (a : Nat) (b : Nat) (stl : Nat) : RoundTrip.Statement (.fdivF64 d a b stl) :=
  trip32 (w := enRR 0x30000019 d a b stl) (maj := 0x0C) (stl := stl) rfl rfl fun hw => by
    obtain ⟨hw, h3⟩ := wf2 hw
    obtain ⟨hw, h2⟩ := wf2 hw
    obtain ⟨h0, h1⟩ := wf2 hw
    have D : ∀ w, F28 w 0x0C stl d a b 3 → decodeWord w = .ok (.fdivF64 d a b stl) := fun w f => by
      refine (dec0C f.maj).trans ?_
      simp only [decMaj0C, f.fn, f.rd, f.ra, f.rb, f.stl]
    have f : F28 (enRR 0x30000019 d a b stl) 0x0C stl d a b 3 := f28 (maj := 0x0C) (k := 3) rfl (by decide) (by decide) (lt_reg h0) (lt_reg h1) (lt_reg h2) (lt_stl h3)
    exact ⟨f.toWord32, by decide, D _ f⟩

theorem fsqrtF64 (d : Nat) (a : Nat) (stl : Nat) : RoundTrip.Statement (.fsqrtF64 d a stl) :=
  trip32 (w := enRR 0x40000019 d a 0 stl) (maj := 0x0C) (stl := stl) rfl rfl fun hw => by
    obtain ⟨hw, h2⟩ := wf2 hw
    obtain ⟨h0, h1⟩ := wf2 hw
    have D : ∀ w, F28 w 0x0C stl d a 0 4 → decodeWord w = .ok (.fsqrtF64 d a stl) := fun w f => by
      refine (dec0C f.maj).trans ?_
      simp only [needZero, if_true, decMaj0C, f.fn, f.rd, f.ra, f.rb, f.stl]
    have f : F28 (enRR 0x40000019 d a 0 stl) 0x0C stl d a 0 4 := f28 (maj := 0x0C) (k := 4) rfl (by decide) (by decide) (lt_reg h0) (lt_reg h1) (by decide) (lt_stl h2)
    exact ⟨f.toWord32, by decide, D _ f⟩

theorem fminF64 (d : Nat) (a : Nat) (b : Nat) (stl : Nat) : RoundTrip.Statement (.fminF64 d a b stl) :=
  trip32 (w := enRR 0x50000019 d a b stl) (maj := 0x0C) (stl := stl) rfl rfl fun hw => by
    obtain ⟨hw, h3⟩ := wf2 hw
    obtain ⟨hw, h2⟩ := wf2 hw
    obtain ⟨h0, h1⟩ := wf2 hw
    have D : ∀ w, F28 w 0x0C stl d a b 5 → decodeWord w = .ok (.fminF64 d a b stl) := fun w f => by
      refine (dec0C f.maj).trans ?_
      simp only [decMaj0C, f.fn, f.rd, f.ra, f.rb, f.stl]
    have f : F28 (enRR 0x50000019 d a b stl) 0x0C stl d a b 5 := f28 (maj := 0x0C) (k := 5) rfl (by decide) (by decide) (lt_reg h0) (lt_reg h1) (lt_reg h2) (lt_stl h3)
    exact ⟨f.toWord32, by decide, D _ f⟩

theorem fmaxF64 (d : Nat) (a : Nat) (b : Nat) (stl : Nat) : RoundTrip.Statement (.fmaxF64 d a b stl) :=
  trip32 (w := enRR 0x60000019 d a b stl) (maj := 0x0C) (stl := stl) rfl rfl fun hw => by
    obtain ⟨hw, h3⟩ := wf2 hw
    obtain ⟨hw, h2⟩ := wf2 hw
    obtain ⟨h0, h1⟩ := wf2 hw
    have D : ∀ w, F28 w 0x0C stl d a b 6 → decodeWord w = .ok (.fmaxF64 d a b stl) := fun w f => by
      refine (dec0C f.maj).trans ?_
      simp only [decMaj0C, f.fn, f.rd, f.ra, f.rb, f.stl]
    have f : F28 (enRR 0x60000019 d a b stl) 0x0C stl d a b 6 := f28 (maj := 0x0C) (k := 6) rfl (by decide) (by decide) (lt_reg h0) (lt_reg h1) (lt_reg h2) (lt_stl h3)
    exact ⟨f.toWord32, by decide, D _ f⟩

theorem fmacF64 (d : Nat) (a : Nat) (b : Nat) (stl : Nat) : RoundTrip.Statement (.fmacF64 d a b stl) :=
  trip32 (w := enRR 0x70000019 d a b stl) (maj := 0x0C) (stl := stl) rfl rfl fun hw => by
    obtain ⟨hw, h3⟩ := wf2 hw
    obtain ⟨hw, h2⟩ := wf2 hw
    obtain ⟨h0, h1⟩ := wf2 hw
    have D : ∀ w, F28 w 0x0C stl d a b 7 → decodeWord w = .ok (.fmacF64 d a b stl) := fun w f => by
      refine (dec0C f.maj).trans ?_
      simp only [decMaj0C, f.fn, f.rd, f.ra, f.rb, f.stl]
    have f : F28 (enRR 0x70000019 d a b stl) 0x0C stl d a b 7 := f28 (maj := 0x0C) (k := 7) rfl (by decide) (by decide) (lt_reg h0) (lt_reg h1) (lt_reg h2) (lt_stl h3)
    exact ⟨f.toWord32, by decide, D _ f⟩

theorem fltF64 (d : Nat) (a : Nat) (b : Nat) (stl : Nat) : RoundTrip.Statement (.fltF64 d a b stl) :=
  trip32 (w := enRR 0x80000019 d a b stl) (maj := 0x0C) (stl := stl) rfl rfl fun hw => by
    obtain ⟨hw, h3⟩ := wf2 hw
    obtain ⟨hw, h2⟩ := wf2 hw
    obtain ⟨h0, h1⟩ := wf2 hw
    have D : ∀ w, F28 w 0x0C stl d a b 8 → decodeWord w = .ok (.fltF64 d a b stl) := fun w f => by
      refine (dec0C f.maj).trans ?_
      simp only [decMaj0C, f.fn, f.rd, f.ra, f.rb, f.stl]
    have f : F28 (enRR 0x80000019 d a b stl) 0x0C stl d a b 8 := f28 (maj := 0x0C) (k := 8) rfl (by decide) (by decide) (lt_reg h0) (lt_reg h1) (lt_reg h2) (lt_stl h3)
    exact ⟨f.toWord32, by decide, D _ f⟩

theorem fleF64 (d : Nat) (a : Nat) (b : Nat) (stl : Nat) : RoundTrip.Statement (.fleF64 d a b stl) :=
  trip32 (w := enRR 0x90000019 d a b stl) (maj := 0x0C) (stl := stl) rfl rfl fun hw => by
    obtain ⟨hw, h3⟩ := wf2 hw
    obtain ⟨hw, h2⟩ := wf2 hw
    obtain ⟨h0, h1⟩ := wf2 hw
    have D : ∀ w, F28 w 0x0C stl d a b 9 → decodeWord w = .ok (.fleF64 d a b stl) := fun w f => by
      refine (dec0C f.maj).trans ?_
      simp only [decMaj0C, f.fn, f.rd, f.ra, f.rb, f.stl]
    have f : F28 (enRR 0x90000019 d a b stl) 0x0C stl d a b 9 := f28 (maj := 0x0C) (k := 9) rfl (by decide) (by decide) (lt_reg h0) (lt_reg h1) (lt_reg h2) (lt_stl h3)
    exact ⟨f.toWord32, by decide, D _ f⟩

theorem feqF64 (d : Nat) (a : Nat) (b : Nat) (stl : Nat) : RoundTrip.Statement (.feqF64 d a b stl) :=
  trip32 (w := enRR 0xA0000019 d a b stl) (maj := 0x0C) (stl := stl) rfl rfl fun hw => by
    obtain ⟨hw, h3⟩ := wf2 hw
    obtain ⟨hw, h2⟩ := wf2 hw
    obtain ⟨h0, h1⟩ := wf2 hw
    have D : ∀ w, F28 w 0x0C stl d a b 10 → decodeWord w = .ok (.feqF64 d a b stl) := fun w f => by
      refine (dec0C f.maj).trans ?_
      simp only [decMaj0C, f.fn, f.rd, f.ra, f.rb, f.stl]
    have f : F28 (enRR 0xA0000019 d a b stl) 0x0C stl d a b 10 := f28 (maj := 0x0C) (k := 10) rfl (by decide) (by decide) (lt_reg h0) (lt_reg h1) (lt_reg h2) (lt_stl h3)
    exact ⟨f.toWord32, by decide, D _ f⟩

theorem fclassF64 (d : Nat) (a : Nat) (stl : Nat) : RoundTrip.Statement (.fclassF64 d a stl) :=
  trip32 (w := enRR 0xB0000019 d a 0 stl) (maj := 0x0C) (stl := stl) rfl rfl fun hw => by
    obtain ⟨hw, h2⟩ := wf2 hw
    obtain ⟨h0, h1⟩ := wf2 hw
    have D : ∀ w, F28 w 0x0C stl d a 0 11 → decodeWord w = .ok (.fclassF64 d a stl) := fun w f => by
      refine (dec0C f.maj).trans ?_
      simp only [needZero, if_true, decMaj0C, f.fn, f.rd, f.ra, f.rb, f.stl]
    have f : F28 (enRR 0xB0000019 d a 0 stl) 0x0C stl d a 0 11 := f28 (maj := 0x0C) (k := 11) rfl (by decide) (by decide) (lt_reg h0) (lt_reg h1) (by decide) (lt_stl h2)
    exact ⟨f.toWord32, by decide, D _ f⟩

theorem fcvtI64F64 (d : Nat) (a : Nat) (stl : Nat) : RoundTrip.Statement (.fcvtI64F64 d a stl) :=
  trip32 (w := enRR 0xC0000019 d a 0 stl) (maj := 0x0C) (stl := stl) (congrArg some (congrArg (fun w => [fld w 0 16, fld w 16 16]) (by unfold enRR; omega))) rfl fun hw => by
    obtain ⟨hw, h2⟩ := wf2 hw
    obtain ⟨h0, h1⟩ := wf2 hw
    have D : ∀ w, F28 w 0x0C stl d a 0 12 → decodeWord w = .ok (.fcvtI64F64 d a stl) := fun w f => by
      refine (dec0C f.maj).trans ?_
      simp only [decMaj0C, f.fn, f.rd, f.ra, f.rb, f.stl]
    have f : F28 (enRR 0xC0000019 d a 0 stl) 0x0C stl d a 0 12 := f28 (maj := 0x0C) (k := 12) rfl (by decide) (by decide) (lt_reg h0) (lt_reg h1) (by decide) (lt_stl h2)
    exact ⟨f.toWord32, by decide, D _ f⟩

theorem fcvtN64F64 (d : Nat) (a : Nat) (stl : Nat) : RoundTrip.Statement (.fcvtN64F64 d a stl) :=
  trip32 (w := enRR 0xC0000019 d a 1 stl) (maj := 0x0C) (stl := stl) (congrArg some (congrArg (fun w => [fld w 0 16, fld w 16 16]) (by unfold enRR; omega))) rfl fun hw => by
    obtain ⟨hw, h2⟩ := wf2 hw
    obtain ⟨h0, h1⟩ := wf2 hw
    have D : ∀ w, F28 w 0x0C stl d a 1 12 → decodeWord w = .ok (.fcvtN64F64 d a stl) := fun w f => by
      refine (dec0C f.maj).trans ?_
      simp only [decMaj0C, f.fn, f.rd, f.ra, f.rb, f.stl]
    have f : F28 (enRR 0xC0000019 d a 1 stl) 0x0C stl d a 1 12 := f28 (maj := 0x0C) (k := 12) rfl (by decide) (by decide) (lt_reg h0) (lt_reg h1) (by decide) (lt_stl h2)
    exact ⟨f.toWord32, by decide, D _ f⟩

theorem fcvtI32F64 (d : Nat) (a : Nat) (stl : Nat) : RoundTrip.Statement (.fcvtI32F64 d a stl) :=
  trip32 (w := enRR 0xC0000019 d a 2 stl) (maj := 0x0C) (stl := stl) (congrArg some (congrArg (fun w => [fld w 0 16, fld w 16 16]) (by unfold enRR; omega))) rfl fun hw => by
    obtain ⟨hw, h2⟩ := wf2 hw
    obtain ⟨h0, h1⟩ := wf2 hw
    have D : ∀ w, F28 w 0x0C stl d a 2 12 → decodeWord w = .ok (.fcvtI32F64 d a stl) := fun w f => by
      refine (dec0C f.maj).trans ?_
      simp only [decMaj0C, f.fn, f.rd, f.ra, f.rb, f.stl]
    have f : F28 (enRR 0xC0000019 d a 2 stl) 0x0C stl d a 2 12 := f28 (maj := 0x0C) (k := 12) rfl (by decide) (by decide) (lt_reg h0) (lt_reg h1) (by decide) (lt_stl h2)
    exact ⟨f.toWord32, by decide, D _ f⟩

theorem fcvtN32F64 (d : Nat) (a : Nat) (stl : Nat) : RoundTrip.Statement (.fcvtN32F64 d a stl) :=
  trip32 (w := enRR 0xC0000019 d a 3 stl) (maj := 0x0C) (stl := stl) (congrArg some (congrArg (fun w => [fld w 0 16, fld w 16 16]) (by unfold enRR; omega))) rfl fun hw => by
    obtain ⟨hw, h2⟩ := wf2 hw
    obtain ⟨h0, h1⟩ := wf2 hw
    have D : ∀ w, F28 w 0x0C stl d a 3 12 → decodeWord w = .ok (.fcvtN32F64 d a stl) := fun w f => by
      refine (dec0C f.maj).trans ?_
      simp only [decMaj0C, f.fn, f.rd, f.ra, f.rb, f.stl]
    have f : F28 (enRR 0xC0000019 d a 3 stl) 0x0C stl d a 3 12 := f28 (maj := 0x0C) (k := 12) rfl (by decide) (by decide) (lt_reg h0) (lt_reg h1) (by decide) (lt_stl h2)
    exact ⟨f.toWord32, by decide, D _ f⟩

theorem fcvtF64I64 (d : Nat) (a : Nat) (stl : Nat) : RoundTrip.Statement (.fcvtF64I64 d a stl) :=
  trip32 (w := enRR 0xD0000019 d a 0 stl) (maj := 0x0C) (stl := stl) (congrArg some (congrArg (fun w => [fld w 0 16, fld w 16 16]) (by unfold enRR; omega))) rfl fun hw => by
    obtain ⟨hw, h2⟩ := wf2 hw
    obtain ⟨h0, h1⟩ := wf2 hw
    have D : ∀ w, F28 w 0x0C stl d a 0 13 → decodeWord w = .ok (.fcvtF64I64 d a stl) := fun w f => by
      refine (dec0C f.maj).trans ?_
      simp only [decMaj0C, f.fn, f.rd, f.ra, f.rb, f.stl]
    have f : F28 (enRR 0xD0000019 d a 0 stl) 0x0C stl d a 0 13 := f28 (maj := 0x0C) (k := 13) rfl (by decide) (by decide) (lt_reg h0) (lt_reg h1) (by decide) (lt_stl h2)
    exact ⟨f.toWord32, by decide, D _ f⟩

theorem fcvtF64N64 (d : Nat) (a : Nat) (stl : Nat) : RoundTrip.Statement (.fcvtF64N64 d a stl) :=
  trip32 (w := enRR 0xD0000019 d a 1 stl) (maj := 0x0C) (stl := stl) (congrArg some (congrArg (fun w => [fld w 0 16, fld w 16 16]) (by unfold enRR; omega))) rfl fun hw => by
    obtain ⟨hw, h2⟩ := wf2 hw
    obtain ⟨h0, h1⟩ := wf2 hw
    have D : ∀ w, F28 w 0x0C stl d a 1 13 → decodeWord w = .ok (.fcvtF64N64 d a stl) := fun w f => by
      refine (dec0C f.maj).trans ?_
      simp only [decMaj0C, f.fn, f.rd, f.ra, f.rb, f.stl]
    have f : F28 (enRR 0xD0000019 d a 1 stl) 0x0C stl d a 1 13 := f28 (maj := 0x0C) (k := 13) rfl (by decide) (by decide) (lt_reg h0) (lt_reg h1) (by decide) (lt_stl h2)
    exact ⟨f.toWord32, by decide, D _ f⟩

theorem fcvtF64I32 (d : Nat) (a : Nat) (stl : Nat) : RoundTrip.Statement (.fcvtF64I32 d a stl) :=
  trip32 (w := enRR 0xD0000019 d a 2 stl) (maj := 0x0C) (stl := stl) (congrArg some (congrArg (fun w => [fld w 0 16, fld w 16 16]) (by unfold enRR; omega))) rfl fun hw => by
    obtain ⟨hw, h2⟩ := wf2 hw
    obtain ⟨h0, h1⟩ := wf2 hw
    have D : ∀ w, F28 w 0x0C stl d a 2 13 → decodeWord w = .ok (.fcvtF64I32 d a stl) := fun w f => by
      refine (dec0C f.maj).trans ?_
      simp only [decMaj0C, f.fn, f.rd, f.ra, f.rb, f.stl]
    have f : F28 (enRR 0xD0000019 d a 2 stl) 0x0C stl d a 2 13 := f28 (maj := 0x0C) (k := 13) rfl (by decide) (by decide) (lt_reg h0) (lt_reg h1) (by decide) (lt_stl h2)
    exact ⟨f.toWord32, by decide, D _ f⟩

theorem fcvtF64N32 (d : Nat) (a : Nat) (stl : Nat) : RoundTrip.Statement (.fcvtF64N32 d a stl) :=
  trip32 (w := enRR 0xD0000019 d a 3 stl) (maj := 0x0C) (stl := stl) (congrArg some (congrArg (fun w => [fld w 0 16, fld w 16 16]) (by unfold enRR; omega))) rfl fun hw => by
    obtain ⟨hw, h2⟩ := wf2 hw
    obtain ⟨h0, h1⟩ := wf2 hw
    have D : ∀ w, F28 w 0x0C stl d a 3 13 → decodeWord w = .ok (.fcvtF64N32 d a stl) := fun w f => by
      refine (dec0C f.maj).trans ?_
      simp only [decMaj0C, f.fn, f.rd, f.ra, f.rb, f.stl]
    have f : F28 (enRR 0xD0000019 d a 3 stl) 0x0C stl d a 3 13 := f28 (maj := 0x0C) (k := 13) rfl (by decide) (by decide) (lt_reg h0) (lt_reg h1) (by decide) (lt_stl h2)
    exact ⟨f.toWord32, by decide, D _ f⟩

theorem fcvtF64F32 (d : Nat) (a : Nat) (stl : Nat) : RoundTrip.Statement (.fcvtF64F32 d a stl) :=
  trip32 (w := enRR 0xD0000019 d a 4 stl) (maj := 0x0C) (stl := stl) (congrArg some (congrArg (fun w => [fld w 0 16, fld w 16 16]) (by unfold enRR; omega))) rfl fun hw => by
    obtain ⟨hw, h2⟩ := wf2 hw
    obtain ⟨h0, h1⟩ := wf2 hw
    have D : ∀ w, F28 w 0x0C stl d a 4 13 → decodeWord w = .ok (.fcvtF64F32 d a stl) := fun w f => by
      refine (dec0C f.maj).trans ?_
      simp only [decMaj0C, f.fn, f.rd, f.ra, f.rb, f.stl]
    have f : F28 (enRR 0xD0000019 d a 4 stl) 0x0C stl d a 4 13 := f28 (maj := 0x0C) (k := 13) rfl (by decide) (by decide) (lt_reg h0) (lt_reg h1) (by decide) (lt_stl h2)
    exact ⟨f.toWord32, by decide, D _ f⟩

theorem fminpF64 (d : Nat) (a : Nat) (b : Nat) (stl : Nat) : RoundTrip.Statement (.fminpF64 d a b stl) :=
  trip32 (w := enRR 0xE0000019 d a b stl) (maj := 0x0C) (stl := stl) rfl rfl fun hw => by
    obtain ⟨hw, h3⟩ := wf2 hw
    obtain ⟨hw, h2⟩ := wf2 hw
    obtain ⟨h0, h1⟩ := wf2 hw
    have D : ∀ w, F28 w 0x0C stl d a b 14 → decodeWord w = .ok (.fminpF64 d a b stl) := fun w f => by
      refine (dec0C f.maj).trans ?_
      simp only [decMaj0C, f.fn, f.rd, f.ra, f.rb, f.stl]
    have f : F28 (enRR 0xE0000019 d a b stl) 0x0C stl d a b 14 := f28 (maj := 0x0C) (k := 14) rfl (by decide) (by decide) (lt_reg h0) (lt_reg h1) (lt_reg h2) (lt_stl h3)
    exact ⟨f.toWord32, by decide, D _ f⟩

theorem fmaxpF64 (d : Nat) (a : Nat) (b : Nat) (stl : Nat) : RoundTrip.Statement (.fmaxpF64 d a b stl) :=
  trip32 (w := enRR 0xF0000019 d a b stl) (maj := 0x0C) (stl := stl) rfl rfl fun hw => by
    obtain ⟨hw, h3⟩ := wf2 hw
    obtain ⟨hw, h2⟩ := wf2 hw
    obtain ⟨h0, h1⟩ := wf2 hw
    have D : ∀ w, F28 w 0x0C stl d a b 15 → decodeWord w = .ok (.fmaxpF64 d a b stl) := fun w f => by
      refine (dec0C f.maj).trans ?_
      simp only [decMaj0C, f.fn, f.rd, f.ra, f.rb, f.stl]
    have f : F28 (enRR 0xF0000019 d a b stl) 0x0C stl d a b 15 := f28 (maj := 0x0C) (k := 15) rfl (by decide) (by decide) (lt_reg h0) (lt_reg h1) (lt_reg h2) (lt_stl h3)
    exact ⟨f.toWord32, by decide, D _ f⟩

theorem faddF32 (d : Nat) (a : Nat) (b : Nat) (stl : Nat) : RoundTrip.Statement (.faddF32 d a b stl) :=
  trip32 (w := enRR 0x0000001B d a b stl) (maj := 0x0D) (stl := stl) rfl rfl fun hw => by
    obtain ⟨hw, h3⟩ := wf2 hw
    obtain ⟨hw, h2⟩ := wf2 hw
    obtain ⟨h0, h1⟩ := wf2 hw
    have D : ∀ w, F28 w 0x0D stl d a b 0 → decodeWord w = .ok (.faddF32 d a b stl) := fun w f => by
      refine (dec0D f.maj).trans ?_
      simp only [decMaj0D, f.fn, f.rd, f.ra, f.rb, f.stl]
    have f : F28 (enRR 0x0000001B d a b stl) 0x0D stl d a b 0 := f28 (maj := 0x0D) (k := 0) rfl (by decide) (by decide) (lt_reg h0) (lt_reg h1) (lt_reg h2) (lt_stl h3)
    exact ⟨f.toWord32, by decide, D _ f⟩

theorem fsubF32 (d : Nat) (a : Nat) (b : Nat) (stl : Nat) : RoundTrip.Statement (.fsubF32 d a b stl) :=
  trip32 (w := enRR 0x1000001B d a b stl) (maj := 0x0D) (stl := stl) rfl rfl fun hw => by
    obtain ⟨hw, h3⟩ := wf2 hw
    obtain ⟨hw, h2⟩ := wf2 hw
    obtain ⟨h0, h1⟩ := wf2 hw
    have D : ∀ w, F28 w 0x0D stl d a b 1 → decodeWord w = .ok (.fsubF32 d a b stl) := fun w f => by
      refine (dec0D f.maj).trans ?_
      simp only [decMaj0D, f.fn, f.rd, f.ra, f.rb, f.stl]
    have f : F28 (enRR 0x1000001B d a b stl) 0x0D stl d a b 1 := f28 (maj := 0x0D) (k := 1) rfl (by decide) (by decide) (lt_reg h0) (lt_reg h1) (lt_reg h2) (lt_stl h3)
    exact ⟨f.toWord32, by decide, D _ f⟩

theorem fmulF32 (d : Nat) (a : Nat) (b : Nat) (stl : Nat) : RoundTrip.Statement (.fmulF32 d a b stl) :=
  trip32 (w := enRR 0x2000001B d a b stl) (maj := 0x0D) (stl := stl) rfl rfl fun hw => by
    obtain ⟨hw, h3⟩ := wf2 hw
    obtain ⟨hw, h2⟩ := wf2 hw
    obtain ⟨h0, h1⟩ := wf2 hw
    have D : ∀ w, F28 w 0x0D stl d a b 2 → decodeWord w = .ok (.fmulF32 d a b stl) := fun w f => by
      refine (dec0D f.maj).trans ?_
      simp only [decMaj0D, f.fn, f.rd, f.ra, f.rb, f.stl]
    have f : F28 (enRR 0x2000001B d a b stl) 0x0D stl d a b 2 := f28 (maj := 0x0D) (k := 2) rfl (by decide) (by decide) (lt_reg h0) (lt_reg h1) (lt_reg h2) (lt_stl h3)
    exact ⟨f.toWord32, by decide, D _ f⟩

theorem fdivF32 (d : Nat) (a : Nat) (b : Nat) (stl : Nat) : RoundTrip.Statement (.fdivF32 d a b stl) :=
  trip32 (w := enRR 0x3000001B d a b stl) (maj := 0x0D) (stl := stl) rfl rfl fun hw => by
    obtain ⟨hw, h3⟩ := wf2 hw
    obtain ⟨hw, h2⟩ := wf2 hw
    obtain ⟨h0, h1⟩ := wf2 hw
    have D : ∀ w, F28 w 0x0D stl d a b 3 → decodeWord w = .ok (.fdivF32 d a b stl) := fun w f => by
      refine (dec0D f.maj).trans ?_
      simp only [decMaj0D, f.fn, f.rd, f.ra, f.rb, f.stl]
    have f : F28 (enRR 0x3000001B d a b stl) 0x0D stl d a b 3 := f28 (maj := 0x0D) (k := 3) rfl (by decide) (by decide) (lt_reg h0) (lt_reg h1) (lt_reg h2) (lt_stl h3)
    exact ⟨f.toWord32, by decide, D _ f⟩

theorem fsqrtF32 (d : Nat) (a : Nat) (stl : Nat) : RoundTrip.Statement (.fsqrtF32 d a stl) :=
  trip32 (w := enRR 0x4000001B d a 0 stl) (maj := 0x0D) (stl := stl) rfl rfl fun hw => by
    obtain ⟨hw, h2⟩ := wf2 hw
    obtain ⟨h0, h1⟩ := wf2 hw
    have D : ∀ w, F28 w 0x0D stl d a 0 4 → decodeWord w = .ok (.fsqrtF32 d a stl) := fun w f => by
      refine (dec0D f.maj).trans ?_
      simp only [needZero, if_true, decMaj0D, f.fn, f.rd, f.ra, f.rb, f.stl]
    have f : F28 (enRR 0x4000001B d a 0 stl) 0x0D stl d a 0 4 := f28 (maj := 0x0D) (k := 4) rfl (by decide) (by decide) (lt_reg h0) (lt_reg h1) (by decide) (lt_stl h2)
    exact ⟨f.toWord32, by decide, D _ f⟩

theorem fminF32 (d : Nat) (a : Nat) (b : Nat) (stl : Nat) : RoundTrip.Statement (.fminF32 d a b stl) :=
  trip32 (w := enRR 0x5000001B d a b stl) (maj := 0x0D) (stl := stl) rfl rfl fun hw => by
    obtain ⟨hw, h3⟩ := wf2 hw
    obtain ⟨hw, h2⟩ := wf2 hw
    obtain ⟨h0, h1⟩ := wf2 hw
    have D : ∀ w, F28 w 0x0D stl d a b 5 → decodeWord w = .ok (.fminF32 d a b stl) := fun w f => by
      refine (dec0D f.maj).trans ?_
      simp only [decMaj0D, f.fn, f.rd, f.ra, f.rb, f.stl]
    have f : F28 (enRR 0x5000001B d a b stl) 0x0D stl d a b 5 := f28 (maj := 0x0D) (k := 5) rfl (by decide) (by decide) (lt_reg h0) (lt_reg h1) (lt_reg h2) (lt_stl h3)
    exact ⟨f.toWord32, by decide, D _ f⟩

theorem fmaxF32 (d : Nat) (a : Nat) (b : Nat) (stl : Nat) : RoundTrip.Statement (.fmaxF32 d a b stl) :=
  trip32 (w := enRR 0x6000001B d a b stl) (maj := 0x0D) (stl := stl) rfl rfl fun hw => by
    obtain ⟨hw, h3⟩ := wf2 hw
    obtain ⟨hw, h2⟩ := wf2 hw
    obtain ⟨h0, h1⟩ := wf2 hw
    have D : ∀ w, F28 w 0x0D stl d a b 6 → decodeWord w = .ok (.fmaxF32 d a b stl) := fun w f => by
      refine (dec0D f.maj).trans ?_
      simp only [decMaj0D, f.fn, f.rd, f.ra, f.rb, f.stl]
    have f : F28 (enRR 0x6000001B d a b stl) 0x0D stl d a b 6 := f28 (maj := 0x0D) (k := 6) rfl (by decide) (by decide) (lt_reg h0) (lt_reg h1) (lt_reg h2) (lt_stl h3)
    exact ⟨f.toWord32, by decide, D _ f⟩

theorem fmacF32 (d : Nat) (a : Nat) (b : Nat) (stl : Nat) : RoundTrip.Statement (.fmacF32 d a b stl) :=
  trip32 (w := enRR 0x7000001B d a b stl) (maj := 0x0D) (stl := stl) rfl rfl fun hw => by
    obtain ⟨hw, h3⟩ := wf2 hw
    obtain ⟨hw, h2⟩ := wf2 hw
    obtain ⟨h0, h1⟩ := wf2 hw
    have D : ∀ w, F28 w 0x0D stl d a b 7 → decodeWord w = .ok (.fmacF32 d a b stl) := fun w f => by
      refine (dec0D f.maj).trans ?_
      simp only [decMaj0D, f.fn, f.rd, f.ra, f.rb, f.stl]
    have f : F28 (enRR 0x7000001B d a b stl) 0x0D stl d a b 7 := f28 (maj := 0x0D) (k := 7) rfl (by decide) (by decide) (lt_reg h0) (lt_reg h1) (lt_reg h2) (lt_stl h3)
    exact ⟨f.toWord32, by decide, D _ f⟩

theorem fltF32 (d : Nat) (a : Nat) (b : Nat) (stl : Nat) : RoundTrip.Statement (.fltF32 d a b stl) :=
  trip32 (w := enRR 0x8000001B d a b stl) (maj := 0x0D) (stl := stl) rfl rfl fun hw => by
    obtain ⟨hw, h3⟩ := wf2 hw
    obtain ⟨hw, h2⟩ := wf2 hw
    obtain ⟨h0, h1⟩ := wf2 hw
    have D : ∀ w, F28 w 0x0D stl d a b 8 → decodeWord w = .ok (.fltF32 d a b stl) := fun w f => by
      refine (dec0D f.maj).trans ?_
      simp only [decMaj0D, f.fn, f.rd, f.ra, f.rb, f.stl]
    have f : F28 (enRR 0x8000001B d a b stl) 0x0D stl d a b 8 := f28 (maj := 0x0D) (k := 8) rfl (by decide) (by decide) (lt_reg h0) (lt_reg h1) (lt_reg h2) (lt_stl h3)
    exact ⟨f.toWord32, by decide, D _ f⟩

theorem fleF32 (d : Nat) (a : Nat) (b : Nat) (stl : Nat) : RoundTrip.Statement (.fleF32 d a b stl) :=
  trip32 (w := enRR 0x9000001B d a b stl) (maj := 0x0D) (stl := stl) rfl rfl fun hw => by
    obtain ⟨hw, h3⟩ := wf2 hw
    obtain ⟨hw, h2⟩ := wf2 hw
    obtain ⟨h0, h1⟩ := wf2 hw
    have D : ∀ w, F28 w 0x0D stl d a b 9 → decodeWord w = .ok (.fleF32 d a b stl) := fun w f => by
      refine (dec0D f.maj).trans ?_
      simp only [decMaj0D, f.fn, f.rd, f.ra, f.rb, f.stl]
    have f : F28 (enRR 0x9000001B d a b stl) 0x0D stl d a b 9 := f28 (maj := 0x0D) (k := 9) rfl (by decide) (by decide) (lt_reg h0) (lt_reg h1) (lt_reg h2) (lt_stl h3)
    exact ⟨f.toWord32, by decide, D _ f⟩

theorem feqF32 (d : Nat) (a : Nat) (b : Nat) (stl : Nat) : RoundTrip.Statement (.feqF32 d a b stl) :=
  trip32 (w := enRR 0xA000001B d a b stl) (maj := 0x0D) (stl := stl) rfl rfl fun hw => by
    obtain ⟨hw, h3⟩ := wf2 hw
    obtain ⟨hw, h2⟩ := wf2 hw
    obtain ⟨h0, h1⟩ := wf2 hw
    have D : ∀ w, F28 w 0x0D stl d a b 10 → decodeWord w = .ok (.feqF32 d a b stl) := fun w f => by
      refine (dec0D f.maj).trans ?_
      simp only [decMaj0D, f.fn, f.rd, f.ra, f.rb, f.stl]
    have f : F28 (enRR 0xA000001B d a b stl) 0x0D stl d a b 10 := f28 (maj := 0x0D) (k := 10) rfl (by decide) (by decide) (lt_reg h0) (lt_reg h1) (lt_reg h2) (lt_stl h3)
    exact ⟨f.toWord32, by decide, D _ f⟩

theorem fclassF32 (d : Nat) (a : Nat) (stl : Nat) : RoundTrip.Statement (.fclassF32 d a stl) :=
  trip32 (w := enRR 0xB000001B d a 0 stl) (maj := 0x0D) (stl := stl) rfl rfl fun hw => by
    obtain ⟨hw, h2⟩ := wf2 hw
    obtain ⟨h0, h1⟩ := wf2 hw
    have D : ∀ w, F28 w 0x0D stl d a 0 11 → decodeWord w = .ok (.fclassF32 d a stl) := fun w f => by
      refine (dec0D f.maj).trans ?_
      simp only [needZero, if_true, decMaj0D, f.fn, f.rd, f.ra, f.rb, f.stl]
    have f : F28 (enRR 0xB000001B d a 0 stl) 0x0D stl d a 0 11 := f28 (maj := 0x0D) (k := 11) rfl (by decide) (by decide) (lt_reg h0) (lt_reg h1) (by decide) (lt_stl h2)
    exact ⟨f.toWord32, by decide, D _ f⟩

theorem fcvtI64F32 (d : Nat) (a : Nat) (stl : Nat) : RoundTrip.Statement (.fcvtI64F32 d a stl) :=
  trip32 (w := enRR 0xC000001B d a 0 stl) (maj := 0x0D) (stl := stl) (congrArg some (congrArg (fun w => [fld w 0 16, fld w 16 16]) (by unfold enRR; omega))) rfl fun hw => by
    obtain ⟨hw, h2⟩ := wf2 hw
    obtain ⟨h0, h1⟩ := wf2 hw
    have D : ∀ w, F28 w 0x0D stl d a 0 12 → decodeWord w = .ok (.fcvtI64F32 d a stl) := fun w f => by
      refine (dec0D f.maj).trans ?_
      simp only [decMaj0D, f.fn, f.rd, f.ra, f.rb, f.stl]
    have f : F28 (enRR 0xC000001B d a 0 stl) 0x0D stl d a 0 12 := f28 (maj := 0x0D) (k := 12) rfl (by decide) (by decide) (lt_reg h0) (lt_reg h1) (by decide) (lt_stl h2)
    exact ⟨f.toWord32, by decide, D _ f⟩

theorem fcvtN64F32 (d : Nat) (a : Nat) (stl : Nat) : RoundTrip.Statement (.fcvtN64F32 d a stl) :=
  trip32 (w := enRR 0xC000001B d a 1 stl) (maj := 0x0D) (stl := stl) (congrArg some (congrArg (fun w => [fld w 0 16, fld w 16 16]) (by unfold enRR; omega))) rfl fun hw => by
    obtain ⟨hw, h2⟩ := wf2 hw
    obtain ⟨h0, h1⟩ := wf2 hw
    have D : ∀ w, F28 w 0x0D stl d a 1 12 → decodeWord w = .ok (.fcvtN64F32 d a stl) := fun w f => by
      refine (dec0D f.maj).trans ?_
      simp only [decMaj0D, f.fn, f.rd, f.ra, f.rb, f.stl]
    have f : F28 (enRR 0xC000001B d a 1 stl) 0x0D stl d a 1 12 := f28 (maj := 0x0D) (k := 12) rfl (by decide) (by decide) (lt_reg h0) (lt_reg h1) (by decide) (lt_stl h2)
    exact ⟨f.toWord32, by decide, D _ f⟩

theorem fcvtI32F32 (d : Nat) (a : Nat) (stl : Nat) : RoundTrip.Statement (.fcvtI32F32 d a stl) :=
  trip32 (w := enRR 0xC000001B d a 2 stl) (maj := 0x0D) (stl := stl) (congrArg some (congrArg (fun w => [fld w 0 16, fld w 16 16]) (by unfold enRR; omega))) rfl fun hw => by
    obtain ⟨hw, h2⟩ := wf2 hw
    obtain ⟨h0, h1⟩ := wf2 hw
    have D : ∀ w, F28 w 0x0D stl d a 2 12 → decodeWord w = .ok (.fcvtI32F32 d a stl) := fun w f => by
      refine (dec0D f.maj).trans ?_
      simp only [decMaj0D, f.fn, f.rd, f.ra, f.rb, f.stl]
    have f : F28 (enRR 0xC000001B d a 2 stl) 0x0D stl d a 2 12 := f28 (maj := 0x0D) (k := 12) rfl (by decide) (by decide) (lt_reg h0) (lt_reg h1) (by decide) (lt_stl h2)
    exact ⟨f.toWord32, by decide, D _ f⟩

theorem fcvtN32F32 (d : Nat) (a : Nat) (stl : Nat) : RoundTrip.Statement (.fcvtN32F32 d a stl) :=
  trip32 (w := enRR 0xC000001B d a 3 stl) (maj := 0x0D) (stl := stl) (congrArg some (congrArg (fun w => [fld w 0 16, fld w 16 16]) (by unfold enRR; omega))) rfl fun hw => by
    obtain ⟨hw, h2⟩ := wf2 hw
    obtain ⟨h0, h1⟩ := wf2 hw
    have D : ∀ w, F28 w 0x0D stl d a 3 12 → decodeWord w = .ok (.fcvtN32F32 d a stl) := fun w f => by
      refine (dec0D f.maj).trans ?_
      simp only [decMaj0D, f.fn, f.rd, f.ra, f.rb, f.stl]
    have f : F28 (enRR 0xC000001B d a 3 stl) 0x0D stl d a 3 12 := f28 (maj := 0x0D) (k := 12) rfl (by decide) (by decide) (lt_reg h0) (lt_reg h1) (by decide) (lt_stl h2)
    exact ⟨f.toWord32, by decide, D _ f⟩

theorem fcvtF32I64 (d : Nat) (a : Nat) (stl : Nat) : RoundTrip.Statement (.fcvtF32I64 d a stl) :=
  trip32 (w := enRR 0xD000001B d a 0 stl) (maj := 0x0D) (stl := stl) (congrArg some (congrArg (fun w => [fld w 0 16, fld w 16 16]) (by unfold enRR; omega))) rfl fun hw => by
    obtain ⟨hw, h2⟩ := wf2 hw
    obtain ⟨h0, h1⟩ := wf2 hw
    have D : ∀ w, F28 w 0x0D stl d a 0 13 → decodeWord w = .ok (.fcvtF32I64 d a stl) := fun w f => by
      refine (dec0D f.maj).trans ?_
      simp only [decMaj0D, f.fn, f.rd, f.ra, f.rb, f.stl]
    have f : F28 (enRR 0xD000001B d a 0 stl) 0x0D stl d a 0 13 := f28 (maj := 0x0D) (k := 13) rfl (by decide) (by decide) (lt_reg h0) (lt_reg h1) (by decide) (lt_stl h2)
    exact ⟨f.toWord32, by decide, D _ f⟩

theorem fcvtF32N64 (d : Nat) (a : Nat) (stl : Nat) : RoundTrip.Statement (.fcvtF32N64 d a stl) :=
  trip32 (w := enRR 0xD000001B d a 1 stl) (maj := 0x0D) (stl := stl) (congrArg some (congrArg (fun w => [fld w 0 16, fld w 16 16]) (by unfold enRR; omega))) rfl fun hw => by
    obtain ⟨hw, h2⟩ := wf2 hw
    obtain ⟨h0, h1⟩ := wf2 hw
    have D : ∀ w, F28 w 0x0D stl d a 1 13 → decodeWord w = .ok (.fcvtF32N64 d a stl) := fun w f => by
      refine (dec0D f.maj).trans ?_
      simp only [decMaj0D, f.fn, f.rd, f.ra, f.rb, f.stl]
    have f : F28 (enRR 0xD000001B d a 1 stl) 0x0D stl d a 1 13 := f28 (maj := 0x0D) (k := 13) rfl (by decide) (by decide) (lt_reg h0) (lt_reg h1) (by decide) (lt_stl h2)
    exact ⟨f.toWord32, by decide, D _ f⟩

theorem fcvtF32I32 (d : Nat) (a : Nat) (stl : Nat) : RoundTrip.Statement (.fcvtF32I32 d a stl) :=
  trip32 (w := enRR 0xD000001B d a 2 stl) (maj := 0x0D) (stl := stl) (congrArg some (congrArg (fun w => [fld w 0 16, fld w 16 16]) (by unfold enRR; omega))) rfl fun hw => by
    obtain ⟨hw, h2⟩ := wf2 hw
    obtain ⟨h0, h1⟩ := wf2 hw
    have D : ∀ w, F28 w 0x0D stl d a 2 13 → decodeWord w = .ok (.fcvtF32I32 d a stl) := fun w f => by
      refine (dec0D f.maj).trans ?_
      simp only [decMaj0D, f.fn, f.rd, f.ra, f.rb, f.stl]
    have f : F28 (enRR 0xD000001B d a 2 stl) 0x0D stl d a 2 13 := f28 (maj := 0x0D) (k := 13) rfl (by decide) (by decide) (lt_reg h0) (lt_reg h1) (by decide) (lt_stl h2)
    exact ⟨f.toWord32, by decide, D _ f⟩

theorem fcvtF32N32 (d : Nat) (a : Nat) (stl : Nat) : RoundTrip.Statement (.fcvtF32N32 d a stl) :=
  trip32 (w := enRR 0xD000001B d a 3 stl) (maj := 0x0D) (stl := stl) (congrArg some (congrArg (fun w => [fld w 0 16, fld w 16 16]) (by unfold enRR; omega))) rfl fun hw => by
    obtain ⟨hw, h2⟩ := wf2 hw
    obtain ⟨h0, h1⟩ := wf2 hw
    have D : ∀ w, F28 w 0x0D stl d a 3 13 → decodeWord w = .ok (.fcvtF32N32 d a stl) := fun w f => by
      refine (dec0D f.maj).trans ?_
      simp only [decMaj0D, f.fn, f.rd, f.ra, f.rb, f.stl]
    have f : F28 (enRR 0xD000001B d a 3 stl) 0x0D stl d a 3 13 := f28 (maj := 0x0D) (k := 13) rfl (by decide) (by decide) (lt_reg h0) (lt_reg h1) (by decide) (lt_stl h2)
    exact ⟨f.toWord32, by decide, D _ f⟩

theorem fcvtF32F64 (d : Nat) (a : Nat) (stl : Nat) : RoundTrip.Statement (.fcvtF32F64 d a stl) :=
  trip32 (w := enRR 0xD000001B d a 4 stl) (maj := 0x0D) (stl := stl) (congrArg some (congrArg (fun w => [fld w 0 16, fld w 16 16]) (by unfold enRR; omega))) rfl fun hw => by
    obtain ⟨hw, h2⟩ := wf2 hw
    obtain ⟨h0, h1⟩ := wf2 hw
    have D : ∀ w, F28 w 0x0D stl d a 4 13 → decodeWord w = .ok (.fcvtF32F64 d a stl) := fun w f => by
      refine (dec0D f.maj).trans ?_
      simp only [decMaj0D, f.fn, f.rd, f.ra, f.rb, f.stl]
    have f : F28 (enRR 0xD000001B d a 4 stl) 0x0D stl d a 4 13 := f28 (maj := 0x0D) (k := 13) rfl (by decide) (by decide) (lt_reg h0) (lt_reg h1) (by decide) (lt_stl h2)
    exact ⟨f.toWord32, by decide, D _ f⟩

theorem fminpF32 (d : Nat) (a : Nat) (b : Nat) (stl : Nat) : RoundTrip.Statement (.fminpF32 d a b stl) :=
  trip32 (w := enRR 0xE000001B d a b stl) (maj := 0x0D) (stl := stl) rfl rfl fun hw => by
    obtain ⟨hw, h3⟩ := wf2 hw
    obtain ⟨hw, h2⟩ := wf2 hw
    obtain ⟨h0, h1⟩ := wf2 hw
    have D : ∀ w, F28 w 0x0D stl d a b 14 → decodeWord w = .ok (.fminpF32 d a b stl) := fun w f => by
      refine (dec0D f.maj).trans ?_
      simp only [decMaj0D, f.fn, f.rd, f.ra, f.rb, f.stl]
    have f : F28 (enRR 0xE000001B d a b stl) 0x0D stl d a b 14 := f28 (maj := 0x0D) (k := 14) rfl (by decide) (by decide) (lt_reg h0) (lt_reg h1) (lt_reg h2) (lt_stl h3)
    exact ⟨f.toWord32, by decide, D _ f⟩

theorem fmaxpF32 (d : Nat) (a : Nat) (b : Nat) (stl : Nat) : RoundTrip.Statement (.fmaxpF32 d a b stl) :=
  trip32 (w := enRR 0xF000001B d a b stl) (maj := 0x0D) (stl := stl) rfl rfl fun hw => by
    obtain ⟨hw, h3⟩ := wf2 hw
    obtain ⟨hw, h2⟩ := wf2 hw
    obtain ⟨h0, h1⟩ := wf2 hw
    have D : ∀ w, F28 w 0x0D stl d a b 15 → decodeWord w = .ok (.fmaxpF32 d a b stl) := fun w f => by
      refine (dec0D f.maj).trans ?_
      simp only [decMaj0D, f.fn, f.rd, f.ra, f.rb, f.stl]
    have f : F28 (enRR 0xF000001B d a b stl) 0x0D stl d a b 15 := f28 (maj := 0x0D) (k := 15) rfl (by decide) (by decide) (lt_reg h0) (lt_reg h1) (lt_reg h2) (lt_stl h3)
    exact ⟨f.toWord32, by decide, D _ f⟩

theorem beqz (a : Nat) (imm : BitVec 13) (stl : Nat) : RoundTrip.Statement (.beqz a imm stl) :=
  trip32 (w := enRR 0x0000001D 0 0 0 stl + a * 2 ^ 10 + imm.toNat * 2 ^ 19) (maj := 0x0E) (stl := stl) rfl rfl fun hw => by
    obtain ⟨h0, h1⟩ := wf2 hw
    have D : ∀ w, Word32 w 0x0E stl ∧ fld w 10 6 = a ∧ fld w 16 3 = 0 ∧ fld w 19 13 = imm.toNat → decodeWord w = .ok (.beqz a imm stl) := fun w f => by
      obtain ⟨f, g1, g2, g3⟩ := f
      refine (dec0E f.maj).trans ?_
      simp only [decMaj0E, f.stl, g1, g2, g3, BitVec.ofNat_toNat, BitVec.setWidth_eq]
    have f : Word32 (enRR 0x0000001D 0 0 0 stl + a * 2 ^ 10 + imm.toNat * 2 ^ 19) 0x0E stl ∧ fld (enRR 0x0000001D 0 0 0 stl + a * 2 ^ 10 + imm.toNat * 2 ^ 19) 10 6 = a ∧ fld (enRR 0x0000001D 0 0 0 stl + a * 2 ^ 10 + imm.toNat * 2 ^ 19) 16 3 = 0 ∧ fld (enRR 0x0000001D 0 0 0 stl + a * 2 ^ 10 + imm.toNat * 2 ^ 19) 19 13 = imm.toNat := fB (maj := 0x0E) (k := 0) imm rfl (by decide) (by decide) (lt_reg h0) (lt_stl h1)
    exact ⟨f.1, by decide, D _ f⟩

theorem bnez (a : Nat) (imm : BitVec 13) (stl : Nat) : RoundTrip.Statement (.bnez a imm stl) :=
  trip32 (w := enRR 0x0001001D 0 0 0 stl + a * 2 ^ 10 + imm.toNat * 2 ^ 19) (maj := 0x0E) (stl := stl) rfl rfl fun hw => by
    obtain ⟨h0, h1⟩ := wf2 hw
    have D : ∀ w, Word32 w 0x0E stl ∧ fld w 10 6 = a ∧ fld w 16 3 = 1 ∧ fld w 19 13 = imm.toNat → decodeWord w = .ok (.bnez a imm stl) := fun w f => by
      obtain ⟨f, g1, g2, g3⟩ := f
      refine (dec0E f.maj).trans ?_
      simp only [decMaj0E, f.stl, g1, g2, g3, BitVec.ofNat_toNat, BitVec.setWidth_eq]
    have f : Word32 (enRR 0x0001001D 0 0 0 stl + a * 2 ^ 10 + imm.toNat * 2 ^ 19) 0x0E stl ∧ fld (enRR 0x0001001D 0 0 0 stl + a * 2 ^ 10 + imm.toNat * 2 ^ 19) 10 6 = a ∧ fld (enRR 0x0001001D 0 0 0 stl + a * 2 ^ 10 + imm.toNat * 2 ^ 19) 16 3 = 1 ∧ fld (enRR 0x0001001D 0 0 0 stl + a * 2 ^ 10 + imm.toNat * 2 ^ 19) 19 13 = imm.toNat := fB (maj := 0x0E) (k := 1) imm rfl (by decide) (by decide) (lt_reg h0) (lt_stl h1)
    exact ⟨f.1, by decide, D _ f⟩

theorem bltz (a : Nat) (imm : BitVec 13) (stl : Nat) : RoundTrip.Statement (.bltz a imm stl) :=
  trip32 (w := enRR 0x0002001D 0 0 0 stl + a * 2 ^ 10 + imm.toNat * 2 ^ 19) (maj := 0x0E) (stl := stl) rfl rfl fun hw => by
    obtain ⟨h0, h1⟩ := wf2 hw
    have D : ∀ w, Word32 w 0x0E stl ∧ fld w 10 6 = a ∧ fld w 16 3 = 2 ∧ fld w 19 13 = imm.toNat → decodeWord w = .ok (.bltz a imm stl) := fun w f => by
      obtain ⟨f, g1, g2, g3⟩ := f
      refine (dec0E f.maj).trans ?_
      simp only [decMaj0E, f.stl, g1, g2, g3, BitVec.ofNat_toNat, BitVec.setWidth_eq]
    have f : Word32 (enRR 0x0002001D 0 0 0 stl + a * 2 ^ 10 + imm.toNat * 2 ^ 19) 0x0E stl ∧ fld (enRR 0x0002001D 0 0 0 stl + a * 2 ^ 10 + imm.toNat * 2 ^ 19) 10 6 = a ∧ fld (enRR 0x0002001D 0 0 0 stl + a * 2 ^ 10 + imm.toNat * 2 ^ 19) 16 3 = 2 ∧ fld (enRR 0x0002001D 0 0 0 stl + a * 2 ^ 10 + imm.toNat * 2 ^ 19) 19 13 = imm.toNat := fB (maj := 0x0E) (k := 2) imm rfl (by decide) (by decide) (lt_reg h0) (lt_stl h1)
    exact ⟨f.1, by decide, D _ f⟩

theorem bgez (a : Nat) (imm : BitVec 13) (stl : Nat) : RoundTrip.Statement (.bgez a imm stl) :=
  trip32 (w := enRR 0x0003001D 0 0 0 stl + a * 2 ^ 10 + imm.toNat * 2 ^ 19) (maj := 0x0E) (stl := stl) rfl rfl fun hw => by
    obtain ⟨h0, h1⟩ := wf2 hw
    have D : ∀ w, Word32 w 0x0E stl ∧ fld w 10 6 = a ∧ fld w 16 3 = 3 ∧ fld w 19 13 = imm.toNat → decodeWord w = .ok (.bgez a imm stl) := fun w f => by
      obtain ⟨f, g1, g2, g3⟩ := f
      refine (dec0E f.maj).trans ?_
      simp only [decMaj0E, f.stl, g1, g2, g3, BitVec.ofNat_toNat, BitVec.setWidth_eq]
    have f : Word32 (enRR 0x0003001D 0 0 0 stl + a * 2 ^ 10 + imm.toNat * 2 ^ 19) 0x0E stl ∧ fld (enRR 0x0003001D 0 0 0 stl + a * 2 ^ 10 + imm.toNat * 2 ^ 19) 10 6 = a ∧ fld (enRR 0x0003001D 0 0 0 stl + a * 2 ^ 10 + imm.toNat * 2 ^ 19) 16 3 = 3 ∧ fld (enRR 0x0003001D 0 0 0 stl + a * 2 ^ 10 + imm.toNat * 2 ^ 19) 19 13 = imm.toNat := fB (maj := 0x0E) (k := 3) imm rfl (by decide) (by decide) (lt_reg h0) (lt_stl h1)
    exact ⟨f.1, by decide, D _ f⟩

theorem blez (a : Nat) (imm : BitVec 13) (stl : Nat) : RoundTrip.Statement (.blez a imm stl) :=
  trip32 (w := enRR 0x0004001D 0 0 0 stl + a * 2 ^ 10 + imm.toNat * 2 ^ 19) (maj := 0x0E) (stl := stl) rfl rfl fun hw => by
    obtain ⟨h0, h1⟩ := wf2 hw
    have D : ∀ w, Word32 w 0x0E stl ∧ fld w 10 6 = a ∧ fld w 16 3 = 4 ∧ fld w 19 13 = imm.toNat → decodeWord w = .ok (.blez a imm stl) := fun w f => by
      obtain ⟨f, g1, g2, g3⟩ := f
      refine (dec0E f.maj).trans ?_
      simp only [decMaj0E, f.stl, g1, g2, g3, BitVec.ofNat_toNat, BitVec.setWidth_eq]
    have f : Word32 (enRR 0x0004001D 0 0 0 stl + a * 2 ^ 10 + imm.toNat * 2 ^ 19) 0x0E stl ∧ fld (enRR 0x0004001D 0 0 0 stl + a * 2 ^ 10 + imm.toNat * 2 ^ 19) 10 6 = a ∧ fld (enRR 0x0004001D 0 0 0 stl + a * 2 ^ 10 + imm.toNat * 2 ^ 19) 16 3 = 4 ∧ fld (enRR 0x0004001D 0 0 0 stl + a * 2 ^ 10 + imm.toNat * 2 ^ 19) 19 13 = imm.toNat := fB (maj := 0x0E) (k := 4) imm rfl (by decide) (by decide) (lt_reg h0) (lt_stl h1)
    exact ⟨f.1, by decide, D _ f⟩

theorem bgtz (a : Nat) (imm : BitVec 13) (stl : Nat) : RoundTrip.Statement (.bgtz a imm stl) :=
  trip32 (w := enRR 0x0005001D 0 0 0 stl + a * 2 ^ 10 + imm.toNat * 2 ^ 19) (maj := 0x0E) (stl := stl) rfl rfl fun hw => by
    obtain ⟨h0, h1⟩ := wf2 hw
    have D : ∀ w, Word32 w 0x0E stl ∧ fld w 10 6 = a ∧ fld w 16 3 = 5 ∧ fld w 19 13 = imm.toNat → decodeWord w = .ok (.bgtz a imm stl) := fun w f => by
      obtain ⟨f, g1, g2, g3⟩ := f
      refine (dec0E f.maj).trans ?_
      simp only [decMaj0E, f.stl, g1, g2, g3, BitVec.ofNat_toNat, BitVec.setWidth_eq]
    have f : Word32 (enRR 0x0005001D 0 0 0 stl + a * 2 ^ 10 + imm.toNat * 2 ^ 19) 0x0E stl ∧ fld (enRR 0x0005001D 0 0 0 stl + a * 2 ^ 10 + imm.toNat * 2 ^ 19) 10 6 = a ∧ fld (enRR 0x0005001D 0 0 0 stl + a * 2 ^ 10 + imm.toNat * 2 ^ 19) 16 3 = 5 ∧ fld (enRR 0x0005001D 0 0 0 stl + a * 2 ^ 10 + imm.toNat * 2 ^ 19) 19 13 = imm.toNat := fB (maj := 0x0E) (k := 5) imm rfl (by decide) (by decide) (lt_reg h0) (lt_stl h1)
    exact ⟨f.1, by decide, D _ f⟩

theorem dbnz (a : Nat) (imm : BitVec 13) (stl : Nat) : RoundTrip.Statement (.dbnz a imm stl) :=
  trip32 (w := enRR 0x0006001D 0 0 0 stl + a * 2 ^ 10 + imm.toNat * 2 ^ 19) (maj := 0x0E) (stl := stl) rfl rfl fun hw => by
    obtain ⟨h0, h1⟩ := wf2 hw
    have D : ∀ w, Word32 w 0x0E stl ∧ fld w 10 6 = a ∧ fld w 16 3 = 6 ∧ fld w 19 13 = imm.toNat → decodeWord w = .ok (.dbnz a imm stl) := fun w f => by
      obtain ⟨f, g1, g2, g3⟩ := f
      refine (dec0E f.maj).trans ?_
      simp only [decMaj0E, f.stl, g1, g2, g3, BitVec.ofNat_toNat, BitVec.setWidth_eq]
    have f : Word32 (enRR 0x0006001D 0 0 0 stl + a * 2 ^ 10 + imm.toNat * 2 ^ 19) 0x0E stl ∧ fld (enRR 0x0006001D 0 0 0 stl + a * 2 ^ 10 + imm.toNat * 2 ^ 19) 10 6 = a ∧ fld (enRR 0x0006001D 0 0 0 stl + a * 2 ^ 10 + imm.toNat * 2 ^ 19) 16 3 = 6 ∧ fld (enRR 0x0006001D 0 0 0 stl + a * 2 ^ 10 + imm.toNat * 2 ^ 19) 19 13 = imm.toNat := fB (maj := 0x0E) (k := 6) imm rfl (by decide) (by decide) (lt_reg h0) (lt_stl h1)
    exact ⟨f.1, by decide, D _ f⟩

theorem j (imm : BitVec 22) (stl : Nat) : RoundTrip.Statement (.j imm stl) :=
  trip32 (w := enRR 0x00000021 0 0 0 stl + imm.toNat * 2 ^ 10) (maj := 0x10) (stl := stl) rfl rfl fun hw => by
    have h0 := hw
    have D : ∀ w, Word32 w 0x10 stl ∧ fld w 10 22 = imm.toNat → decodeWord w = .ok (.j imm stl) := fun w f => by
      obtain ⟨f, g1⟩ := f
      refine (dec10 f.maj).trans ?_
      simp only [decMaj10, f.stl, g1, BitVec.ofNat_toNat, BitVec.setWidth_eq]
    have f : Word32 (enRR 0x00000021 0 0 0 stl + imm.toNat * 2 ^ 10) 0x10 stl ∧ fld (enRR 0x00000021 0 0 0 stl + imm.toNat * 2 ^ 10) 10 22 = imm.toNat := fJ (maj := 0x10) imm rfl (by decide) (lt_stl h0)
    exact ⟨f.1, by decide, D _ f⟩

theorem call (imm : BitVec 22) (stl : Nat) : RoundTrip.Statement (.call imm stl) :=
  trip32 (w := enRR 0x00000023 0 0 0 stl + imm.toNat * 2 ^ 10) (maj := 0x11) (stl := stl) rfl rfl fun hw => by
    have h0 := hw
    have D : ∀ w, Word32 w 0x11 stl ∧ fld w 10 22 = imm.toNat → decodeWord w = .ok (.call imm stl) := fun w f => by
      obtain ⟨f, g1⟩ := f
      refine (dec11 f.maj).trans ?_
      simp only [decMaj11, f.stl, g1, BitVec.ofNat_toNat, BitVec.setWidth_eq]
    have f : Word32 (enRR 0x00000023 0 0 0 stl + imm.toNat * 2 ^ 10) 0x11 stl ∧ fld (enRR 0x00000023 0 0 0 stl + imm.toNat * 2 ^ 10) 10 22 = imm.toNat := fJ (maj := 0x11) imm rfl (by decide) (lt_stl h0)
    exact ⟨f.1, by decide, D _ f⟩

theorem jr (a : Nat) (stl : Nat) : RoundTrip.Statement (.jr a stl) :=
  trip32 (w := enRR 0x00000025 0 a 0 stl) (maj := 0x12) (stl := stl) rfl rfl fun hw => by
    obtain ⟨h0, h1⟩ := wf2 hw
    have D : ∀ w, F28 w 0x12 stl 0 a 0 0 → decodeWord w = .ok (.jr a stl) := fun w f => by
      refine (dec12 f.maj).trans ?_
      simp only [needZero, if_true, decMaj12, f.fn, f.rd, f.ra, f.rb, f.stl]
    have f : F28 (enRR 0x00000025 0 a 0 stl) 0x12 stl 0 a 0 0 := f28 (maj := 0x12) (k := 0) rfl (by decide) (by decide) (by decide) (lt_reg h0) (by decide) (lt_stl h1)
    exact ⟨f.toWord32, by decide, D _ f⟩

theorem callr (a : Nat) (stl : Nat) : RoundTrip.Statement (.callr a stl) :=
  trip32 (w := enRR 0x10000025 0 a 0 stl) (maj := 0x12) (stl := stl) rfl rfl fun hw => by
    obtain ⟨h0, h1⟩ := wf2 hw
    have D : ∀ w, F28 w 0x12 stl 0 a 0 1 → decodeWord w = .ok (.callr a stl) := fun w f => by
      refine (dec12 f.maj).trans ?_
      simp only [needZero, if_true, decMaj12, f.fn, f.rd, f.ra, f.rb, f.stl]
    have f : F28 (enRR 0x10000025 0 a 0 stl) 0x12 stl 0 a 0 1 := f28 (maj := 0x12) (k := 1) rfl (by decide) (by decide) (by decide) (lt_reg h0) (by decide) (lt_stl h1)
    exact ⟨f.toWord32, by decide, D _ f⟩

theorem ldD (d : Nat) (a : Nat) (imm : BitVec 10) (stl : Nat) : RoundTrip.Statement (.ldD d a imm stl) :=
  trip32 (w := enI 0x00000027 d a imm stl) (maj := 0x13) (stl := stl) rfl rfl fun hw => by
    obtain ⟨hw, h2⟩ := wf2 hw
    obtain ⟨h0, h1⟩ := wf2 hw
    have D : ∀ w, FI w 0x13 stl d a imm.toNat → decodeWord w = .ok (.ldD d a imm stl) := fun w f => by
      refine (dec13 f.maj).trans ?_
      simp only [decMaj13, f.rd, f.ra, f.imm, f.stl, BitVec.ofNat_toNat, BitVec.setWidth_eq]
    have f : FI (enI 0x00000027 d a imm stl) 0x13 stl d a imm.toNat := fI (maj := 0x13) imm rfl (by decide) (lt_reg h0) (lt_reg h1) (lt_stl h2)
    exact ⟨f.toWord32, by decide, D _ f⟩

theorem ldW (d : Nat) (a : Nat) (imm : BitVec 10) (stl : Nat) : RoundTrip.Statement (.ldW d a imm stl) :=
  trip32 (w := enI 0x00000029 d a imm stl) (maj := 0x14) (stl := stl) rfl rfl fun hw => by
    obtain ⟨hw, h2⟩ := wf2 hw
    obtain ⟨h0, h1⟩ := wf2 hw
    have D : ∀ w, FI w 0x14 stl d a imm.toNat → decodeWord w = .ok (.ldW d a imm stl) := fun w f => by
      refine (dec14 f.maj).trans ?_
      simp only [decMaj14, f.rd, f.ra, f.imm, f.stl, BitVec.ofNat_toNat, BitVec.setWidth_eq]
    have f : FI (enI 0x00000029 d a imm stl) 0x14 stl d a imm.toNat := fI (maj := 0x14) imm rfl (by decide) (lt_reg h0) (lt_reg h1) (lt_stl h2)
    exact ⟨f.toWord32, by decide, D _ f⟩

theorem ldWn (d : Nat) (a : Nat) (imm : BitVec 10) (stl : Nat) : RoundTrip.Statement (.ldWn d a imm stl) :=
  trip32 (w := enI 0x0000002B d a imm stl) (maj := 0x15) (stl := stl) rfl rfl fun hw => by
    obtain ⟨hw, h2⟩ := wf2 hw
    obtain ⟨h0, h1⟩ := wf2 hw
    have D : ∀ w, FI w 0x15 stl d a imm.toNat → decodeWord w = .ok (.ldWn d a imm stl) := fun w f => by
      refine (dec15 f.maj).trans ?_
      simp only [decMaj15, f.rd, f.ra, f.imm, f.stl, BitVec.ofNat_toNat, BitVec.setWidth_eq]
    have f : FI (enI 0x0000002B d a imm stl) 0x15 stl d a imm.toNat := fI (maj := 0x15) imm rfl (by decide) (lt_reg h0) (lt_reg h1) (lt_stl h2)
    exact ⟨f.toWord32, by decide, D _ f⟩

theorem ldH (d : Nat) (a : Nat) (imm : BitVec 10) (stl : Nat) : RoundTrip.Statement (.ldH d a imm stl) :=
  trip32 (w := enI 0x0000002D d a imm stl) (maj := 0x16) (stl := stl) rfl rfl fun hw => by
    obtain ⟨hw, h2⟩ := wf2 hw
    obtain ⟨h0, h1⟩ := wf2 hw
    have D : ∀ w, FI w 0x16 stl d a imm.toNat → decodeWord w = .ok (.ldH d a imm stl) := fun w f => by
      refine (dec16 f.maj).trans ?_
      simp only [decMaj16, f.rd, f.ra, f.imm, f.stl, BitVec.ofNat_toNat, BitVec.setWidth_eq]
    have f : FI (enI 0x0000002D d a imm stl) 0x16 stl d a imm.toNat := fI (maj := 0x16) imm rfl (by decide) (lt_reg h0) (lt_reg h1) (lt_stl h2)
    exact ⟨f.toWord32, by decide, D _ f⟩

theorem ldHn (d : Nat) (a : Nat) (imm : BitVec 10) (stl : Nat) : RoundTrip.Statement (.ldHn d a imm stl) :=
  trip32 (w := enI 0x0000002F d a imm stl) (maj := 0x17) (stl := stl) rfl rfl fun hw => by
    obtain ⟨hw, h2⟩ := wf2 hw
    obtain ⟨h0, h1⟩ := wf2 hw
    have D : ∀ w, FI w 0x17 stl d a imm.toNat → decodeWord w = .ok (.ldHn d a imm stl) := fun w f => by
      refine (dec17 f.maj).trans ?_
      simp only [decMaj17, f.rd, f.ra, f.imm, f.stl, BitVec.ofNat_toNat, BitVec.setWidth_eq]
    have f : FI (enI 0x0000002F d a imm stl) 0x17 stl d a imm.toNat := fI (maj := 0x17) imm rfl (by decide) (lt_reg h0) (lt_reg h1) (lt_stl h2)
    exact ⟨f.toWord32, by decide, D _ f⟩

theorem ldB (d : Nat) (a : Nat) (imm : BitVec 10) (stl : Nat) : RoundTrip.Statement (.ldB d a imm stl) :=
  trip32 (w := enI 0x00000031 d a imm stl) (maj := 0x18) (stl := stl) rfl rfl fun hw => by
    obtain ⟨hw, h2⟩ := wf2 hw
    obtain ⟨h0, h1⟩ := wf2 hw
    have D : ∀ w, FI w 0x18 stl d a imm.toNat → decodeWord w = .ok (.ldB d a imm stl) := fun w f => by
      refine (dec18 f.maj).trans ?_
      simp only [decMaj18, f.rd, f.ra, f.imm, f.stl, BitVec.ofNat_toNat, BitVec.setWidth_eq]
    have f : FI (enI 0x00000031 d a imm stl) 0x18 stl d a imm.toNat := fI (maj := 0x18) imm rfl (by decide) (lt_reg h0) (lt_reg h1) (lt_stl h2)
    exact ⟨f.toWord32, by decide, D _ f⟩

theorem ldBn (d : Nat) (a : Nat) (imm : BitVec 10) (stl : Nat) : RoundTrip.Statement (.ldBn d a imm stl) :=
  trip32 (w := enI 0x00000033 d a imm stl) (maj := 0x19) (stl := stl) rfl rfl fun hw => by
    obtain ⟨hw, h2⟩ := wf2 hw
    obtain ⟨h0, h1⟩ := wf2 hw
    have D : ∀ w, FI w 0x19 stl d a imm.toNat → decodeWord w = .ok (.ldBn d a imm stl) := fun w f => by
      refine (dec19 f.maj).trans ?_
      simp only [decMaj19, f.rd, f.ra, f.imm, f.stl, BitVec.ofNat_toNat, BitVec.setWidth_eq]
    have f : FI (enI 0x00000033 d a imm stl) 0x19 stl d a imm.toNat := fI (maj := 0x19) imm rfl (by decide) (lt_reg h0) (lt_reg h1) (lt_stl h2)
    exact ⟨f.toWord32, by decide, D _ f⟩

theorem stD (d : Nat) (a : Nat) (imm : BitVec 10) (stl : Nat) : RoundTrip.Statement (.stD d a imm stl) :=
  trip32 (w := enI 0x00000035 d a imm stl) (maj := 0x1A) (stl := stl) rfl rfl fun hw => by
    obtain ⟨hw, h2⟩ := wf2 hw
    obtain ⟨h0, h1⟩ := wf2 hw
    have D : ∀ w, FI w 0x1A stl d a imm.toNat → decodeWord w = .ok (.stD d a imm stl) := fun w f => by
      refine (dec1A f.maj).trans ?_
      simp only [decMaj1A, f.rd, f.ra, f.imm, f.stl, BitVec.ofNat_toNat, BitVec.setWidth_eq]
    have f : FI (enI 0x00000035 d a imm stl) 0x1A stl d a imm.toNat := fI (maj := 0x1A) imm rfl (by decide) (lt_reg h0) (lt_reg h1) (lt_stl h2)
    exact ⟨f.toWord32, by decide, D _ f⟩

theorem stW (d : Nat) (a : Nat) (imm : BitVec 10) (stl : Nat) : RoundTrip.Statement (.stW d a imm stl) :=
  trip32 (w := enI 0x00000037 d a imm stl) (maj := 0x1B) (stl := stl) rfl rfl fun hw => by
    obtain ⟨hw, h2⟩ := wf2 hw
    obtain ⟨h0, h1⟩ := wf2 hw
    have D : ∀ w, FI w 0x1B stl d a imm.toNat → decodeWord w = .ok (.stW d a imm stl) := fun w f => by
      refine (dec1B f.maj).trans ?_
      simp only [decMaj1B, f.rd, f.ra, f.imm, f.stl, BitVec.ofNat_toNat, BitVec.setWidth_eq]
    have f : FI (enI 0x00000037 d a imm stl) 0x1B stl d a imm.toNat := fI (maj := 0x1B) imm rfl (by decide) (lt_reg h0) (lt_reg h1) (lt_stl h2)
    exact ⟨f.toWord32, by decide, D _ f⟩

theorem stH (d : Nat) (a : Nat) (imm : BitVec 10) (stl : Nat) : RoundTrip.Statement (.stH d a imm stl) :=
  trip32 (w := enI 0x00000039 d a imm stl) (maj := 0x1C) (stl := stl) rfl rfl fun hw => by
    obtain ⟨hw, h2⟩ := wf2 hw
    obtain ⟨h0, h1⟩ := wf2 hw
    have D : ∀ w, FI w 0x1C stl d a imm.toNat → decodeWord w = .ok (.stH d a imm stl) := fun w f => by
      refine (dec1C f.maj).trans ?_
      simp only [decMaj1C, f.rd, f.ra, f.imm, f.stl, BitVec.ofNat_toNat, BitVec.setWidth_eq]
    have f : FI (enI 0x00000039 d a imm stl) 0x1C stl d a imm.toNat := fI (maj := 0x1C) imm rfl (by decide) (lt_reg h0) (lt_reg h1) (lt_stl h2)
    exact ⟨f.toWord32, by decide, D _ f⟩

theorem stB (d : Nat) (a : Nat) (imm : BitVec 10) (stl : Nat) : RoundTrip.Statement (.stB d a imm stl) :=
  trip32 (w := enI 0x0000003B d a imm stl) (maj := 0x1D) (stl := stl) rfl rfl fun hw => by
    obtain ⟨hw, h2⟩ := wf2 hw
    obtain ⟨h0, h1⟩ := wf2 hw
    have D : ∀ w, FI w 0x1D stl d a imm.toNat → decodeWord w = .ok (.stB d a imm stl) := fun w f => by
      refine (dec1D f.maj).trans ?_
      simp only [decMaj1D, f.rd, f.ra, f.imm, f.stl, BitVec.ofNat_toNat, BitVec.setWidth_eq]
    have f : FI (enI 0x0000003B d a imm stl) 0x1D stl d a imm.toNat := fI (maj := 0x1D) imm rfl (by decide) (lt_reg h0) (lt_reg h1) (lt_stl h2)
    exact ⟨f.toWord32, by decide, D _ f⟩

theorem csrr (csr : Nat) (d : Nat) (stl : Nat) : RoundTrip.Statement (.csrr csr d stl) :=
  trip32 (w := enRR 0x0000003D 0 0 0 stl + csr * 2 ^ 16 + d * 2 ^ 10) (maj := 0x1E) (stl := stl) (congrArg some (congrArg (fun w => [fld w 0 16, fld w 16 16]) (by unfold enRR; omega))) rfl fun hw => by
    obtain ⟨hw, h2⟩ := wf2 hw
    obtain ⟨h0, h1⟩ := wf2 hw
    have D : ∀ w, Word32 w 0x1E stl ∧ fld w 10 6 = d ∧ fld w 16 10 = csr ∧ fld w 26 6 = 0 → decodeWord w = .ok (.csrr csr d stl) := fun w f => by
      obtain ⟨f, g1, g2, g3⟩ := f
      refine (dec1E f.maj).trans ?_
      simp only [needZero, guardOk, if_true, decMaj1E, f.stl, g1, g2, g3, h0]
    have f : Word32 (enRR 0x0000003D 0 0 0 stl + csr * 2 ^ 16 + d * 2 ^ 10) 0x1E stl ∧ fld (enRR 0x0000003D 0 0 0 stl + csr * 2 ^ 16 + d * 2 ^ 10) 10 6 = d ∧ fld (enRR 0x0000003D 0 0 0 stl + csr * 2 ^ 16 + d * 2 ^ 10) 16 10 = csr ∧ fld (enRR 0x0000003D 0 0 0 stl + csr * 2 ^ 16 + d * 2 ^ 10) 26 6 = 0 := fC (maj := 0x1E) (k := 0) rfl rfl (by decide) (by decide) (csr_lt h0) (lt_reg h1) (lt_stl h2)
    exact ⟨f.1, by decide, D _ f⟩

theorem csrw (csr : Nat) (x : Nat) (stl : Nat) : RoundTrip.Statement (.csrw csr x stl) :=
  trip32 (w := enRR 0x0000003F 0 0 0 stl + csr * 2 ^ 16 + x * 2 ^ 10) (maj := 0x1F) (stl := stl) rfl rfl fun hw => by
    obtain ⟨hw, h2⟩ := wf2 hw
    obtain ⟨h0, h1⟩ := wf2 hw
    have D : ∀ w, Word32 w 0x1F stl ∧ fld w 10 6 = x ∧ fld w 16 10 = csr ∧ fld w 26 6 = 0 → decodeWord w = .ok (.csrw csr x stl) := fun w f => by
      obtain ⟨f, g1, g2, g3⟩ := f
      refine (dec1F f.maj).trans ?_
      simp only [guardOk, if_true, decMaj1F, f.stl, g1, g2, g3, h0]
    have f : Word32 (enRR 0x0000003F 0 0 0 stl + csr * 2 ^ 16 + x * 2 ^ 10) 0x1F stl ∧ fld (enRR 0x0000003F 0 0 0 stl + csr * 2 ^ 16 + x * 2 ^ 10) 10 6 = x ∧ fld (enRR 0x0000003F 0 0 0 stl + csr * 2 ^ 16 + x * 2 ^ 10) 16 10 = csr ∧ fld (enRR 0x0000003F 0 0 0 stl + csr * 2 ^ 16 + x * 2 ^ 10) 26 6 = 0 := fC (maj := 0x1F) (k := 0) rfl rfl (by decide) (by decide) (csr_lt h0) (lt_reg h1) (lt_stl h2)
    exact ⟨f.1, by decide, D _ f⟩

theorem csrs (csr : Nat) (x : Nat) (stl : Nat) : RoundTrip.Statement (.csrs csr x stl) :=
  trip32 (w := enRR 0x0400003F 0 0 0 stl + csr * 2 ^ 16 + x * 2 ^ 10) (maj := 0x1F) (stl := stl) rfl rfl fun hw => by
    obtain ⟨hw, h2⟩ := wf2 hw
    obtain ⟨h0, h1⟩ := wf2 hw
    have D : ∀ w, Word32 w 0x1F stl ∧ fld w 10 6 = x ∧ fld w 16 10 = csr ∧ fld w 26 6 = 1 → decodeWord w = .ok (.csrs csr x stl) := fun w f => by
      obtain ⟨f, g1, g2, g3⟩ := f
      refine (dec1F f.maj).trans ?_
      simp only [guardOk, if_true, decMaj1F, f.stl, g1, g2, g3, h0]
    have f : Word32 (enRR 0x0400003F 0 0 0 stl + csr * 2 ^ 16 + x * 2 ^ 10) 0x1F stl ∧ fld (enRR 0x0400003F 0 0 0 stl + csr * 2 ^ 16 + x * 2 ^ 10) 10 6 = x ∧ fld (enRR 0x0400003F 0 0 0 stl + csr * 2 ^ 16 + x * 2 ^ 10) 16 10 = csr ∧ fld (enRR 0x0400003F 0 0 0 stl + csr * 2 ^ 16 + x * 2 ^ 10) 26 6 = 1 := fC (maj := 0x1F) (k := 1) rfl rfl (by decide) (by decide) (csr_lt h0) (lt_reg h1) (lt_stl h2)
    exact ⟨f.1, by decide, D _ f⟩

theorem csrc (csr : Nat) (x : Nat) (stl : Nat) : RoundTrip.Statement (.csrc csr x stl) :=
  trip32 (w := enRR 0x0800003F 0 0 0 stl + csr * 2 ^ 16 + x * 2 ^ 10) (maj := 0x1F) (stl := stl) rfl rfl fun hw => by
    obtain ⟨hw, h2⟩ := wf2 hw
    obtain ⟨h0, h1⟩ := wf2 hw
    have D : ∀ w, Word32 w 0x1F stl ∧ fld w 10 6 = x ∧ fld w 16 10 = csr ∧ fld w 26 6 = 2 → decodeWord w = .ok (.csrc csr x stl) := fun w f => by
      obtain ⟨f, g1, g2, g3⟩ := f
      refine (dec1F f.maj).trans ?_
      simp only [guardOk, if_true, decMaj1F, f.stl, g1, g2, g3, h0]
    have f : Word32 (enRR 0x0800003F 0 0 0 stl + csr * 2 ^ 16 + x * 2 ^ 10) 0x1F stl ∧ fld (enRR 0x0800003F 0 0 0 stl + csr * 2 ^ 16 + x * 2 ^ 10) 10 6 = x ∧ fld (enRR 0x0800003F 0 0 0 stl + csr * 2 ^ 16 + x * 2 ^ 10) 16 10 = csr ∧ fld (enRR 0x0800003F 0 0 0 stl + csr * 2 ^ 16 + x * 2 ^ 10) 26 6 = 2 := fC (maj := 0x1F) (k := 2) rfl rfl (by decide) (by decide) (csr_lt h0) (lt_reg h1) (lt_stl h2)
    exact ⟨f.1, by decide, D _ f⟩

theorem trap (code : BitVec 6) (stl : Nat) : RoundTrip.Statement (.trap code stl) :=
  trip32 (w := enRR 0x00000041 0 0 0 stl + (code.toNat) * 2 ^ 26) (maj := 0x20) (stl := stl) rfl rfl fun hw => by
    have h0 := hw
    have D : ∀ w, F22 w 0x20 stl 0 0 0 (code.toNat) → decodeWord w = .ok (.trap code stl) := fun w f => by
      have ez : fld w 10 12 = 0 := f.rda
      refine (dec20 f.maj).trans ?_
      simp only [needZero, if_true, decMaj20, f.fn, f.stl, ez, f.u6, BitVec.ofNat_toNat, BitVec.setWidth_eq]
    have f : F22 (enRR 0x00000041 0 0 0 stl + (code.toNat) * 2 ^ 26) 0x20 stl 0 0 0 (code.toNat) := f22 (maj := 0x20) (k := 0) (e := code.toNat) rfl rfl (by decide) (by decide) (by decide) (by decide) (lt_stl h0) (by have := code.isLt; omega)
    exact ⟨f.toWord32, by decide, D _ f⟩

theorem rett (stl : Nat) : RoundTrip.Statement (.rett stl) :=
  trip32 (w := enRR 0x00400041 0 0 0 stl + (0) * 2 ^ 26) (maj := 0x20) (stl := stl) (congrArg some (congrArg (fun w => [fld w 0 16, fld w 16 16]) (by unfold enRR; omega))) rfl fun hw => by
    have h0 := hw
    have D : ∀ w, F22 w 0x20 stl 0 0 1 (0) → decodeWord w = .ok (.rett stl) := fun w f => by
      have ez : fld w 10 12 = 0 := f.rda
      refine (dec20 f.maj).trans ?_
      simp only [needZero, if_true, decMaj20, f.fn, f.stl, ez, f.u6]
    have f : F22 (enRR 0x00400041 0 0 0 stl + (0) * 2 ^ 26) 0x20 stl 0 0 1 (0) := f22 (maj := 0x20) (k := 1) (e := 0) rfl rfl (by decide) (by decide) (by decide) (by decide) (lt_stl h0) (by decide)
    exact ⟨f.toWord32, by decide, D _ f⟩

theorem halt (stl : Nat) : RoundTrip.Statement (.halt stl) :=
  trip32 (w := enRR 0x00800041 0 0 0 stl + (0) * 2 ^ 26) (maj := 0x20) (stl := stl) (congrArg some (congrArg (fun w => [fld w 0 16, fld w 16 16]) (by unfold enRR; omega))) rfl fun hw => by
    have h0 := hw
    have D : ∀ w, F22 w 0x20 stl 0 0 2 (0) → decodeWord w = .ok (.halt stl) := fun w f => by
      have ez : fld w 10 12 = 0 := f.rda
      refine (dec20 f.maj).trans ?_
      simp only [needZero, if_true, decMaj20, f.fn, f.stl, ez, f.u6]
    have f : F22 (enRR 0x00800041 0 0 0 stl + (0) * 2 ^ 26) 0x20 stl 0 0 2 (0) := f22 (maj := 0x20) (k := 2) (e := 0) rfl rfl (by decide) (by decide) (by decide) (by decide) (lt_stl h0) (by decide)
    exact ⟨f.toWord32, by decide, D _ f⟩

theorem sleep (a : Nat) (stl : Nat) : RoundTrip.Statement (.sleep a stl) :=
  trip32 (w := enRR 0x00C00041 0 a 0 stl + (0) * 2 ^ 26) (maj := 0x20) (stl := stl) (congrArg some (congrArg (fun w => [fld w 0 16, fld w 16 16]) (by unfold enRR; omega))) rfl fun hw => by
    obtain ⟨h0, h1⟩ := wf2 hw
    have D : ∀ w, F22 w 0x20 stl 0 a 3 (0) → decodeWord w = .ok (.sleep a stl) := fun w f => by
      refine (dec20 f.maj).trans ?_
      simp only [needZero, if_true, decMaj20, f.fn, f.rd, f.ra, f.stl, f.u6]
    have f : F22 (enRR 0x00C00041 0 a 0 stl + (0) * 2 ^ 26) 0x20 stl 0 a 3 (0) := f22 (maj := 0x20) (k := 3) (e := 0) rfl rfl (by decide) (by decide) (by decide) (lt_reg h0) (lt_stl h1) (by decide)
    exact ⟨f.toWord32, by decide, D _ f⟩

theorem ibar (stl : Nat) : RoundTrip.Statement (.ibar stl) :=
  trip32 (w := enRR 0x01000041 0 0 0 stl + (0) * 2 ^ 26) (maj := 0x20) (stl := stl) (congrArg some (congrArg (fun w => [fld w 0 16, fld w 16 16]) (by unfold enRR; omega))) rfl fun hw => by
    have h0 := hw
    have D : ∀ w, F22 w 0x20 stl 0 0 4 (0) → decodeWord w = .ok (.ibar stl) := fun w f => by
      have ez : fld w 10 12 = 0 := f.rda
      refine (dec20 f.maj).trans ?_
      simp only [needZero, if_true, decMaj20, f.fn, f.stl, ez, f.u6]
    have f : F22 (enRR 0x01000041 0 0 0 stl + (0) * 2 ^ 26) 0x20 stl 0 0 4 (0) := f22 (maj := 0x20) (k := 4) (e := 0) rfl rfl (by decide) (by decide) (by decide) (by decide) (lt_stl h0) (by decide)
    exact ⟨f.toWord32, by decide, D _ f⟩

theorem iinv (d : Nat) (a : Nat) (sc : Scope) (stl : Nat) : RoundTrip.Statement (.iinv d a sc stl) :=
  trip32 (w := enRR 0x01400041 d a 0 stl + (sc.code * 8) * 2 ^ 26) (maj := 0x20) (stl := stl) (congrArg some (congrArg (fun w => [fld w 0 16, fld w 16 16]) (by unfold enRR; omega))) rfl fun hw => by
    obtain ⟨hw, h2⟩ := wf2 hw
    obtain ⟨h0, h1⟩ := wf2 hw
    have D : ∀ w, F22 w 0x20 stl d a 5 (sc.code * 8) → decodeWord w = .ok (.iinv d a sc stl) := fun w f => by
      have ezz : fld w 26 3 = 0 := f.e3.trans (by have := (ofCode_scope sc).2; omega)
      have ex : fld w 29 3 = sc.code := f.u3.trans (by have := (ofCode_scope sc).2; omega)
      refine (dec20 f.maj).trans ?_
      simp only [needZero, withOpt, if_true, decMaj20, f.fn, f.rd, f.ra, f.stl, ezz, ex, (ofCode_scope sc).1]
    have f : F22 (enRR 0x01400041 d a 0 stl + (sc.code * 8) * 2 ^ 26) 0x20 stl d a 5 (sc.code * 8) := f22 (maj := 0x20) (k := 5) (e := sc.code * 8) rfl rfl (by decide) (by decide) (lt_reg h0) (lt_reg h1) (lt_stl h2) (by have := (ofCode_scope sc).2; omega)
    exact ⟨f.toWord32, by decide, D _ f⟩

theorem brk (code : BitVec 6) (stl : Nat) : RoundTrip.Statement (.brk code stl) :=
  trip32 (w := enRR 0x01800041 0 0 0 stl + (code.toNat) * 2 ^ 26) (maj := 0x20) (stl := stl) rfl rfl fun hw => by
    have h0 := hw
    have D : ∀ w, F22 w 0x20 stl 0 0 6 (code.toNat) → decodeWord w = .ok (.brk code stl) := fun w f => by
      have ez : fld w 10 12 = 0 := f.rda
      refine (dec20 f.maj).trans ?_
      simp only [needZero, if_true, decMaj20, f.fn, f.stl, ez, f.u6, BitVec.ofNat_toNat, BitVec.setWidth_eq]
    have f : F22 (enRR 0x01800041 0 0 0 stl + (code.toNat) * 2 ^ 26) 0x20 stl 0 0 6 (code.toNat) := f22 (maj := 0x20) (k := 6) (e := code.toNat) rfl rfl (by decide) (by decide) (by decide) (by decide) (lt_stl h0) (by have := code.isLt; omega)
    exact ⟨f.toWord32, by decide, D _ f⟩

theorem resume (d : Nat) (a : Nat) (stl : Nat) : RoundTrip.Statement (.resume d a stl) :=
  trip32 (w := enRR 0x01C00041 d a 0 stl + (0) * 2 ^ 26) (maj := 0x20) (stl := stl) (congrArg some (congrArg (fun w => [fld w 0 16, fld w 16 16]) (by unfold enRR; omega))) rfl fun hw => by
    obtain ⟨hw, h2⟩ := wf2 hw
    obtain ⟨h0, h1⟩ := wf2 hw
    have D : ∀ w, F22 w 0x20 stl d a 7 (0) → decodeWord w = .ok (.resume d a stl) := fun w f => by
      refine (dec20 f.maj).trans ?_
      simp only [needZero, if_true, decMaj20, f.fn, f.rd, f.ra, f.stl, f.u6]
    have f : F22 (enRR 0x01C00041 d a 0 stl + (0) * 2 ^ 26) 0x20 stl d a 7 (0) := f22 (maj := 0x20) (k := 7) (e := 0) rfl rfl (by decide) (by decide) (lt_reg h0) (lt_reg h1) (lt_stl h2) (by decide)
    exact ⟨f.toWord32, by decide, D _ f⟩

theorem wset (a : Nat) (idx : Nat) (stl : Nat) : RoundTrip.Statement (.wset a idx stl) :=
  trip32 (w := enRR 0x00000043 0 a 0 stl + (idx * 2) * 2 ^ 26) (maj := 0x21) (stl := stl) (congrArg some (congrArg (fun w => [fld w 0 16, fld w 16 16]) (by unfold enRR; omega))) rfl fun hw => by
    obtain ⟨hw, h2⟩ := wf2 hw
    obtain ⟨h0, h1⟩ := wf2 hw
    have D : ∀ w, F22 w 0x21 stl 0 a 0 (idx * 2) → decodeWord w = .ok (.wset a idx stl) := fun w f => by
      have ezz : fld w 26 1 = 0 := f.e1.trans (by have := (of_decide_eq_true h1); omega)
      have ex : fld w 27 5 = idx := f.u5.trans (by have := (of_decide_eq_true h1); omega)
      refine (dec21 f.maj).trans ?_
      simp only [needZero, if_true, decMaj21, f.fn, f.rd, f.ra, f.stl, ezz, ex]
    have f : F22 (enRR 0x00000043 0 a 0 stl + (idx * 2) * 2 ^ 26) 0x21 stl 0 a 0 (idx * 2) := f22 (maj := 0x21) (k := 0) (e := idx * 2) rfl rfl (by decide) (by decide) (by decide) (lt_reg h0) (lt_stl h2) (by have := (of_decide_eq_true h1); omega)
    exact ⟨f.toWord32, by decide, D _ f⟩

theorem wget (d : Nat) (idx : Nat) (stl : Nat) : RoundTrip.Statement (.wget d idx stl) :=
  trip32 (w := enRR 0x00400043 d 0 0 stl + (idx * 2) * 2 ^ 26) (maj := 0x21) (stl := stl) (congrArg some (congrArg (fun w => [fld w 0 16, fld w 16 16]) (by unfold enRR; omega))) rfl fun hw => by
    obtain ⟨hw, h2⟩ := wf2 hw
    obtain ⟨h0, h1⟩ := wf2 hw
    have D : ∀ w, F22 w 0x21 stl d 0 1 (idx * 2) → decodeWord w = .ok (.wget d idx stl) := fun w f => by
      have ezz : fld w 26 1 = 0 := f.e1.trans (by have := (of_decide_eq_true h1); omega)
      have ex : fld w 27 5 = idx := f.u5.trans (by have := (of_decide_eq_true h1); omega)
      refine (dec21 f.maj).trans ?_
      simp only [needZero, if_true, decMaj21, f.fn, f.rd, f.ra, f.stl, ezz, ex]
    have f : F22 (enRR 0x00400043 d 0 0 stl + (idx * 2) * 2 ^ 26) 0x21 stl d 0 1 (idx * 2) := f22 (maj := 0x21) (k := 1) (e := idx * 2) rfl rfl (by decide) (by decide) (lt_reg h0) (by decide) (lt_stl h2) (by have := (of_decide_eq_true h1); omega)
    exact ⟨f.toWord32, by decide, D _ f⟩

theorem wsw (idx : Nat) (stl : Nat) : RoundTrip.Statement (.wsw idx stl) :=
  trip32 (w := enRR 0x00800043 0 0 0 stl + (idx * 2) * 2 ^ 26) (maj := 0x21) (stl := stl) (congrArg some (congrArg (fun w => [fld w 0 16, fld w 16 16]) (by unfold enRR; omega))) rfl fun hw => by
    obtain ⟨h0, h1⟩ := wf2 hw
    have D : ∀ w, F22 w 0x21 stl 0 0 2 (idx * 2) → decodeWord w = .ok (.wsw idx stl) := fun w f => by
      have ez : fld w 10 12 = 0 := f.rda
      have ezz : fld w 26 1 = 0 := f.e1.trans (by have := (of_decide_eq_true h0); omega)
      have ex : fld w 27 5 = idx := f.u5.trans (by have := (of_decide_eq_true h0); omega)
      refine (dec21 f.maj).trans ?_
      simp only [needZero, if_true, decMaj21, f.fn, f.stl, ez, ezz, ex]
    have f : F22 (enRR 0x00800043 0 0 0 stl + (idx * 2) * 2 ^ 26) 0x21 stl 0 0 2 (idx * 2) := f22 (maj := 0x21) (k := 2) (e := idx * 2) rfl rfl (by decide) (by decide) (by decide) (by decide) (lt_stl h1) (by have := (of_decide_eq_true h0); omega)
    exact ⟨f.toWord32, by decide, D _ f⟩

theorem wswj (idx : Nat) (stl : Nat) : RoundTrip.Statement (.wswj idx stl) :=
  trip32 (w := enRR 0x00C00043 0 0 0 stl + (idx * 2) * 2 ^ 26) (maj := 0x21) (stl := stl) (congrArg some (congrArg (fun w => [fld w 0 16, fld w 16 16]) (by unfold enRR; omega))) rfl fun hw => by
    obtain ⟨h0, h1⟩ := wf2 hw
    have D : ∀ w, F22 w 0x21 stl 0 0 3 (idx * 2) → decodeWord w = .ok (.wswj idx stl) := fun w f => by
      have ez : fld w 10 12 = 0 := f.rda
      have ezz : fld w 26 1 = 0 := f.e1.trans (by have := (of_decide_eq_true h0); omega)
      have ex : fld w 27 5 = idx := f.u5.trans (by have := (of_decide_eq_true h0); omega)
      refine (dec21 f.maj).trans ?_
      simp only [needZero, if_true, decMaj21, f.fn, f.stl, ez, ezz, ex]
    have f : F22 (enRR 0x00C00043 0 0 0 stl + (idx * 2) * 2 ^ 26) 0x21 stl 0 0 3 (idx * 2) := f22 (maj := 0x21) (k := 3) (e := idx * 2) rfl rfl (by decide) (by decide) (by decide) (by decide) (lt_stl h1) (by have := (of_decide_eq_true h0); omega)
    exact ⟨f.toWord32, by decide, D _ f⟩

theorem wshr (d : Nat) (a : Nat) (idx : Nat) (stl : Nat) : RoundTrip.Statement (.wshr d a idx stl) :=
  trip32 (w := enRR 0x01000043 d a 0 stl + (idx * 2) * 2 ^ 26) (maj := 0x21) (stl := stl) (congrArg some (congrArg (fun w => [fld w 0 16, fld w 16 16]) (by unfold enRR; omega))) rfl fun hw => by
    obtain ⟨hw, h3⟩ := wf2 hw
    obtain ⟨hw, h2⟩ := wf2 hw
    obtain ⟨h0, h1⟩ := wf2 hw
    have D : ∀ w, F22 w 0x21 stl d a 4 (idx * 2) → decodeWord w = .ok (.wshr d a idx stl) := fun w f => by
      have ezz : fld w 26 1 = 0 := f.e1.trans (by have := (of_decide_eq_true h2); omega)
      have ex : fld w 27 5 = idx := f.u5.trans (by have := (of_decide_eq_true h2); omega)
      refine (dec21 f.maj).trans ?_
      simp only [needZero, if_true, decMaj21, f.fn, f.rd, f.ra, f.stl, ezz, ex]
    have f : F22 (enRR 0x01000043 d a 0 stl + (idx * 2) * 2 ^ 26) 0x21 stl d a 4 (idx * 2) := f22 (maj := 0x21) (k := 4) (e := idx * 2) rfl rfl (by decide) (by decide) (lt_reg h0) (lt_reg h1) (lt_stl h3) (by have := (of_decide_eq_true h2); omega)
    exact ⟨f.toWord32, by decide, D _ f⟩

theorem wclr (idx : Nat) (stl : Nat) : RoundTrip.Statement (.wclr idx stl) :=
  trip32 (w := enRR 0x01400043 0 0 0 stl + (idx * 2) * 2 ^ 26) (maj := 0x21) (stl := stl) (congrArg some (congrArg (fun w => [fld w 0 16, fld w 16 16]) (by unfold enRR; omega))) rfl fun hw => by
    obtain ⟨h0, h1⟩ := wf2 hw
    have D : ∀ w, F22 w 0x21 stl 0 0 5 (idx * 2) → decodeWord w = .ok (.wclr idx stl) := fun w f => by
      have ez : fld w 10 12 = 0 := f.rda
      have ezz : fld w 26 1 = 0 := f.e1.trans (by have := (of_decide_eq_true h0); omega)
      have ex : fld w 27 5 = idx := f.u5.trans (by have := (of_decide_eq_true h0); omega)
      refine (dec21 f.maj).trans ?_
      simp only [needZero, if_true, decMaj21, f.fn, f.stl, ez, ezz, ex]
    have f : F22 (enRR 0x01400043 0 0 0 stl + (idx * 2) * 2 ^ 26) 0x21 stl 0 0 5 (idx * 2) := f22 (maj := 0x21) (k := 5) (e := idx * 2) rfl rfl (by decide) (by decide) (by decide) (by decide) (lt_stl h1) (by have := (of_decide_eq_true h0); omega)
    exact ⟨f.toWord32, by decide, D _ f⟩

theorem warena (d : Nat) (a : Nat) (stl : Nat) : RoundTrip.Statement (.warena d a stl) :=
  trip32 (w := enRR 0x01800043 d a 0 stl + (0) * 2 ^ 26) (maj := 0x21) (stl := stl) (congrArg some (congrArg (fun w => [fld w 0 16, fld w 16 16]) (by unfold enRR; omega))) rfl fun hw => by
    obtain ⟨hw, h2⟩ := wf2 hw
    obtain ⟨h0, h1⟩ := wf2 hw
    have D : ∀ w, F22 w 0x21 stl d a 6 (0) → decodeWord w = .ok (.warena d a stl) := fun w f => by
      refine (dec21 f.maj).trans ?_
      simp only [needZero, if_true, decMaj21, f.fn, f.rd, f.ra, f.stl, f.u6]
    have f : F22 (enRR 0x01800043 d a 0 stl + (0) * 2 ^ 26) 0x21 stl d a 6 (0) := f22 (maj := 0x21) (k := 6) (e := 0) rfl rfl (by decide) (by decide) (lt_reg h0) (lt_reg h1) (lt_stl h2) (by decide)
    exact ⟨f.toWord32, by decide, D _ f⟩

theorem pfx (p : Pfx) (v : VOp) : RoundTrip.Statement (.pfx p v) := trip_pfx p v

theorem vaddF32 (d : Nat) (a : Nat) (b : Nat) (stl : Nat) : RoundTrip.Statement (.vaddF32 d a b stl) :=
  trip32 (w := enRR 0x00000045 d a b stl) (maj := 0x22) (stl := stl) rfl rfl fun hw => by
    obtain ⟨hw, h3⟩ := wf2 hw
    obtain ⟨hw, h2⟩ := wf2 hw
    obtain ⟨h0, h1⟩ := wf2 hw
    have D : ∀ w, F28 w 0x22 stl d a b 0 → decodeWord w = .ok (.vaddF32 d a b stl) := fun w f => by
      exact (dec22 f.maj).trans (decodeVWord_eq f.stl (decodeV_lane f (by decide) (by decide)) rfl)
    have f : F28 (enRR 0x00000045 d a b stl) 0x22 stl d a b 0 := f28 (maj := 0x22) (k := 0) rfl (by decide) (by decide) (lt_reg h0) (lt_reg h1) (lt_reg h2) (lt_stl h3)
    exact ⟨f.toWord32, by decide, D _ f⟩

theorem vsubF32 (d : Nat) (a : Nat) (b : Nat) (stl : Nat) : RoundTrip.Statement (.vsubF32 d a b stl) :=
  trip32 (w := enRR 0x10000045 d a b stl) (maj := 0x22) (stl := stl) rfl rfl fun hw => by
    obtain ⟨hw, h3⟩ := wf2 hw
    obtain ⟨hw, h2⟩ := wf2 hw
    obtain ⟨h0, h1⟩ := wf2 hw
    have D : ∀ w, F28 w 0x22 stl d a b 1 → decodeWord w = .ok (.vsubF32 d a b stl) := fun w f => by
      exact (dec22 f.maj).trans (decodeVWord_eq f.stl (decodeV_lane f (by decide) (by decide)) rfl)
    have f : F28 (enRR 0x10000045 d a b stl) 0x22 stl d a b 1 := f28 (maj := 0x22) (k := 1) rfl (by decide) (by decide) (lt_reg h0) (lt_reg h1) (lt_reg h2) (lt_stl h3)
    exact ⟨f.toWord32, by decide, D _ f⟩

theorem vmulF32 (d : Nat) (a : Nat) (b : Nat) (stl : Nat) : RoundTrip.Statement (.vmulF32 d a b stl) :=
  trip32 (w := enRR 0x20000045 d a b stl) (maj := 0x22) (stl := stl) rfl rfl fun hw => by
    obtain ⟨hw, h3⟩ := wf2 hw
    obtain ⟨hw, h2⟩ := wf2 hw
    obtain ⟨h0, h1⟩ := wf2 hw
    have D : ∀ w, F28 w 0x22 stl d a b 2 → decodeWord w = .ok (.vmulF32 d a b stl) := fun w f => by
      exact (dec22 f.maj).trans (decodeVWord_eq f.stl (decodeV_lane f (by decide) (by decide)) rfl)
    have f : F28 (enRR 0x20000045 d a b stl) 0x22 stl d a b 2 := f28 (maj := 0x22) (k := 2) rfl (by decide) (by decide) (lt_reg h0) (lt_reg h1) (lt_reg h2) (lt_stl h3)
    exact ⟨f.toWord32, by decide, D _ f⟩

theorem vmacF32 (d : Nat) (a : Nat) (b : Nat) (stl : Nat) : RoundTrip.Statement (.vmacF32 d a b stl) :=
  trip32 (w := enRR 0x30000045 d a b stl) (maj := 0x22) (stl := stl) rfl rfl fun hw => by
    obtain ⟨hw, h3⟩ := wf2 hw
    obtain ⟨hw, h2⟩ := wf2 hw
    obtain ⟨h0, h1⟩ := wf2 hw
    have D : ∀ w, F28 w 0x22 stl d a b 3 → decodeWord w = .ok (.vmacF32 d a b stl) := fun w f => by
      exact (dec22 f.maj).trans (decodeVWord_eq f.stl (decodeV_lane f (by decide) (by decide)) rfl)
    have f : F28 (enRR 0x30000045 d a b stl) 0x22 stl d a b 3 := f28 (maj := 0x22) (k := 3) rfl (by decide) (by decide) (lt_reg h0) (lt_reg h1) (lt_reg h2) (lt_stl h3)
    exact ⟨f.toWord32, by decide, D _ f⟩

theorem vminF32 (d : Nat) (a : Nat) (b : Nat) (stl : Nat) : RoundTrip.Statement (.vminF32 d a b stl) :=
  trip32 (w := enRR 0x40000045 d a b stl) (maj := 0x22) (stl := stl) rfl rfl fun hw => by
    obtain ⟨hw, h3⟩ := wf2 hw
    obtain ⟨hw, h2⟩ := wf2 hw
    obtain ⟨h0, h1⟩ := wf2 hw
    have D : ∀ w, F28 w 0x22 stl d a b 4 → decodeWord w = .ok (.vminF32 d a b stl) := fun w f => by
      exact (dec22 f.maj).trans (decodeVWord_eq f.stl (decodeV_lane f (by decide) (by decide)) rfl)
    have f : F28 (enRR 0x40000045 d a b stl) 0x22 stl d a b 4 := f28 (maj := 0x22) (k := 4) rfl (by decide) (by decide) (lt_reg h0) (lt_reg h1) (lt_reg h2) (lt_stl h3)
    exact ⟨f.toWord32, by decide, D _ f⟩

theorem vmaxF32 (d : Nat) (a : Nat) (b : Nat) (stl : Nat) : RoundTrip.Statement (.vmaxF32 d a b stl) :=
  trip32 (w := enRR 0x50000045 d a b stl) (maj := 0x22) (stl := stl) rfl rfl fun hw => by
    obtain ⟨hw, h3⟩ := wf2 hw
    obtain ⟨hw, h2⟩ := wf2 hw
    obtain ⟨h0, h1⟩ := wf2 hw
    have D : ∀ w, F28 w 0x22 stl d a b 5 → decodeWord w = .ok (.vmaxF32 d a b stl) := fun w f => by
      exact (dec22 f.maj).trans (decodeVWord_eq f.stl (decodeV_lane f (by decide) (by decide)) rfl)
    have f : F28 (enRR 0x50000045 d a b stl) 0x22 stl d a b 5 := f28 (maj := 0x22) (k := 5) rfl (by decide) (by decide) (lt_reg h0) (lt_reg h1) (lt_reg h2) (lt_stl h3)
    exact ⟨f.toWord32, by decide, D _ f⟩

theorem vminpF32 (d : Nat) (a : Nat) (b : Nat) (stl : Nat) : RoundTrip.Statement (.vminpF32 d a b stl) :=
  trip32 (w := enRR 0x60000045 d a b stl) (maj := 0x22) (stl := stl) rfl rfl fun hw => by
    obtain ⟨hw, h3⟩ := wf2 hw
    obtain ⟨hw, h2⟩ := wf2 hw
    obtain ⟨h0, h1⟩ := wf2 hw
    have D : ∀ w, F28 w 0x22 stl d a b 6 → decodeWord w = .ok (.vminpF32 d a b stl) := fun w f => by
      exact (dec22 f.maj).trans (decodeVWord_eq f.stl (decodeV_lane f (by decide) (by decide)) rfl)
    have f : F28 (enRR 0x60000045 d a b stl) 0x22 stl d a b 6 := f28 (maj := 0x22) (k := 6) rfl (by decide) (by decide) (lt_reg h0) (lt_reg h1) (lt_reg h2) (lt_stl h3)
    exact ⟨f.toWord32, by decide, D _ f⟩

theorem vmaxpF32 (d : Nat) (a : Nat) (b : Nat) (stl : Nat) : RoundTrip.Statement (.vmaxpF32 d a b stl) :=
  trip32 (w := enRR 0x70000045 d a b stl) (maj := 0x22) (stl := stl) rfl rfl fun hw => by
    obtain ⟨hw, h3⟩ := wf2 hw
    obtain ⟨hw, h2⟩ := wf2 hw
    obtain ⟨h0, h1⟩ := wf2 hw
    have D : ∀ w, F28 w 0x22 stl d a b 7 → decodeWord w = .ok (.vmaxpF32 d a b stl) := fun w f => by
      exact (dec22 f.maj).trans (decodeVWord_eq f.stl (decodeV_lane f (by decide) (by decide)) rfl)
    have f : F28 (enRR 0x70000045 d a b stl) 0x22 stl d a b 7 := f28 (maj := 0x22) (k := 7) rfl (by decide) (by decide) (lt_reg h0) (lt_reg h1) (lt_reg h2) (lt_stl h3)
    exact ⟨f.toWord32, by decide, D _ f⟩

theorem vandF32 (d : Nat) (a : Nat) (b : Nat) (stl : Nat) : RoundTrip.Statement (.vandF32 d a b stl) :=
  trip32 (w := enRR 0x80000045 d a b stl) (maj := 0x22) (stl := stl) rfl rfl fun hw => by
    obtain ⟨hw, h3⟩ := wf2 hw
    obtain ⟨hw, h2⟩ := wf2 hw
    obtain ⟨h0, h1⟩ := wf2 hw
    have D : ∀ w, F28 w 0x22 stl d a b 8 → decodeWord w = .ok (.vandF32 d a b stl) := fun w f => by
      exact (dec22 f.maj).trans (decodeVWord_eq f.stl (decodeV_lane f (by decide) (by decide)) rfl)
    have f : F28 (enRR 0x80000045 d a b stl) 0x22 stl d a b 8 := f28 (maj := 0x22) (k := 8) rfl (by decide) (by decide) (lt_reg h0) (lt_reg h1) (lt_reg h2) (lt_stl h3)
    exact ⟨f.toWord32, by decide, D _ f⟩

theorem vorF32 (d : Nat) (a : Nat) (b : Nat) (stl : Nat) : RoundTrip.Statement (.vorF32 d a b stl) :=
  trip32 (w := enRR 0x90000045 d a b stl) (maj := 0x22) (stl := stl) rfl rfl fun hw => by
    obtain ⟨hw, h3⟩ := wf2 hw
    obtain ⟨hw, h2⟩ := wf2 hw
    obtain ⟨h0, h1⟩ := wf2 hw
    have D : ∀ w, F28 w 0x22 stl d a b 9 → decodeWord w = .ok (.vorF32 d a b stl) := fun w f => by
      exact (dec22 f.maj).trans (decodeVWord_eq f.stl (decodeV_lane f (by decide) (by decide)) rfl)
    have f : F28 (enRR 0x90000045 d a b stl) 0x22 stl d a b 9 := f28 (maj := 0x22) (k := 9) rfl (by decide) (by decide) (lt_reg h0) (lt_reg h1) (lt_reg h2) (lt_stl h3)
    exact ⟨f.toWord32, by decide, D _ f⟩

theorem vxorF32 (d : Nat) (a : Nat) (b : Nat) (stl : Nat) : RoundTrip.Statement (.vxorF32 d a b stl) :=
  trip32 (w := enRR 0xA0000045 d a b stl) (maj := 0x22) (stl := stl) rfl rfl fun hw => by
    obtain ⟨hw, h3⟩ := wf2 hw
    obtain ⟨hw, h2⟩ := wf2 hw
    obtain ⟨h0, h1⟩ := wf2 hw
    have D : ∀ w, F28 w 0x22 stl d a b 10 → decodeWord w = .ok (.vxorF32 d a b stl) := fun w f => by
      exact (dec22 f.maj).trans (decodeVWord_eq f.stl (decodeV_lane f (by decide) (by decide)) rfl)
    have f : F28 (enRR 0xA0000045 d a b stl) 0x22 stl d a b 10 := f28 (maj := 0x22) (k := 10) rfl (by decide) (by decide) (lt_reg h0) (lt_reg h1) (lt_reg h2) (lt_stl h3)
    exact ⟨f.toWord32, by decide, D _ f⟩

theorem vshlF32 (d : Nat) (a : Nat) (b : Nat) (stl : Nat) : RoundTrip.Statement (.vshlF32 d a b stl) :=
  trip32 (w := enRR 0xB0000045 d a b stl) (maj := 0x22) (stl := stl) rfl rfl fun hw => by
    obtain ⟨hw, h3⟩ := wf2 hw
    obtain ⟨hw, h2⟩ := wf2 hw
    obtain ⟨h0, h1⟩ := wf2 hw
    have D : ∀ w, F28 w 0x22 stl d a b 11 → decodeWord w = .ok (.vshlF32 d a b stl) := fun w f => by
      exact (dec22 f.maj).trans (decodeVWord_eq f.stl (decodeV_lane f (by decide) (by decide)) rfl)
    have f : F28 (enRR 0xB0000045 d a b stl) 0x22 stl d a b 11 := f28 (maj := 0x22) (k := 11) rfl (by decide) (by decide) (lt_reg h0) (lt_reg h1) (lt_reg h2) (lt_stl h3)
    exact ⟨f.toWord32, by decide, D _ f⟩

theorem vshrF32 (d : Nat) (a : Nat) (b : Nat) (stl : Nat) : RoundTrip.Statement (.vshrF32 d a b stl) :=
  trip32 (w := enRR 0xC0000045 d a b stl) (maj := 0x22) (stl := stl) rfl rfl fun hw => by
    obtain ⟨hw, h3⟩ := wf2 hw
    obtain ⟨hw, h2⟩ := wf2 hw
    obtain ⟨h0, h1⟩ := wf2 hw
    have D : ∀ w, F28 w 0x22 stl d a b 12 → decodeWord w = .ok (.vshrF32 d a b stl) := fun w f => by
      exact (dec22 f.maj).trans (decodeVWord_eq f.stl (decodeV_lane f (by decide) (by decide)) rfl)
    have f : F28 (enRR 0xC0000045 d a b stl) 0x22 stl d a b 12 := f28 (maj := 0x22) (k := 12) rfl (by decide) (by decide) (lt_reg h0) (lt_reg h1) (lt_reg h2) (lt_stl h3)
    exact ⟨f.toWord32, by decide, D _ f⟩

theorem vsraF32 (d : Nat) (a : Nat) (b : Nat) (stl : Nat) : RoundTrip.Statement (.vsraF32 d a b stl) :=
  trip32 (w := enRR 0xD0000045 d a b stl) (maj := 0x22) (stl := stl) rfl rfl fun hw => by
    obtain ⟨hw, h3⟩ := wf2 hw
    obtain ⟨hw, h2⟩ := wf2 hw
    obtain ⟨h0, h1⟩ := wf2 hw
    have D : ∀ w, F28 w 0x22 stl d a b 13 → decodeWord w = .ok (.vsraF32 d a b stl) := fun w f => by
      exact (dec22 f.maj).trans (decodeVWord_eq f.stl (decodeV_lane f (by decide) (by decide)) rfl)
    have f : F28 (enRR 0xD0000045 d a b stl) 0x22 stl d a b 13 := f28 (maj := 0x22) (k := 13) rfl (by decide) (by decide) (lt_reg h0) (lt_reg h1) (lt_reg h2) (lt_stl h3)
    exact ⟨f.toWord32, by decide, D _ f⟩

theorem vcltF32 (d : Nat) (a : Nat) (b : Nat) (stl : Nat) : RoundTrip.Statement (.vcltF32 d a b stl) :=
  trip32 (w := enRR 0xE0000045 d a b stl) (maj := 0x22) (stl := stl) rfl rfl fun hw => by
    obtain ⟨hw, h3⟩ := wf2 hw
    obtain ⟨hw, h2⟩ := wf2 hw
    obtain ⟨h0, h1⟩ := wf2 hw
    have D : ∀ w, F28 w 0x22 stl d a b 14 → decodeWord w = .ok (.vcltF32 d a b stl) := fun w f => by
      exact (dec22 f.maj).trans (decodeVWord_eq f.stl (decodeV_lane f (by decide) (by decide)) rfl)
    have f : F28 (enRR 0xE0000045 d a b stl) 0x22 stl d a b 14 := f28 (maj := 0x22) (k := 14) rfl (by decide) (by decide) (lt_reg h0) (lt_reg h1) (lt_reg h2) (lt_stl h3)
    exact ⟨f.toWord32, by decide, D _ f⟩

theorem vceqF32 (d : Nat) (a : Nat) (b : Nat) (stl : Nat) : RoundTrip.Statement (.vceqF32 d a b stl) :=
  trip32 (w := enRR 0xF0000045 d a b stl) (maj := 0x22) (stl := stl) rfl rfl fun hw => by
    obtain ⟨hw, h3⟩ := wf2 hw
    obtain ⟨hw, h2⟩ := wf2 hw
    obtain ⟨h0, h1⟩ := wf2 hw
    have D : ∀ w, F28 w 0x22 stl d a b 15 → decodeWord w = .ok (.vceqF32 d a b stl) := fun w f => by
      exact (dec22 f.maj).trans (decodeVWord_eq f.stl (decodeV_lane f (by decide) (by decide)) rfl)
    have f : F28 (enRR 0xF0000045 d a b stl) 0x22 stl d a b 15 := f28 (maj := 0x22) (k := 15) rfl (by decide) (by decide) (lt_reg h0) (lt_reg h1) (lt_reg h2) (lt_stl h3)
    exact ⟨f.toWord32, by decide, D _ f⟩

theorem vaddI32 (d : Nat) (a : Nat) (b : Nat) (stl : Nat) : RoundTrip.Statement (.vaddI32 d a b stl) :=
  trip32 (w := enRR 0x00000047 d a b stl) (maj := 0x23) (stl := stl) rfl rfl fun hw => by
    obtain ⟨hw, h3⟩ := wf2 hw
    obtain ⟨hw, h2⟩ := wf2 hw
    obtain ⟨h0, h1⟩ := wf2 hw
    have D : ∀ w, F28 w 0x23 stl d a b 0 → decodeWord w = .ok (.vaddI32 d a b stl) := fun w f => by
      exact (dec23 f.maj).trans (decodeVWord_eq f.stl (decodeV_lane f (by decide) (by decide)) rfl)
    have f : F28 (enRR 0x00000047 d a b stl) 0x23 stl d a b 0 := f28 (maj := 0x23) (k := 0) rfl (by decide) (by decide) (lt_reg h0) (lt_reg h1) (lt_reg h2) (lt_stl h3)
    exact ⟨f.toWord32, by decide, D _ f⟩

theorem vsubI32 (d : Nat) (a : Nat) (b : Nat) (stl : Nat) : RoundTrip.Statement (.vsubI32 d a b stl) :=
  trip32 (w := enRR 0x10000047 d a b stl) (maj := 0x23) (stl := stl) rfl rfl fun hw => by
    obtain ⟨hw, h3⟩ := wf2 hw
    obtain ⟨hw, h2⟩ := wf2 hw
    obtain ⟨h0, h1⟩ := wf2 hw
    have D : ∀ w, F28 w 0x23 stl d a b 1 → decodeWord w = .ok (.vsubI32 d a b stl) := fun w f => by
      exact (dec23 f.maj).trans (decodeVWord_eq f.stl (decodeV_lane f (by decide) (by decide)) rfl)
    have f : F28 (enRR 0x10000047 d a b stl) 0x23 stl d a b 1 := f28 (maj := 0x23) (k := 1) rfl (by decide) (by decide) (lt_reg h0) (lt_reg h1) (lt_reg h2) (lt_stl h3)
    exact ⟨f.toWord32, by decide, D _ f⟩

theorem vmulI32 (d : Nat) (a : Nat) (b : Nat) (stl : Nat) : RoundTrip.Statement (.vmulI32 d a b stl) :=
  trip32 (w := enRR 0x20000047 d a b stl) (maj := 0x23) (stl := stl) rfl rfl fun hw => by
    obtain ⟨hw, h3⟩ := wf2 hw
    obtain ⟨hw, h2⟩ := wf2 hw
    obtain ⟨h0, h1⟩ := wf2 hw
    have D : ∀ w, F28 w 0x23 stl d a b 2 → decodeWord w = .ok (.vmulI32 d a b stl) := fun w f => by
      exact (dec23 f.maj).trans (decodeVWord_eq f.stl (decodeV_lane f (by decide) (by decide)) rfl)
    have f : F28 (enRR 0x20000047 d a b stl) 0x23 stl d a b 2 := f28 (maj := 0x23) (k := 2) rfl (by decide) (by decide) (lt_reg h0) (lt_reg h1) (lt_reg h2) (lt_stl h3)
    exact ⟨f.toWord32, by decide, D _ f⟩

theorem vmacI32 (d : Nat) (a : Nat) (b : Nat) (stl : Nat) : RoundTrip.Statement (.vmacI32 d a b stl) :=
  trip32 (w := enRR 0x30000047 d a b stl) (maj := 0x23) (stl := stl) rfl rfl fun hw => by
    obtain ⟨hw, h3⟩ := wf2 hw
    obtain ⟨hw, h2⟩ := wf2 hw
    obtain ⟨h0, h1⟩ := wf2 hw
    have D : ∀ w, F28 w 0x23 stl d a b 3 → decodeWord w = .ok (.vmacI32 d a b stl) := fun w f => by
      exact (dec23 f.maj).trans (decodeVWord_eq f.stl (decodeV_lane f (by decide) (by decide)) rfl)
    have f : F28 (enRR 0x30000047 d a b stl) 0x23 stl d a b 3 := f28 (maj := 0x23) (k := 3) rfl (by decide) (by decide) (lt_reg h0) (lt_reg h1) (lt_reg h2) (lt_stl h3)
    exact ⟨f.toWord32, by decide, D _ f⟩

theorem vminI32 (d : Nat) (a : Nat) (b : Nat) (stl : Nat) : RoundTrip.Statement (.vminI32 d a b stl) :=
  trip32 (w := enRR 0x40000047 d a b stl) (maj := 0x23) (stl := stl) rfl rfl fun hw => by
    obtain ⟨hw, h3⟩ := wf2 hw
    obtain ⟨hw, h2⟩ := wf2 hw
    obtain ⟨h0, h1⟩ := wf2 hw
    have D : ∀ w, F28 w 0x23 stl d a b 4 → decodeWord w = .ok (.vminI32 d a b stl) := fun w f => by
      exact (dec23 f.maj).trans (decodeVWord_eq f.stl (decodeV_lane f (by decide) (by decide)) rfl)
    have f : F28 (enRR 0x40000047 d a b stl) 0x23 stl d a b 4 := f28 (maj := 0x23) (k := 4) rfl (by decide) (by decide) (lt_reg h0) (lt_reg h1) (lt_reg h2) (lt_stl h3)
    exact ⟨f.toWord32, by decide, D _ f⟩

theorem vmaxI32 (d : Nat) (a : Nat) (b : Nat) (stl : Nat) : RoundTrip.Statement (.vmaxI32 d a b stl) :=
  trip32 (w := enRR 0x50000047 d a b stl) (maj := 0x23) (stl := stl) rfl rfl fun hw => by
    obtain ⟨hw, h3⟩ := wf2 hw
    obtain ⟨hw, h2⟩ := wf2 hw
    obtain ⟨h0, h1⟩ := wf2 hw
    have D : ∀ w, F28 w 0x23 stl d a b 5 → decodeWord w = .ok (.vmaxI32 d a b stl) := fun w f => by
      exact (dec23 f.maj).trans (decodeVWord_eq f.stl (decodeV_lane f (by decide) (by decide)) rfl)
    have f : F28 (enRR 0x50000047 d a b stl) 0x23 stl d a b 5 := f28 (maj := 0x23) (k := 5) rfl (by decide) (by decide) (lt_reg h0) (lt_reg h1) (lt_reg h2) (lt_stl h3)
    exact ⟨f.toWord32, by decide, D _ f⟩

theorem vminpI32 (d : Nat) (a : Nat) (b : Nat) (stl : Nat) : RoundTrip.Statement (.vminpI32 d a b stl) :=
  trip32 (w := enRR 0x60000047 d a b stl) (maj := 0x23) (stl := stl) rfl rfl fun hw => by
    obtain ⟨hw, h3⟩ := wf2 hw
    obtain ⟨hw, h2⟩ := wf2 hw
    obtain ⟨h0, h1⟩ := wf2 hw
    have D : ∀ w, F28 w 0x23 stl d a b 6 → decodeWord w = .ok (.vminpI32 d a b stl) := fun w f => by
      exact (dec23 f.maj).trans (decodeVWord_eq f.stl (decodeV_lane f (by decide) (by decide)) rfl)
    have f : F28 (enRR 0x60000047 d a b stl) 0x23 stl d a b 6 := f28 (maj := 0x23) (k := 6) rfl (by decide) (by decide) (lt_reg h0) (lt_reg h1) (lt_reg h2) (lt_stl h3)
    exact ⟨f.toWord32, by decide, D _ f⟩

theorem vmaxpI32 (d : Nat) (a : Nat) (b : Nat) (stl : Nat) : RoundTrip.Statement (.vmaxpI32 d a b stl) :=
  trip32 (w := enRR 0x70000047 d a b stl) (maj := 0x23) (stl := stl) rfl rfl fun hw => by
    obtain ⟨hw, h3⟩ := wf2 hw
    obtain ⟨hw, h2⟩ := wf2 hw
    obtain ⟨h0, h1⟩ := wf2 hw
    have D : ∀ w, F28 w 0x23 stl d a b 7 → decodeWord w = .ok (.vmaxpI32 d a b stl) := fun w f => by
      exact (dec23 f.maj).trans (decodeVWord_eq f.stl (decodeV_lane f (by decide) (by decide)) rfl)
    have f : F28 (enRR 0x70000047 d a b stl) 0x23 stl d a b 7 := f28 (maj := 0x23) (k := 7) rfl (by decide) (by decide) (lt_reg h0) (lt_reg h1) (lt_reg h2) (lt_stl h3)
    exact ⟨f.toWord32, by decide, D _ f⟩

theorem vandI32 (d : Nat) (a : Nat) (b : Nat) (stl : Nat) : RoundTrip.Statement (.vandI32 d a b stl) :=
  trip32 (w := enRR 0x80000047 d a b stl) (maj := 0x23) (stl := stl) rfl rfl fun hw => by
    obtain ⟨hw, h3⟩ := wf2 hw
    obtain ⟨hw, h2⟩ := wf2 hw
    obtain ⟨h0, h1⟩ := wf2 hw
    have D : ∀ w, F28 w 0x23 stl d a b 8 → decodeWord w = .ok (.vandI32 d a b stl) := fun w f => by
      exact (dec23 f.maj).trans (decodeVWord_eq f.stl (decodeV_lane f (by decide) (by decide)) rfl)
    have f : F28 (enRR 0x80000047 d a b stl) 0x23 stl d a b 8 := f28 (maj := 0x23) (k := 8) rfl (by decide) (by decide) (lt_reg h0) (lt_reg h1) (lt_reg h2) (lt_stl h3)
    exact ⟨f.toWord32, by decide, D _ f⟩

theorem vorI32 (d : Nat) (a : Nat) (b : Nat) (stl : Nat) : RoundTrip.Statement (.vorI32 d a b stl) :=
  trip32 (w := enRR 0x90000047 d a b stl) (maj := 0x23) (stl := stl) rfl rfl fun hw => by
    obtain ⟨hw, h3⟩ := wf2 hw
    obtain ⟨hw, h2⟩ := wf2 hw
    obtain ⟨h0, h1⟩ := wf2 hw
    have D : ∀ w, F28 w 0x23 stl d a b 9 → decodeWord w = .ok (.vorI32 d a b stl) := fun w f => by
      exact (dec23 f.maj).trans (decodeVWord_eq f.stl (decodeV_lane f (by decide) (by decide)) rfl)
    have f : F28 (enRR 0x90000047 d a b stl) 0x23 stl d a b 9 := f28 (maj := 0x23) (k := 9) rfl (by decide) (by decide) (lt_reg h0) (lt_reg h1) (lt_reg h2) (lt_stl h3)
    exact ⟨f.toWord32, by decide, D _ f⟩

theorem vxorI32 (d : Nat) (a : Nat) (b : Nat) (stl : Nat) : RoundTrip.Statement (.vxorI32 d a b stl) :=
  trip32 (w := enRR 0xA0000047 d a b stl) (maj := 0x23) (stl := stl) rfl rfl fun hw => by
    obtain ⟨hw, h3⟩ := wf2 hw
    obtain ⟨hw, h2⟩ := wf2 hw
    obtain ⟨h0, h1⟩ := wf2 hw
    have D : ∀ w, F28 w 0x23 stl d a b 10 → decodeWord w = .ok (.vxorI32 d a b stl) := fun w f => by
      exact (dec23 f.maj).trans (decodeVWord_eq f.stl (decodeV_lane f (by decide) (by decide)) rfl)
    have f : F28 (enRR 0xA0000047 d a b stl) 0x23 stl d a b 10 := f28 (maj := 0x23) (k := 10) rfl (by decide) (by decide) (lt_reg h0) (lt_reg h1) (lt_reg h2) (lt_stl h3)
    exact ⟨f.toWord32, by decide, D _ f⟩

theorem vshlI32 (d : Nat) (a : Nat) (b : Nat) (stl : Nat) : RoundTrip.Statement (.vshlI32 d a b stl) :=
  trip32 (w := enRR 0xB0000047 d a b stl) (maj := 0x23) (stl := stl) rfl rfl fun hw => by
    obtain ⟨hw, h3⟩ := wf2 hw
    obtain ⟨hw, h2⟩ := wf2 hw
    obtain ⟨h0, h1⟩ := wf2 hw
    have D : ∀ w, F28 w 0x23 stl d a b 11 → decodeWord w = .ok (.vshlI32 d a b stl) := fun w f => by
      exact (dec23 f.maj).trans (decodeVWord_eq f.stl (decodeV_lane f (by decide) (by decide)) rfl)
    have f : F28 (enRR 0xB0000047 d a b stl) 0x23 stl d a b 11 := f28 (maj := 0x23) (k := 11) rfl (by decide) (by decide) (lt_reg h0) (lt_reg h1) (lt_reg h2) (lt_stl h3)
    exact ⟨f.toWord32, by decide, D _ f⟩

theorem vshrI32 (d : Nat) (a : Nat) (b : Nat) (stl : Nat) : RoundTrip.Statement (.vshrI32 d a b stl) :=
  trip32 (w := enRR 0xC0000047 d a b stl) (maj := 0x23) (stl := stl) rfl rfl fun hw => by
    obtain ⟨hw, h3⟩ := wf2 hw
    obtain ⟨hw, h2⟩ := wf2 hw
    obtain ⟨h0, h1⟩ := wf2 hw
    have D : ∀ w, F28 w 0x23 stl d a b 12 → decodeWord w = .ok (.vshrI32 d a b stl) := fun w f => by
      exact (dec23 f.maj).trans (decodeVWord_eq f.stl (decodeV_lane f (by decide) (by decide)) rfl)
    have f : F28 (enRR 0xC0000047 d a b stl) 0x23 stl d a b 12 := f28 (maj := 0x23) (k := 12) rfl (by decide) (by decide) (lt_reg h0) (lt_reg h1) (lt_reg h2) (lt_stl h3)
    exact ⟨f.toWord32, by decide, D _ f⟩

theorem vsraI32 (d : Nat) (a : Nat) (b : Nat) (stl : Nat) : RoundTrip.Statement (.vsraI32 d a b stl) :=
  trip32 (w := enRR 0xD0000047 d a b stl) (maj := 0x23) (stl := stl) rfl rfl fun hw => by
    obtain ⟨hw, h3⟩ := wf2 hw
    obtain ⟨hw, h2⟩ := wf2 hw
    obtain ⟨h0, h1⟩ := wf2 hw
    have D : ∀ w, F28 w 0x23 stl d a b 13 → decodeWord w = .ok (.vsraI32 d a b stl) := fun w f => by
      exact (dec23 f.maj).trans (decodeVWord_eq f.stl (decodeV_lane f (by decide) (by decide)) rfl)
    have f : F28 (enRR 0xD0000047 d a b stl) 0x23 stl d a b 13 := f28 (maj := 0x23) (k := 13) rfl (by decide) (by decide) (lt_reg h0) (lt_reg h1) (lt_reg h2) (lt_stl h3)
    exact ⟨f.toWord32, by decide, D _ f⟩

theorem vcltI32 (d : Nat) (a : Nat) (b : Nat) (stl : Nat) : RoundTrip.Statement (.vcltI32 d a b stl) :=
  trip32 (w := enRR 0xE0000047 d a b stl) (maj := 0x23) (stl := stl) rfl rfl fun hw => by
    obtain ⟨hw, h3⟩ := wf2 hw
    obtain ⟨hw, h2⟩ := wf2 hw
    obtain ⟨h0, h1⟩ := wf2 hw
    have D : ∀ w, F28 w 0x23 stl d a b 14 → decodeWord w = .ok (.vcltI32 d a b stl) := fun w f => by
      exact (dec23 f.maj).trans (decodeVWord_eq f.stl (decodeV_lane f (by decide) (by decide)) rfl)
    have f : F28 (enRR 0xE0000047 d a b stl) 0x23 stl d a b 14 := f28 (maj := 0x23) (k := 14) rfl (by decide) (by decide) (lt_reg h0) (lt_reg h1) (lt_reg h2) (lt_stl h3)
    exact ⟨f.toWord32, by decide, D _ f⟩

theorem vceqI32 (d : Nat) (a : Nat) (b : Nat) (stl : Nat) : RoundTrip.Statement (.vceqI32 d a b stl) :=
  trip32 (w := enRR 0xF0000047 d a b stl) (maj := 0x23) (stl := stl) rfl rfl fun hw => by
    obtain ⟨hw, h3⟩ := wf2 hw
    obtain ⟨hw, h2⟩ := wf2 hw
    obtain ⟨h0, h1⟩ := wf2 hw
    have D : ∀ w, F28 w 0x23 stl d a b 15 → decodeWord w = .ok (.vceqI32 d a b stl) := fun w f => by
      exact (dec23 f.maj).trans (decodeVWord_eq f.stl (decodeV_lane f (by decide) (by decide)) rfl)
    have f : F28 (enRR 0xF0000047 d a b stl) 0x23 stl d a b 15 := f28 (maj := 0x23) (k := 15) rfl (by decide) (by decide) (lt_reg h0) (lt_reg h1) (lt_reg h2) (lt_stl h3)
    exact ⟨f.toWord32, by decide, D _ f⟩

theorem vaddN32 (d : Nat) (a : Nat) (b : Nat) (stl : Nat) : RoundTrip.Statement (.vaddN32 d a b stl) :=
  trip32 (w := enRR 0x00000049 d a b stl) (maj := 0x24) (stl := stl) rfl rfl fun hw => by
    obtain ⟨hw, h3⟩ := wf2 hw
    obtain ⟨hw, h2⟩ := wf2 hw
    obtain ⟨h0, h1⟩ := wf2 hw
    have D : ∀ w, F28 w 0x24 stl d a b 0 → decodeWord w = .ok (.vaddN32 d a b stl) := fun w f => by
      exact (dec24 f.maj).trans (decodeVWord_eq f.stl (decodeV_lane f (by decide) (by decide)) rfl)
    have f : F28 (enRR 0x00000049 d a b stl) 0x24 stl d a b 0 := f28 (maj := 0x24) (k := 0) rfl (by decide) (by decide) (lt_reg h0) (lt_reg h1) (lt_reg h2) (lt_stl h3)
    exact ⟨f.toWord32, by decide, D _ f⟩

theorem vsubN32 (d : Nat) (a : Nat) (b : Nat) (stl : Nat) : RoundTrip.Statement (.vsubN32 d a b stl) :=
  trip32 (w := enRR 0x10000049 d a b stl) (maj := 0x24) (stl := stl) rfl rfl fun hw => by
    obtain ⟨hw, h3⟩ := wf2 hw
    obtain ⟨hw, h2⟩ := wf2 hw
    obtain ⟨h0, h1⟩ := wf2 hw
    have D : ∀ w, F28 w 0x24 stl d a b 1 → decodeWord w = .ok (.vsubN32 d a b stl) := fun w f => by
      exact (dec24 f.maj).trans (decodeVWord_eq f.stl (decodeV_lane f (by decide) (by decide)) rfl)
    have f : F28 (enRR 0x10000049 d a b stl) 0x24 stl d a b 1 := f28 (maj := 0x24) (k := 1) rfl (by decide) (by decide) (lt_reg h0) (lt_reg h1) (lt_reg h2) (lt_stl h3)
    exact ⟨f.toWord32, by decide, D _ f⟩

theorem vmulN32 (d : Nat) (a : Nat) (b : Nat) (stl : Nat) : RoundTrip.Statement (.vmulN32 d a b stl) :=
  trip32 (w := enRR 0x20000049 d a b stl) (maj := 0x24) (stl := stl) rfl rfl fun hw => by
    obtain ⟨hw, h3⟩ := wf2 hw
    obtain ⟨hw, h2⟩ := wf2 hw
    obtain ⟨h0, h1⟩ := wf2 hw
    have D : ∀ w, F28 w 0x24 stl d a b 2 → decodeWord w = .ok (.vmulN32 d a b stl) := fun w f => by
      exact (dec24 f.maj).trans (decodeVWord_eq f.stl (decodeV_lane f (by decide) (by decide)) rfl)
    have f : F28 (enRR 0x20000049 d a b stl) 0x24 stl d a b 2 := f28 (maj := 0x24) (k := 2) rfl (by decide) (by decide) (lt_reg h0) (lt_reg h1) (lt_reg h2) (lt_stl h3)
    exact ⟨f.toWord32, by decide, D _ f⟩

theorem vmacN32 (d : Nat) (a : Nat) (b : Nat) (stl : Nat) : RoundTrip.Statement (.vmacN32 d a b stl) :=
  trip32 (w := enRR 0x30000049 d a b stl) (maj := 0x24) (stl := stl) rfl rfl fun hw => by
    obtain ⟨hw, h3⟩ := wf2 hw
    obtain ⟨hw, h2⟩ := wf2 hw
    obtain ⟨h0, h1⟩ := wf2 hw
    have D : ∀ w, F28 w 0x24 stl d a b 3 → decodeWord w = .ok (.vmacN32 d a b stl) := fun w f => by
      exact (dec24 f.maj).trans (decodeVWord_eq f.stl (decodeV_lane f (by decide) (by decide)) rfl)
    have f : F28 (enRR 0x30000049 d a b stl) 0x24 stl d a b 3 := f28 (maj := 0x24) (k := 3) rfl (by decide) (by decide) (lt_reg h0) (lt_reg h1) (lt_reg h2) (lt_stl h3)
    exact ⟨f.toWord32, by decide, D _ f⟩

theorem vminN32 (d : Nat) (a : Nat) (b : Nat) (stl : Nat) : RoundTrip.Statement (.vminN32 d a b stl) :=
  trip32 (w := enRR 0x40000049 d a b stl) (maj := 0x24) (stl := stl) rfl rfl fun hw => by
    obtain ⟨hw, h3⟩ := wf2 hw
    obtain ⟨hw, h2⟩ := wf2 hw
    obtain ⟨h0, h1⟩ := wf2 hw
    have D : ∀ w, F28 w 0x24 stl d a b 4 → decodeWord w = .ok (.vminN32 d a b stl) := fun w f => by
      exact (dec24 f.maj).trans (decodeVWord_eq f.stl (decodeV_lane f (by decide) (by decide)) rfl)
    have f : F28 (enRR 0x40000049 d a b stl) 0x24 stl d a b 4 := f28 (maj := 0x24) (k := 4) rfl (by decide) (by decide) (lt_reg h0) (lt_reg h1) (lt_reg h2) (lt_stl h3)
    exact ⟨f.toWord32, by decide, D _ f⟩

theorem vmaxN32 (d : Nat) (a : Nat) (b : Nat) (stl : Nat) : RoundTrip.Statement (.vmaxN32 d a b stl) :=
  trip32 (w := enRR 0x50000049 d a b stl) (maj := 0x24) (stl := stl) rfl rfl fun hw => by
    obtain ⟨hw, h3⟩ := wf2 hw
    obtain ⟨hw, h2⟩ := wf2 hw
    obtain ⟨h0, h1⟩ := wf2 hw
    have D : ∀ w, F28 w 0x24 stl d a b 5 → decodeWord w = .ok (.vmaxN32 d a b stl) := fun w f => by
      exact (dec24 f.maj).trans (decodeVWord_eq f.stl (decodeV_lane f (by decide) (by decide)) rfl)
    have f : F28 (enRR 0x50000049 d a b stl) 0x24 stl d a b 5 := f28 (maj := 0x24) (k := 5) rfl (by decide) (by decide) (lt_reg h0) (lt_reg h1) (lt_reg h2) (lt_stl h3)
    exact ⟨f.toWord32, by decide, D _ f⟩

theorem vminpN32 (d : Nat) (a : Nat) (b : Nat) (stl : Nat) : RoundTrip.Statement (.vminpN32 d a b stl) :=
  trip32 (w := enRR 0x60000049 d a b stl) (maj := 0x24) (stl := stl) rfl rfl fun hw => by
    obtain ⟨hw, h3⟩ := wf2 hw
    obtain ⟨hw, h2⟩ := wf2 hw
    obtain ⟨h0, h1⟩ := wf2 hw
    have D : ∀ w, F28 w 0x24 stl d a b 6 → decodeWord w = .ok (.vminpN32 d a b stl) := fun w f => by
      exact (dec24 f.maj).trans (decodeVWord_eq f.stl (decodeV_lane f (by decide) (by decide)) rfl)
    have f : F28 (enRR 0x60000049 d a b stl) 0x24 stl d a b 6 := f28 (maj := 0x24) (k := 6) rfl (by decide) (by decide) (lt_reg h0) (lt_reg h1) (lt_reg h2) (lt_stl h3)
    exact ⟨f.toWord32, by decide, D _ f⟩

theorem vmaxpN32 (d : Nat) (a : Nat) (b : Nat) (stl : Nat) : RoundTrip.Statement (.vmaxpN32 d a b stl) :=
  trip32 (w := enRR 0x70000049 d a b stl) (maj := 0x24) (stl := stl) rfl rfl fun hw => by
    obtain ⟨hw, h3⟩ := wf2 hw
    obtain ⟨hw, h2⟩ := wf2 hw
    obtain ⟨h0, h1⟩ := wf2 hw
    have D : ∀ w, F28 w 0x24 stl d a b 7 → decodeWord w = .ok (.vmaxpN32 d a b stl) := fun w f => by
      exact (dec24 f.maj).trans (decodeVWord_eq f.stl (decodeV_lane f (by decide) (by decide)) rfl)
    have f : F28 (enRR 0x70000049 d a b stl) 0x24 stl d a b 7 := f28 (maj := 0x24) (k := 7) rfl (by decide) (by decide) (lt_reg h0) (lt_reg h1) (lt_reg h2) (lt_stl h3)
    exact ⟨f.toWord32, by decide, D _ f⟩

theorem vandN32 (d : Nat) (a : Nat) (b : Nat) (stl : Nat) : RoundTrip.Statement (.vandN32 d a b stl) :=
  trip32 (w := enRR 0x80000049 d a b stl) (maj := 0x24) (stl := stl) rfl rfl fun hw => by
    obtain ⟨hw, h3⟩ := wf2 hw
    obtain ⟨hw, h2⟩ := wf2 hw
    obtain ⟨h0, h1⟩ := wf2 hw
    have D : ∀ w, F28 w 0x24 stl d a b 8 → decodeWord w = .ok (.vandN32 d a b stl) := fun w f => by
      exact (dec24 f.maj).trans (decodeVWord_eq f.stl (decodeV_lane f (by decide) (by decide)) rfl)
    have f : F28 (enRR 0x80000049 d a b stl) 0x24 stl d a b 8 := f28 (maj := 0x24) (k := 8) rfl (by decide) (by decide) (lt_reg h0) (lt_reg h1) (lt_reg h2) (lt_stl h3)
    exact ⟨f.toWord32, by decide, D _ f⟩

theorem vorN32 (d : Nat) (a : Nat) (b : Nat) (stl : Nat) : RoundTrip.Statement (.vorN32 d a b stl) :=
  trip32 (w := enRR 0x90000049 d a b stl) (maj := 0x24) (stl := stl) rfl rfl fun hw => by
    obtain ⟨hw, h3⟩ := wf2 hw
    obtain ⟨hw, h2⟩ := wf2 hw
    obtain ⟨h0, h1⟩ := wf2 hw
    have D : ∀ w, F28 w 0x24 stl d a b 9 → decodeWord w = .ok (.vorN32 d a b stl) := fun w f => by
      exact (dec24 f.maj).trans (decodeVWord_eq f.stl (decodeV_lane f (by decide) (by decide)) rfl)
    have f : F28 (enRR 0x90000049 d a b stl) 0x24 stl d a b 9 := f28 (maj := 0x24) (k := 9) rfl (by decide) (by decide) (lt_reg h0) (lt_reg h1) (lt_reg h2) (lt_stl h3)
    exact ⟨f.toWord32, by decide, D _ f⟩

theorem vxorN32 (d : Nat) (a : Nat) (b : Nat) (stl : Nat) : RoundTrip.Statement (.vxorN32 d a b stl) :=
  trip32 (w := enRR 0xA0000049 d a b stl) (maj := 0x24) (stl := stl) rfl rfl fun hw => by
    obtain ⟨hw, h3⟩ := wf2 hw
    obtain ⟨hw, h2⟩ := wf2 hw
    obtain ⟨h0, h1⟩ := wf2 hw
    have D : ∀ w, F28 w 0x24 stl d a b 10 → decodeWord w = .ok (.vxorN32 d a b stl) := fun w f => by
      exact (dec24 f.maj).trans (decodeVWord_eq f.stl (decodeV_lane f (by decide) (by decide)) rfl)
    have f : F28 (enRR 0xA0000049 d a b stl) 0x24 stl d a b 10 := f28 (maj := 0x24) (k := 10) rfl (by decide) (by decide) (lt_reg h0) (lt_reg h1) (lt_reg h2) (lt_stl h3)
    exact ⟨f.toWord32, by decide, D _ f⟩

theorem vshlN32 (d : Nat) (a : Nat) (b : Nat) (stl : Nat) : RoundTrip.Statement (.vshlN32 d a b stl) :=
  trip32 (w := enRR 0xB0000049 d a b stl) (maj := 0x24) (stl := stl) rfl rfl fun hw => by
    obtain ⟨hw, h3⟩ := wf2 hw
    obtain ⟨hw, h2⟩ := wf2 hw
    obtain ⟨h0, h1⟩ := wf2 hw
    have D : ∀ w, F28 w 0x24 stl d a b 11 → decodeWord w = .ok (.vshlN32 d a b stl) := fun w f => by
      exact (dec24 f.maj).trans (decodeVWord_eq f.stl (decodeV_lane f (by decide) (by decide)) rfl)
    have f : F28 (enRR 0xB0000049 d a b stl) 0x24 stl d a b 11 := f28 (maj := 0x24) (k := 11) rfl (by decide) (by decide) (lt_reg h0) (lt_reg h1) (lt_reg h2) (lt_stl h3)
    exact ⟨f.toWord32, by decide, D _ f⟩

theorem vshrN32 (d : Nat) (a : Nat) (b : Nat) (stl : Nat) : RoundTrip.Statement (.vshrN32 d a b stl) :=
  trip32 (w := enRR 0xC0000049 d a b stl) (maj := 0x24) (stl := stl) rfl rfl fun hw => by
    obtain ⟨hw, h3⟩ := wf2 hw
    obtain ⟨hw, h2⟩ := wf2 hw
    obtain ⟨h0, h1⟩ := wf2 hw
    have D : ∀ w, F28 w 0x24 stl d a b 12 → decodeWord w = .ok (.vshrN32 d a b stl) := fun w f => by
      exact (dec24 f.maj).trans (decodeVWord_eq f.stl (decodeV_lane f (by decide) (by decide)) rfl)
    have f : F28 (enRR 0xC0000049 d a b stl) 0x24 stl d a b 12 := f28 (maj := 0x24) (k := 12) rfl (by decide) (by decide) (lt_reg h0) (lt_reg h1) (lt_reg h2) (lt_stl h3)
    exact ⟨f.toWord32, by decide, D _ f⟩

theorem vsraN32 (d : Nat) (a : Nat) (b : Nat) (stl : Nat) : RoundTrip.Statement (.vsraN32 d a b stl) :=
  trip32 (w := enRR 0xD0000049 d a b stl) (maj := 0x24) (stl := stl) rfl rfl fun hw => by
    obtain ⟨hw, h3⟩ := wf2 hw
    obtain ⟨hw, h2⟩ := wf2 hw
    obtain ⟨h0, h1⟩ := wf2 hw
    have D : ∀ w, F28 w 0x24 stl d a b 13 → decodeWord w = .ok (.vsraN32 d a b stl) := fun w f => by
      exact (dec24 f.maj).trans (decodeVWord_eq f.stl (decodeV_lane f (by decide) (by decide)) rfl)
    have f : F28 (enRR 0xD0000049 d a b stl) 0x24 stl d a b 13 := f28 (maj := 0x24) (k := 13) rfl (by decide) (by decide) (lt_reg h0) (lt_reg h1) (lt_reg h2) (lt_stl h3)
    exact ⟨f.toWord32, by decide, D _ f⟩

theorem vcltN32 (d : Nat) (a : Nat) (b : Nat) (stl : Nat) : RoundTrip.Statement (.vcltN32 d a b stl) :=
  trip32 (w := enRR 0xE0000049 d a b stl) (maj := 0x24) (stl := stl) rfl rfl fun hw => by
    obtain ⟨hw, h3⟩ := wf2 hw
    obtain ⟨hw, h2⟩ := wf2 hw
    obtain ⟨h0, h1⟩ := wf2 hw
    have D : ∀ w, F28 w 0x24 stl d a b 14 → decodeWord w = .ok (.vcltN32 d a b stl) := fun w f => by
      exact (dec24 f.maj).trans (decodeVWord_eq f.stl (decodeV_lane f (by decide) (by decide)) rfl)
    have f : F28 (enRR 0xE0000049 d a b stl) 0x24 stl d a b 14 := f28 (maj := 0x24) (k := 14) rfl (by decide) (by decide) (lt_reg h0) (lt_reg h1) (lt_reg h2) (lt_stl h3)
    exact ⟨f.toWord32, by decide, D _ f⟩

theorem vceqN32 (d : Nat) (a : Nat) (b : Nat) (stl : Nat) : RoundTrip.Statement (.vceqN32 d a b stl) :=
  trip32 (w := enRR 0xF0000049 d a b stl) (maj := 0x24) (stl := stl) rfl rfl fun hw => by
    obtain ⟨hw, h3⟩ := wf2 hw
    obtain ⟨hw, h2⟩ := wf2 hw
    obtain ⟨h0, h1⟩ := wf2 hw
    have D : ∀ w, F28 w 0x24 stl d a b 15 → decodeWord w = .ok (.vceqN32 d a b stl) := fun w f => by
      exact (dec24 f.maj).trans (decodeVWord_eq f.stl (decodeV_lane f (by decide) (by decide)) rfl)
    have f : F28 (enRR 0xF0000049 d a b stl) 0x24 stl d a b 15 := f28 (maj := 0x24) (k := 15) rfl (by decide) (by decide) (lt_reg h0) (lt_reg h1) (lt_reg h2) (lt_stl h3)
    exact ⟨f.toWord32, by decide, D _ f⟩

theorem vaddBf16 (d : Nat) (a : Nat) (b : Nat) (stl : Nat) : RoundTrip.Statement (.vaddBf16 d a b stl) :=
  trip32 (w := enRR 0x0000004B d a b stl) (maj := 0x25) (stl := stl) rfl rfl fun hw => by
    obtain ⟨hw, h3⟩ := wf2 hw
    obtain ⟨hw, h2⟩ := wf2 hw
    obtain ⟨h0, h1⟩ := wf2 hw
    have D : ∀ w, F28 w 0x25 stl d a b 0 → decodeWord w = .ok (.vaddBf16 d a b stl) := fun w f => by
      exact (dec25 f.maj).trans (decodeVWord_eq f.stl (decodeV_lane f (by decide) (by decide)) rfl)
    have f : F28 (enRR 0x0000004B d a b stl) 0x25 stl d a b 0 := f28 (maj := 0x25) (k := 0) rfl (by decide) (by decide) (lt_reg h0) (lt_reg h1) (lt_reg h2) (lt_stl h3)
    exact ⟨f.toWord32, by decide, D _ f⟩

theorem vsubBf16 (d : Nat) (a : Nat) (b : Nat) (stl : Nat) : RoundTrip.Statement (.vsubBf16 d a b stl) :=
  trip32 (w := enRR 0x1000004B d a b stl) (maj := 0x25) (stl := stl) rfl rfl fun hw => by
    obtain ⟨hw, h3⟩ := wf2 hw
    obtain ⟨hw, h2⟩ := wf2 hw
    obtain ⟨h0, h1⟩ := wf2 hw
    have D : ∀ w, F28 w 0x25 stl d a b 1 → decodeWord w = .ok (.vsubBf16 d a b stl) := fun w f => by
      exact (dec25 f.maj).trans (decodeVWord_eq f.stl (decodeV_lane f (by decide) (by decide)) rfl)
    have f : F28 (enRR 0x1000004B d a b stl) 0x25 stl d a b 1 := f28 (maj := 0x25) (k := 1) rfl (by decide) (by decide) (lt_reg h0) (lt_reg h1) (lt_reg h2) (lt_stl h3)
    exact ⟨f.toWord32, by decide, D _ f⟩

theorem vmulBf16 (d : Nat) (a : Nat) (b : Nat) (stl : Nat) : RoundTrip.Statement (.vmulBf16 d a b stl) :=
  trip32 (w := enRR 0x2000004B d a b stl) (maj := 0x25) (stl := stl) rfl rfl fun hw => by
    obtain ⟨hw, h3⟩ := wf2 hw
    obtain ⟨hw, h2⟩ := wf2 hw
    obtain ⟨h0, h1⟩ := wf2 hw
    have D : ∀ w, F28 w 0x25 stl d a b 2 → decodeWord w = .ok (.vmulBf16 d a b stl) := fun w f => by
      exact (dec25 f.maj).trans (decodeVWord_eq f.stl (decodeV_lane f (by decide) (by decide)) rfl)
    have f : F28 (enRR 0x2000004B d a b stl) 0x25 stl d a b 2 := f28 (maj := 0x25) (k := 2) rfl (by decide) (by decide) (lt_reg h0) (lt_reg h1) (lt_reg h2) (lt_stl h3)
    exact ⟨f.toWord32, by decide, D _ f⟩

theorem vmacBf16 (d : Nat) (a : Nat) (b : Nat) (stl : Nat) : RoundTrip.Statement (.vmacBf16 d a b stl) :=
  trip32 (w := enRR 0x3000004B d a b stl) (maj := 0x25) (stl := stl) rfl rfl fun hw => by
    obtain ⟨hw, h3⟩ := wf2 hw
    obtain ⟨hw, h2⟩ := wf2 hw
    obtain ⟨h0, h1⟩ := wf2 hw
    have D : ∀ w, F28 w 0x25 stl d a b 3 → decodeWord w = .ok (.vmacBf16 d a b stl) := fun w f => by
      exact (dec25 f.maj).trans (decodeVWord_eq f.stl (decodeV_lane f (by decide) (by decide)) rfl)
    have f : F28 (enRR 0x3000004B d a b stl) 0x25 stl d a b 3 := f28 (maj := 0x25) (k := 3) rfl (by decide) (by decide) (lt_reg h0) (lt_reg h1) (lt_reg h2) (lt_stl h3)
    exact ⟨f.toWord32, by decide, D _ f⟩

theorem vminBf16 (d : Nat) (a : Nat) (b : Nat) (stl : Nat) : RoundTrip.Statement (.vminBf16 d a b stl) :=
  trip32 (w := enRR 0x4000004B d a b stl) (maj := 0x25) (stl := stl) rfl rfl fun hw => by
    obtain ⟨hw, h3⟩ := wf2 hw
    obtain ⟨hw, h2⟩ := wf2 hw
    obtain ⟨h0, h1⟩ := wf2 hw
    have D : ∀ w, F28 w 0x25 stl d a b 4 → decodeWord w = .ok (.vminBf16 d a b stl) := fun w f => by
      exact (dec25 f.maj).trans (decodeVWord_eq f.stl (decodeV_lane f (by decide) (by decide)) rfl)
    have f : F28 (enRR 0x4000004B d a b stl) 0x25 stl d a b 4 := f28 (maj := 0x25) (k := 4) rfl (by decide) (by decide) (lt_reg h0) (lt_reg h1) (lt_reg h2) (lt_stl h3)
    exact ⟨f.toWord32, by decide, D _ f⟩

theorem vmaxBf16 (d : Nat) (a : Nat) (b : Nat) (stl : Nat) : RoundTrip.Statement (.vmaxBf16 d a b stl) :=
  trip32 (w := enRR 0x5000004B d a b stl) (maj := 0x25) (stl := stl) rfl rfl fun hw => by
    obtain ⟨hw, h3⟩ := wf2 hw
    obtain ⟨hw, h2⟩ := wf2 hw
    obtain ⟨h0, h1⟩ := wf2 hw
    have D : ∀ w, F28 w 0x25 stl d a b 5 → decodeWord w = .ok (.vmaxBf16 d a b stl) := fun w f => by
      exact (dec25 f.maj).trans (decodeVWord_eq f.stl (decodeV_lane f (by decide) (by decide)) rfl)
    have f : F28 (enRR 0x5000004B d a b stl) 0x25 stl d a b 5 := f28 (maj := 0x25) (k := 5) rfl (by decide) (by decide) (lt_reg h0) (lt_reg h1) (lt_reg h2) (lt_stl h3)
    exact ⟨f.toWord32, by decide, D _ f⟩

theorem vminpBf16 (d : Nat) (a : Nat) (b : Nat) (stl : Nat) : RoundTrip.Statement (.vminpBf16 d a b stl) :=
  trip32 (w := enRR 0x6000004B d a b stl) (maj := 0x25) (stl := stl) rfl rfl fun hw => by
    obtain ⟨hw, h3⟩ := wf2 hw
    obtain ⟨hw, h2⟩ := wf2 hw
    obtain ⟨h0, h1⟩ := wf2 hw
    have D : ∀ w, F28 w 0x25 stl d a b 6 → decodeWord w = .ok (.vminpBf16 d a b stl) := fun w f => by
      exact (dec25 f.maj).trans (decodeVWord_eq f.stl (decodeV_lane f (by decide) (by decide)) rfl)
    have f : F28 (enRR 0x6000004B d a b stl) 0x25 stl d a b 6 := f28 (maj := 0x25) (k := 6) rfl (by decide) (by decide) (lt_reg h0) (lt_reg h1) (lt_reg h2) (lt_stl h3)
    exact ⟨f.toWord32, by decide, D _ f⟩

theorem vmaxpBf16 (d : Nat) (a : Nat) (b : Nat) (stl : Nat) : RoundTrip.Statement (.vmaxpBf16 d a b stl) :=
  trip32 (w := enRR 0x7000004B d a b stl) (maj := 0x25) (stl := stl) rfl rfl fun hw => by
    obtain ⟨hw, h3⟩ := wf2 hw
    obtain ⟨hw, h2⟩ := wf2 hw
    obtain ⟨h0, h1⟩ := wf2 hw
    have D : ∀ w, F28 w 0x25 stl d a b 7 → decodeWord w = .ok (.vmaxpBf16 d a b stl) := fun w f => by
      exact (dec25 f.maj).trans (decodeVWord_eq f.stl (decodeV_lane f (by decide) (by decide)) rfl)
    have f : F28 (enRR 0x7000004B d a b stl) 0x25 stl d a b 7 := f28 (maj := 0x25) (k := 7) rfl (by decide) (by decide) (lt_reg h0) (lt_reg h1) (lt_reg h2) (lt_stl h3)
    exact ⟨f.toWord32, by decide, D _ f⟩

theorem vandBf16 (d : Nat) (a : Nat) (b : Nat) (stl : Nat) : RoundTrip.Statement (.vandBf16 d a b stl) :=
  trip32 (w := enRR 0x8000004B d a b stl) (maj := 0x25) (stl := stl) rfl rfl fun hw => by
    obtain ⟨hw, h3⟩ := wf2 hw
    obtain ⟨hw, h2⟩ := wf2 hw
    obtain ⟨h0, h1⟩ := wf2 hw
    have D : ∀ w, F28 w 0x25 stl d a b 8 → decodeWord w = .ok (.vandBf16 d a b stl) := fun w f => by
      exact (dec25 f.maj).trans (decodeVWord_eq f.stl (decodeV_lane f (by decide) (by decide)) rfl)
    have f : F28 (enRR 0x8000004B d a b stl) 0x25 stl d a b 8 := f28 (maj := 0x25) (k := 8) rfl (by decide) (by decide) (lt_reg h0) (lt_reg h1) (lt_reg h2) (lt_stl h3)
    exact ⟨f.toWord32, by decide, D _ f⟩

theorem vorBf16 (d : Nat) (a : Nat) (b : Nat) (stl : Nat) : RoundTrip.Statement (.vorBf16 d a b stl) :=
  trip32 (w := enRR 0x9000004B d a b stl) (maj := 0x25) (stl := stl) rfl rfl fun hw => by
    obtain ⟨hw, h3⟩ := wf2 hw
    obtain ⟨hw, h2⟩ := wf2 hw
    obtain ⟨h0, h1⟩ := wf2 hw
    have D : ∀ w, F28 w 0x25 stl d a b 9 → decodeWord w = .ok (.vorBf16 d a b stl) := fun w f => by
      exact (dec25 f.maj).trans (decodeVWord_eq f.stl (decodeV_lane f (by decide) (by decide)) rfl)
    have f : F28 (enRR 0x9000004B d a b stl) 0x25 stl d a b 9 := f28 (maj := 0x25) (k := 9) rfl (by decide) (by decide) (lt_reg h0) (lt_reg h1) (lt_reg h2) (lt_stl h3)
    exact ⟨f.toWord32, by decide, D _ f⟩

theorem vxorBf16 (d : Nat) (a : Nat) (b : Nat) (stl : Nat) : RoundTrip.Statement (.vxorBf16 d a b stl) :=
  trip32 (w := enRR 0xA000004B d a b stl) (maj := 0x25) (stl := stl) rfl rfl fun hw => by
    obtain ⟨hw, h3⟩ := wf2 hw
    obtain ⟨hw, h2⟩ := wf2 hw
    obtain ⟨h0, h1⟩ := wf2 hw
    have D : ∀ w, F28 w 0x25 stl d a b 10 → decodeWord w = .ok (.vxorBf16 d a b stl) := fun w f => by
      exact (dec25 f.maj).trans (decodeVWord_eq f.stl (decodeV_lane f (by decide) (by decide)) rfl)
    have f : F28 (enRR 0xA000004B d a b stl) 0x25 stl d a b 10 := f28 (maj := 0x25) (k := 10) rfl (by decide) (by decide) (lt_reg h0) (lt_reg h1) (lt_reg h2) (lt_stl h3)
    exact ⟨f.toWord32, by decide, D _ f⟩

theorem vshlBf16 (d : Nat) (a : Nat) (b : Nat) (stl : Nat) : RoundTrip.Statement (.vshlBf16 d a b stl) :=
  trip32 (w := enRR 0xB000004B d a b stl) (maj := 0x25) (stl := stl) rfl rfl fun hw => by
    obtain ⟨hw, h3⟩ := wf2 hw
    obtain ⟨hw, h2⟩ := wf2 hw
    obtain ⟨h0, h1⟩ := wf2 hw
    have D : ∀ w, F28 w 0x25 stl d a b 11 → decodeWord w = .ok (.vshlBf16 d a b stl) := fun w f => by
      exact (dec25 f.maj).trans (decodeVWord_eq f.stl (decodeV_lane f (by decide) (by decide)) rfl)
    have f : F28 (enRR 0xB000004B d a b stl) 0x25 stl d a b 11 := f28 (maj := 0x25) (k := 11) rfl (by decide) (by decide) (lt_reg h0) (lt_reg h1) (lt_reg h2) (lt_stl h3)
    exact ⟨f.toWord32, by decide, D _ f⟩

theorem vshrBf16 (d : Nat) (a : Nat) (b : Nat) (stl : Nat) : RoundTrip.Statement (.vshrBf16 d a b stl) :=
  trip32 (w := enRR 0xC000004B d a b stl) (maj := 0x25) (stl := stl) rfl rfl fun hw => by
    obtain ⟨hw, h3⟩ := wf2 hw
    obtain ⟨hw, h2⟩ := wf2 hw
    obtain ⟨h0, h1⟩ := wf2 hw
    have D : ∀ w, F28 w 0x25 stl d a b 12 → decodeWord w = .ok (.vshrBf16 d a b stl) := fun w f => by
      exact (dec25 f.maj).trans (decodeVWord_eq f.stl (decodeV_lane f (by decide) (by decide)) rfl)
    have f : F28 (enRR 0xC000004B d a b stl) 0x25 stl d a b 12 := f28 (maj := 0x25) (k := 12) rfl (by decide) (by decide) (lt_reg h0) (lt_reg h1) (lt_reg h2) (lt_stl h3)
    exact ⟨f.toWord32, by decide, D _ f⟩

theorem vsraBf16 (d : Nat) (a : Nat) (b : Nat) (stl : Nat) : RoundTrip.Statement (.vsraBf16 d a b stl) :=
  trip32 (w := enRR 0xD000004B d a b stl) (maj := 0x25) (stl := stl) rfl rfl fun hw => by
    obtain ⟨hw, h3⟩ := wf2 hw
    obtain ⟨hw, h2⟩ := wf2 hw
    obtain ⟨h0, h1⟩ := wf2 hw
    have D : ∀ w, F28 w 0x25 stl d a b 13 → decodeWord w = .ok (.vsraBf16 d a b stl) := fun w f => by
      exact (dec25 f.maj).trans (decodeVWord_eq f.stl (decodeV_lane f (by decide) (by decide)) rfl)
    have f : F28 (enRR 0xD000004B d a b stl) 0x25 stl d a b 13 := f28 (maj := 0x25) (k := 13) rfl (by decide) (by decide) (lt_reg h0) (lt_reg h1) (lt_reg h2) (lt_stl h3)
    exact ⟨f.toWord32, by decide, D _ f⟩

theorem vcltBf16 (d : Nat) (a : Nat) (b : Nat) (stl : Nat) : RoundTrip.Statement (.vcltBf16 d a b stl) :=
  trip32 (w := enRR 0xE000004B d a b stl) (maj := 0x25) (stl := stl) rfl rfl fun hw => by
    obtain ⟨hw, h3⟩ := wf2 hw
    obtain ⟨hw, h2⟩ := wf2 hw
    obtain ⟨h0, h1⟩ := wf2 hw
    have D : ∀ w, F28 w 0x25 stl d a b 14 → decodeWord w = .ok (.vcltBf16 d a b stl) := fun w f => by
      exact (dec25 f.maj).trans (decodeVWord_eq f.stl (decodeV_lane f (by decide) (by decide)) rfl)
    have f : F28 (enRR 0xE000004B d a b stl) 0x25 stl d a b 14 := f28 (maj := 0x25) (k := 14) rfl (by decide) (by decide) (lt_reg h0) (lt_reg h1) (lt_reg h2) (lt_stl h3)
    exact ⟨f.toWord32, by decide, D _ f⟩

theorem vceqBf16 (d : Nat) (a : Nat) (b : Nat) (stl : Nat) : RoundTrip.Statement (.vceqBf16 d a b stl) :=
  trip32 (w := enRR 0xF000004B d a b stl) (maj := 0x25) (stl := stl) rfl rfl fun hw => by
    obtain ⟨hw, h3⟩ := wf2 hw
    obtain ⟨hw, h2⟩ := wf2 hw
    obtain ⟨h0, h1⟩ := wf2 hw
    have D : ∀ w, F28 w 0x25 stl d a b 15 → decodeWord w = .ok (.vceqBf16 d a b stl) := fun w f => by
      exact (dec25 f.maj).trans (decodeVWord_eq f.stl (decodeV_lane f (by decide) (by decide)) rfl)
    have f : F28 (enRR 0xF000004B d a b stl) 0x25 stl d a b 15 := f28 (maj := 0x25) (k := 15) rfl (by decide) (by decide) (lt_reg h0) (lt_reg h1) (lt_reg h2) (lt_stl h3)
    exact ⟨f.toWord32, by decide, D _ f⟩

theorem vaddF16 (d : Nat) (a : Nat) (b : Nat) (stl : Nat) : RoundTrip.Statement (.vaddF16 d a b stl) :=
  trip32 (w := enRR 0x0000004D d a b stl) (maj := 0x26) (stl := stl) rfl rfl fun hw => by
    obtain ⟨hw, h3⟩ := wf2 hw
    obtain ⟨hw, h2⟩ := wf2 hw
    obtain ⟨h0, h1⟩ := wf2 hw
    have D : ∀ w, F28 w 0x26 stl d a b 0 → decodeWord w = .ok (.vaddF16 d a b stl) := fun w f => by
      exact (dec26 f.maj).trans (decodeVWord_eq f.stl (decodeV_lane f (by decide) (by decide)) rfl)
    have f : F28 (enRR 0x0000004D d a b stl) 0x26 stl d a b 0 := f28 (maj := 0x26) (k := 0) rfl (by decide) (by decide) (lt_reg h0) (lt_reg h1) (lt_reg h2) (lt_stl h3)
    exact ⟨f.toWord32, by decide, D _ f⟩

theorem vsubF16 (d : Nat) (a : Nat) (b : Nat) (stl : Nat) : RoundTrip.Statement (.vsubF16 d a b stl) :=
  trip32 (w := enRR 0x1000004D d a b stl) (maj := 0x26) (stl := stl) rfl rfl fun hw => by
    obtain ⟨hw, h3⟩ := wf2 hw
    obtain ⟨hw, h2⟩ := wf2 hw
    obtain ⟨h0, h1⟩ := wf2 hw
    have D : ∀ w, F28 w 0x26 stl d a b 1 → decodeWord w = .ok (.vsubF16 d a b stl) := fun w f => by
      exact (dec26 f.maj).trans (decodeVWord_eq f.stl (decodeV_lane f (by decide) (by decide)) rfl)
    have f : F28 (enRR 0x1000004D d a b stl) 0x26 stl d a b 1 := f28 (maj := 0x26) (k := 1) rfl (by decide) (by decide) (lt_reg h0) (lt_reg h1) (lt_reg h2) (lt_stl h3)
    exact ⟨f.toWord32, by decide, D _ f⟩

theorem vmulF16 (d : Nat) (a : Nat) (b : Nat) (stl : Nat) : RoundTrip.Statement (.vmulF16 d a b stl) :=
  trip32 (w := enRR 0x2000004D d a b stl) (maj := 0x26) (stl := stl) rfl rfl fun hw => by
    obtain ⟨hw, h3⟩ := wf2 hw
    obtain ⟨hw, h2⟩ := wf2 hw
    obtain ⟨h0, h1⟩ := wf2 hw
    have D : ∀ w, F28 w 0x26 stl d a b 2 → decodeWord w = .ok (.vmulF16 d a b stl) := fun w f => by
      exact (dec26 f.maj).trans (decodeVWord_eq f.stl (decodeV_lane f (by decide) (by decide)) rfl)
    have f : F28 (enRR 0x2000004D d a b stl) 0x26 stl d a b 2 := f28 (maj := 0x26) (k := 2) rfl (by decide) (by decide) (lt_reg h0) (lt_reg h1) (lt_reg h2) (lt_stl h3)
    exact ⟨f.toWord32, by decide, D _ f⟩

theorem vmacF16 (d : Nat) (a : Nat) (b : Nat) (stl : Nat) : RoundTrip.Statement (.vmacF16 d a b stl) :=
  trip32 (w := enRR 0x3000004D d a b stl) (maj := 0x26) (stl := stl) rfl rfl fun hw => by
    obtain ⟨hw, h3⟩ := wf2 hw
    obtain ⟨hw, h2⟩ := wf2 hw
    obtain ⟨h0, h1⟩ := wf2 hw
    have D : ∀ w, F28 w 0x26 stl d a b 3 → decodeWord w = .ok (.vmacF16 d a b stl) := fun w f => by
      exact (dec26 f.maj).trans (decodeVWord_eq f.stl (decodeV_lane f (by decide) (by decide)) rfl)
    have f : F28 (enRR 0x3000004D d a b stl) 0x26 stl d a b 3 := f28 (maj := 0x26) (k := 3) rfl (by decide) (by decide) (lt_reg h0) (lt_reg h1) (lt_reg h2) (lt_stl h3)
    exact ⟨f.toWord32, by decide, D _ f⟩

theorem vminF16 (d : Nat) (a : Nat) (b : Nat) (stl : Nat) : RoundTrip.Statement (.vminF16 d a b stl) :=
  trip32 (w := enRR 0x4000004D d a b stl) (maj := 0x26) (stl := stl) rfl rfl fun hw => by
    obtain ⟨hw, h3⟩ := wf2 hw
    obtain ⟨hw, h2⟩ := wf2 hw
    obtain ⟨h0, h1⟩ := wf2 hw
    have D : ∀ w, F28 w 0x26 stl d a b 4 → decodeWord w = .ok (.vminF16 d a b stl) := fun w f => by
      exact (dec26 f.maj).trans (decodeVWord_eq f.stl (decodeV_lane f (by decide) (by decide)) rfl)
    have f : F28 (enRR 0x4000004D d a b stl) 0x26 stl d a b 4 := f28 (maj := 0x26) (k := 4) rfl (by decide) (by decide) (lt_reg h0) (lt_reg h1) (lt_reg h2) (lt_stl h3)
    exact ⟨f.toWord32, by decide, D _ f⟩

theorem vmaxF16 (d : Nat) (a : Nat) (b : Nat) (stl : Nat) : RoundTrip.Statement (.vmaxF16 d a b stl) :=
  trip32 (w := enRR 0x5000004D d a b stl) (maj := 0x26) (stl := stl) rfl rfl fun hw => by
    obtain ⟨hw, h3⟩ := wf2 hw
    obtain ⟨hw, h2⟩ := wf2 hw
    obtain ⟨h0, h1⟩ := wf2 hw
    have D : ∀ w, F28 w 0x26 stl d a b 5 → decodeWord w = .ok (.vmaxF16 d a b stl) := fun w f => by
      exact (dec26 f.maj).trans (decodeVWord_eq f.stl (decodeV_lane f (by decide) (by decide)) rfl)
    have f : F28 (enRR 0x5000004D d a b stl) 0x26 stl d a b 5 := f28 (maj := 0x26) (k := 5) rfl (by decide) (by decide) (lt_reg h0) (lt_reg h1) (lt_reg h2) (lt_stl h3)
    exact ⟨f.toWord32, by decide, D _ f⟩

theorem vminpF16 (d : Nat) (a : Nat) (b : Nat) (stl : Nat) : RoundTrip.Statement (.vminpF16 d a b stl) :=
  trip32 (w := enRR 0x6000004D d a b stl) (maj := 0x26) (stl := stl) rfl rfl fun hw => by
    obtain ⟨hw, h3⟩ := wf2 hw
    obtain ⟨hw, h2⟩ := wf2 hw
    obtain ⟨h0, h1⟩ := wf2 hw
    have D : ∀ w, F28 w 0x26 stl d a b 6 → decodeWord w = .ok (.vminpF16 d a b stl) := fun w f => by
      exact (dec26 f.maj).trans (decodeVWord_eq f.stl (decodeV_lane f (by decide) (by decide)) rfl)
    have f : F28 (enRR 0x6000004D d a b stl) 0x26 stl d a b 6 := f28 (maj := 0x26) (k := 6) rfl (by decide) (by decide) (lt_reg h0) (lt_reg h1) (lt_reg h2) (lt_stl h3)
    exact ⟨f.toWord32, by decide, D _ f⟩

theorem vmaxpF16 (d : Nat) (a : Nat) (b : Nat) (stl : Nat) : RoundTrip.Statement (.vmaxpF16 d a b stl) :=
  trip32 (w := enRR 0x7000004D d a b stl) (maj := 0x26) (stl := stl) rfl rfl fun hw => by
    obtain ⟨hw, h3⟩ := wf2 hw
    obtain ⟨hw, h2⟩ := wf2 hw
    obtain ⟨h0, h1⟩ := wf2 hw
    have D : ∀ w, F28 w 0x26 stl d a b 7 → decodeWord w = .ok (.vmaxpF16 d a b stl) := fun w f => by
      exact (dec26 f.maj).trans (decodeVWord_eq f.stl (decodeV_lane f (by decide) (by decide)) rfl)
    have f : F28 (enRR 0x7000004D d a b stl) 0x26 stl d a b 7 := f28 (maj := 0x26) (k := 7) rfl (by decide) (by decide) (lt_reg h0) (lt_reg h1) (lt_reg h2) (lt_stl h3)
    exact ⟨f.toWord32, by decide, D _ f⟩

theorem vandF16 (d : Nat) (a : Nat) (b : Nat) (stl : Nat) : RoundTrip.Statement (.vandF16 d a b stl) :=
  trip32 (w := enRR 0x8000004D d a b stl) (maj := 0x26) (stl := stl) rfl rfl fun hw => by
    obtain ⟨hw, h3⟩ := wf2 hw
    obtain ⟨hw, h2⟩ := wf2 hw
    obtain ⟨h0, h1⟩ := wf2 hw
    have D : ∀ w, F28 w 0x26 stl d a b 8 → decodeWord w = .ok (.vandF16 d a b stl) := fun w f => by
      exact (dec26 f.maj).trans (decodeVWord_eq f.stl (decodeV_lane f (by decide) (by decide)) rfl)
    have f : F28 (enRR 0x8000004D d a b stl) 0x26 stl d a b 8 := f28 (maj := 0x26) (k := 8) rfl (by decide) (by decide) (lt_reg h0) (lt_reg h1) (lt_reg h2) (lt_stl h3)
    exact ⟨f.toWord32, by decide, D _ f⟩

theorem vorF16 (d : Nat) (a : Nat) (b : Nat) (stl : Nat) : RoundTrip.Statement (.vorF16 d a b stl) :=
  trip32 (w := enRR 0x9000004D d a b stl) (maj := 0x26) (stl := stl) rfl rfl fun hw => by
    obtain ⟨hw, h3⟩ := wf2 hw
    obtain ⟨hw, h2⟩ := wf2 hw
    obtain ⟨h0, h1⟩ := wf2 hw
    have D : ∀ w, F28 w 0x26 stl d a b 9 → decodeWord w = .ok (.vorF16 d a b stl) := fun w f => by
      exact (dec26 f.maj).trans (decodeVWord_eq f.stl (decodeV_lane f (by decide) (by decide)) rfl)
    have f : F28 (enRR 0x9000004D d a b stl) 0x26 stl d a b 9 := f28 (maj := 0x26) (k := 9) rfl (by decide) (by decide) (lt_reg h0) (lt_reg h1) (lt_reg h2) (lt_stl h3)
    exact ⟨f.toWord32, by decide, D _ f⟩

theorem vxorF16 (d : Nat) (a : Nat) (b : Nat) (stl : Nat) : RoundTrip.Statement (.vxorF16 d a b stl) :=
  trip32 (w := enRR 0xA000004D d a b stl) (maj := 0x26) (stl := stl) rfl rfl fun hw => by
    obtain ⟨hw, h3⟩ := wf2 hw
    obtain ⟨hw, h2⟩ := wf2 hw
    obtain ⟨h0, h1⟩ := wf2 hw
    have D : ∀ w, F28 w 0x26 stl d a b 10 → decodeWord w = .ok (.vxorF16 d a b stl) := fun w f => by
      exact (dec26 f.maj).trans (decodeVWord_eq f.stl (decodeV_lane f (by decide) (by decide)) rfl)
    have f : F28 (enRR 0xA000004D d a b stl) 0x26 stl d a b 10 := f28 (maj := 0x26) (k := 10) rfl (by decide) (by decide) (lt_reg h0) (lt_reg h1) (lt_reg h2) (lt_stl h3)
    exact ⟨f.toWord32, by decide, D _ f⟩

theorem vshlF16 (d : Nat) (a : Nat) (b : Nat) (stl : Nat) : RoundTrip.Statement (.vshlF16 d a b stl) :=
  trip32 (w := enRR 0xB000004D d a b stl) (maj := 0x26) (stl := stl) rfl rfl fun hw => by
    obtain ⟨hw, h3⟩ := wf2 hw
    obtain ⟨hw, h2⟩ := wf2 hw
    obtain ⟨h0, h1⟩ := wf2 hw
    have D : ∀ w, F28 w 0x26 stl d a b 11 → decodeWord w = .ok (.vshlF16 d a b stl) := fun w f => by
      exact (dec26 f.maj).trans (decodeVWord_eq f.stl (decodeV_lane f (by decide) (by decide)) rfl)
    have f : F28 (enRR 0xB000004D d a b stl) 0x26 stl d a b 11 := f28 (maj := 0x26) (k := 11) rfl (by decide) (by decide) (lt_reg h0) (lt_reg h1) (lt_reg h2) (lt_stl h3)
    exact ⟨f.toWord32, by decide, D _ f⟩

theorem vshrF16 (d : Nat) (a : Nat) (b : Nat) (stl : Nat) : RoundTrip.Statement (.vshrF16 d a b stl) :=
  trip32 (w := enRR 0xC000004D d a b stl) (maj := 0x26) (stl := stl) rfl rfl fun hw => by
    obtain ⟨hw, h3⟩ := wf2 hw
    obtain ⟨hw, h2⟩ := wf2 hw
    obtain ⟨h0, h1⟩ := wf2 hw
    have D : ∀ w, F28 w 0x26 stl d a b 12 → decodeWord w = .ok (.vshrF16 d a b stl) := fun w f => by
      exact (dec26 f.maj).trans (decodeVWord_eq f.stl (decodeV_lane f (by decide) (by decide)) rfl)
    have f : F28 (enRR 0xC000004D d a b stl) 0x26 stl d a b 12 := f28 (maj := 0x26) (k := 12) rfl (by decide) (by decide) (lt_reg h0) (lt_reg h1) (lt_reg h2) (lt_stl h3)
    exact ⟨f.toWord32, by decide, D _ f⟩

theorem vsraF16 (d : Nat) (a : Nat) (b : Nat) (stl : Nat) : RoundTrip.Statement (.vsraF16 d a b stl) :=
  trip32 (w := enRR 0xD000004D d a b stl) (maj := 0x26) (stl := stl) rfl rfl fun hw => by
    obtain ⟨hw, h3⟩ := wf2 hw
    obtain ⟨hw, h2⟩ := wf2 hw
    obtain ⟨h0, h1⟩ := wf2 hw
    have D : ∀ w, F28 w 0x26 stl d a b 13 → decodeWord w = .ok (.vsraF16 d a b stl) := fun w f => by
      exact (dec26 f.maj).trans (decodeVWord_eq f.stl (decodeV_lane f (by decide) (by decide)) rfl)
    have f : F28 (enRR 0xD000004D d a b stl) 0x26 stl d a b 13 := f28 (maj := 0x26) (k := 13) rfl (by decide) (by decide) (lt_reg h0) (lt_reg h1) (lt_reg h2) (lt_stl h3)
    exact ⟨f.toWord32, by decide, D _ f⟩

theorem vcltF16 (d : Nat) (a : Nat) (b : Nat) (stl : Nat) : RoundTrip.Statement (.vcltF16 d a b stl) :=
  trip32 (w := enRR 0xE000004D d a b stl) (maj := 0x26) (stl := stl) rfl rfl fun hw => by
    obtain ⟨hw, h3⟩ := wf2 hw
    obtain ⟨hw, h2⟩ := wf2 hw
    obtain ⟨h0, h1⟩ := wf2 hw
    have D : ∀ w, F28 w 0x26 stl d a b 14 → decodeWord w = .ok (.vcltF16 d a b stl) := fun w f => by
      exact (dec26 f.maj).trans (decodeVWord_eq f.stl (decodeV_lane f (by decide) (by decide)) rfl)
    have f : F28 (enRR 0xE000004D d a b stl) 0x26 stl d a b 14 := f28 (maj := 0x26) (k := 14) rfl (by decide) (by decide) (lt_reg h0) (lt_reg h1) (lt_reg h2) (lt_stl h3)
    exact ⟨f.toWord32, by decide, D _ f⟩

theorem vceqF16 (d : Nat) (a : Nat) (b : Nat) (stl : Nat) : RoundTrip.Statement (.vceqF16 d a b stl) :=
  trip32 (w := enRR 0xF000004D d a b stl) (maj := 0x26) (stl := stl) rfl rfl fun hw => by
    obtain ⟨hw, h3⟩ := wf2 hw
    obtain ⟨hw, h2⟩ := wf2 hw
    obtain ⟨h0, h1⟩ := wf2 hw
    have D : ∀ w, F28 w 0x26 stl d a b 15 → decodeWord w = .ok (.vceqF16 d a b stl) := fun w f => by
      exact (dec26 f.maj).trans (decodeVWord_eq f.stl (decodeV_lane f (by decide) (by decide)) rfl)
    have f : F28 (enRR 0xF000004D d a b stl) 0x26 stl d a b 15 := f28 (maj := 0x26) (k := 15) rfl (by decide) (by decide) (lt_reg h0) (lt_reg h1) (lt_reg h2) (lt_stl h3)
    exact ⟨f.toWord32, by decide, D _ f⟩

theorem vaddI16 (d : Nat) (a : Nat) (b : Nat) (stl : Nat) : RoundTrip.Statement (.vaddI16 d a b stl) :=
  trip32 (w := enRR 0x0000004F d a b stl) (maj := 0x27) (stl := stl) rfl rfl fun hw => by
    obtain ⟨hw, h3⟩ := wf2 hw
    obtain ⟨hw, h2⟩ := wf2 hw
    obtain ⟨h0, h1⟩ := wf2 hw
    have D : ∀ w, F28 w 0x27 stl d a b 0 → decodeWord w = .ok (.vaddI16 d a b stl) := fun w f => by
      exact (dec27 f.maj).trans (decodeVWord_eq f.stl (decodeV_lane f (by decide) (by decide)) rfl)
    have f : F28 (enRR 0x0000004F d a b stl) 0x27 stl d a b 0 := f28 (maj := 0x27) (k := 0) rfl (by decide) (by decide) (lt_reg h0) (lt_reg h1) (lt_reg h2) (lt_stl h3)
    exact ⟨f.toWord32, by decide, D _ f⟩

theorem vsubI16 (d : Nat) (a : Nat) (b : Nat) (stl : Nat) : RoundTrip.Statement (.vsubI16 d a b stl) :=
  trip32 (w := enRR 0x1000004F d a b stl) (maj := 0x27) (stl := stl) rfl rfl fun hw => by
    obtain ⟨hw, h3⟩ := wf2 hw
    obtain ⟨hw, h2⟩ := wf2 hw
    obtain ⟨h0, h1⟩ := wf2 hw
    have D : ∀ w, F28 w 0x27 stl d a b 1 → decodeWord w = .ok (.vsubI16 d a b stl) := fun w f => by
      exact (dec27 f.maj).trans (decodeVWord_eq f.stl (decodeV_lane f (by decide) (by decide)) rfl)
    have f : F28 (enRR 0x1000004F d a b stl) 0x27 stl d a b 1 := f28 (maj := 0x27) (k := 1) rfl (by decide) (by decide) (lt_reg h0) (lt_reg h1) (lt_reg h2) (lt_stl h3)
    exact ⟨f.toWord32, by decide, D _ f⟩

theorem vmulI16 (d : Nat) (a : Nat) (b : Nat) (stl : Nat) : RoundTrip.Statement (.vmulI16 d a b stl) :=
  trip32 (w := enRR 0x2000004F d a b stl) (maj := 0x27) (stl := stl) rfl rfl fun hw => by
    obtain ⟨hw, h3⟩ := wf2 hw
    obtain ⟨hw, h2⟩ := wf2 hw
    obtain ⟨h0, h1⟩ := wf2 hw
    have D : ∀ w, F28 w 0x27 stl d a b 2 → decodeWord w = .ok (.vmulI16 d a b stl) := fun w f => by
      exact (dec27 f.maj).trans (decodeVWord_eq f.stl (decodeV_lane f (by decide) (by decide)) rfl)
    have f : F28 (enRR 0x2000004F d a b stl) 0x27 stl d a b 2 := f28 (maj := 0x27) (k := 2) rfl (by decide) (by decide) (lt_reg h0) (lt_reg h1) (lt_reg h2) (lt_stl h3)
    exact ⟨f.toWord32, by decide, D _ f⟩

theorem vmacI16 (d : Nat) (a : Nat) (b : Nat) (stl : Nat) : RoundTrip.Statement (.vmacI16 d a b stl) :=
  trip32 (w := enRR 0x3000004F d a b stl) (maj := 0x27) (stl := stl) rfl rfl fun hw => by
    obtain ⟨hw, h3⟩ := wf2 hw
    obtain ⟨hw, h2⟩ := wf2 hw
    obtain ⟨h0, h1⟩ := wf2 hw
    have D : ∀ w, F28 w 0x27 stl d a b 3 → decodeWord w = .ok (.vmacI16 d a b stl) := fun w f => by
      exact (dec27 f.maj).trans (decodeVWord_eq f.stl (decodeV_lane f (by decide) (by decide)) rfl)
    have f : F28 (enRR 0x3000004F d a b stl) 0x27 stl d a b 3 := f28 (maj := 0x27) (k := 3) rfl (by decide) (by decide) (lt_reg h0) (lt_reg h1) (lt_reg h2) (lt_stl h3)
    exact ⟨f.toWord32, by decide, D _ f⟩

theorem vminI16 (d : Nat) (a : Nat) (b : Nat) (stl : Nat) : RoundTrip.Statement (.vminI16 d a b stl) :=
  trip32 (w := enRR 0x4000004F d a b stl) (maj := 0x27) (stl := stl) rfl rfl fun hw => by
    obtain ⟨hw, h3⟩ := wf2 hw
    obtain ⟨hw, h2⟩ := wf2 hw
    obtain ⟨h0, h1⟩ := wf2 hw
    have D : ∀ w, F28 w 0x27 stl d a b 4 → decodeWord w = .ok (.vminI16 d a b stl) := fun w f => by
      exact (dec27 f.maj).trans (decodeVWord_eq f.stl (decodeV_lane f (by decide) (by decide)) rfl)
    have f : F28 (enRR 0x4000004F d a b stl) 0x27 stl d a b 4 := f28 (maj := 0x27) (k := 4) rfl (by decide) (by decide) (lt_reg h0) (lt_reg h1) (lt_reg h2) (lt_stl h3)
    exact ⟨f.toWord32, by decide, D _ f⟩

theorem vmaxI16 (d : Nat) (a : Nat) (b : Nat) (stl : Nat) : RoundTrip.Statement (.vmaxI16 d a b stl) :=
  trip32 (w := enRR 0x5000004F d a b stl) (maj := 0x27) (stl := stl) rfl rfl fun hw => by
    obtain ⟨hw, h3⟩ := wf2 hw
    obtain ⟨hw, h2⟩ := wf2 hw
    obtain ⟨h0, h1⟩ := wf2 hw
    have D : ∀ w, F28 w 0x27 stl d a b 5 → decodeWord w = .ok (.vmaxI16 d a b stl) := fun w f => by
      exact (dec27 f.maj).trans (decodeVWord_eq f.stl (decodeV_lane f (by decide) (by decide)) rfl)
    have f : F28 (enRR 0x5000004F d a b stl) 0x27 stl d a b 5 := f28 (maj := 0x27) (k := 5) rfl (by decide) (by decide) (lt_reg h0) (lt_reg h1) (lt_reg h2) (lt_stl h3)
    exact ⟨f.toWord32, by decide, D _ f⟩

theorem vminpI16 (d : Nat) (a : Nat) (b : Nat) (stl : Nat) : RoundTrip.Statement (.vminpI16 d a b stl) :=
  trip32 (w := enRR 0x6000004F d a b stl) (maj := 0x27) (stl := stl) rfl rfl fun hw => by
    obtain ⟨hw, h3⟩ := wf2 hw
    obtain ⟨hw, h2⟩ := wf2 hw
    obtain ⟨h0, h1⟩ := wf2 hw
    have D : ∀ w, F28 w 0x27 stl d a b 6 → decodeWord w = .ok (.vminpI16 d a b stl) := fun w f => by
      exact (dec27 f.maj).trans (decodeVWord_eq f.stl (decodeV_lane f (by decide) (by decide)) rfl)
    have f : F28 (enRR 0x6000004F d a b stl) 0x27 stl d a b 6 := f28 (maj := 0x27) (k := 6) rfl (by decide) (by decide) (lt_reg h0) (lt_reg h1) (lt_reg h2) (lt_stl h3)
    exact ⟨f.toWord32, by decide, D _ f⟩

theorem vmaxpI16 (d : Nat) (a : Nat) (b : Nat) (stl : Nat) : RoundTrip.Statement (.vmaxpI16 d a b stl) :=
  trip32 (w := enRR 0x7000004F d a b stl) (maj := 0x27) (stl := stl) rfl rfl fun hw => by
    obtain ⟨hw, h3⟩ := wf2 hw
    obtain ⟨hw, h2⟩ := wf2 hw
    obtain ⟨h0, h1⟩ := wf2 hw
    have D : ∀ w, F28 w 0x27 stl d a b 7 → decodeWord w = .ok (.vmaxpI16 d a b stl) := fun w f => by
      exact (dec27 f.maj).trans (decodeVWord_eq f.stl (decodeV_lane f (by decide) (by decide)) rfl)
    have f : F28 (enRR 0x7000004F d a b stl) 0x27 stl d a b 7 := f28 (maj := 0x27) (k := 7) rfl (by decide) (by decide) (lt_reg h0) (lt_reg h1) (lt_reg h2) (lt_stl h3)
    exact ⟨f.toWord32, by decide, D _ f⟩

theorem vandI16 (d : Nat) (a : Nat) (b : Nat) (stl : Nat) : RoundTrip.Statement (.vandI16 d a b stl) :=
  trip32 (w := enRR 0x8000004F d a b stl) (maj := 0x27) (stl := stl) rfl rfl fun hw => by
    obtain ⟨hw, h3⟩ := wf2 hw
    obtain ⟨hw, h2⟩ := wf2 hw
    obtain ⟨h0, h1⟩ := wf2 hw
    have D : ∀ w, F28 w 0x27 stl d a b 8 → decodeWord w = .ok (.vandI16 d a b stl) := fun w f => by
      exact (dec27 f.maj).trans (decodeVWord_eq f.stl (decodeV_lane f (by decide) (by decide)) rfl)
    have f : F28 (enRR 0x8000004F d a b stl) 0x27 stl d a b 8 := f28 (maj := 0x27) (k := 8) rfl (by decide) (by decide) (lt_reg h0) (lt_reg h1) (lt_reg h2) (lt_stl h3)
    exact ⟨f.toWord32, by decide, D _ f⟩

theorem vorI16 (d : Nat) (a : Nat) (b : Nat) (stl : Nat) : RoundTrip.Statement (.vorI16 d a b stl) :=
  trip32 (w := enRR 0x9000004F d a b stl) (maj := 0x27) (stl := stl) rfl rfl fun hw => by
    obtain ⟨hw, h3⟩ := wf2 hw
    obtain ⟨hw, h2⟩ := wf2 hw
    obtain ⟨h0, h1⟩ := wf2 hw
    have D : ∀ w, F28 w 0x27 stl d a b 9 → decodeWord w = .ok (.vorI16 d a b stl) := fun w f => by
      exact (dec27 f.maj).trans (decodeVWord_eq f.stl (decodeV_lane f (by decide) (by decide)) rfl)
    have f : F28 (enRR 0x9000004F d a b stl) 0x27 stl d a b 9 := f28 (maj := 0x27) (k := 9) rfl (by decide) (by decide) (lt_reg h0) (lt_reg h1) (lt_reg h2) (lt_stl h3)
    exact ⟨f.toWord32, by decide, D _ f⟩

theorem vxorI16 (d : Nat) (a : Nat) (b : Nat) (stl : Nat) : RoundTrip.Statement (.vxorI16 d a b stl) :=
  trip32 (w := enRR 0xA000004F d a b stl) (maj := 0x27) (stl := stl) rfl rfl fun hw => by
    obtain ⟨hw, h3⟩ := wf2 hw
    obtain ⟨hw, h2⟩ := wf2 hw
    obtain ⟨h0, h1⟩ := wf2 hw
    have D : ∀ w, F28 w 0x27 stl d a b 10 → decodeWord w = .ok (.vxorI16 d a b stl) := fun w f => by
      exact (dec27 f.maj).trans (decodeVWord_eq f.stl (decodeV_lane f (by decide) (by decide)) rfl)
    have f : F28 (enRR 0xA000004F d a b stl) 0x27 stl d a b 10 := f28 (maj := 0x27) (k := 10) rfl (by decide) (by decide) (lt_reg h0) (lt_reg h1) (lt_reg h2) (lt_stl h3)
    exact ⟨f.toWord32, by decide, D _ f⟩

theorem vshlI16 (d : Nat) (a : Nat) (b : Nat) (stl : Nat) : RoundTrip.Statement (.vshlI16 d a b stl) :=
  trip32 (w := enRR 0xB000004F d a b stl) (maj := 0x27) (stl := stl) rfl rfl fun hw => by
    obtain ⟨hw, h3⟩ := wf2 hw
    obtain ⟨hw, h2⟩ := wf2 hw
    obtain ⟨h0, h1⟩ := wf2 hw
    have D : ∀ w, F28 w 0x27 stl d a b 11 → decodeWord w = .ok (.vshlI16 d a b stl) := fun w f => by
      exact (dec27 f.maj).trans (decodeVWord_eq f.stl (decodeV_lane f (by decide) (by decide)) rfl)
    have f : F28 (enRR 0xB000004F d a b stl) 0x27 stl d a b 11 := f28 (maj := 0x27) (k := 11) rfl (by decide) (by decide) (lt_reg h0) (lt_reg h1) (lt_reg h2) (lt_stl h3)
    exact ⟨f.toWord32, by decide, D _ f⟩

theorem vshrI16 (d : Nat) (a : Nat) (b : Nat) (stl : Nat) : RoundTrip.Statement (.vshrI16 d a b stl) :=
  trip32 (w := enRR 0xC000004F d a b stl) (maj := 0x27) (stl := stl) rfl rfl fun hw => by
    obtain ⟨hw, h3⟩ := wf2 hw
    obtain ⟨hw, h2⟩ := wf2 hw
    obtain ⟨h0, h1⟩ := wf2 hw
    have D : ∀ w, F28 w 0x27 stl d a b 12 → decodeWord w = .ok (.vshrI16 d a b stl) := fun w f => by
      exact (dec27 f.maj).trans (decodeVWord_eq f.stl (decodeV_lane f (by decide) (by decide)) rfl)
    have f : F28 (enRR 0xC000004F d a b stl) 0x27 stl d a b 12 := f28 (maj := 0x27) (k := 12) rfl (by decide) (by decide) (lt_reg h0) (lt_reg h1) (lt_reg h2) (lt_stl h3)
    exact ⟨f.toWord32, by decide, D _ f⟩

theorem vsraI16 (d : Nat) (a : Nat) (b : Nat) (stl : Nat) : RoundTrip.Statement (.vsraI16 d a b stl) :=
  trip32 (w := enRR 0xD000004F d a b stl) (maj := 0x27) (stl := stl) rfl rfl fun hw => by
    obtain ⟨hw, h3⟩ := wf2 hw
    obtain ⟨hw, h2⟩ := wf2 hw
    obtain ⟨h0, h1⟩ := wf2 hw
    have D : ∀ w, F28 w 0x27 stl d a b 13 → decodeWord w = .ok (.vsraI16 d a b stl) := fun w f => by
      exact (dec27 f.maj).trans (decodeVWord_eq f.stl (decodeV_lane f (by decide) (by decide)) rfl)
    have f : F28 (enRR 0xD000004F d a b stl) 0x27 stl d a b 13 := f28 (maj := 0x27) (k := 13) rfl (by decide) (by decide) (lt_reg h0) (lt_reg h1) (lt_reg h2) (lt_stl h3)
    exact ⟨f.toWord32, by decide, D _ f⟩

theorem vcltI16 (d : Nat) (a : Nat) (b : Nat) (stl : Nat) : RoundTrip.Statement (.vcltI16 d a b stl) :=
  trip32 (w := enRR 0xE000004F d a b stl) (maj := 0x27) (stl := stl) rfl rfl fun hw => by
    obtain ⟨hw, h3⟩ := wf2 hw
    obtain ⟨hw, h2⟩ := wf2 hw
    obtain ⟨h0, h1⟩ := wf2 hw
    have D : ∀ w, F28 w 0x27 stl d a b 14 → decodeWord w = .ok (.vcltI16 d a b stl) := fun w f => by
      exact (dec27 f.maj).trans (decodeVWord_eq f.stl (decodeV_lane f (by decide) (by decide)) rfl)
    have f : F28 (enRR 0xE000004F d a b stl) 0x27 stl d a b 14 := f28 (maj := 0x27) (k := 14) rfl (by decide) (by decide) (lt_reg h0) (lt_reg h1) (lt_reg h2) (lt_stl h3)
    exact ⟨f.toWord32, by decide, D _ f⟩

theorem vceqI16 (d : Nat) (a : Nat) (b : Nat) (stl : Nat) : RoundTrip.Statement (.vceqI16 d a b stl) :=
  trip32 (w := enRR 0xF000004F d a b stl) (maj := 0x27) (stl := stl) rfl rfl fun hw => by
    obtain ⟨hw, h3⟩ := wf2 hw
    obtain ⟨hw, h2⟩ := wf2 hw
    obtain ⟨h0, h1⟩ := wf2 hw
    have D : ∀ w, F28 w 0x27 stl d a b 15 → decodeWord w = .ok (.vceqI16 d a b stl) := fun w f => by
      exact (dec27 f.maj).trans (decodeVWord_eq f.stl (decodeV_lane f (by decide) (by decide)) rfl)
    have f : F28 (enRR 0xF000004F d a b stl) 0x27 stl d a b 15 := f28 (maj := 0x27) (k := 15) rfl (by decide) (by decide) (lt_reg h0) (lt_reg h1) (lt_reg h2) (lt_stl h3)
    exact ⟨f.toWord32, by decide, D _ f⟩

theorem vaddI8 (d : Nat) (a : Nat) (b : Nat) (stl : Nat) : RoundTrip.Statement (.vaddI8 d a b stl) :=
  trip32 (w := enRR 0x00000051 d a b stl) (maj := 0x28) (stl := stl) rfl rfl fun hw => by
    obtain ⟨hw, h3⟩ := wf2 hw
    obtain ⟨hw, h2⟩ := wf2 hw
    obtain ⟨h0, h1⟩ := wf2 hw
    have D : ∀ w, F28 w 0x28 stl d a b 0 → decodeWord w = .ok (.vaddI8 d a b stl) := fun w f => by
      exact (dec28 f.maj).trans (decodeVWord_eq f.stl (decodeV_lane f (by decide) (by decide)) rfl)
    have f : F28 (enRR 0x00000051 d a b stl) 0x28 stl d a b 0 := f28 (maj := 0x28) (k := 0) rfl (by decide) (by decide) (lt_reg h0) (lt_reg h1) (lt_reg h2) (lt_stl h3)
    exact ⟨f.toWord32, by decide, D _ f⟩

theorem vsubI8 (d : Nat) (a : Nat) (b : Nat) (stl : Nat) : RoundTrip.Statement (.vsubI8 d a b stl) :=
  trip32 (w := enRR 0x10000051 d a b stl) (maj := 0x28) (stl := stl) rfl rfl fun hw => by
    obtain ⟨hw, h3⟩ := wf2 hw
    obtain ⟨hw, h2⟩ := wf2 hw
    obtain ⟨h0, h1⟩ := wf2 hw
    have D : ∀ w, F28 w 0x28 stl d a b 1 → decodeWord w = .ok (.vsubI8 d a b stl) := fun w f => by
      exact (dec28 f.maj).trans (decodeVWord_eq f.stl (decodeV_lane f (by decide) (by decide)) rfl)
    have f : F28 (enRR 0x10000051 d a b stl) 0x28 stl d a b 1 := f28 (maj := 0x28) (k := 1) rfl (by decide) (by decide) (lt_reg h0) (lt_reg h1) (lt_reg h2) (lt_stl h3)
    exact ⟨f.toWord32, by decide, D _ f⟩

theorem vmulI8 (d : Nat) (a : Nat) (b : Nat) (stl : Nat) : RoundTrip.Statement (.vmulI8 d a b stl) :=
  trip32 (w := enRR 0x20000051 d a b stl) (maj := 0x28) (stl := stl) rfl rfl fun hw => by
    obtain ⟨hw, h3⟩ := wf2 hw
    obtain ⟨hw, h2⟩ := wf2 hw
    obtain ⟨h0, h1⟩ := wf2 hw
    have D : ∀ w, F28 w 0x28 stl d a b 2 → decodeWord w = .ok (.vmulI8 d a b stl) := fun w f => by
      exact (dec28 f.maj).trans (decodeVWord_eq f.stl (decodeV_lane f (by decide) (by decide)) rfl)
    have f : F28 (enRR 0x20000051 d a b stl) 0x28 stl d a b 2 := f28 (maj := 0x28) (k := 2) rfl (by decide) (by decide) (lt_reg h0) (lt_reg h1) (lt_reg h2) (lt_stl h3)
    exact ⟨f.toWord32, by decide, D _ f⟩

theorem vmacI8 (d : Nat) (a : Nat) (b : Nat) (stl : Nat) : RoundTrip.Statement (.vmacI8 d a b stl) :=
  trip32 (w := enRR 0x30000051 d a b stl) (maj := 0x28) (stl := stl) rfl rfl fun hw => by
    obtain ⟨hw, h3⟩ := wf2 hw
    obtain ⟨hw, h2⟩ := wf2 hw
    obtain ⟨h0, h1⟩ := wf2 hw
    have D : ∀ w, F28 w 0x28 stl d a b 3 → decodeWord w = .ok (.vmacI8 d a b stl) := fun w f => by
      exact (dec28 f.maj).trans (decodeVWord_eq f.stl (decodeV_lane f (by decide) (by decide)) rfl)
    have f : F28 (enRR 0x30000051 d a b stl) 0x28 stl d a b 3 := f28 (maj := 0x28) (k := 3) rfl (by decide) (by decide) (lt_reg h0) (lt_reg h1) (lt_reg h2) (lt_stl h3)
    exact ⟨f.toWord32, by decide, D _ f⟩

theorem vminI8 (d : Nat) (a : Nat) (b : Nat) (stl : Nat) : RoundTrip.Statement (.vminI8 d a b stl) :=
  trip32 (w := enRR 0x40000051 d a b stl) (maj := 0x28) (stl := stl) rfl rfl fun hw => by
    obtain ⟨hw, h3⟩ := wf2 hw
    obtain ⟨hw, h2⟩ := wf2 hw
    obtain ⟨h0, h1⟩ := wf2 hw
    have D : ∀ w, F28 w 0x28 stl d a b 4 → decodeWord w = .ok (.vminI8 d a b stl) := fun w f => by
      exact (dec28 f.maj).trans (decodeVWord_eq f.stl (decodeV_lane f (by decide) (by decide)) rfl)
    have f : F28 (enRR 0x40000051 d a b stl) 0x28 stl d a b 4 := f28 (maj := 0x28) (k := 4) rfl (by decide) (by decide) (lt_reg h0) (lt_reg h1) (lt_reg h2) (lt_stl h3)
    exact ⟨f.toWord32, by decide, D _ f⟩

theorem vmaxI8 (d : Nat) (a : Nat) (b : Nat) (stl : Nat) : RoundTrip.Statement (.vmaxI8 d a b stl) :=
  trip32 (w := enRR 0x50000051 d a b stl) (maj := 0x28) (stl := stl) rfl rfl fun hw => by
    obtain ⟨hw, h3⟩ := wf2 hw
    obtain ⟨hw, h2⟩ := wf2 hw
    obtain ⟨h0, h1⟩ := wf2 hw
    have D : ∀ w, F28 w 0x28 stl d a b 5 → decodeWord w = .ok (.vmaxI8 d a b stl) := fun w f => by
      exact (dec28 f.maj).trans (decodeVWord_eq f.stl (decodeV_lane f (by decide) (by decide)) rfl)
    have f : F28 (enRR 0x50000051 d a b stl) 0x28 stl d a b 5 := f28 (maj := 0x28) (k := 5) rfl (by decide) (by decide) (lt_reg h0) (lt_reg h1) (lt_reg h2) (lt_stl h3)
    exact ⟨f.toWord32, by decide, D _ f⟩

theorem vminpI8 (d : Nat) (a : Nat) (b : Nat) (stl : Nat) : RoundTrip.Statement (.vminpI8 d a b stl) :=
  trip32 (w := enRR 0x60000051 d a b stl) (maj := 0x28) (stl := stl) rfl rfl fun hw => by
    obtain ⟨hw, h3⟩ := wf2 hw
    obtain ⟨hw, h2⟩ := wf2 hw
    obtain ⟨h0, h1⟩ := wf2 hw
    have D : ∀ w, F28 w 0x28 stl d a b 6 → decodeWord w = .ok (.vminpI8 d a b stl) := fun w f => by
      exact (dec28 f.maj).trans (decodeVWord_eq f.stl (decodeV_lane f (by decide) (by decide)) rfl)
    have f : F28 (enRR 0x60000051 d a b stl) 0x28 stl d a b 6 := f28 (maj := 0x28) (k := 6) rfl (by decide) (by decide) (lt_reg h0) (lt_reg h1) (lt_reg h2) (lt_stl h3)
    exact ⟨f.toWord32, by decide, D _ f⟩

theorem vmaxpI8 (d : Nat) (a : Nat) (b : Nat) (stl : Nat) : RoundTrip.Statement (.vmaxpI8 d a b stl) :=
  trip32 (w := enRR 0x70000051 d a b stl) (maj := 0x28) (stl := stl) rfl rfl fun hw => by
    obtain ⟨hw, h3⟩ := wf2 hw
    obtain ⟨hw, h2⟩ := wf2 hw
    obtain ⟨h0, h1⟩ := wf2 hw
    have D : ∀ w, F28 w 0x28 stl d a b 7 → decodeWord w = .ok (.vmaxpI8 d a b stl) := fun w f => by
      exact (dec28 f.maj).trans (decodeVWord_eq f.stl (decodeV_lane f (by decide) (by decide)) rfl)
    have f : F28 (enRR 0x70000051 d a b stl) 0x28 stl d a b 7 := f28 (maj := 0x28) (k := 7) rfl (by decide) (by decide) (lt_reg h0) (lt_reg h1) (lt_reg h2) (lt_stl h3)
    exact ⟨f.toWord32, by decide, D _ f⟩

theorem vandI8 (d : Nat) (a : Nat) (b : Nat) (stl : Nat) : RoundTrip.Statement (.vandI8 d a b stl) :=
  trip32 (w := enRR 0x80000051 d a b stl) (maj := 0x28) (stl := stl) rfl rfl fun hw => by
    obtain ⟨hw, h3⟩ := wf2 hw
    obtain ⟨hw, h2⟩ := wf2 hw
    obtain ⟨h0, h1⟩ := wf2 hw
    have D : ∀ w, F28 w 0x28 stl d a b 8 → decodeWord w = .ok (.vandI8 d a b stl) := fun w f => by
      exact (dec28 f.maj).trans (decodeVWord_eq f.stl (decodeV_lane f (by decide) (by decide)) rfl)
    have f : F28 (enRR 0x80000051 d a b stl) 0x28 stl d a b 8 := f28 (maj := 0x28) (k := 8) rfl (by decide) (by decide) (lt_reg h0) (lt_reg h1) (lt_reg h2) (lt_stl h3)
    exact ⟨f.toWord32, by decide, D _ f⟩

theorem vorI8 (d : Nat) (a : Nat) (b : Nat) (stl : Nat) : RoundTrip.Statement (.vorI8 d a b stl) :=
  trip32 (w := enRR 0x90000051 d a b stl) (maj := 0x28) (stl := stl) rfl rfl fun hw => by
    obtain ⟨hw, h3⟩ := wf2 hw
    obtain ⟨hw, h2⟩ := wf2 hw
    obtain ⟨h0, h1⟩ := wf2 hw
    have D : ∀ w, F28 w 0x28 stl d a b 9 → decodeWord w = .ok (.vorI8 d a b stl) := fun w f => by
      exact (dec28 f.maj).trans (decodeVWord_eq f.stl (decodeV_lane f (by decide) (by decide)) rfl)
    have f : F28 (enRR 0x90000051 d a b stl) 0x28 stl d a b 9 := f28 (maj := 0x28) (k := 9) rfl (by decide) (by decide) (lt_reg h0) (lt_reg h1) (lt_reg h2) (lt_stl h3)
    exact ⟨f.toWord32, by decide, D _ f⟩

theorem vxorI8 (d : Nat) (a : Nat) (b : Nat) (stl : Nat) : RoundTrip.Statement (.vxorI8 d a b stl) :=
  trip32 (w := enRR 0xA0000051 d a b stl) (maj := 0x28) (stl := stl) rfl rfl fun hw => by
    obtain ⟨hw, h3⟩ := wf2 hw
    obtain ⟨hw, h2⟩ := wf2 hw
    obtain ⟨h0, h1⟩ := wf2 hw
    have D : ∀ w, F28 w 0x28 stl d a b 10 → decodeWord w = .ok (.vxorI8 d a b stl) := fun w f => by
      exact (dec28 f.maj).trans (decodeVWord_eq f.stl (decodeV_lane f (by decide) (by decide)) rfl)
    have f : F28 (enRR 0xA0000051 d a b stl) 0x28 stl d a b 10 := f28 (maj := 0x28) (k := 10) rfl (by decide) (by decide) (lt_reg h0) (lt_reg h1) (lt_reg h2) (lt_stl h3)
    exact ⟨f.toWord32, by decide, D _ f⟩

theorem vshlI8 (d : Nat) (a : Nat) (b : Nat) (stl : Nat) : RoundTrip.Statement (.vshlI8 d a b stl) :=
  trip32 (w := enRR 0xB0000051 d a b stl) (maj := 0x28) (stl := stl) rfl rfl fun hw => by
    obtain ⟨hw, h3⟩ := wf2 hw
    obtain ⟨hw, h2⟩ := wf2 hw
    obtain ⟨h0, h1⟩ := wf2 hw
    have D : ∀ w, F28 w 0x28 stl d a b 11 → decodeWord w = .ok (.vshlI8 d a b stl) := fun w f => by
      exact (dec28 f.maj).trans (decodeVWord_eq f.stl (decodeV_lane f (by decide) (by decide)) rfl)
    have f : F28 (enRR 0xB0000051 d a b stl) 0x28 stl d a b 11 := f28 (maj := 0x28) (k := 11) rfl (by decide) (by decide) (lt_reg h0) (lt_reg h1) (lt_reg h2) (lt_stl h3)
    exact ⟨f.toWord32, by decide, D _ f⟩

theorem vshrI8 (d : Nat) (a : Nat) (b : Nat) (stl : Nat) : RoundTrip.Statement (.vshrI8 d a b stl) :=
  trip32 (w := enRR 0xC0000051 d a b stl) (maj := 0x28) (stl := stl) rfl rfl fun hw => by
    obtain ⟨hw, h3⟩ := wf2 hw
    obtain ⟨hw, h2⟩ := wf2 hw
    obtain ⟨h0, h1⟩ := wf2 hw
    have D : ∀ w, F28 w 0x28 stl d a b 12 → decodeWord w = .ok (.vshrI8 d a b stl) := fun w f => by
      exact (dec28 f.maj).trans (decodeVWord_eq f.stl (decodeV_lane f (by decide) (by decide)) rfl)
    have f : F28 (enRR 0xC0000051 d a b stl) 0x28 stl d a b 12 := f28 (maj := 0x28) (k := 12) rfl (by decide) (by decide) (lt_reg h0) (lt_reg h1) (lt_reg h2) (lt_stl h3)
    exact ⟨f.toWord32, by decide, D _ f⟩

theorem vsraI8 (d : Nat) (a : Nat) (b : Nat) (stl : Nat) : RoundTrip.Statement (.vsraI8 d a b stl) :=
  trip32 (w := enRR 0xD0000051 d a b stl) (maj := 0x28) (stl := stl) rfl rfl fun hw => by
    obtain ⟨hw, h3⟩ := wf2 hw
    obtain ⟨hw, h2⟩ := wf2 hw
    obtain ⟨h0, h1⟩ := wf2 hw
    have D : ∀ w, F28 w 0x28 stl d a b 13 → decodeWord w = .ok (.vsraI8 d a b stl) := fun w f => by
      exact (dec28 f.maj).trans (decodeVWord_eq f.stl (decodeV_lane f (by decide) (by decide)) rfl)
    have f : F28 (enRR 0xD0000051 d a b stl) 0x28 stl d a b 13 := f28 (maj := 0x28) (k := 13) rfl (by decide) (by decide) (lt_reg h0) (lt_reg h1) (lt_reg h2) (lt_stl h3)
    exact ⟨f.toWord32, by decide, D _ f⟩

theorem vcltI8 (d : Nat) (a : Nat) (b : Nat) (stl : Nat) : RoundTrip.Statement (.vcltI8 d a b stl) :=
  trip32 (w := enRR 0xE0000051 d a b stl) (maj := 0x28) (stl := stl) rfl rfl fun hw => by
    obtain ⟨hw, h3⟩ := wf2 hw
    obtain ⟨hw, h2⟩ := wf2 hw
    obtain ⟨h0, h1⟩ := wf2 hw
    have D : ∀ w, F28 w 0x28 stl d a b 14 → decodeWord w = .ok (.vcltI8 d a b stl) := fun w f => by
      exact (dec28 f.maj).trans (decodeVWord_eq f.stl (decodeV_lane f (by decide) (by decide)) rfl)
    have f : F28 (enRR 0xE0000051 d a b stl) 0x28 stl d a b 14 := f28 (maj := 0x28) (k := 14) rfl (by decide) (by decide) (lt_reg h0) (lt_reg h1) (lt_reg h2) (lt_stl h3)
    exact ⟨f.toWord32, by decide, D _ f⟩

theorem vceqI8 (d : Nat) (a : Nat) (b : Nat) (stl : Nat) : RoundTrip.Statement (.vceqI8 d a b stl) :=
  trip32 (w := enRR 0xF0000051 d a b stl) (maj := 0x28) (stl := stl) rfl rfl fun hw => by
    obtain ⟨hw, h3⟩ := wf2 hw
    obtain ⟨hw, h2⟩ := wf2 hw
    obtain ⟨h0, h1⟩ := wf2 hw
    have D : ∀ w, F28 w 0x28 stl d a b 15 → decodeWord w = .ok (.vceqI8 d a b stl) := fun w f => by
      exact (dec28 f.maj).trans (decodeVWord_eq f.stl (decodeV_lane f (by decide) (by decide)) rfl)
    have f : F28 (enRR 0xF0000051 d a b stl) 0x28 stl d a b 15 := f28 (maj := 0x28) (k := 15) rfl (by decide) (by decide) (lt_reg h0) (lt_reg h1) (lt_reg h2) (lt_stl h3)
    exact ⟨f.toWord32, by decide, D _ f⟩

theorem vaddF64 (d : Nat) (a : Nat) (b : Nat) (stl : Nat) : RoundTrip.Statement (.vaddF64 d a b stl) :=
  trip32 (w := enRR 0x00000053 d a b stl) (maj := 0x29) (stl := stl) rfl rfl fun hw => by
    obtain ⟨hw, h3⟩ := wf2 hw
    obtain ⟨hw, h2⟩ := wf2 hw
    obtain ⟨h0, h1⟩ := wf2 hw
    have D : ∀ w, F28 w 0x29 stl d a b 0 → decodeWord w = .ok (.vaddF64 d a b stl) := fun w f => by
      exact (dec29 f.maj).trans (decodeVWord_eq f.stl (decodeV_lane f (by decide) (by decide)) rfl)
    have f : F28 (enRR 0x00000053 d a b stl) 0x29 stl d a b 0 := f28 (maj := 0x29) (k := 0) rfl (by decide) (by decide) (lt_reg h0) (lt_reg h1) (lt_reg h2) (lt_stl h3)
    exact ⟨f.toWord32, by decide, D _ f⟩

theorem vsubF64 (d : Nat) (a : Nat) (b : Nat) (stl : Nat) : RoundTrip.Statement (.vsubF64 d a b stl) :=
  trip32 (w := enRR 0x10000053 d a b stl) (maj := 0x29) (stl := stl) rfl rfl fun hw => by
    obtain ⟨hw, h3⟩ := wf2 hw
    obtain ⟨hw, h2⟩ := wf2 hw
    obtain ⟨h0, h1⟩ := wf2 hw
    have D : ∀ w, F28 w 0x29 stl d a b 1 → decodeWord w = .ok (.vsubF64 d a b stl) := fun w f => by
      exact (dec29 f.maj).trans (decodeVWord_eq f.stl (decodeV_lane f (by decide) (by decide)) rfl)
    have f : F28 (enRR 0x10000053 d a b stl) 0x29 stl d a b 1 := f28 (maj := 0x29) (k := 1) rfl (by decide) (by decide) (lt_reg h0) (lt_reg h1) (lt_reg h2) (lt_stl h3)
    exact ⟨f.toWord32, by decide, D _ f⟩

theorem vmulF64 (d : Nat) (a : Nat) (b : Nat) (stl : Nat) : RoundTrip.Statement (.vmulF64 d a b stl) :=
  trip32 (w := enRR 0x20000053 d a b stl) (maj := 0x29) (stl := stl) rfl rfl fun hw => by
    obtain ⟨hw, h3⟩ := wf2 hw
    obtain ⟨hw, h2⟩ := wf2 hw
    obtain ⟨h0, h1⟩ := wf2 hw
    have D : ∀ w, F28 w 0x29 stl d a b 2 → decodeWord w = .ok (.vmulF64 d a b stl) := fun w f => by
      exact (dec29 f.maj).trans (decodeVWord_eq f.stl (decodeV_lane f (by decide) (by decide)) rfl)
    have f : F28 (enRR 0x20000053 d a b stl) 0x29 stl d a b 2 := f28 (maj := 0x29) (k := 2) rfl (by decide) (by decide) (lt_reg h0) (lt_reg h1) (lt_reg h2) (lt_stl h3)
    exact ⟨f.toWord32, by decide, D _ f⟩

theorem vmacF64 (d : Nat) (a : Nat) (b : Nat) (stl : Nat) : RoundTrip.Statement (.vmacF64 d a b stl) :=
  trip32 (w := enRR 0x30000053 d a b stl) (maj := 0x29) (stl := stl) rfl rfl fun hw => by
    obtain ⟨hw, h3⟩ := wf2 hw
    obtain ⟨hw, h2⟩ := wf2 hw
    obtain ⟨h0, h1⟩ := wf2 hw
    have D : ∀ w, F28 w 0x29 stl d a b 3 → decodeWord w = .ok (.vmacF64 d a b stl) := fun w f => by
      exact (dec29 f.maj).trans (decodeVWord_eq f.stl (decodeV_lane f (by decide) (by decide)) rfl)
    have f : F28 (enRR 0x30000053 d a b stl) 0x29 stl d a b 3 := f28 (maj := 0x29) (k := 3) rfl (by decide) (by decide) (lt_reg h0) (lt_reg h1) (lt_reg h2) (lt_stl h3)
    exact ⟨f.toWord32, by decide, D _ f⟩

theorem vminF64 (d : Nat) (a : Nat) (b : Nat) (stl : Nat) : RoundTrip.Statement (.vminF64 d a b stl) :=
  trip32 (w := enRR 0x40000053 d a b stl) (maj := 0x29) (stl := stl) rfl rfl fun hw => by
    obtain ⟨hw, h3⟩ := wf2 hw
    obtain ⟨hw, h2⟩ := wf2 hw
    obtain ⟨h0, h1⟩ := wf2 hw
    have D : ∀ w, F28 w 0x29 stl d a b 4 → decodeWord w = .ok (.vminF64 d a b stl) := fun w f => by
      exact (dec29 f.maj).trans (decodeVWord_eq f.stl (decodeV_lane f (by decide) (by decide)) rfl)
    have f : F28 (enRR 0x40000053 d a b stl) 0x29 stl d a b 4 := f28 (maj := 0x29) (k := 4) rfl (by decide) (by decide) (lt_reg h0) (lt_reg h1) (lt_reg h2) (lt_stl h3)
    exact ⟨f.toWord32, by decide, D _ f⟩

theorem vmaxF64 (d : Nat) (a : Nat) (b : Nat) (stl : Nat) : RoundTrip.Statement (.vmaxF64 d a b stl) :=
  trip32 (w := enRR 0x50000053 d a b stl) (maj := 0x29) (stl := stl) rfl rfl fun hw => by
    obtain ⟨hw, h3⟩ := wf2 hw
    obtain ⟨hw, h2⟩ := wf2 hw
    obtain ⟨h0, h1⟩ := wf2 hw
    have D : ∀ w, F28 w 0x29 stl d a b 5 → decodeWord w = .ok (.vmaxF64 d a b stl) := fun w f => by
      exact (dec29 f.maj).trans (decodeVWord_eq f.stl (decodeV_lane f (by decide) (by decide)) rfl)
    have f : F28 (enRR 0x50000053 d a b stl) 0x29 stl d a b 5 := f28 (maj := 0x29) (k := 5) rfl (by decide) (by decide) (lt_reg h0) (lt_reg h1) (lt_reg h2) (lt_stl h3)
    exact ⟨f.toWord32, by decide, D _ f⟩

theorem vminpF64 (d : Nat) (a : Nat) (b : Nat) (stl : Nat) : RoundTrip.Statement (.vminpF64 d a b stl) :=
  trip32 (w := enRR 0x60000053 d a b stl) (maj := 0x29) (stl := stl) rfl rfl fun hw => by
    obtain ⟨hw, h3⟩ := wf2 hw
    obtain ⟨hw, h2⟩ := wf2 hw
    obtain ⟨h0, h1⟩ := wf2 hw
    have D : ∀ w, F28 w 0x29 stl d a b 6 → decodeWord w = .ok (.vminpF64 d a b stl) := fun w f => by
      exact (dec29 f.maj).trans (decodeVWord_eq f.stl (decodeV_lane f (by decide) (by decide)) rfl)
    have f : F28 (enRR 0x60000053 d a b stl) 0x29 stl d a b 6 := f28 (maj := 0x29) (k := 6) rfl (by decide) (by decide) (lt_reg h0) (lt_reg h1) (lt_reg h2) (lt_stl h3)
    exact ⟨f.toWord32, by decide, D _ f⟩

theorem vmaxpF64 (d : Nat) (a : Nat) (b : Nat) (stl : Nat) : RoundTrip.Statement (.vmaxpF64 d a b stl) :=
  trip32 (w := enRR 0x70000053 d a b stl) (maj := 0x29) (stl := stl) rfl rfl fun hw => by
    obtain ⟨hw, h3⟩ := wf2 hw
    obtain ⟨hw, h2⟩ := wf2 hw
    obtain ⟨h0, h1⟩ := wf2 hw
    have D : ∀ w, F28 w 0x29 stl d a b 7 → decodeWord w = .ok (.vmaxpF64 d a b stl) := fun w f => by
      exact (dec29 f.maj).trans (decodeVWord_eq f.stl (decodeV_lane f (by decide) (by decide)) rfl)
    have f : F28 (enRR 0x70000053 d a b stl) 0x29 stl d a b 7 := f28 (maj := 0x29) (k := 7) rfl (by decide) (by decide) (lt_reg h0) (lt_reg h1) (lt_reg h2) (lt_stl h3)
    exact ⟨f.toWord32, by decide, D _ f⟩

theorem vandF64 (d : Nat) (a : Nat) (b : Nat) (stl : Nat) : RoundTrip.Statement (.vandF64 d a b stl) :=
  trip32 (w := enRR 0x80000053 d a b stl) (maj := 0x29) (stl := stl) rfl rfl fun hw => by
    obtain ⟨hw, h3⟩ := wf2 hw
    obtain ⟨hw, h2⟩ := wf2 hw
    obtain ⟨h0, h1⟩ := wf2 hw
    have D : ∀ w, F28 w 0x29 stl d a b 8 → decodeWord w = .ok (.vandF64 d a b stl) := fun w f => by
      exact (dec29 f.maj).trans (decodeVWord_eq f.stl (decodeV_lane f (by decide) (by decide)) rfl)
    have f : F28 (enRR 0x80000053 d a b stl) 0x29 stl d a b 8 := f28 (maj := 0x29) (k := 8) rfl (by decide) (by decide) (lt_reg h0) (lt_reg h1) (lt_reg h2) (lt_stl h3)
    exact ⟨f.toWord32, by decide, D _ f⟩

theorem vorF64 (d : Nat) (a : Nat) (b : Nat) (stl : Nat) : RoundTrip.Statement (.vorF64 d a b stl) :=
  trip32 (w := enRR 0x90000053 d a b stl) (maj := 0x29) (stl := stl) rfl rfl fun hw => by
    obtain ⟨hw, h3⟩ := wf2 hw
    obtain ⟨hw, h2⟩ := wf2 hw
    obtain ⟨h0, h1⟩ := wf2 hw
    have D : ∀ w, F28 w 0x29 stl d a b 9 → decodeWord w = .ok (.vorF64 d a b stl) := fun w f => by
      exact (dec29 f.maj).trans (decodeVWord_eq f.stl (decodeV_lane f (by decide) (by decide)) rfl)
    have f : F28 (enRR 0x90000053 d a b stl) 0x29 stl d a b 9 := f28 (maj := 0x29) (k := 9) rfl (by decide) (by decide) (lt_reg h0) (lt_reg h1) (lt_reg h2) (lt_stl h3)
    exact ⟨f.toWord32, by decide, D _ f⟩

theorem vxorF64 (d : Nat) (a : Nat) (b : Nat) (stl : Nat) : RoundTrip.Statement (.vxorF64 d a b stl) :=
  trip32 (w := enRR 0xA0000053 d a b stl) (maj := 0x29) (stl := stl) rfl rfl fun hw => by
    obtain ⟨hw, h3⟩ := wf2 hw
    obtain ⟨hw, h2⟩ := wf2 hw
    obtain ⟨h0, h1⟩ := wf2 hw
    have D : ∀ w, F28 w 0x29 stl d a b 10 → decodeWord w = .ok (.vxorF64 d a b stl) := fun w f => by
      exact (dec29 f.maj).trans (decodeVWord_eq f.stl (decodeV_lane f (by decide) (by decide)) rfl)
    have f : F28 (enRR 0xA0000053 d a b stl) 0x29 stl d a b 10 := f28 (maj := 0x29) (k := 10) rfl (by decide) (by decide) (lt_reg h0) (lt_reg h1) (lt_reg h2) (lt_stl h3)
    exact ⟨f.toWord32, by decide, D _ f⟩

theorem vshlF64 (d : Nat) (a : Nat) (b : Nat) (stl : Nat) : RoundTrip.Statement (.vshlF64 d a b stl) :=
  trip32 (w := enRR 0xB0000053 d a b stl) (maj := 0x29) (stl := stl) rfl rfl fun hw => by
    obtain ⟨hw, h3⟩ := wf2 hw
    obtain ⟨hw, h2⟩ := wf2 hw
    obtain ⟨h0, h1⟩ := wf2 hw
    have D : ∀ w, F28 w 0x29 stl d a b 11 → decodeWord w = .ok (.vshlF64 d a b stl) := fun w f => by
      exact (dec29 f.maj).trans (decodeVWord_eq f.stl (decodeV_lane f (by decide) (by decide)) rfl)
    have f : F28 (enRR 0xB0000053 d a b stl) 0x29 stl d a b 11 := f28 (maj := 0x29) (k := 11) rfl (by decide) (by decide) (lt_reg h0) (lt_reg h1) (lt_reg h2) (lt_stl h3)
    exact ⟨f.toWord32, by decide, D _ f⟩

theorem vshrF64 (d : Nat) (a : Nat) (b : Nat) (stl : Nat) : RoundTrip.Statement (.vshrF64 d a b stl) :=
  trip32 (w := enRR 0xC0000053 d a b stl) (maj := 0x29) (stl := stl) rfl rfl fun hw => by
    obtain ⟨hw, h3⟩ := wf2 hw
    obtain ⟨hw, h2⟩ := wf2 hw
    obtain ⟨h0, h1⟩ := wf2 hw
    have D : ∀ w, F28 w 0x29 stl d a b 12 → decodeWord w = .ok (.vshrF64 d a b stl) := fun w f => by
      exact (dec29 f.maj).trans (decodeVWord_eq f.stl (decodeV_lane f (by decide) (by decide)) rfl)
    have f : F28 (enRR 0xC0000053 d a b stl) 0x29 stl d a b 12 := f28 (maj := 0x29) (k := 12) rfl (by decide) (by decide) (lt_reg h0) (lt_reg h1) (lt_reg h2) (lt_stl h3)
    exact ⟨f.toWord32, by decide, D _ f⟩

theorem vsraF64 (d : Nat) (a : Nat) (b : Nat) (stl : Nat) : RoundTrip.Statement (.vsraF64 d a b stl) :=
  trip32 (w := enRR 0xD0000053 d a b stl) (maj := 0x29) (stl := stl) rfl rfl fun hw => by
    obtain ⟨hw, h3⟩ := wf2 hw
    obtain ⟨hw, h2⟩ := wf2 hw
    obtain ⟨h0, h1⟩ := wf2 hw
    have D : ∀ w, F28 w 0x29 stl d a b 13 → decodeWord w = .ok (.vsraF64 d a b stl) := fun w f => by
      exact (dec29 f.maj).trans (decodeVWord_eq f.stl (decodeV_lane f (by decide) (by decide)) rfl)
    have f : F28 (enRR 0xD0000053 d a b stl) 0x29 stl d a b 13 := f28 (maj := 0x29) (k := 13) rfl (by decide) (by decide) (lt_reg h0) (lt_reg h1) (lt_reg h2) (lt_stl h3)
    exact ⟨f.toWord32, by decide, D _ f⟩

theorem vcltF64 (d : Nat) (a : Nat) (b : Nat) (stl : Nat) : RoundTrip.Statement (.vcltF64 d a b stl) :=
  trip32 (w := enRR 0xE0000053 d a b stl) (maj := 0x29) (stl := stl) rfl rfl fun hw => by
    obtain ⟨hw, h3⟩ := wf2 hw
    obtain ⟨hw, h2⟩ := wf2 hw
    obtain ⟨h0, h1⟩ := wf2 hw
    have D : ∀ w, F28 w 0x29 stl d a b 14 → decodeWord w = .ok (.vcltF64 d a b stl) := fun w f => by
      exact (dec29 f.maj).trans (decodeVWord_eq f.stl (decodeV_lane f (by decide) (by decide)) rfl)
    have f : F28 (enRR 0xE0000053 d a b stl) 0x29 stl d a b 14 := f28 (maj := 0x29) (k := 14) rfl (by decide) (by decide) (lt_reg h0) (lt_reg h1) (lt_reg h2) (lt_stl h3)
    exact ⟨f.toWord32, by decide, D _ f⟩

theorem vceqF64 (d : Nat) (a : Nat) (b : Nat) (stl : Nat) : RoundTrip.Statement (.vceqF64 d a b stl) :=
  trip32 (w := enRR 0xF0000053 d a b stl) (maj := 0x29) (stl := stl) rfl rfl fun hw => by
    obtain ⟨hw, h3⟩ := wf2 hw
    obtain ⟨hw, h2⟩ := wf2 hw
    obtain ⟨h0, h1⟩ := wf2 hw
    have D : ∀ w, F28 w 0x29 stl d a b 15 → decodeWord w = .ok (.vceqF64 d a b stl) := fun w f => by
      exact (dec29 f.maj).trans (decodeVWord_eq f.stl (decodeV_lane f (by decide) (by decide)) rfl)
    have f : F28 (enRR 0xF0000053 d a b stl) 0x29 stl d a b 15 := f28 (maj := 0x29) (k := 15) rfl (by decide) (by decide) (lt_reg h0) (lt_reg h1) (lt_reg h2) (lt_stl h3)
    exact ⟨f.toWord32, by decide, D _ f⟩

theorem vmov (ty : LaneTy) (d : Nat) (a : Nat) (stl : Nat) : RoundTrip.Statement (.vmov ty d a stl) :=
  trip32 (w := enRR (0x55 + ty.code * 2 ^ 28) d a 0 stl) (maj := 0x2A) (stl := stl) (congrArg some (congrArg (fun w => [fld w 0 16, fld w 16 16]) (by unfold enRR; omega))) rfl fun hw => by
    obtain ⟨hw, h3⟩ := wf2 hw
    obtain ⟨hw, h2⟩ := wf2 hw
    obtain ⟨h0, h1⟩ := wf2 hw
    have D : ∀ w, F28 w 0x2A stl d a 0 ty.code → decodeWord w = .ok (.vmov ty d a stl) := fun w f => by
      exact (dec2A f.maj).trans (decodeVWord_eq f.stl (decodeV_un f rfl h0) rfl)
    have f : F28 (enRR (0x55 + ty.code * 2 ^ 28) d a 0 stl) 0x2A stl d a 0 ty.code := f28 (maj := 0x2A) (k := ty.code) (by omega) (by decide) (ofCode_laneTy ty).2 (lt_reg h1) (lt_reg h2) (by decide) (lt_stl h3)
    exact ⟨f.toWord32, by decide, D _ f⟩

theorem vneg (ty : LaneTy) (d : Nat) (a : Nat) (stl : Nat) : RoundTrip.Statement (.vneg ty d a stl) :=
  trip32 (w := enRR (0x55 + ty.code * 2 ^ 28) d a 1 stl) (maj := 0x2A) (stl := stl) (congrArg some (congrArg (fun w => [fld w 0 16, fld w 16 16]) (by unfold enRR; omega))) rfl fun hw => by
    obtain ⟨hw, h3⟩ := wf2 hw
    obtain ⟨hw, h2⟩ := wf2 hw
    obtain ⟨h0, h1⟩ := wf2 hw
    have D : ∀ w, F28 w 0x2A stl d a 1 ty.code → decodeWord w = .ok (.vneg ty d a stl) := fun w f => by
      exact (dec2A f.maj).trans (decodeVWord_eq f.stl (decodeV_un f rfl h0) rfl)
    have f : F28 (enRR (0x55 + ty.code * 2 ^ 28) d a 1 stl) 0x2A stl d a 1 ty.code := f28 (maj := 0x2A) (k := ty.code) (by omega) (by decide) (ofCode_laneTy ty).2 (lt_reg h1) (lt_reg h2) (by decide) (lt_stl h3)
    exact ⟨f.toWord32, by decide, D _ f⟩

theorem vabs (ty : LaneTy) (d : Nat) (a : Nat) (stl : Nat) : RoundTrip.Statement (.vabs ty d a stl) :=
  trip32 (w := enRR (0x55 + ty.code * 2 ^ 28) d a 2 stl) (maj := 0x2A) (stl := stl) (congrArg some (congrArg (fun w => [fld w 0 16, fld w 16 16]) (by unfold enRR; omega))) rfl fun hw => by
    obtain ⟨hw, h3⟩ := wf2 hw
    obtain ⟨hw, h2⟩ := wf2 hw
    obtain ⟨h0, h1⟩ := wf2 hw
    have D : ∀ w, F28 w 0x2A stl d a 2 ty.code → decodeWord w = .ok (.vabs ty d a stl) := fun w f => by
      exact (dec2A f.maj).trans (decodeVWord_eq f.stl (decodeV_un f rfl h0) rfl)
    have f : F28 (enRR (0x55 + ty.code * 2 ^ 28) d a 2 stl) 0x2A stl d a 2 ty.code := f28 (maj := 0x2A) (k := ty.code) (by omega) (by decide) (ofCode_laneTy ty).2 (lt_reg h1) (lt_reg h2) (by decide) (lt_stl h3)
    exact ⟨f.toWord32, by decide, D _ f⟩

theorem vnot (ty : LaneTy) (d : Nat) (a : Nat) (stl : Nat) : RoundTrip.Statement (.vnot ty d a stl) :=
  trip32 (w := enRR (0x55 + ty.code * 2 ^ 28) d a 3 stl) (maj := 0x2A) (stl := stl) (congrArg some (congrArg (fun w => [fld w 0 16, fld w 16 16]) (by unfold enRR; omega))) rfl fun hw => by
    obtain ⟨hw, h3⟩ := wf2 hw
    obtain ⟨hw, h2⟩ := wf2 hw
    obtain ⟨h0, h1⟩ := wf2 hw
    have D : ∀ w, F28 w 0x2A stl d a 3 ty.code → decodeWord w = .ok (.vnot ty d a stl) := fun w f => by
      exact (dec2A f.maj).trans (decodeVWord_eq f.stl (decodeV_un f rfl h0) rfl)
    have f : F28 (enRR (0x55 + ty.code * 2 ^ 28) d a 3 stl) 0x2A stl d a 3 ty.code := f28 (maj := 0x2A) (k := ty.code) (by omega) (by decide) (ofCode_laneTy ty).2 (lt_reg h1) (lt_reg h2) (by decide) (lt_stl h3)
    exact ⟨f.toWord32, by decide, D _ f⟩

theorem vrcp (ty : LaneTy) (d : Nat) (a : Nat) (stl : Nat) : RoundTrip.Statement (.vrcp ty d a stl) :=
  trip32 (w := enRR (0x55 + ty.code * 2 ^ 28) d a 4 stl) (maj := 0x2A) (stl := stl) (congrArg some (congrArg (fun w => [fld w 0 16, fld w 16 16]) (by unfold enRR; omega))) rfl fun hw => by
    obtain ⟨hw, h3⟩ := wf2 hw
    obtain ⟨hw, h2⟩ := wf2 hw
    obtain ⟨h0, h1⟩ := wf2 hw
    have D : ∀ w, F28 w 0x2A stl d a 4 ty.code → decodeWord w = .ok (.vrcp ty d a stl) := fun w f => by
      exact (dec2A f.maj).trans (decodeVWord_eq f.stl (decodeV_un f rfl h0) rfl)
    have f : F28 (enRR (0x55 + ty.code * 2 ^ 28) d a 4 stl) 0x2A stl d a 4 ty.code := f28 (maj := 0x2A) (k := ty.code) (by omega) (by decide) (ofCode_laneTy ty).2 (lt_reg h1) (lt_reg h2) (by decide) (lt_stl h3)
    exact ⟨f.toWord32, by decide, D _ f⟩

theorem vrsqrt (ty : LaneTy) (d : Nat) (a : Nat) (stl : Nat) : RoundTrip.Statement (.vrsqrt ty d a stl) :=
  trip32 (w := enRR (0x55 + ty.code * 2 ^ 28) d a 5 stl) (maj := 0x2A) (stl := stl) (congrArg some (congrArg (fun w => [fld w 0 16, fld w 16 16]) (by unfold enRR; omega))) rfl fun hw => by
    obtain ⟨hw, h3⟩ := wf2 hw
    obtain ⟨hw, h2⟩ := wf2 hw
    obtain ⟨h0, h1⟩ := wf2 hw
    have D : ∀ w, F28 w 0x2A stl d a 5 ty.code → decodeWord w = .ok (.vrsqrt ty d a stl) := fun w f => by
      exact (dec2A f.maj).trans (decodeVWord_eq f.stl (decodeV_un f rfl h0) rfl)
    have f : F28 (enRR (0x55 + ty.code * 2 ^ 28) d a 5 stl) 0x2A stl d a 5 ty.code := f28 (maj := 0x2A) (k := ty.code) (by omega) (by decide) (ofCode_laneTy ty).2 (lt_reg h1) (lt_reg h2) (by decide) (lt_stl h3)
    exact ⟨f.toWord32, by decide, D _ f⟩

theorem vsqrt (ty : LaneTy) (d : Nat) (a : Nat) (stl : Nat) : RoundTrip.Statement (.vsqrt ty d a stl) :=
  trip32 (w := enRR (0x55 + ty.code * 2 ^ 28) d a 6 stl) (maj := 0x2A) (stl := stl) (congrArg some (congrArg (fun w => [fld w 0 16, fld w 16 16]) (by unfold enRR; omega))) rfl fun hw => by
    obtain ⟨hw, h3⟩ := wf2 hw
    obtain ⟨hw, h2⟩ := wf2 hw
    obtain ⟨h0, h1⟩ := wf2 hw
    have D : ∀ w, F28 w 0x2A stl d a 6 ty.code → decodeWord w = .ok (.vsqrt ty d a stl) := fun w f => by
      exact (dec2A f.maj).trans (decodeVWord_eq f.stl (decodeV_un f rfl h0) rfl)
    have f : F28 (enRR (0x55 + ty.code * 2 ^ 28) d a 6 stl) 0x2A stl d a 6 ty.code := f28 (maj := 0x2A) (k := ty.code) (by omega) (by decide) (ofCode_laneTy ty).2 (lt_reg h1) (lt_reg h2) (by decide) (lt_stl h3)
    exact ⟨f.toWord32, by decide, D _ f⟩

theorem vexp2 (ty : LaneTy) (d : Nat) (a : Nat) (stl : Nat) : RoundTrip.Statement (.vexp2 ty d a stl) :=
  trip32 (w := enRR (0x55 + ty.code * 2 ^ 28) d a 7 stl) (maj := 0x2A) (stl := stl) (congrArg some (congrArg (fun w => [fld w 0 16, fld w 16 16]) (by unfold enRR; omega))) rfl fun hw => by
    obtain ⟨hw, h3⟩ := wf2 hw
    obtain ⟨hw, h2⟩ := wf2 hw
    obtain ⟨h0, h1⟩ := wf2 hw
    have D : ∀ w, F28 w 0x2A stl d a 7 ty.code → decodeWord w = .ok (.vexp2 ty d a stl) := fun w f => by
      exact (dec2A f.maj).trans (decodeVWord_eq f.stl (decodeV_un f rfl h0) rfl)
    have f : F28 (enRR (0x55 + ty.code * 2 ^ 28) d a 7 stl) 0x2A stl d a 7 ty.code := f28 (maj := 0x2A) (k := ty.code) (by omega) (by decide) (ofCode_laneTy ty).2 (lt_reg h1) (lt_reg h2) (by decide) (lt_stl h3)
    exact ⟨f.toWord32, by decide, D _ f⟩

theorem vlog2 (ty : LaneTy) (d : Nat) (a : Nat) (stl : Nat) : RoundTrip.Statement (.vlog2 ty d a stl) :=
  trip32 (w := enRR (0x55 + ty.code * 2 ^ 28) d a 8 stl) (maj := 0x2A) (stl := stl) (congrArg some (congrArg (fun w => [fld w 0 16, fld w 16 16]) (by unfold enRR; omega))) rfl fun hw => by
    obtain ⟨hw, h3⟩ := wf2 hw
    obtain ⟨hw, h2⟩ := wf2 hw
    obtain ⟨h0, h1⟩ := wf2 hw
    have D : ∀ w, F28 w 0x2A stl d a 8 ty.code → decodeWord w = .ok (.vlog2 ty d a stl) := fun w f => by
      exact (dec2A f.maj).trans (decodeVWord_eq f.stl (decodeV_un f rfl h0) rfl)
    have f : F28 (enRR (0x55 + ty.code * 2 ^ 28) d a 8 stl) 0x2A stl d a 8 ty.code := f28 (maj := 0x2A) (k := ty.code) (by omega) (by decide) (ofCode_laneTy ty).2 (lt_reg h1) (lt_reg h2) (by decide) (lt_stl h3)
    exact ⟨f.toWord32, by decide, D _ f⟩

theorem vtanh (ty : LaneTy) (d : Nat) (a : Nat) (stl : Nat) : RoundTrip.Statement (.vtanh ty d a stl) :=
  trip32 (w := enRR (0x55 + ty.code * 2 ^ 28) d a 9 stl) (maj := 0x2A) (stl := stl) (congrArg some (congrArg (fun w => [fld w 0 16, fld w 16 16]) (by unfold enRR; omega))) rfl fun hw => by
    obtain ⟨hw, h3⟩ := wf2 hw
    obtain ⟨hw, h2⟩ := wf2 hw
    obtain ⟨h0, h1⟩ := wf2 hw
    have D : ∀ w, F28 w 0x2A stl d a 9 ty.code → decodeWord w = .ok (.vtanh ty d a stl) := fun w f => by
      exact (dec2A f.maj).trans (decodeVWord_eq f.stl (decodeV_un f rfl h0) rfl)
    have f : F28 (enRR (0x55 + ty.code * 2 ^ 28) d a 9 stl) 0x2A stl d a 9 ty.code := f28 (maj := 0x2A) (k := ty.code) (by omega) (by decide) (ofCode_laneTy ty).2 (lt_reg h1) (lt_reg h2) (by decide) (lt_stl h3)
    exact ⟨f.toWord32, by decide, D _ f⟩

theorem vsigm (ty : LaneTy) (d : Nat) (a : Nat) (stl : Nat) : RoundTrip.Statement (.vsigm ty d a stl) :=
  trip32 (w := enRR (0x55 + ty.code * 2 ^ 28) d a 10 stl) (maj := 0x2A) (stl := stl) (congrArg some (congrArg (fun w => [fld w 0 16, fld w 16 16]) (by unfold enRR; omega))) rfl fun hw => by
    obtain ⟨hw, h3⟩ := wf2 hw
    obtain ⟨hw, h2⟩ := wf2 hw
    obtain ⟨h0, h1⟩ := wf2 hw
    have D : ∀ w, F28 w 0x2A stl d a 10 ty.code → decodeWord w = .ok (.vsigm ty d a stl) := fun w f => by
      exact (dec2A f.maj).trans (decodeVWord_eq f.stl (decodeV_un f rfl h0) rfl)
    have f : F28 (enRR (0x55 + ty.code * 2 ^ 28) d a 10 stl) 0x2A stl d a 10 ty.code := f28 (maj := 0x2A) (k := ty.code) (by omega) (by decide) (ofCode_laneTy ty).2 (lt_reg h1) (lt_reg h2) (by decide) (lt_stl h3)
    exact ⟨f.toWord32, by decide, D _ f⟩

theorem vrnd (ty : LaneTy) (d : Nat) (a : Nat) (stl : Nat) : RoundTrip.Statement (.vrnd ty d a stl) :=
  trip32 (w := enRR (0x55 + ty.code * 2 ^ 28) d a 11 stl) (maj := 0x2A) (stl := stl) (congrArg some (congrArg (fun w => [fld w 0 16, fld w 16 16]) (by unfold enRR; omega))) rfl fun hw => by
    obtain ⟨hw, h3⟩ := wf2 hw
    obtain ⟨hw, h2⟩ := wf2 hw
    obtain ⟨h0, h1⟩ := wf2 hw
    have D : ∀ w, F28 w 0x2A stl d a 11 ty.code → decodeWord w = .ok (.vrnd ty d a stl) := fun w f => by
      exact (dec2A f.maj).trans (decodeVWord_eq f.stl (decodeV_un f rfl h0) rfl)
    have f : F28 (enRR (0x55 + ty.code * 2 ^ 28) d a 11 stl) 0x2A stl d a 11 ty.code := f28 (maj := 0x2A) (k := ty.code) (by omega) (by decide) (ofCode_laneTy ty).2 (lt_reg h1) (lt_reg h2) (by decide) (lt_stl h3)
    exact ⟨f.toWord32, by decide, D _ f⟩

theorem vclz (ty : LaneTy) (d : Nat) (a : Nat) (stl : Nat) : RoundTrip.Statement (.vclz ty d a stl) :=
  trip32 (w := enRR (0x55 + ty.code * 2 ^ 28) d a 12 stl) (maj := 0x2A) (stl := stl) (congrArg some (congrArg (fun w => [fld w 0 16, fld w 16 16]) (by unfold enRR; omega))) rfl fun hw => by
    obtain ⟨hw, h3⟩ := wf2 hw
    obtain ⟨hw, h2⟩ := wf2 hw
    obtain ⟨h0, h1⟩ := wf2 hw
    have D : ∀ w, F28 w 0x2A stl d a 12 ty.code → decodeWord w = .ok (.vclz ty d a stl) := fun w f => by
      exact (dec2A f.maj).trans (decodeVWord_eq f.stl (decodeV_un f rfl h0) rfl)
    have f : F28 (enRR (0x55 + ty.code * 2 ^ 28) d a 12 stl) 0x2A stl d a 12 ty.code := f28 (maj := 0x2A) (k := ty.code) (by omega) (by decide) (ofCode_laneTy ty).2 (lt_reg h1) (lt_reg h2) (by decide) (lt_stl h3)
    exact ⟨f.toWord32, by decide, D _ f⟩

theorem vpopc (ty : LaneTy) (d : Nat) (a : Nat) (stl : Nat) : RoundTrip.Statement (.vpopc ty d a stl) :=
  trip32 (w := enRR (0x55 + ty.code * 2 ^ 28) d a 13 stl) (maj := 0x2A) (stl := stl) (congrArg some (congrArg (fun w => [fld w 0 16, fld w 16 16]) (by unfold enRR; omega))) rfl fun hw => by
    obtain ⟨hw, h3⟩ := wf2 hw
    obtain ⟨hw, h2⟩ := wf2 hw
    obtain ⟨h0, h1⟩ := wf2 hw
    have D : ∀ w, F28 w 0x2A stl d a 13 ty.code → decodeWord w = .ok (.vpopc ty d a stl) := fun w f => by
      exact (dec2A f.maj).trans (decodeVWord_eq f.stl (decodeV_un f rfl h0) rfl)
    have f : F28 (enRR (0x55 + ty.code * 2 ^ 28) d a 13 stl) 0x2A stl d a 13 ty.code := f28 (maj := 0x2A) (k := ty.code) (by omega) (by decide) (ofCode_laneTy ty).2 (lt_reg h1) (lt_reg h2) (by decide) (lt_stl h3)
    exact ⟨f.toWord32, by decide, D _ f⟩

theorem vsumr (ty : LaneTy) (d : Nat) (a : Nat) (stl : Nat) : RoundTrip.Statement (.vsumr ty d a stl) :=
  trip32 (w := enRR (0x55 + ty.code * 2 ^ 28) d a 14 stl) (maj := 0x2A) (stl := stl) (congrArg some (congrArg (fun w => [fld w 0 16, fld w 16 16]) (by unfold enRR; omega))) rfl fun hw => by
    obtain ⟨hw, h3⟩ := wf2 hw
    obtain ⟨hw, h2⟩ := wf2 hw
    obtain ⟨h0, h1⟩ := wf2 hw
    have D : ∀ w, F28 w 0x2A stl d a 14 ty.code → decodeWord w = .ok (.vsumr ty d a stl) := fun w f => by
      exact (dec2A f.maj).trans (decodeVWord_eq f.stl (decodeV_un f rfl h0) rfl)
    have f : F28 (enRR (0x55 + ty.code * 2 ^ 28) d a 14 stl) 0x2A stl d a 14 ty.code := f28 (maj := 0x2A) (k := ty.code) (by omega) (by decide) (ofCode_laneTy ty).2 (lt_reg h1) (lt_reg h2) (by decide) (lt_stl h3)
    exact ⟨f.toWord32, by decide, D _ f⟩

theorem vmaxr (ty : LaneTy) (d : Nat) (a : Nat) (stl : Nat) : RoundTrip.Statement (.vmaxr ty d a stl) :=
  trip32 (w := enRR (0x55 + ty.code * 2 ^ 28) d a 15 stl) (maj := 0x2A) (stl := stl) (congrArg some (congrArg (fun w => [fld w 0 16, fld w 16 16]) (by unfold enRR; omega))) rfl fun hw => by
    obtain ⟨hw, h3⟩ := wf2 hw
    obtain ⟨hw, h2⟩ := wf2 hw
    obtain ⟨h0, h1⟩ := wf2 hw
    have D : ∀ w, F28 w 0x2A stl d a 15 ty.code → decodeWord w = .ok (.vmaxr ty d a stl) := fun w f => by
      exact (dec2A f.maj).trans (decodeVWord_eq f.stl (decodeV_un f rfl h0) rfl)
    have f : F28 (enRR (0x55 + ty.code * 2 ^ 28) d a 15 stl) 0x2A stl d a 15 ty.code := f28 (maj := 0x2A) (k := ty.code) (by omega) (by decide) (ofCode_laneTy ty).2 (lt_reg h1) (lt_reg h2) (by decide) (lt_stl h3)
    exact ⟨f.toWord32, by decide, D _ f⟩

theorem vminr (ty : LaneTy) (d : Nat) (a : Nat) (stl : Nat) : RoundTrip.Statement (.vminr ty d a stl) :=
  trip32 (w := enRR (0x55 + ty.code * 2 ^ 28) d a 16 stl) (maj := 0x2A) (stl := stl) (congrArg some (congrArg (fun w => [fld w 0 16, fld w 16 16]) (by unfold enRR; omega))) rfl fun hw => by
    obtain ⟨hw, h3⟩ := wf2 hw
    obtain ⟨hw, h2⟩ := wf2 hw
    obtain ⟨h0, h1⟩ := wf2 hw
    have D : ∀ w, F28 w 0x2A stl d a 16 ty.code → decodeWord w = .ok (.vminr ty d a stl) := fun w f => by
      exact (dec2A f.maj).trans (decodeVWord_eq f.stl (decodeV_un f rfl h0) rfl)
    have f : F28 (enRR (0x55 + ty.code * 2 ^ 28) d a 16 stl) 0x2A stl d a 16 ty.code := f28 (maj := 0x2A) (k := ty.code) (by omega) (by decide) (ofCode_laneTy ty).2 (lt_reg h1) (lt_reg h2) (by decide) (lt_stl h3)
    exact ⟨f.toWord32, by decide, D _ f⟩

theorem vmxs (ty : LaneTy) (d : Nat) (a : Nat) (stl : Nat) : RoundTrip.Statement (.vmxs ty d a stl) :=
  trip32 (w := enRR (0x55 + ty.code * 2 ^ 28) d a 17 stl) (maj := 0x2A) (stl := stl) (congrArg some (congrArg (fun w => [fld w 0 16, fld w 16 16]) (by unfold enRR; omega))) rfl fun hw => by
    obtain ⟨hw, h3⟩ := wf2 hw
    obtain ⟨hw, h2⟩ := wf2 hw
    obtain ⟨h0, h1⟩ := wf2 hw
    have D : ∀ w, F28 w 0x2A stl d a 17 ty.code → decodeWord w = .ok (.vmxs ty d a stl) := fun w f => by
      exact (dec2A f.maj).trans (decodeVWord_eq f.stl (decodeV_un f rfl h0) rfl)
    have f : F28 (enRR (0x55 + ty.code * 2 ^ 28) d a 17 stl) 0x2A stl d a 17 ty.code := f28 (maj := 0x2A) (k := ty.code) (by omega) (by decide) (ofCode_laneTy ty).2 (lt_reg h1) (lt_reg h2) (by decide) (lt_stl h3)
    exact ⟨f.toWord32, by decide, D _ f⟩

theorem vrev (ty : LaneTy) (d : Nat) (a : Nat) (stl : Nat) : RoundTrip.Statement (.vrev ty d a stl) :=
  trip32 (w := enRR (0x55 + ty.code * 2 ^ 28) d a 18 stl) (maj := 0x2A) (stl := stl) (congrArg some (congrArg (fun w => [fld w 0 16, fld w 16 16]) (by unfold enRR; omega))) rfl fun hw => by
    obtain ⟨hw, h3⟩ := wf2 hw
    obtain ⟨hw, h2⟩ := wf2 hw
    obtain ⟨h0, h1⟩ := wf2 hw
    have D : ∀ w, F28 w 0x2A stl d a 18 ty.code → decodeWord w = .ok (.vrev ty d a stl) := fun w f => by
      exact (dec2A f.maj).trans (decodeVWord_eq f.stl (decodeV_un f rfl h0) rfl)
    have f : F28 (enRR (0x55 + ty.code * 2 ^ 28) d a 18 stl) 0x2A stl d a 18 ty.code := f28 (maj := 0x2A) (k := ty.code) (by omega) (by decide) (ofCode_laneTy ty).2 (lt_reg h1) (lt_reg h2) (by decide) (lt_stl h3)
    exact ⟨f.toWord32, by decide, D _ f⟩

theorem vclass (ty : LaneTy) (d : Nat) (a : Nat) (stl : Nat) : RoundTrip.Statement (.vclass ty d a stl) :=
  trip32 (w := enRR (0x55 + ty.code * 2 ^ 28) d a 19 stl) (maj := 0x2A) (stl := stl) (congrArg some (congrArg (fun w => [fld w 0 16, fld w 16 16]) (by unfold enRR; omega))) rfl fun hw => by
    obtain ⟨hw, h3⟩ := wf2 hw
    obtain ⟨hw, h2⟩ := wf2 hw
    obtain ⟨h0, h1⟩ := wf2 hw
    have D : ∀ w, F28 w 0x2A stl d a 19 ty.code → decodeWord w = .ok (.vclass ty d a stl) := fun w f => by
      exact (dec2A f.maj).trans (decodeVWord_eq f.stl (decodeV_un f rfl h0) rfl)
    have f : F28 (enRR (0x55 + ty.code * 2 ^ 28) d a 19 stl) 0x2A stl d a 19 ty.code := f28 (maj := 0x2A) (k := ty.code) (by omega) (by decide) (ofCode_laneTy ty).2 (lt_reg h1) (lt_reg h2) (by decide) (lt_stl h3)
    exact ⟨f.toWord32, by decide, D _ f⟩

theorem vcvt (sty : Ty) (mode : Nat) (dty : Ty) (d : Nat) (a : Nat) (stl : Nat) : RoundTrip.Statement (.vcvt sty mode dty d a stl) :=
  trip32 (w := enRR (0x57 + dty.code * 2 ^ 22) d a 0 stl + (mode + 4 * sty.code) * 2 ^ 26) (maj := 0x2B) (stl := stl) (congrArg some (congrArg (fun w => [fld w 0 16, fld w 16 16]) (by unfold enRR; omega))) rfl fun hw => by
    obtain ⟨hw, h3⟩ := wf2 hw
    obtain ⟨hw, h2⟩ := wf2 hw
    obtain ⟨h0, h1⟩ := wf2 hw
    have D : ∀ w, F22 w 0x2B stl d a dty.code (mode + 4 * sty.code) → decodeWord w = .ok (.vcvt sty mode dty d a stl) := fun w f => by
      exact (dec2B f.maj).trans (decodeVWord_eq f.stl (decodeV_cvt f (cvt_mode h0) h0) rfl)
    have f : F22 (enRR (0x57 + dty.code * 2 ^ 22) d a 0 stl + (mode + 4 * sty.code) * 2 ^ 26) 0x2B stl d a dty.code (mode + 4 * sty.code) := f22 (maj := 0x2B) (k := dty.code) (by omega) rfl (by decide) (ofCode_ty dty).2 (lt_reg h1) (lt_reg h2) (lt_stl h3) (by have := (ofCode_ty sty).2; have := (cvt_mode h0); omega)
    exact ⟨f.toWord32, by decide, D _ f⟩

theorem vbcast (ty : LaneTy) (d : Nat) (a : Nat) (stl : Nat) : RoundTrip.Statement (.vbcast ty d a stl) :=
  trip32 (w := enRR 0x00000059 d a 0 stl + (ty.code) * 2 ^ 26) (maj := 0x2C) (stl := stl) rfl rfl fun hw => by
    obtain ⟨hw, h2⟩ := wf2 hw
    obtain ⟨h0, h1⟩ := wf2 hw
    have D : ∀ w, F22 w 0x2C stl d a 0 (ty.code) → decodeWord w = .ok (.vbcast ty d a stl) := fun w f => by
      have ek : fld w 26 4 = ty.code := f.e4.trans (by have := (ofCode_laneTy ty).2; omega)
      have eh : fld w 30 2 = 0 := f.u2.trans (by have := (ofCode_laneTy ty).2; omega)
      have hv : decodeV w = .ok (.bcast ty d a) := by
        rw [decodeV_vx f]; simp only [decodeVX, needZero, withOpt, f.fn, f.rd, f.ra, ek, eh, if_true, (ofCode_laneTy ty).1]
      exact (dec2C f.maj).trans (decodeVWord_eq f.stl hv rfl)
    have f : F22 (enRR 0x00000059 d a 0 stl + (ty.code) * 2 ^ 26) 0x2C stl d a 0 (ty.code) := f22 (maj := 0x2C) (k := 0) (e := ty.code) rfl rfl (by decide) (by decide) (lt_reg h0) (lt_reg h1) (lt_stl h2) (by have := (ofCode_laneTy ty).2; omega)
    exact ⟨f.toWord32, by decide, D _ f⟩

theorem vextW (d : Nat) (a : Nat) (k : Nat) (stl : Nat) : RoundTrip.Statement (.vextW d a k stl) :=
  trip32 (w := enRR 0x00400059 d a 0 stl + (k) * 2 ^ 26) (maj := 0x2C) (stl := stl) rfl rfl fun hw => by
    obtain ⟨hw, h3⟩ := wf2 hw
    obtain ⟨hw, h2⟩ := wf2 hw
    obtain ⟨h0, h1⟩ := wf2 hw
    have D : ∀ w, F22 w 0x2C stl d a 1 (k) → decodeWord w = .ok (.vextW d a k stl) := fun w f => by
      have ek : fld w 26 4 = k := f.e4.trans (by have := (of_decide_eq_true h2); omega)
      have eh : fld w 30 2 = 0 := f.u2.trans (by have := (of_decide_eq_true h2); omega)
      have hv : decodeV w = .ok (.ext false d a k) := by
        rw [decodeV_vx f]; simp only [decodeVX, f.fn, f.rd, f.ra, ek, eh]
      exact (dec2C f.maj).trans (decodeVWord_eq f.stl hv rfl)
    have f : F22 (enRR 0x00400059 d a 0 stl + (k) * 2 ^ 26) 0x2C stl d a 1 (k) := f22 (maj := 0x2C) (k := 1) (e := k) rfl rfl (by decide) (by decide) (lt_reg h0) (lt_reg h1) (lt_stl h3) (by have := (of_decide_eq_true h2); omega)
    exact ⟨f.toWord32, by decide, D _ f⟩

theorem vextD (d : Nat) (a : Nat) (k : Nat) (stl : Nat) : RoundTrip.Statement (.vextD d a k stl) :=
  trip32 (w := enRR 0x00400059 d a 0 stl + (k + 16) * 2 ^ 26) (maj := 0x2C) (stl := stl) (congrArg some (congrArg (fun w => [fld w 0 16, fld w 16 16]) (by unfold enRR; omega))) rfl fun hw => by
    obtain ⟨hw, h3⟩ := wf2 hw
    obtain ⟨hw, h2⟩ := wf2 hw
    obtain ⟨h0, h1⟩ := wf2 hw
    have D : ∀ w, F22 w 0x2C stl d a 1 (k + 16) → decodeWord w = .ok (.vextD d a k stl) := fun w f => by
      have ek : fld w 26 3 = k := f.e3.trans (by have := (of_decide_eq_true h2); omega)
      have eh : fld w 30 2 = 1 := f.u2.trans (by have := (of_decide_eq_true h2); omega)
      have e1 : fld w 29 1 = 0 := f.u1.trans (by have := (of_decide_eq_true h2); omega)
      have hv : decodeV w = .ok (.ext true d a k) := by
        rw [decodeV_vx f]; simp only [decodeVX, needZero, f.fn, f.rd, f.ra, ek, eh, if_true, e1]
      exact (dec2C f.maj).trans (decodeVWord_eq f.stl hv rfl)
    have f : F22 (enRR 0x00400059 d a 0 stl + (k + 16) * 2 ^ 26) 0x2C stl d a 1 (k + 16) := f22 (maj := 0x2C) (k := 1) (e := k + 16) rfl rfl (by decide) (by decide) (lt_reg h0) (lt_reg h1) (lt_stl h3) (by have := (of_decide_eq_true h2); omega)
    exact ⟨f.toWord32, by decide, D _ f⟩

theorem vinsW (d : Nat) (a : Nat) (k : Nat) (stl : Nat) : RoundTrip.Statement (.vinsW d a k stl) :=
  trip32 (w := enRR 0x00800059 d a 0 stl + (k) * 2 ^ 26) (maj := 0x2C) (stl := stl) rfl rfl fun hw => by
    obtain ⟨hw, h3⟩ := wf2 hw
    obtain ⟨hw, h2⟩ := wf2 hw
    obtain ⟨h0, h1⟩ := wf2 hw
    have D : ∀ w, F22 w 0x2C stl d a 2 (k) → decodeWord w = .ok (.vinsW d a k stl) := fun w f => by
      have ek : fld w 26 4 = k := f.e4.trans (by have := (of_decide_eq_true h2); omega)
      have eh : fld w 30 2 = 0 := f.u2.trans (by have := (of_decide_eq_true h2); omega)
      have hv : decodeV w = .ok (.ins false d a k) := by
        rw [decodeV_vx f]; simp only [decodeVX, f.fn, f.rd, f.ra, ek, eh]
      exact (dec2C f.maj).trans (decodeVWord_eq f.stl hv rfl)
    have f : F22 (enRR 0x00800059 d a 0 stl + (k) * 2 ^ 26) 0x2C stl d a 2 (k) := f22 (maj := 0x2C) (k := 2) (e := k) rfl rfl (by decide) (by decide) (lt_reg h0) (lt_reg h1) (lt_stl h3) (by have := (of_decide_eq_true h2); omega)
    exact ⟨f.toWord32, by decide, D _ f⟩

theorem vinsD (d : Nat) (a : Nat) (k : Nat) (stl : Nat) : RoundTrip.Statement (.vinsD d a k stl) :=
  trip32 (w := enRR 0x00800059 d a 0 stl + (k + 16) * 2 ^ 26) (maj := 0x2C) (stl := stl) (congrArg some (congrArg (fun w => [fld w 0 16, fld w 16 16]) (by unfold enRR; omega))) rfl fun hw => by
    obtain ⟨hw, h3⟩ := wf2 hw
    obtain ⟨hw, h2⟩ := wf2 hw
    obtain ⟨h0, h1⟩ := wf2 hw
    have D : ∀ w, F22 w 0x2C stl d a 2 (k + 16) → decodeWord w = .ok (.vinsD d a k stl) := fun w f => by
      have ek : fld w 26 3 = k := f.e3.trans (by have := (of_decide_eq_true h2); omega)
      have eh : fld w 30 2 = 1 := f.u2.trans (by have := (of_decide_eq_true h2); omega)
      have e1 : fld w 29 1 = 0 := f.u1.trans (by have := (of_decide_eq_true h2); omega)
      have hv : decodeV w = .ok (.ins true d a k) := by
        rw [decodeV_vx f]; simp only [decodeVX, needZero, f.fn, f.rd, f.ra, ek, eh, if_true, e1]
      exact (dec2C f.maj).trans (decodeVWord_eq f.stl hv rfl)
    have f : F22 (enRR 0x00800059 d a 0 stl + (k + 16) * 2 ^ 26) 0x2C stl d a 2 (k + 16) := f22 (maj := 0x2C) (k := 2) (e := k + 16) rfl rfl (by decide) (by decide) (lt_reg h0) (lt_reg h1) (lt_stl h3) (by have := (of_decide_eq_true h2); omega)
    exact ⟨f.toWord32, by decide, D _ f⟩

theorem vpred (ty : LaneTy) (d : Nat) (a : Nat) (stl : Nat) : RoundTrip.Statement (.vpred ty d a stl) :=
  trip32 (w := enRR 0x00C00059 d a 0 stl + (ty.code) * 2 ^ 26) (maj := 0x2C) (stl := stl) rfl rfl fun hw => by
    obtain ⟨hw, h2⟩ := wf2 hw
    obtain ⟨h0, h1⟩ := wf2 hw
    have D : ∀ w, F22 w 0x2C stl d a 3 (ty.code) → decodeWord w = .ok (.vpred ty d a stl) := fun w f => by
      have ek : fld w 26 4 = ty.code := f.e4.trans (by have := (ofCode_laneTy ty).2; omega)
      have eh : fld w 30 2 = 0 := f.u2.trans (by have := (ofCode_laneTy ty).2; omega)
      have hv : decodeV w = .ok (.pred ty d a) := by
        rw [decodeV_vx f]; simp only [decodeVX, needZero, withOpt, guardOk, f.fn, f.rd, f.ra, ek, eh, if_true, (ofCode_laneTy ty).1, h0]
      exact (dec2C f.maj).trans (decodeVWord_eq f.stl hv rfl)
    have f : F22 (enRR 0x00C00059 d a 0 stl + (ty.code) * 2 ^ 26) 0x2C stl d a 3 (ty.code) := f22 (maj := 0x2C) (k := 3) (e := ty.code) rfl rfl (by decide) (by decide) (by have := of_decide_eq_true h0; omega) (lt_reg h1) (lt_stl h2) (by have := (ofCode_laneTy ty).2; omega)
    exact ⟨f.toWord32, by decide, D _ f⟩

theorem vidx (ty : LaneTy) (d : Nat) (a : Nat) (stl : Nat) : RoundTrip.Statement (.vidx ty d a stl) :=
  trip32 (w := enRR 0x01000059 d a 0 stl + (ty.code) * 2 ^ 26) (maj := 0x2C) (stl := stl) rfl rfl fun hw => by
    obtain ⟨hw, h3⟩ := wf2 hw
    obtain ⟨hw, h2⟩ := wf2 hw
    obtain ⟨h0, h1⟩ := wf2 hw
    have D : ∀ w, F22 w 0x2C stl d a 4 (ty.code) → decodeWord w = .ok (.vidx ty d a stl) := fun w f => by
      have ek : fld w 26 4 = ty.code := f.e4.trans (by have := (ofCode_laneTy ty).2; omega)
      have eh : fld w 30 2 = 0 := f.u2.trans (by have := (ofCode_laneTy ty).2; omega)
      have hv : decodeV w = .ok (.idx ty d a) := by
        rw [decodeV_vx f]; simp only [decodeVX, needZero, withOpt, guardOk, f.fn, f.rd, f.ra, ek, eh, if_true, (ofCode_laneTy ty).1, h0]
      exact (dec2C f.maj).trans (decodeVWord_eq f.stl hv rfl)
    have f : F22 (enRR 0x01000059 d a 0 stl + (ty.code) * 2 ^ 26) 0x2C stl d a 4 (ty.code) := f22 (maj := 0x2C) (k := 4) (e := ty.code) rfl rfl (by decide) (by decide) (lt_reg h1) (lt_reg h2) (lt_stl h3) (by have := (ofCode_laneTy ty).2; omega)
    exact ⟨f.toWord32, by decide, D _ f⟩

theorem vldW (d : Nat) (a : Nat) (b : Nat) (stl : Nat) : RoundTrip.Statement (.vldW d a b stl) :=
  trip32 (w := enRR 0x0000005B d a b stl) (maj := 0x2D) (stl := stl) rfl rfl fun hw => by
    obtain ⟨hw, h3⟩ := wf2 hw
    obtain ⟨hw, h2⟩ := wf2 hw
    obtain ⟨h0, h1⟩ := wf2 hw
    have D : ∀ w, F28 w 0x2D stl d a b 0 → decodeWord w = .ok (.vldW d a b stl) := fun w f => by
      have hv : decodeV w = .ok (.ld .w d a b) := by
        rw [decodeV_mem f]; simp only [decodeVMem, f.fn, f.rd, f.ra, f.rb]
      exact (dec2D f.maj).trans (decodeVWord_eq f.stl hv rfl)
    have f : F28 (enRR 0x0000005B d a b stl) 0x2D stl d a b 0 := f28 (maj := 0x2D) (k := 0) rfl (by decide) (by decide) (lt_reg h0) (lt_reg h1) (lt_reg h2) (lt_stl h3)
    exact ⟨f.toWord32, by decide, D _ f⟩

theorem vldH (d : Nat) (a : Nat) (b : Nat) (stl : Nat) : RoundTrip.Statement (.vldH d a b stl) :=
  trip32 (w := enRR 0x1000005B d a b stl) (maj := 0x2D) (stl := stl) rfl rfl fun hw => by
    obtain ⟨hw, h3⟩ := wf2 hw
    obtain ⟨hw, h2⟩ := wf2 hw
    obtain ⟨h0, h1⟩ := wf2 hw
    have D : ∀ w, F28 w 0x2D stl d a b 1 → decodeWord w = .ok (.vldH d a b stl) := fun w f => by
      have hv : decodeV w = .ok (.ld .h d a b) := by
        rw [decodeV_mem f]; simp only [decodeVMem, f.fn, f.rd, f.ra, f.rb]
      exact (dec2D f.maj).trans (decodeVWord_eq f.stl hv rfl)
    have f : F28 (enRR 0x1000005B d a b stl) 0x2D stl d a b 1 := f28 (maj := 0x2D) (k := 1) rfl (by decide) (by decide) (lt_reg h0) (lt_reg h1) (lt_reg h2) (lt_stl h3)
    exact ⟨f.toWord32, by decide, D _ f⟩

theorem vldB (d : Nat) (a : Nat) (b : Nat) (stl : Nat) : RoundTrip.Statement (.vldB d a b stl) :=
  trip32 (w := enRR 0x2000005B d a b stl) (maj := 0x2D) (stl := stl) rfl rfl fun hw => by
    obtain ⟨hw, h3⟩ := wf2 hw
    obtain ⟨hw, h2⟩ := wf2 hw
    obtain ⟨h0, h1⟩ := wf2 hw
    have D : ∀ w, F28 w 0x2D stl d a b 2 → decodeWord w = .ok (.vldB d a b stl) := fun w f => by
      have hv : decodeV w = .ok (.ld .b d a b) := by
        rw [decodeV_mem f]; simp only [decodeVMem, f.fn, f.rd, f.ra, f.rb]
      exact (dec2D f.maj).trans (decodeVWord_eq f.stl hv rfl)
    have f : F28 (enRR 0x2000005B d a b stl) 0x2D stl d a b 2 := f28 (maj := 0x2D) (k := 2) rfl (by decide) (by decide) (lt_reg h0) (lt_reg h1) (lt_reg h2) (lt_stl h3)
    exact ⟨f.toWord32, by decide, D _ f⟩

theorem vldD (d : Nat) (a : Nat) (b : Nat) (stl : Nat) : RoundTrip.Statement (.vldD d a b stl) :=
  trip32 (w := enRR 0x3000005B d a b stl) (maj := 0x2D) (stl := stl) rfl rfl fun hw => by
    obtain ⟨hw, h3⟩ := wf2 hw
    obtain ⟨hw, h2⟩ := wf2 hw
    obtain ⟨h0, h1⟩ := wf2 hw
    have D : ∀ w, F28 w 0x2D stl d a b 3 → decodeWord w = .ok (.vldD d a b stl) := fun w f => by
      have hv : decodeV w = .ok (.ld .d d a b) := by
        rw [decodeV_mem f]; simp only [decodeVMem, f.fn, f.rd, f.ra, f.rb]
      exact (dec2D f.maj).trans (decodeVWord_eq f.stl hv rfl)
    have f : F28 (enRR 0x3000005B d a b stl) 0x2D stl d a b 3 := f28 (maj := 0x2D) (k := 3) rfl (by decide) (by decide) (lt_reg h0) (lt_reg h1) (lt_reg h2) (lt_stl h3)
    exact ⟨f.toWord32, by decide, D _ f⟩

theorem vstW (d : Nat) (a : Nat) (b : Nat) (stl : Nat) : RoundTrip.Statement (.vstW d a b stl) :=
  trip32 (w := enRR 0x4000005B d a b stl) (maj := 0x2D) (stl := stl) rfl rfl fun hw => by
    obtain ⟨hw, h3⟩ := wf2 hw
    obtain ⟨hw, h2⟩ := wf2 hw
    obtain ⟨h0, h1⟩ := wf2 hw
    have D : ∀ w, F28 w 0x2D stl d a b 4 → decodeWord w = .ok (.vstW d a b stl) := fun w f => by
      have hv : decodeV w = .ok (.st .w d a b) := by
        rw [decodeV_mem f]; simp only [decodeVMem, f.fn, f.rd, f.ra, f.rb]
      exact (dec2D f.maj).trans (decodeVWord_eq f.stl hv rfl)
    have f : F28 (enRR 0x4000005B d a b stl) 0x2D stl d a b 4 := f28 (maj := 0x2D) (k := 4) rfl (by decide) (by decide) (lt_reg h0) (lt_reg h1) (lt_reg h2) (lt_stl h3)
    exact ⟨f.toWord32, by decide, D _ f⟩

theorem vstH (d : Nat) (a : Nat) (b : Nat) (stl : Nat) : RoundTrip.Statement (.vstH d a b stl) :=
  trip32 (w := enRR 0x5000005B d a b stl) (maj := 0x2D) (stl := stl) rfl rfl fun hw => by
    obtain ⟨hw, h3⟩ := wf2 hw
    obtain ⟨hw, h2⟩ := wf2 hw
    obtain ⟨h0, h1⟩ := wf2 hw
    have D : ∀ w, F28 w 0x2D stl d a b 5 → decodeWord w = .ok (.vstH d a b stl) := fun w f => by
      have hv : decodeV w = .ok (.st .h d a b) := by
        rw [decodeV_mem f]; simp only [decodeVMem, f.fn, f.rd, f.ra, f.rb]
      exact (dec2D f.maj).trans (decodeVWord_eq f.stl hv rfl)
    have f : F28 (enRR 0x5000005B d a b stl) 0x2D stl d a b 5 := f28 (maj := 0x2D) (k := 5) rfl (by decide) (by decide) (lt_reg h0) (lt_reg h1) (lt_reg h2) (lt_stl h3)
    exact ⟨f.toWord32, by decide, D _ f⟩

theorem vstB (d : Nat) (a : Nat) (b : Nat) (stl : Nat) : RoundTrip.Statement (.vstB d a b stl) :=
  trip32 (w := enRR 0x6000005B d a b stl) (maj := 0x2D) (stl := stl) rfl rfl fun hw => by
    obtain ⟨hw, h3⟩ := wf2 hw
    obtain ⟨hw, h2⟩ := wf2 hw
    obtain ⟨h0, h1⟩ := wf2 hw
    have D : ∀ w, F28 w 0x2D stl d a b 6 → decodeWord w = .ok (.vstB d a b stl) := fun w f => by
      have hv : decodeV w = .ok (.st .b d a b) := by
        rw [decodeV_mem f]; simp only [decodeVMem, f.fn, f.rd, f.ra, f.rb]
      exact (dec2D f.maj).trans (decodeVWord_eq f.stl hv rfl)
    have f : F28 (enRR 0x6000005B d a b stl) 0x2D stl d a b 6 := f28 (maj := 0x2D) (k := 6) rfl (by decide) (by decide) (lt_reg h0) (lt_reg h1) (lt_reg h2) (lt_stl h3)
    exact ⟨f.toWord32, by decide, D _ f⟩

theorem vstD (d : Nat) (a : Nat) (b : Nat) (stl : Nat) : RoundTrip.Statement (.vstD d a b stl) :=
  trip32 (w := enRR 0x7000005B d a b stl) (maj := 0x2D) (stl := stl) rfl rfl fun hw => by
    obtain ⟨hw, h3⟩ := wf2 hw
    obtain ⟨hw, h2⟩ := wf2 hw
    obtain ⟨h0, h1⟩ := wf2 hw
    have D : ∀ w, F28 w 0x2D stl d a b 7 → decodeWord w = .ok (.vstD d a b stl) := fun w f => by
      have hv : decodeV w = .ok (.st .d d a b) := by
        rw [decodeV_mem f]; simp only [decodeVMem, f.fn, f.rd, f.ra, f.rb]
      exact (dec2D f.maj).trans (decodeVWord_eq f.stl hv rfl)
    have f : F28 (enRR 0x7000005B d a b stl) 0x2D stl d a b 7 := f28 (maj := 0x2D) (k := 7) rfl (by decide) (by decide) (lt_reg h0) (lt_reg h1) (lt_reg h2) (lt_stl h3)
    exact ⟨f.toWord32, by decide, D _ f⟩

theorem vldffW (p : Pfx) (d a b : Nat) : RoundTrip.Statement (.vldffW p d a b) :=
  tripPair (v := .ldff false d a b) (w := enRR 0x8000005B d a b 0) (maj := 0x2D) rfl rfl rfl fun hw => by
    obtain ⟨hw, h4⟩ := wf2 hw
    obtain ⟨hw, h3⟩ := wf2 hw
    obtain ⟨hw, h2⟩ := wf2 hw
    obtain ⟨h0, h1⟩ := wf2 hw
    have D : ∀ w, F28 w 0x2D 0 d a b 8 → decodeV w = .ok (.ldff false d a b) := fun w f => by
      rw [decodeV_mem f]; simp only [decodeVMem, f.fn, f.rd, f.ra, f.rb]
    have f := f28 (m := 0x8000005B) (maj := 0x2D) (k := 8) (stl := 0) rfl (by decide) (by decide) (lt_reg h1) (lt_reg h2) (lt_reg h3) (by decide)
    exact ⟨h0, h4, congrArg some (by show 0x8000005B + 0 * 2 ^ 28 + d * 2 ^ 10 + a * 2 ^ 16 + b * 2 ^ 22 = _; unfold enRR; omega), f.toWord32, .inl (by decide), D _ f⟩

theorem vldffB (p : Pfx) (d a b : Nat) : RoundTrip.Statement (.vldffB p d a b) :=
  tripPair (v := .ldff true d a b) (w := enRR 0x9000005B d a b 0) (maj := 0x2D) rfl rfl rfl fun hw => by
    obtain ⟨hw, h4⟩ := wf2 hw
    obtain ⟨hw, h3⟩ := wf2 hw
    obtain ⟨hw, h2⟩ := wf2 hw
    obtain ⟨h0, h1⟩ := wf2 hw
    have D : ∀ w, F28 w 0x2D 0 d a b 9 → decodeV w = .ok (.ldff true d a b) := fun w f => by
      rw [decodeV_mem f]; simp only [decodeVMem, f.fn, f.rd, f.ra, f.rb]
    have f := f28 (m := 0x9000005B) (maj := 0x2D) (k := 9) (stl := 0) rfl (by decide) (by decide) (lt_reg h1) (lt_reg h2) (lt_reg h3) (by decide)
    exact ⟨h0, h4, congrArg some (by show 0x8000005B + 1 * 2 ^ 28 + d * 2 ^ 10 + a * 2 ^ 16 + b * 2 ^ 22 = _; unfold enRR; omega), f.toWord32, .inl (by decide), D _ f⟩

theorem vldgW (p : Pfx) (d a b : Nat) : RoundTrip.Statement (.vldgW p d a b) :=
  tripPair (v := .ldg d a b) (w := enRR 0xA000005B d a b 0) (maj := 0x2D) rfl rfl rfl fun hw => by
    obtain ⟨hw, h4⟩ := wf2 hw
    obtain ⟨hw, h3⟩ := wf2 hw
    obtain ⟨hw, h2⟩ := wf2 hw
    obtain ⟨h0, h1⟩ := wf2 hw
    have D : ∀ w, F28 w 0x2D 0 d a b 10 → decodeV w = .ok (.ldg d a b) := fun w f => by
      rw [decodeV_mem f]; simp only [decodeVMem, f.fn, f.rd, f.ra, f.rb]
    have f := f28 (m := 0xA000005B) (maj := 0x2D) (k := 10) (stl := 0) rfl (by decide) (by decide) (lt_reg h1) (lt_reg h2) (lt_reg h3) (by decide)
    exact ⟨h0, h4, congrArg some (by unfold enRR; omega), f.toWord32, .inl (by decide), D _ f⟩

theorem vstsW (p : Pfx) (d a b : Nat) : RoundTrip.Statement (.vstsW p d a b) :=
  tripPair (v := .sts d a b) (w := enRR 0xB000005B d a b 0) (maj := 0x2D) rfl rfl rfl fun hw => by
    obtain ⟨hw, h4⟩ := wf2 hw
    obtain ⟨hw, h3⟩ := wf2 hw
    obtain ⟨hw, h2⟩ := wf2 hw
    obtain ⟨h0, h1⟩ := wf2 hw
    have D : ∀ w, F28 w 0x2D 0 d a b 11 → decodeV w = .ok (.sts d a b) := fun w f => by
      rw [decodeV_mem f]; simp only [decodeVMem, f.fn, f.rd, f.ra, f.rb]
    have f := f28 (m := 0xB000005B) (maj := 0x2D) (k := 11) (stl := 0) rfl (by decide) (by decide) (lt_reg h1) (lt_reg h2) (lt_reg h3) (by decide)
    exact ⟨h0, h4, congrArg some (by unfold enRR; omega), f.toWord32, .inl (by decide), D _ f⟩

theorem vldtW (d : Nat) (a : Nat) (b : Nat) (stl : Nat) : RoundTrip.Statement (.vldtW d a b stl) :=
  trip32 (w := enRR 0xC000005B d a b stl) (maj := 0x2D) (stl := stl) rfl rfl fun hw => by
    obtain ⟨hw, h3⟩ := wf2 hw
    obtain ⟨hw, h2⟩ := wf2 hw
    obtain ⟨h0, h1⟩ := wf2 hw
    have D : ∀ w, F28 w 0x2D stl d a b 12 → decodeWord w = .ok (.vldtW d a b stl) := fun w f => by
      have hv : decodeV w = .ok (.ldt false d a b) := by
        rw [decodeV_mem f]; simp only [decodeVMem, f.fn, f.rd, f.ra, f.rb, guardOk, h0, if_true]
      exact (dec2D f.maj).trans (decodeVWord_eq f.stl hv rfl)
    have f : F28 (enRR 0xC000005B d a b stl) 0x2D stl d a b 12 := f28 (maj := 0x2D) (k := 12) rfl (by decide) (by decide) (by have := of_decide_eq_true h0; omega) (lt_reg h1) (lt_reg h2) (lt_stl h3)
    exact ⟨f.toWord32, by decide, D _ f⟩

theorem vldtH (d : Nat) (a : Nat) (b : Nat) (stl : Nat) : RoundTrip.Statement (.vldtH d a b stl) :=
  trip32 (w := enRR 0xD000005B d a b stl) (maj := 0x2D) (stl := stl) rfl rfl fun hw => by
    obtain ⟨hw, h3⟩ := wf2 hw
    obtain ⟨hw, h2⟩ := wf2 hw
    obtain ⟨h0, h1⟩ := wf2 hw
    have D : ∀ w, F28 w 0x2D stl d a b 13 → decodeWord w = .ok (.vldtH d a b stl) := fun w f => by
      have hv : decodeV w = .ok (.ldt true d a b) := by
        rw [decodeV_mem f]; simp only [decodeVMem, f.fn, f.rd, f.ra, f.rb, guardOk, h0, if_true]
      exact (dec2D f.maj).trans (decodeVWord_eq f.stl hv rfl)
    have f : F28 (enRR 0xD000005B d a b stl) 0x2D stl d a b 13 := f28 (maj := 0x2D) (k := 13) rfl (by decide) (by decide) (by have := of_decide_eq_true h0; omega) (lt_reg h1) (lt_reg h2) (lt_stl h3)
    exact ⟨f.toWord32, by decide, D _ f⟩

theorem vswap (d : Nat) (stl : Nat) : RoundTrip.Statement (.vswap d stl) :=
  trip32 (w := enRR 0xE000005B d 0 0 stl) (maj := 0x2D) (stl := stl) rfl rfl fun hw => by
    obtain ⟨h0, h1⟩ := wf2 hw
    have D : ∀ w, F28 w 0x2D stl d 0 0 14 → decodeWord w = .ok (.vswap d stl) := fun w f => by
      have ez : fld w 16 12 = 0 := by have h1 := f.ra; have h2 := f.rb; simp only [fld] at *; omega
      have hv : decodeV w = .ok (.swap d) := by
        rw [decodeV_mem f]; simp only [decodeVMem, f.fn, ez, f.rd, needZero, guardOk, h0, if_true]
      exact (dec2D f.maj).trans (decodeVWord_eq f.stl hv rfl)
    have f : F28 (enRR 0xE000005B d 0 0 stl) 0x2D stl d 0 0 14 := f28 (maj := 0x2D) (k := 14) rfl (by decide) (by decide) (by have := of_decide_eq_true h0; omega) (by decide) (by decide) (lt_stl h1)
    exact ⟨f.toWord32, by decide, D _ f⟩

theorem vtrip (a : Nat) (n1 : Nat) (mode : Nat) (ns : Nat) (bs : Nat) (stl : Nat) : RoundTrip.Statement (.vtrip a n1 mode ns bs stl) :=
  trip32 (w := enRR (0x5D + ns * 2 ^ 22) (n1 + mode * 16) a 0 stl + bs * 2 ^ 26) (maj := 0x2E) (stl := stl) (congrArg some (congrArg (fun w => [fld w 0 16, fld w 16 16]) (by unfold enRR; omega))) rfl fun hw => by
    obtain ⟨hw, h5⟩ := wf2 hw
    obtain ⟨hw, h4⟩ := wf2 hw
    obtain ⟨hw, h3⟩ := wf2 hw
    obtain ⟨hw, h2⟩ := wf2 hw
    obtain ⟨h0, h1⟩ := wf2 hw
    have D : ∀ w, F22 w 0x2E stl (n1 + mode * 16) a ns bs → decodeWord w = .ok (.vtrip a n1 mode ns bs stl) := fun w f => by
      have en : fld w 10 4 = n1 := by have := (of_decide_eq_true h1); have := f.rd; simp only [fld] at *; omega
      have em : fld w 14 2 = mode := by have := f.rd; have := of_decide_eq_true h2; simp only [fld] at *; omega
      refine (dec2E f.maj).trans ?_
      simp only [guardOk, if_true, decMaj2E, f.fn, f.ra, f.u6, f.stl, en, em, h2]
    have f : F22 (enRR (0x5D + ns * 2 ^ 22) (n1 + mode * 16) a 0 stl + bs * 2 ^ 26) 0x2E stl (n1 + mode * 16) a ns bs := f22 (maj := 0x2E) (k := ns) (by omega) rfl (by decide) (of_decide_eq_true h3) (by have := (of_decide_eq_true h1); have := (of_decide_eq_true h2); omega) (lt_reg h0) (lt_stl h5) (of_decide_eq_true h4)
    exact ⟨f.toWord32, by decide, D _ f⟩

theorem vadd16 (int : Bool) (d : Nat) (b : Nat) : RoundTrip.Statement (.vadd16 int d b) :=
  trip16 (w := 0x0000 + b2n int * 2 ^ 15 + d * 2 ^ 5 + b * 2 ^ 10) rfl rfl fun hw => by
    obtain ⟨hw, h2⟩ := wf2 hw
    obtain ⟨h0, h1⟩ := wf2 hw
    obtain ⟨f0, f1, f2, f3, f4⟩ := fH (k := 0) (t := b2n int) (d := d) (b := b) (w := 0x0000 + b2n int * 2 ^ 15 + d * 2 ^ 5 + b * 2 ^ 10) (by omega) (by decide) (b2n_lt int) (of_decide_eq_true h0) (of_decide_eq_true h1)
    have nz : (0x0000 + b2n int * 2 ^ 15 + d * 2 ^ 5 + b * 2 ^ 10) ≠ 0 := by
      have h := of_decide_eq_true h2
      cases int <;> simp only [b2n, true_and, reduceCtorEq, Bool.false_eq_true, if_false, if_true, not_and] at * <;> omega
    exact ⟨f0, by simp only [decode16, if_neg nz, f1, f2, f3, f4, b2n_eq_one]⟩

theorem vsub16 (int : Bool) (d : Nat) (b : Nat) : RoundTrip.Statement (.vsub16 int d b) :=
  trip16 (w := 0x0002 + b2n int * 2 ^ 15 + d * 2 ^ 5 + b * 2 ^ 10) rfl rfl fun hw => by
    obtain ⟨h0, h1⟩ := wf2 hw
    obtain ⟨f0, f1, f2, f3, f4⟩ := fH (k := 1) (t := b2n int) (d := d) (b := b) (w := 0x0002 + b2n int * 2 ^ 15 + d * 2 ^ 5 + b * 2 ^ 10) (by omega) (by decide) (b2n_lt int) (of_decide_eq_true h0) (of_decide_eq_true h1)
    have nz : (0x0002 + b2n int * 2 ^ 15 + d * 2 ^ 5 + b * 2 ^ 10) ≠ 0 := by omega
    exact ⟨f0, by simp only [decode16, if_neg nz, f1, f2, f3, f4, b2n_eq_one]⟩

theorem vmul16 (int : Bool) (d : Nat) (b : Nat) : RoundTrip.Statement (.vmul16 int d b) :=
  trip16 (w := 0x0004 + b2n int * 2 ^ 15 + d * 2 ^ 5 + b * 2 ^ 10) rfl rfl fun hw => by
    obtain ⟨h0, h1⟩ := wf2 hw
    obtain ⟨f0, f1, f2, f3, f4⟩ := fH (k := 2) (t := b2n int) (d := d) (b := b) (w := 0x0004 + b2n int * 2 ^ 15 + d * 2 ^ 5 + b * 2 ^ 10) (by omega) (by decide) (b2n_lt int) (of_decide_eq_true h0) (of_decide_eq_true h1)
    have nz : (0x0004 + b2n int * 2 ^ 15 + d * 2 ^ 5 + b * 2 ^ 10) ≠ 0 := by omega
    exact ⟨f0, by simp only [decode16, if_neg nz, f1, f2, f3, f4, b2n_eq_one]⟩

theorem vmin16 (int : Bool) (d : Nat) (b : Nat) : RoundTrip.Statement (.vmin16 int d b) :=
  trip16 (w := 0x0006 + b2n int * 2 ^ 15 + d * 2 ^ 5 + b * 2 ^ 10) rfl rfl fun hw => by
    obtain ⟨h0, h1⟩ := wf2 hw
    obtain ⟨f0, f1, f2, f3, f4⟩ := fH (k := 3) (t := b2n int) (d := d) (b := b) (w := 0x0006 + b2n int * 2 ^ 15 + d * 2 ^ 5 + b * 2 ^ 10) (by omega) (by decide) (b2n_lt int) (of_decide_eq_true h0) (of_decide_eq_true h1)
    have nz : (0x0006 + b2n int * 2 ^ 15 + d * 2 ^ 5 + b * 2 ^ 10) ≠ 0 := by omega
    exact ⟨f0, by simp only [decode16, if_neg nz, f1, f2, f3, f4, b2n_eq_one]⟩

theorem vmax16 (int : Bool) (d : Nat) (b : Nat) : RoundTrip.Statement (.vmax16 int d b) :=
  trip16 (w := 0x0008 + b2n int * 2 ^ 15 + d * 2 ^ 5 + b * 2 ^ 10) rfl rfl fun hw => by
    obtain ⟨h0, h1⟩ := wf2 hw
    obtain ⟨f0, f1, f2, f3, f4⟩ := fH (k := 4) (t := b2n int) (d := d) (b := b) (w := 0x0008 + b2n int * 2 ^ 15 + d * 2 ^ 5 + b * 2 ^ 10) (by omega) (by decide) (b2n_lt int) (of_decide_eq_true h0) (of_decide_eq_true h1)
    have nz : (0x0008 + b2n int * 2 ^ 15 + d * 2 ^ 5 + b * 2 ^ 10) ≠ 0 := by omega
    exact ⟨f0, by simp only [decode16, if_neg nz, f1, f2, f3, f4, b2n_eq_one]⟩

theorem vand16 (int : Bool) (d : Nat) (b : Nat) : RoundTrip.Statement (.vand16 int d b) :=
  trip16 (w := 0x000A + b2n int * 2 ^ 15 + d * 2 ^ 5 + b * 2 ^ 10) rfl rfl fun hw => by
    obtain ⟨h0, h1⟩ := wf2 hw
    obtain ⟨f0, f1, f2, f3, f4⟩ := fH (k := 5) (t := b2n int) (d := d) (b := b) (w := 0x000A + b2n int * 2 ^ 15 + d * 2 ^ 5 + b * 2 ^ 10) (by omega) (by decide) (b2n_lt int) (of_decide_eq_true h0) (of_decide_eq_true h1)
    have nz : (0x000A + b2n int * 2 ^ 15 + d * 2 ^ 5 + b * 2 ^ 10) ≠ 0 := by omega
    exact ⟨f0, by simp only [decode16, if_neg nz, f1, f2, f3, f4, b2n_eq_one]⟩

theorem vor16 (int : Bool) (d : Nat) (b : Nat) : RoundTrip.Statement (.vor16 int d b) :=
  trip16 (w := 0x000C + b2n int * 2 ^ 15 + d * 2 ^ 5 + b * 2 ^ 10) rfl rfl fun hw => by
    obtain ⟨h0, h1⟩ := wf2 hw
    obtain ⟨f0, f1, f2, f3, f4⟩ := fH (k := 6) (t := b2n int) (d := d) (b := b) (w := 0x000C + b2n int * 2 ^ 15 + d * 2 ^ 5 + b * 2 ^ 10) (by omega) (by decide) (b2n_lt int) (of_decide_eq_true h0) (of_decide_eq_true h1)
    have nz : (0x000C + b2n int * 2 ^ 15 + d * 2 ^ 5 + b * 2 ^ 10) ≠ 0 := by omega
    exact ⟨f0, by simp only [decode16, if_neg nz, f1, f2, f3, f4, b2n_eq_one]⟩

theorem vxor16 (int : Bool) (d : Nat) (b : Nat) : RoundTrip.Statement (.vxor16 int d b) :=
  trip16 (w := 0x000E + b2n int * 2 ^ 15 + d * 2 ^ 5 + b * 2 ^ 10) rfl rfl fun hw => by
    obtain ⟨h0, h1⟩ := wf2 hw
    obtain ⟨f0, f1, f2, f3, f4⟩ := fH (k := 7) (t := b2n int) (d := d) (b := b) (w := 0x000E + b2n int * 2 ^ 15 + d * 2 ^ 5 + b * 2 ^ 10) (by omega) (by decide) (b2n_lt int) (of_decide_eq_true h0) (of_decide_eq_true h1)
    have nz : (0x000E + b2n int * 2 ^ 15 + d * 2 ^ 5 + b * 2 ^ 10) ≠ 0 := by omega
    exact ⟨f0, by simp only [decode16, if_neg nz, f1, f2, f3, f4, b2n_eq_one]⟩

theorem vmov16 (int : Bool) (d : Nat) (b : Nat) : RoundTrip.Statement (.vmov16 int d b) :=
  trip16 (w := 0x0010 + b2n int * 2 ^ 15 + d * 2 ^ 5 + b * 2 ^ 10) rfl rfl fun hw => by
    obtain ⟨h0, h1⟩ := wf2 hw
    obtain ⟨f0, f1, f2, f3, f4⟩ := fH (k := 8) (t := b2n int) (d := d) (b := b) (w := 0x0010 + b2n int * 2 ^ 15 + d * 2 ^ 5 + b * 2 ^ 10) (by omega) (by decide) (b2n_lt int) (of_decide_eq_true h0) (of_decide_eq_true h1)
    have nz : (0x0010 + b2n int * 2 ^ 15 + d * 2 ^ 5 + b * 2 ^ 10) ≠ 0 := by omega
    exact ⟨f0, by simp only [decode16, if_neg nz, f1, f2, f3, f4, b2n_eq_one]⟩

theorem vneg16 (int : Bool) (d : Nat) (b : Nat) : RoundTrip.Statement (.vneg16 int d b) :=
  trip16 (w := 0x0012 + b2n int * 2 ^ 15 + d * 2 ^ 5 + b * 2 ^ 10) rfl rfl fun hw => by
    obtain ⟨h0, h1⟩ := wf2 hw
    obtain ⟨f0, f1, f2, f3, f4⟩ := fH (k := 9) (t := b2n int) (d := d) (b := b) (w := 0x0012 + b2n int * 2 ^ 15 + d * 2 ^ 5 + b * 2 ^ 10) (by omega) (by decide) (b2n_lt int) (of_decide_eq_true h0) (of_decide_eq_true h1)
    have nz : (0x0012 + b2n int * 2 ^ 15 + d * 2 ^ 5 + b * 2 ^ 10) ≠ 0 := by omega
    exact ⟨f0, by simp only [decode16, if_neg nz, f1, f2, f3, f4, b2n_eq_one]⟩

theorem vabs16 (int : Bool) (d : Nat) (b : Nat) : RoundTrip.Statement (.vabs16 int d b) :=
  trip16 (w := 0x0014 + b2n int * 2 ^ 15 + d * 2 ^ 5 + b * 2 ^ 10) rfl rfl fun hw => by
    obtain ⟨h0, h1⟩ := wf2 hw
    obtain ⟨f0, f1, f2, f3, f4⟩ := fH (k := 10) (t := b2n int) (d := d) (b := b) (w := 0x0014 + b2n int * 2 ^ 15 + d * 2 ^ 5 + b * 2 ^ 10) (by omega) (by decide) (b2n_lt int) (of_decide_eq_true h0) (of_decide_eq_true h1)
    have nz : (0x0014 + b2n int * 2 ^ 15 + d * 2 ^ 5 + b * 2 ^ 10) ≠ 0 := by omega
    exact ⟨f0, by simp only [decode16, if_neg nz, f1, f2, f3, f4, b2n_eq_one]⟩

theorem vshl16 (d : Nat) (b : Nat) : RoundTrip.Statement (.vshl16 d b) :=
  trip16 (w := 0x8016 + d * 2 ^ 5 + b * 2 ^ 10) rfl rfl fun hw => by
    obtain ⟨h0, h1⟩ := wf2 hw
    obtain ⟨f0, f1, f2, f3, f4⟩ := fH (k := 11) (t := 1) (d := d) (b := b) (w := 0x8016 + d * 2 ^ 5 + b * 2 ^ 10) (by omega) (by decide) (by decide) (of_decide_eq_true h0) (of_decide_eq_true h1)
    have nz : (0x8016 + d * 2 ^ 5 + b * 2 ^ 10) ≠ 0 := by omega
    exact ⟨f0, by simp only [decode16, if_neg nz, f1, f2, f3, f4, if_true]⟩

theorem vsra16 (d : Nat) (b : Nat) : RoundTrip.Statement (.vsra16 d b) :=
  trip16 (w := 0x8018 + d * 2 ^ 5 + b * 2 ^ 10) rfl rfl fun hw => by
    obtain ⟨h0, h1⟩ := wf2 hw
    obtain ⟨f0, f1, f2, f3, f4⟩ := fH (k := 12) (t := 1) (d := d) (b := b) (w := 0x8018 + d * 2 ^ 5 + b * 2 ^ 10) (by omega) (by decide) (by decide) (of_decide_eq_true h0) (of_decide_eq_true h1)
    have nz : (0x8018 + d * 2 ^ 5 + b * 2 ^ 10) ≠ 0 := by omega
    exact ⟨f0, by simp only [decode16, if_neg nz, f1, f2, f3, f4, if_true]⟩

theorem vclt16 (int : Bool) (d : Nat) (b : Nat) : RoundTrip.Statement (.vclt16 int d b) :=
  trip16 (w := 0x001A + b2n int * 2 ^ 15 + d * 2 ^ 5 + b * 2 ^ 10) rfl rfl fun hw => by
    obtain ⟨h0, h1⟩ := wf2 hw
    obtain ⟨f0, f1, f2, f3, f4⟩ := fH (k := 13) (t := b2n int) (d := d) (b := b) (w := 0x001A + b2n int * 2 ^ 15 + d * 2 ^ 5 + b * 2 ^ 10) (by omega) (by decide) (b2n_lt int) (of_decide_eq_true h0) (of_decide_eq_true h1)
    have nz : (0x001A + b2n int * 2 ^ 15 + d * 2 ^ 5 + b * 2 ^ 10) ≠ 0 := by omega
    exact ⟨f0, by simp only [decode16, if_neg nz, f1, f2, f3, f4, b2n_eq_one]⟩

theorem vceq16 (int : Bool) (d : Nat) (b : Nat) : RoundTrip.Statement (.vceq16 int d b) :=
  trip16 (w := 0x001C + b2n int * 2 ^ 15 + d * 2 ^ 5 + b * 2 ^ 10) rfl rfl fun hw => by
    obtain ⟨h0, h1⟩ := wf2 hw
    obtain ⟨f0, f1, f2, f3, f4⟩ := fH (k := 14) (t := b2n int) (d := d) (b := b) (w := 0x001C + b2n int * 2 ^ 15 + d * 2 ^ 5 + b * 2 ^ 10) (by omega) (by decide) (b2n_lt int) (of_decide_eq_true h0) (of_decide_eq_true h1)
    have nz : (0x001C + b2n int * 2 ^ 15 + d * 2 ^ 5 + b * 2 ^ 10) ≠ 0 := by omega
    exact ⟨f0, by simp only [decode16, if_neg nz, f1, f2, f3, f4, b2n_eq_one]⟩

theorem vrcp16 (d : Nat) (b : Nat) : RoundTrip.Statement (.vrcp16 d b) :=
  trip16 (w := 0x001E + d * 2 ^ 5 + b * 2 ^ 10) rfl rfl fun hw => by
    obtain ⟨h0, h1⟩ := wf2 hw
    obtain ⟨f0, f1, f2, f3, f4⟩ := fH (k := 15) (t := 0) (d := d) (b := b) (w := 0x001E + d * 2 ^ 5 + b * 2 ^ 10) (by omega) (by decide) (by decide) (of_decide_eq_true h0) (of_decide_eq_true h1)
    have nz : (0x001E + d * 2 ^ 5 + b * 2 ^ 10) ≠ 0 := by omega
    exact ⟨f0, by simp only [decode16, if_neg nz, f1, f2, f3, f4, if_neg (by decide : ¬ (0 = 1))]⟩

theorem vpopc16 (d : Nat) (b : Nat) : RoundTrip.Statement (.vpopc16 d b) :=
  trip16 (w := 0x801E + d * 2 ^ 5 + b * 2 ^ 10) rfl rfl fun hw => by
    obtain ⟨h0, h1⟩ := wf2 hw
    obtain ⟨f0, f1, f2, f3, f4⟩ := fH (k := 15) (t := 1) (d := d) (b := b) (w := 0x801E + d * 2 ^ 5 + b * 2 ^ 10) (by omega) (by decide) (by decide) (of_decide_eq_true h0) (of_decide_eq_true h1)
    have nz : (0x801E + d * 2 ^ 5 + b * 2 ^ 10) ≠ 0 := by omega
    exact ⟨f0, by simp only [decode16, if_neg nz, f1, f2, f3, f4, if_true]⟩

theorem brk16 : RoundTrip.Statement .brk16 := trip16 (w := 0) rfl rfl fun _ => ⟨rfl, rfl⟩

theorem vstrm (d : Nat) (a : Nat) (v : Nat) (stl : Nat) : RoundTrip.Statement (.vstrm d a v stl) :=
  trip32 (w := enRR 0x0000005F d a 0 stl + (v) * 2 ^ 26) (maj := 0x2F) (stl := stl) rfl rfl fun hw => by
    obtain ⟨hw, h3⟩ := wf2 hw
    obtain ⟨hw, h2⟩ := wf2 hw
    obtain ⟨h0, h1⟩ := wf2 hw
    have D : ∀ w, F22 w 0x2F stl d a 0 (v) → decodeWord w = .ok (.vstrm d a v stl) := fun w f => by
      refine (dec2F f.maj).trans ?_
      simp only [decMaj2F, f.fn, f.rd, f.ra, f.stl, f.u6]
    have f : F22 (enRR 0x0000005F d a 0 stl + (v) * 2 ^ 26) 0x2F stl d a 0 (v) := f22 (maj := 0x2F) (k := 0) (e := v) rfl rfl (by decide) (by decide) (lt_reg h0) (lt_reg h1) (lt_stl h3) (by have := (lt_reg h2); omega)
    exact ⟨f.toWord32, by decide, D _ f⟩

theorem vsunb (d : Nat) (a : Nat) (stl : Nat) : RoundTrip.Statement (.vsunb d a stl) :=
  trip32 (w := enRR 0x0040005F d a 0 stl + (0) * 2 ^ 26) (maj := 0x2F) (stl := stl) (congrArg some (congrArg (fun w => [fld w 0 16, fld w 16 16]) (by unfold enRR; omega))) rfl fun hw => by
    obtain ⟨hw, h2⟩ := wf2 hw
    obtain ⟨h0, h1⟩ := wf2 hw
    have D : ∀ w, F22 w 0x2F stl d a 1 (0) → decodeWord w = .ok (.vsunb d a stl) := fun w f => by
      refine (dec2F f.maj).trans ?_
      simp only [needZero, if_true, decMaj2F, f.fn, f.rd, f.ra, f.stl, f.u6]
    have f : F22 (enRR 0x0040005F d a 0 stl + (0) * 2 ^ 26) 0x2F stl d a 1 (0) := f22 (maj := 0x2F) (k := 1) (e := 0) rfl rfl (by decide) (by decide) (lt_reg h0) (lt_reg h1) (lt_stl h2) (by decide)
    exact ⟨f.toWord32, by decide, D _ f⟩

theorem vsq (d : Nat) (a : Nat) (stl : Nat) : RoundTrip.Statement (.vsq d a stl) :=
  trip32 (w := enRR 0x0080005F d a 0 stl + (0) * 2 ^ 26) (maj := 0x2F) (stl := stl) (congrArg some (congrArg (fun w => [fld w 0 16, fld w 16 16]) (by unfold enRR; omega))) rfl fun hw => by
    obtain ⟨hw, h2⟩ := wf2 hw
    obtain ⟨h0, h1⟩ := wf2 hw
    have D : ∀ w, F22 w 0x2F stl d a 2 (0) → decodeWord w = .ok (.vsq d a stl) := fun w f => by
      refine (dec2F f.maj).trans ?_
      simp only [needZero, if_true, decMaj2F, f.fn, f.rd, f.ra, f.stl, f.u6]
    have f : F22 (enRR 0x0080005F d a 0 stl + (0) * 2 ^ 26) 0x2F stl d a 2 (0) := f22 (maj := 0x2F) (k := 2) (e := 0) rfl rfl (by decide) (by decide) (lt_reg h0) (lt_reg h1) (lt_stl h2) (by decide)
    exact ⟨f.toWord32, by decide, D _ f⟩

theorem mlease (stl : Nat) : RoundTrip.Statement (.mlease stl) :=
  trip32 (w := enRR 0x00000061 0 0 0 stl + 0 * 2 ^ 26) (maj := 0x30) (stl := stl) (congrArg some (congrArg (fun w => [fld w 0 16, fld w 16 16]) (by unfold enRR; omega))) rfl fun hw => by
    have h0 := hw
    have D : ∀ w, F22 w 0x30 stl 0 0 0 0 → decodeWord w = .ok (.mlease stl) := fun w f => by
      have ez := f.rda
      have hv : decodeV w = .ok (.mat .lease) := by
        rw [decodeV_mat f]; simp only [decodeMat, needZero, f.u6, f.fn, ez, Nat.mul_zero, Nat.add_zero, if_true]
      exact (dec30 f.maj).trans (decodeVWord_eq f.stl hv rfl)
    have f : F22 (enRR 0x00000061 0 0 0 stl + 0 * 2 ^ 26) 0x30 stl 0 0 0 0 := f22 (maj := 0x30) (k := 0) rfl rfl (by decide) (by decide) (by decide) (by decide) (lt_stl h0) (by decide)
    exact ⟨f.toWord32, by decide, D _ f⟩

theorem mrel (stl : Nat) : RoundTrip.Statement (.mrel stl) :=
  trip32 (w := enRR 0x00400061 0 0 0 stl + 0 * 2 ^ 26) (maj := 0x30) (stl := stl) (congrArg some (congrArg (fun w => [fld w 0 16, fld w 16 16]) (by unfold enRR; omega))) rfl fun hw => by
    have h0 := hw
    have D : ∀ w, F22 w 0x30 stl 0 0 1 0 → decodeWord w = .ok (.mrel stl) := fun w f => by
      have ez := f.rda
      have hv : decodeV w = .ok (.mat .rel) := by
        rw [decodeV_mat f]; simp only [decodeMat, needZero, f.u6, f.fn, ez, Nat.mul_zero, Nat.add_zero, if_true]
      exact (dec30 f.maj).trans (decodeVWord_eq f.stl hv rfl)
    have f : F22 (enRR 0x00400061 0 0 0 stl + 0 * 2 ^ 26) 0x30 stl 0 0 1 0 := f22 (maj := 0x30) (k := 1) rfl rfl (by decide) (by decide) (by decide) (by decide) (lt_stl h0) (by decide)
    exact ⟨f.toWord32, by decide, D _ f⟩

theorem mbload (a : Nat) (stl : Nat) : RoundTrip.Statement (.mbload a stl) :=
  trip32 (w := enRR 0x00800061 0 a 0 stl + 0 * 2 ^ 26) (maj := 0x30) (stl := stl) (congrArg some (congrArg (fun w => [fld w 0 16, fld w 16 16]) (by unfold enRR; omega))) rfl fun hw => by
    obtain ⟨h0, h1⟩ := wf2 hw
    have D : ∀ w, F22 w 0x30 stl 0 a 2 0 → decodeWord w = .ok (.mbload a stl) := fun w f => by
      have ez := f.rda
      have hv : decodeV w = .ok (.mat (.bload a)) := by
        rw [decodeV_mat f]; simp only [decodeMat, needZero, f.u6, f.fn, f.rd, f.ra, if_true]
      exact (dec30 f.maj).trans (decodeVWord_eq f.stl hv rfl)
    have f : F22 (enRR 0x00800061 0 a 0 stl + 0 * 2 ^ 26) 0x30 stl 0 a 2 0 := f22 (maj := 0x30) (k := 2) rfl rfl (by decide) (by decide) (by decide) (lt_reg h0) (lt_stl h1) (by decide)
    exact ⟨f.toWord32, by decide, D _ f⟩

theorem mmac (d : Nat) (a : Nat) (stl : Nat) : RoundTrip.Statement (.mmac d a stl) :=
  trip32 (w := enRR 0x00C00061 d a 0 stl + 0 * 2 ^ 26) (maj := 0x30) (stl := stl) (congrArg some (congrArg (fun w => [fld w 0 16, fld w 16 16]) (by unfold enRR; omega))) rfl fun hw => by
    obtain ⟨hw, h2⟩ := wf2 hw
    obtain ⟨h0, h1⟩ := wf2 hw
    have D : ∀ w, F22 w 0x30 stl d a 3 0 → decodeWord w = .ok (.mmac d a stl) := fun w f => by
      have ez := f.rda
      have hv : decodeV w = .ok (.mat (.mac d a)) := by
        rw [decodeV_mat f]; simp only [decodeMat, needZero, f.u6, f.fn, f.rd, f.ra, if_true]
      exact (dec30 f.maj).trans (decodeVWord_eq f.stl hv rfl)
    have f : F22 (enRR 0x00C00061 d a 0 stl + 0 * 2 ^ 26) 0x30 stl d a 3 0 := f22 (maj := 0x30) (k := 3) rfl rfl (by decide) (by decide) (lt_reg h0) (lt_reg h1) (lt_stl h2) (by decide)
    exact ⟨f.toWord32, by decide, D _ f⟩

theorem mrot (stl : Nat) : RoundTrip.Statement (.mrot stl) :=
  trip32 (w := enRR 0x01000061 0 0 0 stl + 0 * 2 ^ 26) (maj := 0x30) (stl := stl) (congrArg some (congrArg (fun w => [fld w 0 16, fld w 16 16]) (by unfold enRR; omega))) rfl fun hw => by
    have h0 := hw
    have D : ∀ w, F22 w 0x30 stl 0 0 4 0 → decodeWord w = .ok (.mrot stl) := fun w f => by
      have ez := f.rda
      have hv : decodeV w = .ok (.mat .rot) := by
        rw [decodeV_mat f]; simp only [decodeMat, needZero, f.u6, f.fn, ez, Nat.mul_zero, Nat.add_zero, if_true]
      exact (dec30 f.maj).trans (decodeVWord_eq f.stl hv rfl)
    have f : F22 (enRR 0x01000061 0 0 0 stl + 0 * 2 ^ 26) 0x30 stl 0 0 4 0 := f22 (maj := 0x30) (k := 4) rfl rfl (by decide) (by decide) (by decide) (by decide) (lt_stl h0) (by decide)
    exact ⟨f.toWord32, by decide, D _ f⟩

theorem mzero (d : Nat) (stl : Nat) : RoundTrip.Statement (.mzero d stl) :=
  trip32 (w := enRR 0x01400061 d 0 0 stl + 0 * 2 ^ 26) (maj := 0x30) (stl := stl) (congrArg some (congrArg (fun w => [fld w 0 16, fld w 16 16]) (by unfold enRR; omega))) rfl fun hw => by
    obtain ⟨h0, h1⟩ := wf2 hw
    have D : ∀ w, F22 w 0x30 stl d 0 5 0 → decodeWord w = .ok (.mzero d stl) := fun w f => by
      have ez := f.rda
      have hv : decodeV w = .ok (.mat (.zero d)) := by
        rw [decodeV_mat f]; simp only [decodeMat, needZero, f.u6, f.fn, f.rd, f.ra, if_true]
      exact (dec30 f.maj).trans (decodeVWord_eq f.stl hv rfl)
    have f : F22 (enRR 0x01400061 d 0 0 stl + 0 * 2 ^ 26) 0x30 stl d 0 5 0 := f22 (maj := 0x30) (k := 5) rfl rfl (by decide) (by decide) (lt_reg h0) (by decide) (lt_stl h1) (by decide)
    exact ⟨f.toWord32, by decide, D _ f⟩

theorem mst (d : Nat) (a : Nat) (stl : Nat) : RoundTrip.Statement (.mst d a stl) :=
  trip32 (w := enRR 0x01800061 d a 0 stl + 0 * 2 ^ 26) (maj := 0x30) (stl := stl) (congrArg some (congrArg (fun w => [fld w 0 16, fld w 16 16]) (by unfold enRR; omega))) rfl fun hw => by
    obtain ⟨hw, h2⟩ := wf2 hw
    obtain ⟨h0, h1⟩ := wf2 hw
    have D : ∀ w, F22 w 0x30 stl d a 6 0 → decodeWord w = .ok (.mst d a stl) := fun w f => by
      have ez := f.rda
      have hv : decodeV w = .ok (.mat (.st d a)) := by
        rw [decodeV_mat f]; simp only [decodeMat, needZero, f.u6, f.fn, f.rd, f.ra, if_true]
      exact (dec30 f.maj).trans (decodeVWord_eq f.stl hv rfl)
    have f : F22 (enRR 0x01800061 d a 0 stl + 0 * 2 ^ 26) 0x30 stl d a 6 0 := f22 (maj := 0x30) (k := 6) rfl rfl (by decide) (by decide) (lt_reg h0) (lt_reg h1) (lt_stl h2) (by decide)
    exact ⟨f.toWord32, by decide, D _ f⟩

theorem mld (d : Nat) (a : Nat) (stl : Nat) : RoundTrip.Statement (.mld d a stl) :=
  trip32 (w := enRR 0x01C00061 d a 0 stl + 0 * 2 ^ 26) (maj := 0x30) (stl := stl) (congrArg some (congrArg (fun w => [fld w 0 16, fld w 16 16]) (by unfold enRR; omega))) rfl fun hw => by
    obtain ⟨hw, h2⟩ := wf2 hw
    obtain ⟨h0, h1⟩ := wf2 hw
    have D : ∀ w, F22 w 0x30 stl d a 7 0 → decodeWord w = .ok (.mld d a stl) := fun w f => by
      have ez := f.rda
      have hv : decodeV w = .ok (.mat (.ld d a)) := by
        rw [decodeV_mat f]; simp only [decodeMat, needZero, f.u6, f.fn, f.rd, f.ra, if_true]
      exact (dec30 f.maj).trans (decodeVWord_eq f.stl hv rfl)
    have f : F22 (enRR 0x01C00061 d a 0 stl + 0 * 2 ^ 26) 0x30 stl d a 7 0 := f22 (maj := 0x30) (k := 7) rfl rfl (by decide) (by decide) (lt_reg h0) (lt_reg h1) (lt_stl h2) (by decide)
    exact ⟨f.toWord32, by decide, D _ f⟩

theorem macc (d : Nat) (a : Nat) (stl : Nat) : RoundTrip.Statement (.macc d a stl) :=
  trip32 (w := enRR 0x02000061 d a 0 stl + 0 * 2 ^ 26) (maj := 0x30) (stl := stl) (congrArg some (congrArg (fun w => [fld w 0 16, fld w 16 16]) (by unfold enRR; omega))) rfl fun hw => by
    obtain ⟨hw, h2⟩ := wf2 hw
    obtain ⟨h0, h1⟩ := wf2 hw
    have D : ∀ w, F22 w 0x30 stl d a 8 0 → decodeWord w = .ok (.macc d a stl) := fun w f => by
      have ez := f.rda
      have hv : decodeV w = .ok (.mat (.acc d a)) := by
        rw [decodeV_mat f]; simp only [decodeMat, needZero, f.u6, f.fn, f.rd, f.ra, if_true]
      exact (dec30 f.maj).trans (decodeVWord_eq f.stl hv rfl)
    have f : F22 (enRR 0x02000061 d a 0 stl + 0 * 2 ^ 26) 0x30 stl d a 8 0 := f22 (maj := 0x30) (k := 8) rfl rfl (by decide) (by decide) (lt_reg h0) (lt_reg h1) (lt_stl h2) (by decide)
    exact ⟨f.toWord32, by decide, D _ f⟩

theorem mwait (d : Nat) (a : Nat) (stl : Nat) : RoundTrip.Statement (.mwait d a stl) :=
  trip32 (w := enRR 0x02400061 d a 0 stl + 0 * 2 ^ 26) (maj := 0x30) (stl := stl) (congrArg some (congrArg (fun w => [fld w 0 16, fld w 16 16]) (by unfold enRR; omega))) rfl fun hw => by
    obtain ⟨hw, h2⟩ := wf2 hw
    obtain ⟨h0, h1⟩ := wf2 hw
    have D : ∀ w, F22 w 0x30 stl d a 9 0 → decodeWord w = .ok (.mwait d a stl) := fun w f => by
      have ez := f.rda
      have hv : decodeV w = .ok (.mat (.wait a d)) := by
        rw [decodeV_mat f]; simp only [decodeMat, needZero, f.u6, f.fn, f.rd, f.ra, if_true]
      exact (dec30 f.maj).trans (decodeVWord_eq f.stl hv rfl)
    have f : F22 (enRR 0x02400061 d a 0 stl + 0 * 2 ^ 26) 0x30 stl d a 9 0 := f22 (maj := 0x30) (k := 9) rfl rfl (by decide) (by decide) (lt_reg h0) (lt_reg h1) (lt_stl h2) (by decide)
    exact ⟨f.toWord32, by decide, D _ f⟩

theorem mclaim (d : Nat) (a : Nat) (stl : Nat) : RoundTrip.Statement (.mclaim d a stl) :=
  trip32 (w := enRR 0x02800061 d a 0 stl + 0 * 2 ^ 26) (maj := 0x30) (stl := stl) (congrArg some (congrArg (fun w => [fld w 0 16, fld w 16 16]) (by unfold enRR; omega))) rfl fun hw => by
    obtain ⟨hw, h2⟩ := wf2 hw
    obtain ⟨h0, h1⟩ := wf2 hw
    have D : ∀ w, F22 w 0x30 stl d a 10 0 → decodeWord w = .ok (.mclaim d a stl) := fun w f => by
      have ez := f.rda
      have hv : decodeV w = .ok (.mat (.claim a d)) := by
        rw [decodeV_mat f]; simp only [decodeMat, needZero, f.u6, f.fn, f.rd, f.ra, if_true]
      exact (dec30 f.maj).trans (decodeVWord_eq f.stl hv rfl)
    have f : F22 (enRR 0x02800061 d a 0 stl + 0 * 2 ^ 26) 0x30 stl d a 10 0 := f22 (maj := 0x30) (k := 10) rfl rfl (by decide) (by decide) (lt_reg h0) (lt_reg h1) (lt_stl h2) (by decide)
    exact ⟨f.toWord32, by decide, D _ f⟩

theorem mstat (d : Nat) (a : Nat) (stl : Nat) : RoundTrip.Statement (.mstat d a stl) :=
  trip32 (w := enRR 0x02C00061 d a 0 stl + 0 * 2 ^ 26) (maj := 0x30) (stl := stl) (congrArg some (congrArg (fun w => [fld w 0 16, fld w 16 16]) (by unfold enRR; omega))) rfl fun hw => by
    obtain ⟨hw, h2⟩ := wf2 hw
    obtain ⟨h0, h1⟩ := wf2 hw
    have D : ∀ w, F22 w 0x30 stl d a 11 0 → decodeWord w = .ok (.mstat d a stl) := fun w f => by
      have ez := f.rda
      have hv : decodeV w = .ok (.mat (.stat a d)) := by
        rw [decodeV_mat f]; simp only [decodeMat, needZero, f.u6, f.fn, f.rd, f.ra, if_true]
      exact (dec30 f.maj).trans (decodeVWord_eq f.stl hv rfl)
    have f : F22 (enRR 0x02C00061 d a 0 stl + 0 * 2 ^ 26) 0x30 stl d a 11 0 := f22 (maj := 0x30) (k := 11) rfl rfl (by decide) (by decide) (lt_reg h0) (lt_reg h1) (lt_stl h2) (by decide)
    exact ⟨f.toWord32, by decide, D _ f⟩

theorem atomAddBlk (dbl : Bool) (d : Nat) (a : Nat) (b : Nat) (stl : Nat) : RoundTrip.Statement (.atomAddBlk dbl d a b stl) :=
  trip32 (w := enAt 0x00000063 dbl d a b stl) (maj := 0x31) (stl := stl) rfl rfl fun hw => by
    obtain ⟨hw, h3⟩ := wf2 hw
    obtain ⟨hw, h2⟩ := wf2 hw
    obtain ⟨h0, h1⟩ := wf2 hw
    have D : ∀ w, Word32 w 0x31 stl ∧ fld w 10 6 = d ∧ fld w 16 6 = a ∧ fld w 22 6 = b ∧ fld w 28 3 = 0 ∧ fld w 31 1 = b2n dbl → decodeWord w = .ok (.atomAddBlk dbl d a b stl) := fun w f => by
      obtain ⟨f, g1, g2, g3, g4, g5⟩ := f
      refine (dec31 f.maj).trans ?_
      simp only [decMaj31, f.stl, g1, g2, g3, g4, g5, b2n_eq_one]
    have f : Word32 (enAt 0x00000063 dbl d a b stl) 0x31 stl ∧ fld (enAt 0x00000063 dbl d a b stl) 10 6 = d ∧ fld (enAt 0x00000063 dbl d a b stl) 16 6 = a ∧ fld (enAt 0x00000063 dbl d a b stl) 22 6 = b ∧ fld (enAt 0x00000063 dbl d a b stl) 28 3 = 0 ∧ fld (enAt 0x00000063 dbl d a b stl) 31 1 = b2n dbl := fA (maj := 0x31) (k := 0) dbl rfl (by decide) (by decide) (lt_reg h0) (lt_reg h1) (lt_reg h2) (lt_stl h3)
    exact ⟨f.1, by decide, D _ f⟩

theorem atomAndBlk (dbl : Bool) (d : Nat) (a : Nat) (b : Nat) (stl : Nat) : RoundTrip.Statement (.atomAndBlk dbl d a b stl) :=
  trip32 (w := enAt 0x10000063 dbl d a b stl) (maj := 0x31) (stl := stl) rfl rfl fun hw => by
    obtain ⟨hw, h3⟩ := wf2 hw
    obtain ⟨hw, h2⟩ := wf2 hw
    obtain ⟨h0, h1⟩ := wf2 hw
    have D : ∀ w, Word32 w 0x31 stl ∧ fld w 10 6 = d ∧ fld w 16 6 = a ∧ fld w 22 6 = b ∧ fld w 28 3 = 1 ∧ fld w 31 1 = b2n dbl → decodeWord w = .ok (.atomAndBlk dbl d a b stl) := fun w f => by
      obtain ⟨f, g1, g2, g3, g4, g5⟩ := f
      refine (dec31 f.maj).trans ?_
      simp only [decMaj31, f.stl, g1, g2, g3, g4, g5, b2n_eq_one]
    have f : Word32 (enAt 0x10000063 dbl d a b stl) 0x31 stl ∧ fld (enAt 0x10000063 dbl d a b stl) 10 6 = d ∧ fld (enAt 0x10000063 dbl d a b stl) 16 6 = a ∧ fld (enAt 0x10000063 dbl d a b stl) 22 6 = b ∧ fld (enAt 0x10000063 dbl d a b stl) 28 3 = 1 ∧ fld (enAt 0x10000063 dbl d a b stl) 31 1 = b2n dbl := fA (maj := 0x31) (k := 1) dbl rfl (by decide) (by decide) (lt_reg h0) (lt_reg h1) (lt_reg h2) (lt_stl h3)
    exact ⟨f.1, by decide, D _ f⟩

theorem atomOrBlk (dbl : Bool) (d : Nat) (a : Nat) (b : Nat) (stl : Nat) : RoundTrip.Statement (.atomOrBlk dbl d a b stl) :=
  trip32 (w := enAt 0x20000063 dbl d a b stl) (maj := 0x31) (stl := stl) rfl rfl fun hw => by
    obtain ⟨hw, h3⟩ := wf2 hw
    obtain ⟨hw, h2⟩ := wf2 hw
    obtain ⟨h0, h1⟩ := wf2 hw
    have D : ∀ w, Word32 w 0x31 stl ∧ fld w 10 6 = d ∧ fld w 16 6 = a ∧ fld w 22 6 = b ∧ fld w 28 3 = 2 ∧ fld w 31 1 = b2n dbl → decodeWord w = .ok (.atomOrBlk dbl d a b stl) := fun w f => by
      obtain ⟨f, g1, g2, g3, g4, g5⟩ := f
      refine (dec31 f.maj).trans ?_
      simp only [decMaj31, f.stl, g1, g2, g3, g4, g5, b2n_eq_one]
    have f : Word32 (enAt 0x20000063 dbl d a b stl) 0x31 stl ∧ fld (enAt 0x20000063 dbl d a b stl) 10 6 = d ∧ fld (enAt 0x20000063 dbl d a b stl) 16 6 = a ∧ fld (enAt 0x20000063 dbl d a b stl) 22 6 = b ∧ fld (enAt 0x20000063 dbl d a b stl) 28 3 = 2 ∧ fld (enAt 0x20000063 dbl d a b stl) 31 1 = b2n dbl := fA (maj := 0x31) (k := 2) dbl rfl (by decide) (by decide) (lt_reg h0) (lt_reg h1) (lt_reg h2) (lt_stl h3)
    exact ⟨f.1, by decide, D _ f⟩

theorem atomXorBlk (dbl : Bool) (d : Nat) (a : Nat) (b : Nat) (stl : Nat) : RoundTrip.Statement (.atomXorBlk dbl d a b stl) :=
  trip32 (w := enAt 0x30000063 dbl d a b stl) (maj := 0x31) (stl := stl) rfl rfl fun hw => by
    obtain ⟨hw, h3⟩ := wf2 hw
    obtain ⟨hw, h2⟩ := wf2 hw
    obtain ⟨h0, h1⟩ := wf2 hw
    have D : ∀ w, Word32 w 0x31 stl ∧ fld w 10 6 = d ∧ fld w 16 6 = a ∧ fld w 22 6 = b ∧ fld w 28 3 = 3 ∧ fld w 31 1 = b2n dbl → decodeWord w = .ok (.atomXorBlk dbl d a b stl) := fun w f => by
      obtain ⟨f, g1, g2, g3, g4, g5⟩ := f
      refine (dec31 f.maj).trans ?_
      simp only [decMaj31, f.stl, g1, g2, g3, g4, g5, b2n_eq_one]
    have f : Word32 (enAt 0x30000063 dbl d a b stl) 0x31 stl ∧ fld (enAt 0x30000063 dbl d a b stl) 10 6 = d ∧ fld (enAt 0x30000063 dbl d a b stl) 16 6 = a ∧ fld (enAt 0x30000063 dbl d a b stl) 22 6 = b ∧ fld (enAt 0x30000063 dbl d a b stl) 28 3 = 3 ∧ fld (enAt 0x30000063 dbl d a b stl) 31 1 = b2n dbl := fA (maj := 0x31) (k := 3) dbl rfl (by decide) (by decide) (lt_reg h0) (lt_reg h1) (lt_reg h2) (lt_stl h3)
    exact ⟨f.1, by decide, D _ f⟩

theorem atomMinBlk (dbl : Bool) (d : Nat) (a : Nat) (b : Nat) (stl : Nat) : RoundTrip.Statement (.atomMinBlk dbl d a b stl) :=
  trip32 (w := enAt 0x40000063 dbl d a b stl) (maj := 0x31) (stl := stl) rfl rfl fun hw => by
    obtain ⟨hw, h3⟩ := wf2 hw
    obtain ⟨hw, h2⟩ := wf2 hw
    obtain ⟨h0, h1⟩ := wf2 hw
    have D : ∀ w, Word32 w 0x31 stl ∧ fld w 10 6 = d ∧ fld w 16 6 = a ∧ fld w 22 6 = b ∧ fld w 28 3 = 4 ∧ fld w 31 1 = b2n dbl → decodeWord w = .ok (.atomMinBlk dbl d a b stl) := fun w f => by
      obtain ⟨f, g1, g2, g3, g4, g5⟩ := f
      refine (dec31 f.maj).trans ?_
      simp only [decMaj31, f.stl, g1, g2, g3, g4, g5, b2n_eq_one]
    have f : Word32 (enAt 0x40000063 dbl d a b stl) 0x31 stl ∧ fld (enAt 0x40000063 dbl d a b stl) 10 6 = d ∧ fld (enAt 0x40000063 dbl d a b stl) 16 6 = a ∧ fld (enAt 0x40000063 dbl d a b stl) 22 6 = b ∧ fld (enAt 0x40000063 dbl d a b stl) 28 3 = 4 ∧ fld (enAt 0x40000063 dbl d a b stl) 31 1 = b2n dbl := fA (maj := 0x31) (k := 4) dbl rfl (by decide) (by decide) (lt_reg h0) (lt_reg h1) (lt_reg h2) (lt_stl h3)
    exact ⟨f.1, by decide, D _ f⟩

theorem atomMaxBlk (dbl : Bool) (d : Nat) (a : Nat) (b : Nat) (stl : Nat) : RoundTrip.Statement (.atomMaxBlk dbl d a b stl) :=
  trip32 (w := enAt 0x50000063 dbl d a b stl) (maj := 0x31) (stl := stl) rfl rfl fun hw => by
    obtain ⟨hw, h3⟩ := wf2 hw
    obtain ⟨hw, h2⟩ := wf2 hw
    obtain ⟨h0, h1⟩ := wf2 hw
    have D : ∀ w, Word32 w 0x31 stl ∧ fld w 10 6 = d ∧ fld w 16 6 = a ∧ fld w 22 6 = b ∧ fld w 28 3 = 5 ∧ fld w 31 1 = b2n dbl → decodeWord w = .ok (.atomMaxBlk dbl d a b stl) := fun w f => by
      obtain ⟨f, g1, g2, g3, g4, g5⟩ := f
      refine (dec31 f.maj).trans ?_
      simp only [decMaj31, f.stl, g1, g2, g3, g4, g5, b2n_eq_one]
    have f : Word32 (enAt 0x50000063 dbl d a b stl) 0x31 stl ∧ fld (enAt 0x50000063 dbl d a b stl) 10 6 = d ∧ fld (enAt 0x50000063 dbl d a b stl) 16 6 = a ∧ fld (enAt 0x50000063 dbl d a b stl) 22 6 = b ∧ fld (enAt 0x50000063 dbl d a b stl) 28 3 = 5 ∧ fld (enAt 0x50000063 dbl d a b stl) 31 1 = b2n dbl := fA (maj := 0x31) (k := 5) dbl rfl (by decide) (by decide) (lt_reg h0) (lt_reg h1) (lt_reg h2) (lt_stl h3)
    exact ⟨f.1, by decide, D _ f⟩

theorem atomSwapBlk (dbl : Bool) (d : Nat) (a : Nat) (b : Nat) (stl : Nat) : RoundTrip.Statement (.atomSwapBlk dbl d a b stl) :=
  trip32 (w := enAt 0x60000063 dbl d a b stl) (maj := 0x31) (stl := stl) rfl rfl fun hw => by
    obtain ⟨hw, h3⟩ := wf2 hw
    obtain ⟨hw, h2⟩ := wf2 hw
    obtain ⟨h0, h1⟩ := wf2 hw
    have D : ∀ w, Word32 w 0x31 stl ∧ fld w 10 6 = d ∧ fld w 16 6 = a ∧ fld w 22 6 = b ∧ fld w 28 3 = 6 ∧ fld w 31 1 = b2n dbl → decodeWord w = .ok (.atomSwapBlk dbl d a b stl) := fun w f => by
      obtain ⟨f, g1, g2, g3, g4, g5⟩ := f
      refine (dec31 f.maj).trans ?_
      simp only [decMaj31, f.stl, g1, g2, g3, g4, g5, b2n_eq_one]
    have f : Word32 (enAt 0x60000063 dbl d a b stl) 0x31 stl ∧ fld (enAt 0x60000063 dbl d a b stl) 10 6 = d ∧ fld (enAt 0x60000063 dbl d a b stl) 16 6 = a ∧ fld (enAt 0x60000063 dbl d a b stl) 22 6 = b ∧ fld (enAt 0x60000063 dbl d a b stl) 28 3 = 6 ∧ fld (enAt 0x60000063 dbl d a b stl) 31 1 = b2n dbl := fA (maj := 0x31) (k := 6) dbl rfl (by decide) (by decide) (lt_reg h0) (lt_reg h1) (lt_reg h2) (lt_stl h3)
    exact ⟨f.1, by decide, D _ f⟩

theorem atomCasBlk (dbl : Bool) (d : Nat) (a : Nat) (b : Nat) (stl : Nat) : RoundTrip.Statement (.atomCasBlk dbl d a b stl) :=
  trip32 (w := enAt 0x70000063 dbl d a b stl) (maj := 0x31) (stl := stl) rfl rfl fun hw => by
    obtain ⟨hw, h3⟩ := wf2 hw
    obtain ⟨hw, h2⟩ := wf2 hw
    obtain ⟨h0, h1⟩ := wf2 hw
    have D : ∀ w, Word32 w 0x31 stl ∧ fld w 10 6 = d ∧ fld w 16 6 = a ∧ fld w 22 6 = b ∧ fld w 28 3 = 7 ∧ fld w 31 1 = b2n dbl → decodeWord w = .ok (.atomCasBlk dbl d a b stl) := fun w f => by
      obtain ⟨f, g1, g2, g3, g4, g5⟩ := f
      refine (dec31 f.maj).trans ?_
      simp only [decMaj31, f.stl, g1, g2, g3, g4, g5, b2n_eq_one]
    have f : Word32 (enAt 0x70000063 dbl d a b stl) 0x31 stl ∧ fld (enAt 0x70000063 dbl d a b stl) 10 6 = d ∧ fld (enAt 0x70000063 dbl d a b stl) 16 6 = a ∧ fld (enAt 0x70000063 dbl d a b stl) 22 6 = b ∧ fld (enAt 0x70000063 dbl d a b stl) 28 3 = 7 ∧ fld (enAt 0x70000063 dbl d a b stl) 31 1 = b2n dbl := fA (maj := 0x31) (k := 7) dbl rfl (by decide) (by decide) (lt_reg h0) (lt_reg h1) (lt_reg h2) (lt_stl h3)
    exact ⟨f.1, by decide, D _ f⟩

theorem atomAddCls (dbl : Bool) (d : Nat) (a : Nat) (b : Nat) (stl : Nat) : RoundTrip.Statement (.atomAddCls dbl d a b stl) :=
  trip32 (w := enAt 0x00000065 dbl d a b stl) (maj := 0x32) (stl := stl) rfl rfl fun hw => by
    obtain ⟨hw, h3⟩ := wf2 hw
    obtain ⟨hw, h2⟩ := wf2 hw
    obtain ⟨h0, h1⟩ := wf2 hw
    have D : ∀ w, Word32 w 0x32 stl ∧ fld w 10 6 = d ∧ fld w 16 6 = a ∧ fld w 22 6 = b ∧ fld w 28 3 = 0 ∧ fld w 31 1 = b2n dbl → decodeWord w = .ok (.atomAddCls dbl d a b stl) := fun w f => by
      obtain ⟨f, g1, g2, g3, g4, g5⟩ := f
      refine (dec32 f.maj).trans ?_
      simp only [decMaj32, f.stl, g1, g2, g3, g4, g5, b2n_eq_one]
    have f : Word32 (enAt 0x00000065 dbl d a b stl) 0x32 stl ∧ fld (enAt 0x00000065 dbl d a b stl) 10 6 = d ∧ fld (enAt 0x00000065 dbl d a b stl) 16 6 = a ∧ fld (enAt 0x00000065 dbl d a b stl) 22 6 = b ∧ fld (enAt 0x00000065 dbl d a b stl) 28 3 = 0 ∧ fld (enAt 0x00000065 dbl d a b stl) 31 1 = b2n dbl := fA (maj := 0x32) (k := 0) dbl rfl (by decide) (by decide) (lt_reg h0) (lt_reg h1) (lt_reg h2) (lt_stl h3)
    exact ⟨f.1, by decide, D _ f⟩

theorem atomAndCls (dbl : Bool) (d : Nat) (a : Nat) (b : Nat) (stl : Nat) : RoundTrip.Statement (.atomAndCls dbl d a b stl) :=
  trip32 (w := enAt 0x10000065 dbl d a b stl) (maj := 0x32) (stl := stl) rfl rfl fun hw => by
    obtain ⟨hw, h3⟩ := wf2 hw
    obtain ⟨hw, h2⟩ := wf2 hw
    obtain ⟨h0, h1⟩ := wf2 hw
    have D : ∀ w, Word32 w 0x32 stl ∧ fld w 10 6 = d ∧ fld w 16 6 = a ∧ fld w 22 6 = b ∧ fld w 28 3 = 1 ∧ fld w 31 1 = b2n dbl → decodeWord w = .ok (.atomAndCls dbl d a b stl) := fun w f => by
      obtain ⟨f, g1, g2, g3, g4, g5⟩ := f
      refine (dec32 f.maj).trans ?_
      simp only [decMaj32, f.stl, g1, g2, g3, g4, g5, b2n_eq_one]
    have f : Word32 (enAt 0x10000065 dbl d a b stl) 0x32 stl ∧ fld (enAt 0x10000065 dbl d a b stl) 10 6 = d ∧ fld (enAt 0x10000065 dbl d a b stl) 16 6 = a ∧ fld (enAt 0x10000065 dbl d a b stl) 22 6 = b ∧ fld (enAt 0x10000065 dbl d a b stl) 28 3 = 1 ∧ fld (enAt 0x10000065 dbl d a b stl) 31 1 = b2n dbl := fA (maj := 0x32) (k := 1) dbl rfl (by decide) (by decide) (lt_reg h0) (lt_reg h1) (lt_reg h2) (lt_stl h3)
    exact ⟨f.1, by decide, D _ f⟩

theorem atomOrCls (dbl : Bool) (d : Nat) (a : Nat) (b : Nat) (stl : Nat) : RoundTrip.Statement (.atomOrCls dbl d a b stl) :=
  trip32 (w := enAt 0x20000065 dbl d a b stl) (maj := 0x32) (stl := stl) rfl rfl fun hw => by
    obtain ⟨hw, h3⟩ := wf2 hw
    obtain ⟨hw, h2⟩ := wf2 hw
    obtain ⟨h0, h1⟩ := wf2 hw
    have D : ∀ w, Word32 w 0x32 stl ∧ fld w 10 6 = d ∧ fld w 16 6 = a ∧ fld w 22 6 = b ∧ fld w 28 3 = 2 ∧ fld w 31 1 = b2n dbl → decodeWord w = .ok (.atomOrCls dbl d a b stl) := fun w f => by
      obtain ⟨f, g1, g2, g3, g4, g5⟩ := f
      refine (dec32 f.maj).trans ?_
      simp only [decMaj32, f.stl, g1, g2, g3, g4, g5, b2n_eq_one]
    have f : Word32 (enAt 0x20000065 dbl d a b stl) 0x32 stl ∧ fld (enAt 0x20000065 dbl d a b stl) 10 6 = d ∧ fld (enAt 0x20000065 dbl d a b stl) 16 6 = a ∧ fld (enAt 0x20000065 dbl d a b stl) 22 6 = b ∧ fld (enAt 0x20000065 dbl d a b stl) 28 3 = 2 ∧ fld (enAt 0x20000065 dbl d a b stl) 31 1 = b2n dbl := fA (maj := 0x32) (k := 2) dbl rfl (by decide) (by decide) (lt_reg h0) (lt_reg h1) (lt_reg h2) (lt_stl h3)
    exact ⟨f.1, by decide, D _ f⟩

theorem atomXorCls (dbl : Bool) (d : Nat) (a : Nat) (b : Nat) (stl : Nat) : RoundTrip.Statement (.atomXorCls dbl d a b stl) :=
  trip32 (w := enAt 0x30000065 dbl d a b stl) (maj := 0x32) (stl := stl) rfl rfl fun hw => by
    obtain ⟨hw, h3⟩ := wf2 hw
    obtain ⟨hw, h2⟩ := wf2 hw
    obtain ⟨h0, h1⟩ := wf2 hw
    have D : ∀ w, Word32 w 0x32 stl ∧ fld w 10 6 = d ∧ fld w 16 6 = a ∧ fld w 22 6 = b ∧ fld w 28 3 = 3 ∧ fld w 31 1 = b2n dbl → decodeWord w = .ok (.atomXorCls dbl d a b stl) := fun w f => by
      obtain ⟨f, g1, g2, g3, g4, g5⟩ := f
      refine (dec32 f.maj).trans ?_
      simp only [decMaj32, f.stl, g1, g2, g3, g4, g5, b2n_eq_one]
    have f : Word32 (enAt 0x30000065 dbl d a b stl) 0x32 stl ∧ fld (enAt 0x30000065 dbl d a b stl) 10 6 = d ∧ fld (enAt 0x30000065 dbl d a b stl) 16 6 = a ∧ fld (enAt 0x30000065 dbl d a b stl) 22 6 = b ∧ fld (enAt 0x30000065 dbl d a b stl) 28 3 = 3 ∧ fld (enAt 0x30000065 dbl d a b stl) 31 1 = b2n dbl := fA (maj := 0x32) (k := 3) dbl rfl (by decide) (by decide) (lt_reg h0) (lt_reg h1) (lt_reg h2) (lt_stl h3)
    exact ⟨f.1, by decide, D _ f⟩

theorem atomMinCls (dbl : Bool) (d : Nat) (a : Nat) (b : Nat) (stl : Nat) : RoundTrip.Statement (.atomMinCls dbl d a b stl) :=
  trip32 (w := enAt 0x40000065 dbl d a b stl) (maj := 0x32) (stl := stl) rfl rfl fun hw => by
    obtain ⟨hw, h3⟩ := wf2 hw
    obtain ⟨hw, h2⟩ := wf2 hw
    obtain ⟨h0, h1⟩ := wf2 hw
    have D : ∀ w, Word32 w 0x32 stl ∧ fld w 10 6 = d ∧ fld w 16 6 = a ∧ fld w 22 6 = b ∧ fld w 28 3 = 4 ∧ fld w 31 1 = b2n dbl → decodeWord w = .ok (.atomMinCls dbl d a b stl) := fun w f => by
      obtain ⟨f, g1, g2, g3, g4, g5⟩ := f
      refine (dec32 f.maj).trans ?_
      simp only [decMaj32, f.stl, g1, g2, g3, g4, g5, b2n_eq_one]
    have f : Word32 (enAt 0x40000065 dbl d a b stl) 0x32 stl ∧ fld (enAt 0x40000065 dbl d a b stl) 10 6 = d ∧ fld (enAt 0x40000065 dbl d a b stl) 16 6 = a ∧ fld (enAt 0x40000065 dbl d a b stl) 22 6 = b ∧ fld (enAt 0x40000065 dbl d a b stl) 28 3 = 4 ∧ fld (enAt 0x40000065 dbl d a b stl) 31 1 = b2n dbl := fA (maj := 0x32) (k := 4) dbl rfl (by decide) (by decide) (lt_reg h0) (lt_reg h1) (lt_reg h2) (lt_stl h3)
    exact ⟨f.1, by decide, D _ f⟩

theorem atomMaxCls (dbl : Bool) (d : Nat) (a : Nat) (b : Nat) (stl : Nat) : RoundTrip.Statement (.atomMaxCls dbl d a b stl) :=
  trip32 (w := enAt 0x50000065 dbl d a b stl) (maj := 0x32) (stl := stl) rfl rfl fun hw => by
    obtain ⟨hw, h3⟩ := wf2 hw
    obtain ⟨hw, h2⟩ := wf2 hw
    obtain ⟨h0, h1⟩ := wf2 hw
    have D : ∀ w, Word32 w 0x32 stl ∧ fld w 10 6 = d ∧ fld w 16 6 = a ∧ fld w 22 6 = b ∧ fld w 28 3 = 5 ∧ fld w 31 1 = b2n dbl → decodeWord w = .ok (.atomMaxCls dbl d a b stl) := fun w f => by
      obtain ⟨f, g1, g2, g3, g4, g5⟩ := f
      refine (dec32 f.maj).trans ?_
      simp only [decMaj32, f.stl, g1, g2, g3, g4, g5, b2n_eq_one]
    have f : Word32 (enAt 0x50000065 dbl d a b stl) 0x32 stl ∧ fld (enAt 0x50000065 dbl d a b stl) 10 6 = d ∧ fld (enAt 0x50000065 dbl d a b stl) 16 6 = a ∧ fld (enAt 0x50000065 dbl d a b stl) 22 6 = b ∧ fld (enAt 0x50000065 dbl d a b stl) 28 3 = 5 ∧ fld (enAt 0x50000065 dbl d a b stl) 31 1 = b2n dbl := fA (maj := 0x32) (k := 5) dbl rfl (by decide) (by decide) (lt_reg h0) (lt_reg h1) (lt_reg h2) (lt_stl h3)
    exact ⟨f.1, by decide, D _ f⟩

theorem atomSwapCls (dbl : Bool) (d : Nat) (a : Nat) (b : Nat) (stl : Nat) : RoundTrip.Statement (.atomSwapCls dbl d a b stl) :=
  trip32 (w := enAt 0x60000065 dbl d a b stl) (maj := 0x32) (stl := stl) rfl rfl fun hw => by
    obtain ⟨hw, h3⟩ := wf2 hw
    obtain ⟨hw, h2⟩ := wf2 hw
    obtain ⟨h0, h1⟩ := wf2 hw
    have D : ∀ w, Word32 w 0x32 stl ∧ fld w 10 6 = d ∧ fld w 16 6 = a ∧ fld w 22 6 = b ∧ fld w 28 3 = 6 ∧ fld w 31 1 = b2n dbl → decodeWord w = .ok (.atomSwapCls dbl d a b stl) := fun w f => by
      obtain ⟨f, g1, g2, g3, g4, g5⟩ := f
      refine (dec32 f.maj).trans ?_
      simp only [decMaj32, f.stl, g1, g2, g3, g4, g5, b2n_eq_one]
    have f : Word32 (enAt 0x60000065 dbl d a b stl) 0x32 stl ∧ fld (enAt 0x60000065 dbl d a b stl) 10 6 = d ∧ fld (enAt 0x60000065 dbl d a b stl) 16 6 = a ∧ fld (enAt 0x60000065 dbl d a b stl) 22 6 = b ∧ fld (enAt 0x60000065 dbl d a b stl) 28 3 = 6 ∧ fld (enAt 0x60000065 dbl d a b stl) 31 1 = b2n dbl := fA (maj := 0x32) (k := 6) dbl rfl (by decide) (by decide) (lt_reg h0) (lt_reg h1) (lt_reg h2) (lt_stl h3)
    exact ⟨f.1, by decide, D _ f⟩

theorem atomCasCls (dbl : Bool) (d : Nat) (a : Nat) (b : Nat) (stl : Nat) : RoundTrip.Statement (.atomCasCls dbl d a b stl) :=
  trip32 (w := enAt 0x70000065 dbl d a b stl) (maj := 0x32) (stl := stl) rfl rfl fun hw => by
    obtain ⟨hw, h3⟩ := wf2 hw
    obtain ⟨hw, h2⟩ := wf2 hw
    obtain ⟨h0, h1⟩ := wf2 hw
    have D : ∀ w, Word32 w 0x32 stl ∧ fld w 10 6 = d ∧ fld w 16 6 = a ∧ fld w 22 6 = b ∧ fld w 28 3 = 7 ∧ fld w 31 1 = b2n dbl → decodeWord w = .ok (.atomCasCls dbl d a b stl) := fun w f => by
      obtain ⟨f, g1, g2, g3, g4, g5⟩ := f
      refine (dec32 f.maj).trans ?_
      simp only [decMaj32, f.stl, g1, g2, g3, g4, g5, b2n_eq_one]
    have f : Word32 (enAt 0x70000065 dbl d a b stl) 0x32 stl ∧ fld (enAt 0x70000065 dbl d a b stl) 10 6 = d ∧ fld (enAt 0x70000065 dbl d a b stl) 16 6 = a ∧ fld (enAt 0x70000065 dbl d a b stl) 22 6 = b ∧ fld (enAt 0x70000065 dbl d a b stl) 28 3 = 7 ∧ fld (enAt 0x70000065 dbl d a b stl) 31 1 = b2n dbl := fA (maj := 0x32) (k := 7) dbl rfl (by decide) (by decide) (lt_reg h0) (lt_reg h1) (lt_reg h2) (lt_stl h3)
    exact ⟨f.1, by decide, D _ f⟩

theorem atomAddDev (dbl : Bool) (d : Nat) (a : Nat) (b : Nat) (stl : Nat) : RoundTrip.Statement (.atomAddDev dbl d a b stl) :=
  trip32 (w := enAt 0x00000067 dbl d a b stl) (maj := 0x33) (stl := stl) rfl rfl fun hw => by
    obtain ⟨hw, h3⟩ := wf2 hw
    obtain ⟨hw, h2⟩ := wf2 hw
    obtain ⟨h0, h1⟩ := wf2 hw
    have D : ∀ w, Word32 w 0x33 stl ∧ fld w 10 6 = d ∧ fld w 16 6 = a ∧ fld w 22 6 = b ∧ fld w 28 3 = 0 ∧ fld w 31 1 = b2n dbl → decodeWord w = .ok (.atomAddDev dbl d a b stl) := fun w f => by
      obtain ⟨f, g1, g2, g3, g4, g5⟩ := f
      refine (dec33 f.maj).trans ?_
      simp only [decMaj33, f.stl, g1, g2, g3, g4, g5, b2n_eq_one]
    have f : Word32 (enAt 0x00000067 dbl d a b stl) 0x33 stl ∧ fld (enAt 0x00000067 dbl d a b stl) 10 6 = d ∧ fld (enAt 0x00000067 dbl d a b stl) 16 6 = a ∧ fld (enAt 0x00000067 dbl d a b stl) 22 6 = b ∧ fld (enAt 0x00000067 dbl d a b stl) 28 3 = 0 ∧ fld (enAt 0x00000067 dbl d a b stl) 31 1 = b2n dbl := fA (maj := 0x33) (k := 0) dbl rfl (by decide) (by decide) (lt_reg h0) (lt_reg h1) (lt_reg h2) (lt_stl h3)
    exact ⟨f.1, by decide, D _ f⟩

theorem atomAndDev (dbl : Bool) (d : Nat) (a : Nat) (b : Nat) (stl : Nat) : RoundTrip.Statement (.atomAndDev dbl d a b stl) :=
  trip32 (w := enAt 0x10000067 dbl d a b stl) (maj := 0x33) (stl := stl) rfl rfl fun hw => by
    obtain ⟨hw, h3⟩ := wf2 hw
    obtain ⟨hw, h2⟩ := wf2 hw
    obtain ⟨h0, h1⟩ := wf2 hw
    have D : ∀ w, Word32 w 0x33 stl ∧ fld w 10 6 = d ∧ fld w 16 6 = a ∧ fld w 22 6 = b ∧ fld w 28 3 = 1 ∧ fld w 31 1 = b2n dbl → decodeWord w = .ok (.atomAndDev dbl d a b stl) := fun w f => by
      obtain ⟨f, g1, g2, g3, g4, g5⟩ := f
      refine (dec33 f.maj).trans ?_
      simp only [decMaj33, f.stl, g1, g2, g3, g4, g5, b2n_eq_one]
    have f : Word32 (enAt 0x10000067 dbl d a b stl) 0x33 stl ∧ fld (enAt 0x10000067 dbl d a b stl) 10 6 = d ∧ fld (enAt 0x10000067 dbl d a b stl) 16 6 = a ∧ fld (enAt 0x10000067 dbl d a b stl) 22 6 = b ∧ fld (enAt 0x10000067 dbl d a b stl) 28 3 = 1 ∧ fld (enAt 0x10000067 dbl d a b stl) 31 1 = b2n dbl := fA (maj := 0x33) (k := 1) dbl rfl (by decide) (by decide) (lt_reg h0) (lt_reg h1) (lt_reg h2) (lt_stl h3)
    exact ⟨f.1, by decide, D _ f⟩

theorem atomOrDev (dbl : Bool) (d : Nat) (a : Nat) (b : Nat) (stl : Nat) : RoundTrip.Statement (.atomOrDev dbl d a b stl) :=
  trip32 (w := enAt 0x20000067 dbl d a b stl) (maj := 0x33) (stl := stl) rfl rfl fun hw => by
    obtain ⟨hw, h3⟩ := wf2 hw
    obtain ⟨hw, h2⟩ := wf2 hw
    obtain ⟨h0, h1⟩ := wf2 hw
    have D : ∀ w, Word32 w 0x33 stl ∧ fld w 10 6 = d ∧ fld w 16 6 = a ∧ fld w 22 6 = b ∧ fld w 28 3 = 2 ∧ fld w 31 1 = b2n dbl → decodeWord w = .ok (.atomOrDev dbl d a b stl) := fun w f => by
      obtain ⟨f, g1, g2, g3, g4, g5⟩ := f
      refine (dec33 f.maj).trans ?_
      simp only [decMaj33, f.stl, g1, g2, g3, g4, g5, b2n_eq_one]
    have f : Word32 (enAt 0x20000067 dbl d a b stl) 0x33 stl ∧ fld (enAt 0x20000067 dbl d a b stl) 10 6 = d ∧ fld (enAt 0x20000067 dbl d a b stl) 16 6 = a ∧ fld (enAt 0x20000067 dbl d a b stl) 22 6 = b ∧ fld (enAt 0x20000067 dbl d a b stl) 28 3 = 2 ∧ fld (enAt 0x20000067 dbl d a b stl) 31 1 = b2n dbl := fA (maj := 0x33) (k := 2) dbl rfl (by decide) (by decide) (lt_reg h0) (lt_reg h1) (lt_reg h2) (lt_stl h3)
    exact ⟨f.1, by decide, D _ f⟩

theorem atomXorDev (dbl : Bool) (d : Nat) (a : Nat) (b : Nat) (stl : Nat) : RoundTrip.Statement (.atomXorDev dbl d a b stl) :=
  trip32 (w := enAt 0x30000067 dbl d a b stl) (maj := 0x33) (stl := stl) rfl rfl fun hw => by
    obtain ⟨hw, h3⟩ := wf2 hw
    obtain ⟨hw, h2⟩ := wf2 hw
    obtain ⟨h0, h1⟩ := wf2 hw
    have D : ∀ w, Word32 w 0x33 stl ∧ fld w 10 6 = d ∧ fld w 16 6 = a ∧ fld w 22 6 = b ∧ fld w 28 3 = 3 ∧ fld w 31 1 = b2n dbl → decodeWord w = .ok (.atomXorDev dbl d a b stl) := fun w f => by
      obtain ⟨f, g1, g2, g3, g4, g5⟩ := f
      refine (dec33 f.maj).trans ?_
      simp only [decMaj33, f.stl, g1, g2, g3, g4, g5, b2n_eq_one]
    have f : Word32 (enAt 0x30000067 dbl d a b stl) 0x33 stl ∧ fld (enAt 0x30000067 dbl d a b stl) 10 6 = d ∧ fld (enAt 0x30000067 dbl d a b stl) 16 6 = a ∧ fld (enAt 0x30000067 dbl d a b stl) 22 6 = b ∧ fld (enAt 0x30000067 dbl d a b stl) 28 3 = 3 ∧ fld (enAt 0x30000067 dbl d a b stl) 31 1 = b2n dbl := fA (maj := 0x33) (k := 3) dbl rfl (by decide) (by decide) (lt_reg h0) (lt_reg h1) (lt_reg h2) (lt_stl h3)
    exact ⟨f.1, by decide, D _ f⟩

theorem atomMinDev (dbl : Bool) (d : Nat) (a : Nat) (b : Nat) (stl : Nat) : RoundTrip.Statement (.atomMinDev dbl d a b stl) :=
  trip32 (w := enAt 0x40000067 dbl d a b stl) (maj := 0x33) (stl := stl) rfl rfl fun hw => by
    obtain ⟨hw, h3⟩ := wf2 hw
    obtain ⟨hw, h2⟩ := wf2 hw
    obtain ⟨h0, h1⟩ := wf2 hw
    have D : ∀ w, Word32 w 0x33 stl ∧ fld w 10 6 = d ∧ fld w 16 6 = a ∧ fld w 22 6 = b ∧ fld w 28 3 = 4 ∧ fld w 31 1 = b2n dbl → decodeWord w = .ok (.atomMinDev dbl d a b stl) := fun w f => by
      obtain ⟨f, g1, g2, g3, g4, g5⟩ := f
      refine (dec33 f.maj).trans ?_
      simp only [decMaj33, f.stl, g1, g2, g3, g4, g5, b2n_eq_one]
    have f : Word32 (enAt 0x40000067 dbl d a b stl) 0x33 stl ∧ fld (enAt 0x40000067 dbl d a b stl) 10 6 = d ∧ fld (enAt 0x40000067 dbl d a b stl) 16 6 = a ∧ fld (enAt 0x40000067 dbl d a b stl) 22 6 = b ∧ fld (enAt 0x40000067 dbl d a b stl) 28 3 = 4 ∧ fld (enAt 0x40000067 dbl d a b stl) 31 1 = b2n dbl := fA (maj := 0x33) (k := 4) dbl rfl (by decide) (by decide) (lt_reg h0) (lt_reg h1) (lt_reg h2) (lt_stl h3)
    exact ⟨f.1, by decide, D _ f⟩

theorem atomMaxDev (dbl : Bool) (d : Nat) (a : Nat) (b : Nat) (stl : Nat) : RoundTrip.Statement (.atomMaxDev dbl d a b stl) :=
  trip32 (w := enAt 0x50000067 dbl d a b stl) (maj := 0x33) (stl := stl) rfl rfl fun hw => by
    obtain ⟨hw, h3⟩ := wf2 hw
    obtain ⟨hw, h2⟩ := wf2 hw
    obtain ⟨h0, h1⟩ := wf2 hw
    have D : ∀ w, Word32 w 0x33 stl ∧ fld w 10 6 = d ∧ fld w 16 6 = a ∧ fld w 22 6 = b ∧ fld w 28 3 = 5 ∧ fld w 31 1 = b2n dbl → decodeWord w = .ok (.atomMaxDev dbl d a b stl) := fun w f => by
      obtain ⟨f, g1, g2, g3, g4, g5⟩ := f
      refine (dec33 f.maj).trans ?_
      simp only [decMaj33, f.stl, g1, g2, g3, g4, g5, b2n_eq_one]
    have f : Word32 (enAt 0x50000067 dbl d a b stl) 0x33 stl ∧ fld (enAt 0x50000067 dbl d a b stl) 10 6 = d ∧ fld (enAt 0x50000067 dbl d a b stl) 16 6 = a ∧ fld (enAt 0x50000067 dbl d a b stl) 22 6 = b ∧ fld (enAt 0x50000067 dbl d a b stl) 28 3 = 5 ∧ fld (enAt 0x50000067 dbl d a b stl) 31 1 = b2n dbl := fA (maj := 0x33) (k := 5) dbl rfl (by decide) (by decide) (lt_reg h0) (lt_reg h1) (lt_reg h2) (lt_stl h3)
    exact ⟨f.1, by decide, D _ f⟩

theorem atomSwapDev (dbl : Bool) (d : Nat) (a : Nat) (b : Nat) (stl : Nat) : RoundTrip.Statement (.atomSwapDev dbl d a b stl) :=
  trip32 (w := enAt 0x60000067 dbl d a b stl) (maj := 0x33) (stl := stl) rfl rfl fun hw => by
    obtain ⟨hw, h3⟩ := wf2 hw
    obtain ⟨hw, h2⟩ := wf2 hw
    obtain ⟨h0, h1⟩ := wf2 hw
    have D : ∀ w, Word32 w 0x33 stl ∧ fld w 10 6 = d ∧ fld w 16 6 = a ∧ fld w 22 6 = b ∧ fld w 28 3 = 6 ∧ fld w 31 1 = b2n dbl → decodeWord w = .ok (.atomSwapDev dbl d a b stl) := fun w f => by
      obtain ⟨f, g1, g2, g3, g4, g5⟩ := f
      refine (dec33 f.maj).trans ?_
      simp only [decMaj33, f.stl, g1, g2, g3, g4, g5, b2n_eq_one]
    have f : Word32 (enAt 0x60000067 dbl d a b stl) 0x33 stl ∧ fld (enAt 0x60000067 dbl d a b stl) 10 6 = d ∧ fld (enAt 0x60000067 dbl d a b stl) 16 6 = a ∧ fld (enAt 0x60000067 dbl d a b stl) 22 6 = b ∧ fld (enAt 0x60000067 dbl d a b stl) 28 3 = 6 ∧ fld (enAt 0x60000067 dbl d a b stl) 31 1 = b2n dbl := fA (maj := 0x33) (k := 6) dbl rfl (by decide) (by decide) (lt_reg h0) (lt_reg h1) (lt_reg h2) (lt_stl h3)
    exact ⟨f.1, by decide, D _ f⟩

theorem atomCasDev (dbl : Bool) (d : Nat) (a : Nat) (b : Nat) (stl : Nat) : RoundTrip.Statement (.atomCasDev dbl d a b stl) :=
  trip32 (w := enAt 0x70000067 dbl d a b stl) (maj := 0x33) (stl := stl) rfl rfl fun hw => by
    obtain ⟨hw, h3⟩ := wf2 hw
    obtain ⟨hw, h2⟩ := wf2 hw
    obtain ⟨h0, h1⟩ := wf2 hw
    have D : ∀ w, Word32 w 0x33 stl ∧ fld w 10 6 = d ∧ fld w 16 6 = a ∧ fld w 22 6 = b ∧ fld w 28 3 = 7 ∧ fld w 31 1 = b2n dbl → decodeWord w = .ok (.atomCasDev dbl d a b stl) := fun w f => by
      obtain ⟨f, g1, g2, g3, g4, g5⟩ := f
      refine (dec33 f.maj).trans ?_
      simp only [decMaj33, f.stl, g1, g2, g3, g4, g5, b2n_eq_one]
    have f : Word32 (enAt 0x70000067 dbl d a b stl) 0x33 stl ∧ fld (enAt 0x70000067 dbl d a b stl) 10 6 = d ∧ fld (enAt 0x70000067 dbl d a b stl) 16 6 = a ∧ fld (enAt 0x70000067 dbl d a b stl) 22 6 = b ∧ fld (enAt 0x70000067 dbl d a b stl) 28 3 = 7 ∧ fld (enAt 0x70000067 dbl d a b stl) 31 1 = b2n dbl := fA (maj := 0x33) (k := 7) dbl rfl (by decide) (by decide) (lt_reg h0) (lt_reg h1) (lt_reg h2) (lt_stl h3)
    exact ⟨f.1, by decide, D _ f⟩

theorem atomAddSys (dbl : Bool) (d : Nat) (a : Nat) (b : Nat) (stl : Nat) : RoundTrip.Statement (.atomAddSys dbl d a b stl) :=
  trip32 (w := enAt 0x00000069 dbl d a b stl) (maj := 0x34) (stl := stl) rfl rfl fun hw => by
    obtain ⟨hw, h3⟩ := wf2 hw
    obtain ⟨hw, h2⟩ := wf2 hw
    obtain ⟨h0, h1⟩ := wf2 hw
    have D : ∀ w, Word32 w 0x34 stl ∧ fld w 10 6 = d ∧ fld w 16 6 = a ∧ fld w 22 6 = b ∧ fld w 28 3 = 0 ∧ fld w 31 1 = b2n dbl → decodeWord w = .ok (.atomAddSys dbl d a b stl) := fun w f => by
      obtain ⟨f, g1, g2, g3, g4, g5⟩ := f
      refine (dec34 f.maj).trans ?_
      simp only [decMaj34, f.stl, g1, g2, g3, g4, g5, b2n_eq_one]
    have f : Word32 (enAt 0x00000069 dbl d a b stl) 0x34 stl ∧ fld (enAt 0x00000069 dbl d a b stl) 10 6 = d ∧ fld (enAt 0x00000069 dbl d a b stl) 16 6 = a ∧ fld (enAt 0x00000069 dbl d a b stl) 22 6 = b ∧ fld (enAt 0x00000069 dbl d a b stl) 28 3 = 0 ∧ fld (enAt 0x00000069 dbl d a b stl) 31 1 = b2n dbl := fA (maj := 0x34) (k := 0) dbl rfl (by decide) (by decide) (lt_reg h0) (lt_reg h1) (lt_reg h2) (lt_stl h3)
    exact ⟨f.1, by decide, D _ f⟩

theorem atomAndSys (dbl : Bool) (d : Nat) (a : Nat) (b : Nat) (stl : Nat) : RoundTrip.Statement (.atomAndSys dbl d a b stl) :=
  trip32 (w := enAt 0x10000069 dbl d a b stl) (maj := 0x34) (stl := stl) rfl rfl fun hw => by
    obtain ⟨hw, h3⟩ := wf2 hw
    obtain ⟨hw, h2⟩ := wf2 hw
    obtain ⟨h0, h1⟩ := wf2 hw
    have D : ∀ w, Word32 w 0x34 stl ∧ fld w 10 6 = d ∧ fld w 16 6 = a ∧ fld w 22 6 = b ∧ fld w 28 3 = 1 ∧ fld w 31 1 = b2n dbl → decodeWord w = .ok (.atomAndSys dbl d a b stl) := fun w f => by
      obtain ⟨f, g1, g2, g3, g4, g5⟩ := f
      refine (dec34 f.maj).trans ?_
      simp only [decMaj34, f.stl, g1, g2, g3, g4, g5, b2n_eq_one]
    have f : Word32 (enAt 0x10000069 dbl d a b stl) 0x34 stl ∧ fld (enAt 0x10000069 dbl d a b stl) 10 6 = d ∧ fld (enAt 0x10000069 dbl d a b stl) 16 6 = a ∧ fld (enAt 0x10000069 dbl d a b stl) 22 6 = b ∧ fld (enAt 0x10000069 dbl d a b stl) 28 3 = 1 ∧ fld (enAt 0x10000069 dbl d a b stl) 31 1 = b2n dbl := fA (maj := 0x34) (k := 1) dbl rfl (by decide) (by decide) (lt_reg h0) (lt_reg h1) (lt_reg h2) (lt_stl h3)
    exact ⟨f.1, by decide, D _ f⟩

theorem atomOrSys (dbl : Bool) (d : Nat) (a : Nat) (b : Nat) (stl : Nat) : RoundTrip.Statement (.atomOrSys dbl d a b stl) :=
  trip32 (w := enAt 0x20000069 dbl d a b stl) (maj := 0x34) (stl := stl) rfl rfl fun hw => by
    obtain ⟨hw, h3⟩ := wf2 hw
    obtain ⟨hw, h2⟩ := wf2 hw
    obtain ⟨h0, h1⟩ := wf2 hw
    have D : ∀ w, Word32 w 0x34 stl ∧ fld w 10 6 = d ∧ fld w 16 6 = a ∧ fld w 22 6 = b ∧ fld w 28 3 = 2 ∧ fld w 31 1 = b2n dbl → decodeWord w = .ok (.atomOrSys dbl d a b stl) := fun w f => by
      obtain ⟨f, g1, g2, g3, g4, g5⟩ := f
      refine (dec34 f.maj).trans ?_
      simp only [decMaj34, f.stl, g1, g2, g3, g4, g5, b2n_eq_one]
    have f : Word32 (enAt 0x20000069 dbl d a b stl) 0x34 stl ∧ fld (enAt 0x20000069 dbl d a b stl) 10 6 = d ∧ fld (enAt 0x20000069 dbl d a b stl) 16 6 = a ∧ fld (enAt 0x20000069 dbl d a b stl) 22 6 = b ∧ fld (enAt 0x20000069 dbl d a b stl) 28 3 = 2 ∧ fld (enAt 0x20000069 dbl d a b stl) 31 1 = b2n dbl := fA (maj := 0x34) (k := 2) dbl rfl (by decide) (by decide) (lt_reg h0) (lt_reg h1) (lt_reg h2) (lt_stl h3)
    exact ⟨f.1, by decide, D _ f⟩

theorem atomXorSys (dbl : Bool) (d : Nat) (a : Nat) (b : Nat) (stl : Nat) : RoundTrip.Statement (.atomXorSys dbl d a b stl) :=
  trip32 (w := enAt 0x30000069 dbl d a b stl) (maj := 0x34) (stl := stl) rfl rfl fun hw => by
    obtain ⟨hw, h3⟩ := wf2 hw
    obtain ⟨hw, h2⟩ := wf2 hw
    obtain ⟨h0, h1⟩ := wf2 hw
    have D : ∀ w, Word32 w 0x34 stl ∧ fld w 10 6 = d ∧ fld w 16 6 = a ∧ fld w 22 6 = b ∧ fld w 28 3 = 3 ∧ fld w 31 1 = b2n dbl → decodeWord w = .ok (.atomXorSys dbl d a b stl) := fun w f => by
      obtain ⟨f, g1, g2, g3, g4, g5⟩ := f
      refine (dec34 f.maj).trans ?_
      simp only [decMaj34, f.stl, g1, g2, g3, g4, g5, b2n_eq_one]
    have f : Word32 (enAt 0x30000069 dbl d a b stl) 0x34 stl ∧ fld (enAt 0x30000069 dbl d a b stl) 10 6 = d ∧ fld (enAt 0x30000069 dbl d a b stl) 16 6 = a ∧ fld (enAt 0x30000069 dbl d a b stl) 22 6 = b ∧ fld (enAt 0x30000069 dbl d a b stl) 28 3 = 3 ∧ fld (enAt 0x30000069 dbl d a b stl) 31 1 = b2n dbl := fA (maj := 0x34) (k := 3) dbl rfl (by decide) (by decide) (lt_reg h0) (lt_reg h1) (lt_reg h2) (lt_stl h3)
    exact ⟨f.1, by decide, D _ f⟩

theorem atomMinSys (dbl : Bool) (d : Nat) (a : Nat) (b : Nat) (stl : Nat) : RoundTrip.Statement (.atomMinSys dbl d a b stl) :=
  trip32 (w := enAt 0x40000069 dbl d a b stl) (maj := 0x34) (stl := stl) rfl rfl fun hw => by
    obtain ⟨hw, h3⟩ := wf2 hw
    obtain ⟨hw, h2⟩ := wf2 hw
    obtain ⟨h0, h1⟩ := wf2 hw
    have D : ∀ w, Word32 w 0x34 stl ∧ fld w 10 6 = d ∧ fld w 16 6 = a ∧ fld w 22 6 = b ∧ fld w 28 3 = 4 ∧ fld w 31 1 = b2n dbl → decodeWord w = .ok (.atomMinSys dbl d a b stl) := fun w f => by
      obtain ⟨f, g1, g2, g3, g4, g5⟩ := f
      refine (dec34 f.maj).trans ?_
      simp only [decMaj34, f.stl, g1, g2, g3, g4, g5, b2n_eq_one]
    have f : Word32 (enAt 0x40000069 dbl d a b stl) 0x34 stl ∧ fld (enAt 0x40000069 dbl d a b stl) 10 6 = d ∧ fld (enAt 0x40000069 dbl d a b stl) 16 6 = a ∧ fld (enAt 0x40000069 dbl d a b stl) 22 6 = b ∧ fld (enAt 0x40000069 dbl d a b stl) 28 3 = 4 ∧ fld (enAt 0x40000069 dbl d a b stl) 31 1 = b2n dbl := fA (maj := 0x34) (k := 4) dbl rfl (by decide) (by decide) (lt_reg h0) (lt_reg h1) (lt_reg h2) (lt_stl h3)
    exact ⟨f.1, by decide, D _ f⟩

theorem atomMaxSys (dbl : Bool) (d : Nat) (a : Nat) (b : Nat) (stl : Nat) : RoundTrip.Statement (.atomMaxSys dbl d a b stl) :=
  trip32 (w := enAt 0x50000069 dbl d a b stl) (maj := 0x34) (stl := stl) rfl rfl fun hw => by
    obtain ⟨hw, h3⟩ := wf2 hw
    obtain ⟨hw, h2⟩ := wf2 hw
    obtain ⟨h0, h1⟩ := wf2 hw
    have D : ∀ w, Word32 w 0x34 stl ∧ fld w 10 6 = d ∧ fld w 16 6 = a ∧ fld w 22 6 = b ∧ fld w 28 3 = 5 ∧ fld w 31 1 = b2n dbl → decodeWord w = .ok (.atomMaxSys dbl d a b stl) := fun w f => by
      obtain ⟨f, g1, g2, g3, g4, g5⟩ := f
      refine (dec34 f.maj).trans ?_
      simp only [decMaj34, f.stl, g1, g2, g3, g4, g5, b2n_eq_one]
    have f : Word32 (enAt 0x50000069 dbl d a b stl) 0x34 stl ∧ fld (enAt 0x50000069 dbl d a b stl) 10 6 = d ∧ fld (enAt 0x50000069 dbl d a b stl) 16 6 = a ∧ fld (enAt 0x50000069 dbl d a b stl) 22 6 = b ∧ fld (enAt 0x50000069 dbl d a b stl) 28 3 = 5 ∧ fld (enAt 0x50000069 dbl d a b stl) 31 1 = b2n dbl := fA (maj := 0x34) (k := 5) dbl rfl (by decide) (by decide) (lt_reg h0) (lt_reg h1) (lt_reg h2) (lt_stl h3)
    exact ⟨f.1, by decide, D _ f⟩

theorem atomSwapSys (dbl : Bool) (d : Nat) (a : Nat) (b : Nat) (stl : Nat) : RoundTrip.Statement (.atomSwapSys dbl d a b stl) :=
  trip32 (w := enAt 0x60000069 dbl d a b stl) (maj := 0x34) (stl := stl) rfl rfl fun hw => by
    obtain ⟨hw, h3⟩ := wf2 hw
    obtain ⟨hw, h2⟩ := wf2 hw
    obtain ⟨h0, h1⟩ := wf2 hw
    have D : ∀ w, Word32 w 0x34 stl ∧ fld w 10 6 = d ∧ fld w 16 6 = a ∧ fld w 22 6 = b ∧ fld w 28 3 = 6 ∧ fld w 31 1 = b2n dbl → decodeWord w = .ok (.atomSwapSys dbl d a b stl) := fun w f => by
      obtain ⟨f, g1, g2, g3, g4, g5⟩ := f
      refine (dec34 f.maj).trans ?_
      simp only [decMaj34, f.stl, g1, g2, g3, g4, g5, b2n_eq_one]
    have f : Word32 (enAt 0x60000069 dbl d a b stl) 0x34 stl ∧ fld (enAt 0x60000069 dbl d a b stl) 10 6 = d ∧ fld (enAt 0x60000069 dbl d a b stl) 16 6 = a ∧ fld (enAt 0x60000069 dbl d a b stl) 22 6 = b ∧ fld (enAt 0x60000069 dbl d a b stl) 28 3 = 6 ∧ fld (enAt 0x60000069 dbl d a b stl) 31 1 = b2n dbl := fA (maj := 0x34) (k := 6) dbl rfl (by decide) (by decide) (lt_reg h0) (lt_reg h1) (lt_reg h2) (lt_stl h3)
    exact ⟨f.1, by decide, D _ f⟩

theorem atomCasSys (dbl : Bool) (d : Nat) (a : Nat) (b : Nat) (stl : Nat) : RoundTrip.Statement (.atomCasSys dbl d a b stl) :=
  trip32 (w := enAt 0x70000069 dbl d a b stl) (maj := 0x34) (stl := stl) rfl rfl fun hw => by
    obtain ⟨hw, h3⟩ := wf2 hw
    obtain ⟨hw, h2⟩ := wf2 hw
    obtain ⟨h0, h1⟩ := wf2 hw
    have D : ∀ w, Word32 w 0x34 stl ∧ fld w 10 6 = d ∧ fld w 16 6 = a ∧ fld w 22 6 = b ∧ fld w 28 3 = 7 ∧ fld w 31 1 = b2n dbl → decodeWord w = .ok (.atomCasSys dbl d a b stl) := fun w f => by
      obtain ⟨f, g1, g2, g3, g4, g5⟩ := f
      refine (dec34 f.maj).trans ?_
      simp only [decMaj34, f.stl, g1, g2, g3, g4, g5, b2n_eq_one]
    have f : Word32 (enAt 0x70000069 dbl d a b stl) 0x34 stl ∧ fld (enAt 0x70000069 dbl d a b stl) 10 6 = d ∧ fld (enAt 0x70000069 dbl d a b stl) 16 6 = a ∧ fld (enAt 0x70000069 dbl d a b stl) 22 6 = b ∧ fld (enAt 0x70000069 dbl d a b stl) 28 3 = 7 ∧ fld (enAt 0x70000069 dbl d a b stl) 31 1 = b2n dbl := fA (maj := 0x34) (k := 7) dbl rfl (by decide) (by decide) (lt_reg h0) (lt_reg h1) (lt_reg h2) (lt_stl h3)
    exact ⟨f.1, by decide, D _ f⟩

theorem redAddW (a : Nat) (b : Nat) (sc : AtScope) (stl : Nat) : RoundTrip.Statement (.redAddW a b sc stl) :=
  trip32 (w := enRed 0x0000006B a b sc stl) (maj := 0x35) (stl := stl) rfl rfl fun hw => by
    obtain ⟨hw, h2⟩ := wf2 hw
    obtain ⟨h0, h1⟩ := wf2 hw
    have D : ∀ w, Word32 w 0x35 stl ∧ fld w 10 4 = 0 ∧ fld w 14 2 = sc.code ∧ fld w 16 6 = a ∧ fld w 22 6 = b ∧ fld w 28 4 = 0 → decodeWord w = .ok (.redAddW a b sc stl) := fun w f => by
      obtain ⟨f, g1, g2, g3, g4, g5⟩ := f
      refine (dec35 f.maj).trans ?_
      simp only [needZero, if_true, decMaj35, f.stl, g1, g2, g3, g4, g5, ofCode_atScope]
    have f : Word32 (enRed 0x0000006B a b sc stl) 0x35 stl ∧ fld (enRed 0x0000006B a b sc stl) 10 4 = 0 ∧ fld (enRed 0x0000006B a b sc stl) 14 2 = sc.code ∧ fld (enRed 0x0000006B a b sc stl) 16 6 = a ∧ fld (enRed 0x0000006B a b sc stl) 22 6 = b ∧ fld (enRed 0x0000006B a b sc stl) 28 4 = 0 := fR (maj := 0x35) (k := 0) sc rfl (by decide) (by decide) (lt_reg h0) (lt_reg h1) (lt_stl h2)
    exact ⟨f.1, by decide, D _ f⟩

theorem redAddD (a : Nat) (b : Nat) (sc : AtScope) (stl : Nat) : RoundTrip.Statement (.redAddD a b sc stl) :=
  trip32 (w := enRed 0x0000046B a b sc stl) (maj := 0x35) (stl := stl) rfl rfl fun hw => by
    obtain ⟨hw, h2⟩ := wf2 hw
    obtain ⟨h0, h1⟩ := wf2 hw
    have D : ∀ w, Word32 w 0x35 stl ∧ fld w 10 4 = 1 ∧ fld w 14 2 = sc.code ∧ fld w 16 6 = a ∧ fld w 22 6 = b ∧ fld w 28 4 = 0 → decodeWord w = .ok (.redAddD a b sc stl) := fun w f => by
      obtain ⟨f, g1, g2, g3, g4, g5⟩ := f
      refine (dec35 f.maj).trans ?_
      simp only [needZero, if_true, decMaj35, f.stl, g1, g2, g3, g4, g5, ofCode_atScope]
    have f : Word32 (enRed 0x0000046B a b sc stl) 0x35 stl ∧ fld (enRed 0x0000046B a b sc stl) 10 4 = 1 ∧ fld (enRed 0x0000046B a b sc stl) 14 2 = sc.code ∧ fld (enRed 0x0000046B a b sc stl) 16 6 = a ∧ fld (enRed 0x0000046B a b sc stl) 22 6 = b ∧ fld (enRed 0x0000046B a b sc stl) 28 4 = 0 := fR (maj := 0x35) (k := 1) sc rfl (by decide) (by decide) (lt_reg h0) (lt_reg h1) (lt_stl h2)
    exact ⟨f.1, by decide, D _ f⟩

theorem redAndW (a : Nat) (b : Nat) (sc : AtScope) (stl : Nat) : RoundTrip.Statement (.redAndW a b sc stl) :=
  trip32 (w := enRed 0x0000086B a b sc stl) (maj := 0x35) (stl := stl) rfl rfl fun hw => by
    obtain ⟨hw, h2⟩ := wf2 hw
    obtain ⟨h0, h1⟩ := wf2 hw
    have D : ∀ w, Word32 w 0x35 stl ∧ fld w 10 4 = 2 ∧ fld w 14 2 = sc.code ∧ fld w 16 6 = a ∧ fld w 22 6 = b ∧ fld w 28 4 = 0 → decodeWord w = .ok (.redAndW a b sc stl) := fun w f => by
      obtain ⟨f, g1, g2, g3, g4, g5⟩ := f
      refine (dec35 f.maj).trans ?_
      simp only [needZero, if_true, decMaj35, f.stl, g1, g2, g3, g4, g5, ofCode_atScope]
    have f : Word32 (enRed 0x0000086B a b sc stl) 0x35 stl ∧ fld (enRed 0x0000086B a b sc stl) 10 4 = 2 ∧ fld (enRed 0x0000086B a b sc stl) 14 2 = sc.code ∧ fld (enRed 0x0000086B a b sc stl) 16 6 = a ∧ fld (enRed 0x0000086B a b sc stl) 22 6 = b ∧ fld (enRed 0x0000086B a b sc stl) 28 4 = 0 := fR (maj := 0x35) (k := 2) sc rfl (by decide) (by decide) (lt_reg h0) (lt_reg h1) (lt_stl h2)
    exact ⟨f.1, by decide, D _ f⟩

theorem redAndD (a : Nat) (b : Nat) (sc : AtScope) (stl : Nat) : RoundTrip.Statement (.redAndD a b sc stl) :=
  trip32 (w := enRed 0x00000C6B a b sc stl) (maj := 0x35) (stl := stl) rfl rfl fun hw => by
    obtain ⟨hw, h2⟩ := wf2 hw
    obtain ⟨h0, h1⟩ := wf2 hw
    have D : ∀ w, Word32 w 0x35 stl ∧ fld w 10 4 = 3 ∧ fld w 14 2 = sc.code ∧ fld w 16 6 = a ∧ fld w 22 6 = b ∧ fld w 28 4 = 0 → decodeWord w = .ok (.redAndD a b sc stl) := fun w f => by
      obtain ⟨f, g1, g2, g3, g4, g5⟩ := f
      refine (dec35 f.maj).trans ?_
      simp only [needZero, if_true, decMaj35, f.stl, g1, g2, g3, g4, g5, ofCode_atScope]
    have f : Word32 (enRed 0x00000C6B a b sc stl) 0x35 stl ∧ fld (enRed 0x00000C6B a b sc stl) 10 4 = 3 ∧ fld (enRed 0x00000C6B a b sc stl) 14 2 = sc.code ∧ fld (enRed 0x00000C6B a b sc stl) 16 6 = a ∧ fld (enRed 0x00000C6B a b sc stl) 22 6 = b ∧ fld (enRed 0x00000C6B a b sc stl) 28 4 = 0 := fR (maj := 0x35) (k := 3) sc rfl (by decide) (by decide) (lt_reg h0) (lt_reg h1) (lt_stl h2)
    exact ⟨f.1, by decide, D _ f⟩

theorem redOrW (a : Nat) (b : Nat) (sc : AtScope) (stl : Nat) : RoundTrip.Statement (.redOrW a b sc stl) :=
  trip32 (w := enRed 0x0000106B a b sc stl) (maj := 0x35) (stl := stl) rfl rfl fun hw => by
    obtain ⟨hw, h2⟩ := wf2 hw
    obtain ⟨h0, h1⟩ := wf2 hw
    have D : ∀ w, Word32 w 0x35 stl ∧ fld w 10 4 = 4 ∧ fld w 14 2 = sc.code ∧ fld w 16 6 = a ∧ fld w 22 6 = b ∧ fld w 28 4 = 0 → decodeWord w = .ok (.redOrW a b sc stl) := fun w f => by
      obtain ⟨f, g1, g2, g3, g4, g5⟩ := f
      refine (dec35 f.maj).trans ?_
      simp only [needZero, if_true, decMaj35, f.stl, g1, g2, g3, g4, g5, ofCode_atScope]
    have f : Word32 (enRed 0x0000106B a b sc stl) 0x35 stl ∧ fld (enRed 0x0000106B a b sc stl) 10 4 = 4 ∧ fld (enRed 0x0000106B a b sc stl) 14 2 = sc.code ∧ fld (enRed 0x0000106B a b sc stl) 16 6 = a ∧ fld (enRed 0x0000106B a b sc stl) 22 6 = b ∧ fld (enRed 0x0000106B a b sc stl) 28 4 = 0 := fR (maj := 0x35) (k := 4) sc rfl (by decide) (by decide) (lt_reg h0) (lt_reg h1) (lt_stl h2)
    exact ⟨f.1, by decide, D _ f⟩

theorem redOrD (a : Nat) (b : Nat) (sc : AtScope) (stl : Nat) : RoundTrip.Statement (.redOrD a b sc stl) :=
  trip32 (w := enRed 0x0000146B a b sc stl) (maj := 0x35) (stl := stl) rfl rfl fun hw => by
    obtain ⟨hw, h2⟩ := wf2 hw
    obtain ⟨h0, h1⟩ := wf2 hw
    have D : ∀ w, Word32 w 0x35 stl ∧ fld w 10 4 = 5 ∧ fld w 14 2 = sc.code ∧ fld w 16 6 = a ∧ fld w 22 6 = b ∧ fld w 28 4 = 0 → decodeWord w = .ok (.redOrD a b sc stl) := fun w f => by
      obtain ⟨f, g1, g2, g3, g4, g5⟩ := f
      refine (dec35 f.maj).trans ?_
      simp only [needZero, if_true, decMaj35, f.stl, g1, g2, g3, g4, g5, ofCode_atScope]
    have f : Word32 (enRed 0x0000146B a b sc stl) 0x35 stl ∧ fld (enRed 0x0000146B a b sc stl) 10 4 = 5 ∧ fld (enRed 0x0000146B a b sc stl) 14 2 = sc.code ∧ fld (enRed 0x0000146B a b sc stl) 16 6 = a ∧ fld (enRed 0x0000146B a b sc stl) 22 6 = b ∧ fld (enRed 0x0000146B a b sc stl) 28 4 = 0 := fR (maj := 0x35) (k := 5) sc rfl (by decide) (by decide) (lt_reg h0) (lt_reg h1) (lt_stl h2)
    exact ⟨f.1, by decide, D _ f⟩

theorem redXorW (a : Nat) (b : Nat) (sc : AtScope) (stl : Nat) : RoundTrip.Statement (.redXorW a b sc stl) :=
  trip32 (w := enRed 0x0000186B a b sc stl) (maj := 0x35) (stl := stl) rfl rfl fun hw => by
    obtain ⟨hw, h2⟩ := wf2 hw
    obtain ⟨h0, h1⟩ := wf2 hw
    have D : ∀ w, Word32 w 0x35 stl ∧ fld w 10 4 = 6 ∧ fld w 14 2 = sc.code ∧ fld w 16 6 = a ∧ fld w 22 6 = b ∧ fld w 28 4 = 0 → decodeWord w = .ok (.redXorW a b sc stl) := fun w f => by
      obtain ⟨f, g1, g2, g3, g4, g5⟩ := f
      refine (dec35 f.maj).trans ?_
      simp only [needZero, if_true, decMaj35, f.stl, g1, g2, g3, g4, g5, ofCode_atScope]
    have f : Word32 (enRed 0x0000186B a b sc stl) 0x35 stl ∧ fld (enRed 0x0000186B a b sc stl) 10 4 = 6 ∧ fld (enRed 0x0000186B a b sc stl) 14 2 = sc.code ∧ fld (enRed 0x0000186B a b sc stl) 16 6 = a ∧ fld (enRed 0x0000186B a b sc stl) 22 6 = b ∧ fld (enRed 0x0000186B a b sc stl) 28 4 = 0 := fR (maj := 0x35) (k := 6) sc rfl (by decide) (by decide) (lt_reg h0) (lt_reg h1) (lt_stl h2)
    exact ⟨f.1, by decide, D _ f⟩

theorem redXorD (a : Nat) (b : Nat) (sc : AtScope) (stl : Nat) : RoundTrip.Statement (.redXorD a b sc stl) :=
  trip32 (w := enRed 0x00001C6B a b sc stl) (maj := 0x35) (stl := stl) rfl rfl fun hw => by
    obtain ⟨hw, h2⟩ := wf2 hw
    obtain ⟨h0, h1⟩ := wf2 hw
    have D : ∀ w, Word32 w 0x35 stl ∧ fld w 10 4 = 7 ∧ fld w 14 2 = sc.code ∧ fld w 16 6 = a ∧ fld w 22 6 = b ∧ fld w 28 4 = 0 → decodeWord w = .ok (.redXorD a b sc stl) := fun w f => by
      obtain ⟨f, g1, g2, g3, g4, g5⟩ := f
      refine (dec35 f.maj).trans ?_
      simp only [needZero, if_true, decMaj35, f.stl, g1, g2, g3, g4, g5, ofCode_atScope]
    have f : Word32 (enRed 0x00001C6B a b sc stl) 0x35 stl ∧ fld (enRed 0x00001C6B a b sc stl) 10 4 = 7 ∧ fld (enRed 0x00001C6B a b sc stl) 14 2 = sc.code ∧ fld (enRed 0x00001C6B a b sc stl) 16 6 = a ∧ fld (enRed 0x00001C6B a b sc stl) 22 6 = b ∧ fld (enRed 0x00001C6B a b sc stl) 28 4 = 0 := fR (maj := 0x35) (k := 7) sc rfl (by decide) (by decide) (lt_reg h0) (lt_reg h1) (lt_stl h2)
    exact ⟨f.1, by decide, D _ f⟩

theorem redMinW (a : Nat) (b : Nat) (sc : AtScope) (stl : Nat) : RoundTrip.Statement (.redMinW a b sc stl) :=
  trip32 (w := enRed 0x0000206B a b sc stl) (maj := 0x35) (stl := stl) rfl rfl fun hw => by
    obtain ⟨hw, h2⟩ := wf2 hw
    obtain ⟨h0, h1⟩ := wf2 hw
    have D : ∀ w, Word32 w 0x35 stl ∧ fld w 10 4 = 8 ∧ fld w 14 2 = sc.code ∧ fld w 16 6 = a ∧ fld w 22 6 = b ∧ fld w 28 4 = 0 → decodeWord w = .ok (.redMinW a b sc stl) := fun w f => by
      obtain ⟨f, g1, g2, g3, g4, g5⟩ := f
      refine (dec35 f.maj).trans ?_
      simp only [needZero, if_true, decMaj35, f.stl, g1, g2, g3, g4, g5, ofCode_atScope]
    have f : Word32 (enRed 0x0000206B a b sc stl) 0x35 stl ∧ fld (enRed 0x0000206B a b sc stl) 10 4 = 8 ∧ fld (enRed 0x0000206B a b sc stl) 14 2 = sc.code ∧ fld (enRed 0x0000206B a b sc stl) 16 6 = a ∧ fld (enRed 0x0000206B a b sc stl) 22 6 = b ∧ fld (enRed 0x0000206B a b sc stl) 28 4 = 0 := fR (maj := 0x35) (k := 8) sc rfl (by decide) (by decide) (lt_reg h0) (lt_reg h1) (lt_stl h2)
    exact ⟨f.1, by decide, D _ f⟩

theorem redMinD (a : Nat) (b : Nat) (sc : AtScope) (stl : Nat) : RoundTrip.Statement (.redMinD a b sc stl) :=
  trip32 (w := enRed 0x0000246B a b sc stl) (maj := 0x35) (stl := stl) rfl rfl fun hw => by
    obtain ⟨hw, h2⟩ := wf2 hw
    obtain ⟨h0, h1⟩ := wf2 hw
    have D : ∀ w, Word32 w 0x35 stl ∧ fld w 10 4 = 9 ∧ fld w 14 2 = sc.code ∧ fld w 16 6 = a ∧ fld w 22 6 = b ∧ fld w 28 4 = 0 → decodeWord w = .ok (.redMinD a b sc stl) := fun w f => by
      obtain ⟨f, g1, g2, g3, g4, g5⟩ := f
      refine (dec35 f.maj).trans ?_
      simp only [needZero, if_true, decMaj35, f.stl, g1, g2, g3, g4, g5, ofCode_atScope]
    have f : Word32 (enRed 0x0000246B a b sc stl) 0x35 stl ∧ fld (enRed 0x0000246B a b sc stl) 10 4 = 9 ∧ fld (enRed 0x0000246B a b sc stl) 14 2 = sc.code ∧ fld (enRed 0x0000246B a b sc stl) 16 6 = a ∧ fld (enRed 0x0000246B a b sc stl) 22 6 = b ∧ fld (enRed 0x0000246B a b sc stl) 28 4 = 0 := fR (maj := 0x35) (k := 9) sc rfl (by decide) (by decide) (lt_reg h0) (lt_reg h1) (lt_stl h2)
    exact ⟨f.1, by decide, D _ f⟩

theorem redMaxW (a : Nat) (b : Nat) (sc : AtScope) (stl : Nat) : RoundTrip.Statement (.redMaxW a b sc stl) :=
  trip32 (w := enRed 0x0000286B a b sc stl) (maj := 0x35) (stl := stl) rfl rfl fun hw => by
    obtain ⟨hw, h2⟩ := wf2 hw
    obtain ⟨h0, h1⟩ := wf2 hw
    have D : ∀ w, Word32 w 0x35 stl ∧ fld w 10 4 = 10 ∧ fld w 14 2 = sc.code ∧ fld w 16 6 = a ∧ fld w 22 6 = b ∧ fld w 28 4 = 0 → decodeWord w = .ok (.redMaxW a b sc stl) := fun w f => by
      obtain ⟨f, g1, g2, g3, g4, g5⟩ := f
      refine (dec35 f.maj).trans ?_
      simp only [needZero, if_true, decMaj35, f.stl, g1, g2, g3, g4, g5, ofCode_atScope]
    have f : Word32 (enRed 0x0000286B a b sc stl) 0x35 stl ∧ fld (enRed 0x0000286B a b sc stl) 10 4 = 10 ∧ fld (enRed 0x0000286B a b sc stl) 14 2 = sc.code ∧ fld (enRed 0x0000286B a b sc stl) 16 6 = a ∧ fld (enRed 0x0000286B a b sc stl) 22 6 = b ∧ fld (enRed 0x0000286B a b sc stl) 28 4 = 0 := fR (maj := 0x35) (k := 10) sc rfl (by decide) (by decide) (lt_reg h0) (lt_reg h1) (lt_stl h2)
    exact ⟨f.1, by decide, D _ f⟩

theorem redMaxD (a : Nat) (b : Nat) (sc : AtScope) (stl : Nat) : RoundTrip.Statement (.redMaxD a b sc stl) :=
  trip32 (w := enRed 0x00002C6B a b sc stl) (maj := 0x35) (stl := stl) rfl rfl fun hw => by
    obtain ⟨hw, h2⟩ := wf2 hw
    obtain ⟨h0, h1⟩ := wf2 hw
    have D : ∀ w, Word32 w 0x35 stl ∧ fld w 10 4 = 11 ∧ fld w 14 2 = sc.code ∧ fld w 16 6 = a ∧ fld w 22 6 = b ∧ fld w 28 4 = 0 → decodeWord w = .ok (.redMaxD a b sc stl) := fun w f => by
      obtain ⟨f, g1, g2, g3, g4, g5⟩ := f
      refine (dec35 f.maj).trans ?_
      simp only [needZero, if_true, decMaj35, f.stl, g1, g2, g3, g4, g5, ofCode_atScope]
    have f : Word32 (enRed 0x00002C6B a b sc stl) 0x35 stl ∧ fld (enRed 0x00002C6B a b sc stl) 10 4 = 11 ∧ fld (enRed 0x00002C6B a b sc stl) 14 2 = sc.code ∧ fld (enRed 0x00002C6B a b sc stl) 16 6 = a ∧ fld (enRed 0x00002C6B a b sc stl) 22 6 = b ∧ fld (enRed 0x00002C6B a b sc stl) 28 4 = 0 := fR (maj := 0x35) (k := 11) sc rfl (by decide) (by decide) (lt_reg h0) (lt_reg h1) (lt_stl h2)
    exact ⟨f.1, by decide, D _ f⟩

theorem redFaddF32 (a : Nat) (b : Nat) (sc : AtScope) (stl : Nat) : RoundTrip.Statement (.redFaddF32 a b sc stl) :=
  trip32 (w := enRed 0x0000306B a b sc stl) (maj := 0x35) (stl := stl) rfl rfl fun hw => by
    obtain ⟨hw, h2⟩ := wf2 hw
    obtain ⟨h0, h1⟩ := wf2 hw
    have D : ∀ w, Word32 w 0x35 stl ∧ fld w 10 4 = 12 ∧ fld w 14 2 = sc.code ∧ fld w 16 6 = a ∧ fld w 22 6 = b ∧ fld w 28 4 = 0 → decodeWord w = .ok (.redFaddF32 a b sc stl) := fun w f => by
      obtain ⟨f, g1, g2, g3, g4, g5⟩ := f
      refine (dec35 f.maj).trans ?_
      simp only [needZero, if_true, decMaj35, f.stl, g1, g2, g3, g4, g5, ofCode_atScope]
    have f : Word32 (enRed 0x0000306B a b sc stl) 0x35 stl ∧ fld (enRed 0x0000306B a b sc stl) 10 4 = 12 ∧ fld (enRed 0x0000306B a b sc stl) 14 2 = sc.code ∧ fld (enRed 0x0000306B a b sc stl) 16 6 = a ∧ fld (enRed 0x0000306B a b sc stl) 22 6 = b ∧ fld (enRed 0x0000306B a b sc stl) 28 4 = 0 := fR (maj := 0x35) (k := 12) sc rfl (by decide) (by decide) (lt_reg h0) (lt_reg h1) (lt_stl h2)
    exact ⟨f.1, by decide, D _ f⟩

theorem redFaddF64 (a : Nat) (b : Nat) (sc : AtScope) (stl : Nat) : RoundTrip.Statement (.redFaddF64 a b sc stl) :=
  trip32 (w := enRed 0x0000346B a b sc stl) (maj := 0x35) (stl := stl) rfl rfl fun hw => by
    obtain ⟨hw, h2⟩ := wf2 hw
    obtain ⟨h0, h1⟩ := wf2 hw
    have D : ∀ w, Word32 w 0x35 stl ∧ fld w 10 4 = 13 ∧ fld w 14 2 = sc.code ∧ fld w 16 6 = a ∧ fld w 22 6 = b ∧ fld w 28 4 = 0 → decodeWord w = .ok (.redFaddF64 a b sc stl) := fun w f => by
      obtain ⟨f, g1, g2, g3, g4, g5⟩ := f
      refine (dec35 f.maj).trans ?_
      simp only [needZero, if_true, decMaj35, f.stl, g1, g2, g3, g4, g5, ofCode_atScope]
    have f : Word32 (enRed 0x0000346B a b sc stl) 0x35 stl ∧ fld (enRed 0x0000346B a b sc stl) 10 4 = 13 ∧ fld (enRed 0x0000346B a b sc stl) 14 2 = sc.code ∧ fld (enRed 0x0000346B a b sc stl) 16 6 = a ∧ fld (enRed 0x0000346B a b sc stl) 22 6 = b ∧ fld (enRed 0x0000346B a b sc stl) 28 4 = 0 := fR (maj := 0x35) (k := 13) sc rfl (by decide) (by decide) (lt_reg h0) (lt_reg h1) (lt_stl h2)
    exact ⟨f.1, by decide, D _ f⟩

theorem ldSync (d : Nat) (a : Nat) (stl : Nat) : RoundTrip.Statement (.ldSync d a stl) :=
  trip32 (w := enRR 0x0000006D d a 0 stl + (0) * 2 ^ 26) (maj := 0x36) (stl := stl) (congrArg some (congrArg (fun w => [fld w 0 16, fld w 16 16]) (by unfold enRR; omega))) rfl fun hw => by
    obtain ⟨hw, h2⟩ := wf2 hw
    obtain ⟨h0, h1⟩ := wf2 hw
    have D : ∀ w, F22 w 0x36 stl d a 0 (0) → decodeWord w = .ok (.ldSync d a stl) := fun w f => by
      refine (dec36 f.maj).trans ?_
      simp only [needZero, if_true, decMaj36, f.fn, f.rd, f.ra, f.stl, f.u6]
    have f : F22 (enRR 0x0000006D d a 0 stl + (0) * 2 ^ 26) 0x36 stl d a 0 (0) := f22 (maj := 0x36) (k := 0) (e := 0) rfl rfl (by decide) (by decide) (lt_reg h0) (lt_reg h1) (lt_stl h2) (by decide)
    exact ⟨f.toWord32, by decide, D _ f⟩

theorem take (d : Nat) (a : Nat) (stl : Nat) : RoundTrip.Statement (.take d a stl) :=
  trip32 (w := enRR 0x0040006D d a 0 stl + (0) * 2 ^ 26) (maj := 0x36) (stl := stl) (congrArg some (congrArg (fun w => [fld w 0 16, fld w 16 16]) (by unfold enRR; omega))) rfl fun hw => by
    obtain ⟨hw, h2⟩ := wf2 hw
    obtain ⟨h0, h1⟩ := wf2 hw
    have D : ∀ w, F22 w 0x36 stl d a 1 (0) → decodeWord w = .ok (.take d a stl) := fun w f => by
      refine (dec36 f.maj).trans ?_
      simp only [needZero, if_true, decMaj36, f.fn, f.rd, f.ra, f.stl, f.u6]
    have f : F22 (enRR 0x0040006D d a 0 stl + (0) * 2 ^ 26) 0x36 stl d a 1 (0) := f22 (maj := 0x36) (k := 1) (e := 0) rfl rfl (by decide) (by decide) (lt_reg h0) (lt_reg h1) (lt_stl h2) (by decide)
    exact ⟨f.toWord32, by decide, D _ f⟩

theorem put (d : Nat) (a : Nat) (src : Nat) (stl : Nat) : RoundTrip.Statement (.put d a src stl) :=
  trip32 (w := enRR 0x0080006D d a 0 stl + (src) * 2 ^ 26) (maj := 0x36) (stl := stl) rfl rfl fun hw => by
    obtain ⟨hw, h3⟩ := wf2 hw
    obtain ⟨hw, h2⟩ := wf2 hw
    obtain ⟨h0, h1⟩ := wf2 hw
    have D : ∀ w, F22 w 0x36 stl d a 2 (src) → decodeWord w = .ok (.put d a src stl) := fun w f => by
      refine (dec36 f.maj).trans ?_
      simp only [decMaj36, f.fn, f.rd, f.ra, f.stl, f.u6]
    have f : F22 (enRR 0x0080006D d a 0 stl + (src) * 2 ^ 26) 0x36 stl d a 2 (src) := f22 (maj := 0x36) (k := 2) (e := src) rfl rfl (by decide) (by decide) (lt_reg h0) (lt_reg h1) (lt_stl h3) (by have := (lt_reg h2); omega)
    exact ⟨f.toWord32, by decide, D _ f⟩

theorem feSet (a : Nat) (l : Nat) (stl : Nat) : RoundTrip.Statement (.feSet a l stl) :=
  trip32 (w := enRR 0x00C0006D l a 0 stl + (0) * 2 ^ 26) (maj := 0x36) (stl := stl) (congrArg some (congrArg (fun w => [fld w 0 16, fld w 16 16]) (by unfold enRR; omega))) rfl fun hw => by
    obtain ⟨hw, h2⟩ := wf2 hw
    obtain ⟨h0, h1⟩ := wf2 hw
    have D : ∀ w, F22 w 0x36 stl l a 3 (0) → decodeWord w = .ok (.feSet a l stl) := fun w f => by
      refine (dec36 f.maj).trans ?_
      simp only [needZero, if_true, decMaj36, f.fn, f.rd, f.ra, f.stl, f.u6]
    have f : F22 (enRR 0x00C0006D l a 0 stl + (0) * 2 ^ 26) 0x36 stl l a 3 (0) := f22 (maj := 0x36) (k := 3) (e := 0) rfl rfl (by decide) (by decide) (lt_reg h1) (lt_reg h0) (lt_stl h2) (by decide)
    exact ⟨f.toWord32, by decide, D _ f⟩

theorem feClr (a : Nat) (l : Nat) (stl : Nat) : RoundTrip.Statement (.feClr a l stl) :=
  trip32 (w := enRR 0x0100006D l a 0 stl + (0) * 2 ^ 26) (maj := 0x36) (stl := stl) (congrArg some (congrArg (fun w => [fld w 0 16, fld w 16 16]) (by unfold enRR; omega))) rfl fun hw => by
    obtain ⟨hw, h2⟩ := wf2 hw
    obtain ⟨h0, h1⟩ := wf2 hw
    have D : ∀ w, F22 w 0x36 stl l a 4 (0) → decodeWord w = .ok (.feClr a l stl) := fun w f => by
      refine (dec36 f.maj).trans ?_
      simp only [needZero, if_true, decMaj36, f.fn, f.rd, f.ra, f.stl, f.u6]
    have f : F22 (enRR 0x0100006D l a 0 stl + (0) * 2 ^ 26) 0x36 stl l a 4 (0) := f22 (maj := 0x36) (k := 4) (e := 0) rfl rfl (by decide) (by decide) (lt_reg h1) (lt_reg h0) (lt_stl h2) (by decide)
    exact ⟨f.toWord32, by decide, D _ f⟩

theorem feQ (d : Nat) (a : Nat) (stl : Nat) : RoundTrip.Statement (.feQ d a stl) :=
  trip32 (w := enRR 0x0140006D d a 0 stl + (0) * 2 ^ 26) (maj := 0x36) (stl := stl) (congrArg some (congrArg (fun w => [fld w 0 16, fld w 16 16]) (by unfold enRR; omega))) rfl fun hw => by
    obtain ⟨hw, h2⟩ := wf2 hw
    obtain ⟨h0, h1⟩ := wf2 hw
    have D : ∀ w, F22 w 0x36 stl d a 5 (0) → decodeWord w = .ok (.feQ d a stl) := fun w f => by
      refine (dec36 f.maj).trans ?_
      simp only [needZero, if_true, decMaj36, f.fn, f.rd, f.ra, f.stl, f.u6]
    have f : F22 (enRR 0x0140006D d a 0 stl + (0) * 2 ^ 26) 0x36 stl d a 5 (0) := f22 (maj := 0x36) (k := 5) (e := 0) rfl rfl (by decide) (by decide) (lt_reg h0) (lt_reg h1) (lt_stl h2) (by decide)
    exact ⟨f.toWord32, by decide, D _ f⟩

theorem feWait (a : Nat) (l : Nat) (stl : Nat) : RoundTrip.Statement (.feWait a l stl) :=
  trip32 (w := enRR 0x0180006D l a 0 stl + (0) * 2 ^ 26) (maj := 0x36) (stl := stl) (congrArg some (congrArg (fun w => [fld w 0 16, fld w 16 16]) (by unfold enRR; omega))) rfl fun hw => by
    obtain ⟨hw, h2⟩ := wf2 hw
    obtain ⟨h0, h1⟩ := wf2 hw
    have D : ∀ w, F22 w 0x36 stl l a 6 (0) → decodeWord w = .ok (.feWait a l stl) := fun w f => by
      refine (dec36 f.maj).trans ?_
      simp only [needZero, if_true, decMaj36, f.fn, f.rd, f.ra, f.stl, f.u6]
    have f : F22 (enRR 0x0180006D l a 0 stl + (0) * 2 ^ 26) 0x36 stl l a 6 (0) := f22 (maj := 0x36) (k := 6) (e := 0) rfl rfl (by decide) (by decide) (lt_reg h1) (lt_reg h0) (lt_stl h2) (by decide)
    exact ⟨f.toWord32, by decide, D _ f⟩

theorem bcfgC (d : Nat) (a : Nat) (stl : Nat) : RoundTrip.Statement (.bcfgC d a stl) :=
  trip32 (w := enRR 0x0000006F d a 0 stl + (0) * 2 ^ 26) (maj := 0x37) (stl := stl) (congrArg some (congrArg (fun w => [fld w 0 16, fld w 16 16]) (by unfold enRR; omega))) rfl fun hw => by
    obtain ⟨hw, h2⟩ := wf2 hw
    obtain ⟨h0, h1⟩ := wf2 hw
    have D : ∀ w, F22 w 0x37 stl d a 0 (0) → decodeWord w = .ok (.bcfgC d a stl) := fun w f => by
      refine (dec37 f.maj).trans ?_
      simp only [needZero, if_true, decMaj37, f.fn, f.rd, f.ra, f.stl, f.u6]
    have f : F22 (enRR 0x0000006F d a 0 stl + (0) * 2 ^ 26) 0x37 stl d a 0 (0) := f22 (maj := 0x37) (k := 0) (e := 0) rfl rfl (by decide) (by decide) (lt_reg h0) (lt_reg h1) (lt_stl h2) (by decide)
    exact ⟨f.toWord32, by decide, D _ f⟩

theorem bcfgS (d : Nat) (a : Nat) (stl : Nat) : RoundTrip.Statement (.bcfgS d a stl) :=
  trip32 (w := enRR 0x0040006F d a 0 stl + (0) * 2 ^ 26) (maj := 0x37) (stl := stl) (congrArg some (congrArg (fun w => [fld w 0 16, fld w 16 16]) (by unfold enRR; omega))) rfl fun hw => by
    obtain ⟨hw, h2⟩ := wf2 hw
    obtain ⟨h0, h1⟩ := wf2 hw
    have D : ∀ w, F22 w 0x37 stl d a 1 (0) → decodeWord w = .ok (.bcfgS d a stl) := fun w f => by
      refine (dec37 f.maj).trans ?_
      simp only [needZero, if_true, decMaj37, f.fn, f.rd, f.ra, f.stl, f.u6]
    have f : F22 (enRR 0x0040006F d a 0 stl + (0) * 2 ^ 26) 0x37 stl d a 1 (0) := f22 (maj := 0x37) (k := 1) (e := 0) rfl rfl (by decide) (by decide) (lt_reg h0) (lt_reg h1) (lt_stl h2) (by decide)
    exact ⟨f.toWord32, by decide, D _ f⟩

theorem bcfgF (d : Nat) (a : Nat) (stl : Nat) : RoundTrip.Statement (.bcfgF d a stl) :=
  trip32 (w := enRR 0x0080006F d a 0 stl + (0) * 2 ^ 26) (maj := 0x37) (stl := stl) (congrArg some (congrArg (fun w => [fld w 0 16, fld w 16 16]) (by unfold enRR; omega))) rfl fun hw => by
    obtain ⟨hw, h2⟩ := wf2 hw
    obtain ⟨h0, h1⟩ := wf2 hw
    have D : ∀ w, F22 w 0x37 stl d a 2 (0) → decodeWord w = .ok (.bcfgF d a stl) := fun w f => by
      refine (dec37 f.maj).trans ?_
      simp only [needZero, if_true, decMaj37, f.fn, f.rd, f.ra, f.stl, f.u6]
    have f : F22 (enRR 0x0080006F d a 0 stl + (0) * 2 ^ 26) 0x37 stl d a 2 (0) := f22 (maj := 0x37) (k := 2) (e := 0) rfl rfl (by decide) (by decide) (lt_reg h0) (lt_reg h1) (lt_stl h2) (by decide)
    exact ⟨f.toWord32, by decide, D _ f⟩

theorem bq (d : Nat) (a : Nat) (stl : Nat) : RoundTrip.Statement (.bq d a stl) :=
  trip32 (w := enRR 0x00C0006F d a 0 stl + (0) * 2 ^ 26) (maj := 0x37) (stl := stl) (congrArg some (congrArg (fun w => [fld w 0 16, fld w 16 16]) (by unfold enRR; omega))) rfl fun hw => by
    obtain ⟨hw, h2⟩ := wf2 hw
    obtain ⟨h0, h1⟩ := wf2 hw
    have D : ∀ w, F22 w 0x37 stl d a 3 (0) → decodeWord w = .ok (.bq d a stl) := fun w f => by
      refine (dec37 f.maj).trans ?_
      simp only [needZero, if_true, decMaj37, f.fn, f.rd, f.ra, f.stl, f.u6]
    have f : F22 (enRR 0x00C0006F d a 0 stl + (0) * 2 ^ 26) 0x37 stl d a 3 (0) := f22 (maj := 0x37) (k := 3) (e := 0) rfl rfl (by decide) (by decide) (lt_reg h0) (lt_reg h1) (lt_stl h2) (by decide)
    exact ⟨f.toWord32, by decide, D _ f⟩

theorem fpush (d : Nat) (a : Nat) (src : Nat) (stl : Nat) : RoundTrip.Statement (.fpush d a src stl) :=
  trip32 (w := enRR 0x00000071 d a 0 stl + (src) * 2 ^ 26) (maj := 0x38) (stl := stl) rfl rfl fun hw => by
    obtain ⟨hw, h3⟩ := wf2 hw
    obtain ⟨hw, h2⟩ := wf2 hw
    obtain ⟨h0, h1⟩ := wf2 hw
    have D : ∀ w, F22 w 0x38 stl d a 0 (src) → decodeWord w = .ok (.fpush d a src stl) := fun w f => by
      refine (dec38 f.maj).trans ?_
      simp only [decMaj38, f.fn, f.rd, f.ra, f.stl, f.u6]
    have f : F22 (enRR 0x00000071 d a 0 stl + (src) * 2 ^ 26) 0x38 stl d a 0 (src) := f22 (maj := 0x38) (k := 0) (e := src) rfl rfl (by decide) (by decide) (lt_reg h0) (lt_reg h1) (lt_stl h3) (by have := (lt_reg h2); omega)
    exact ⟨f.toWord32, by decide, D _ f⟩

theorem fpop (d : Nat) (a : Nat) (stl : Nat) : RoundTrip.Statement (.fpop d a stl) :=
  trip32 (w := enRR 0x00400071 d a 0 stl + (0) * 2 ^ 26) (maj := 0x38) (stl := stl) (congrArg some (congrArg (fun w => [fld w 0 16, fld w 16 16]) (by unfold enRR; omega))) rfl fun hw => by
    obtain ⟨hw, h2⟩ := wf2 hw
    obtain ⟨h0, h1⟩ := wf2 hw
    have D : ∀ w, F22 w 0x38 stl d a 1 (0) → decodeWord w = .ok (.fpop d a stl) := fun w f => by
      refine (dec38 f.maj).trans ?_
      simp only [needZero, if_true, decMaj38, f.fn, f.rd, f.ra, f.stl, f.u6]
    have f : F22 (enRR 0x00400071 d a 0 stl + (0) * 2 ^ 26) 0x38 stl d a 1 (0) := f22 (maj := 0x38) (k := 1) (e := 0) rfl rfl (by decide) (by decide) (lt_reg h0) (lt_reg h1) (lt_stl h2) (by decide)
    exact ⟨f.toWord32, by decide, D _ f⟩

theorem fq (d : Nat) (a : Nat) (stl : Nat) : RoundTrip.Statement (.fq d a stl) :=
  trip32 (w := enRR 0x00800071 d a 0 stl + (0) * 2 ^ 26) (maj := 0x38) (stl := stl) (congrArg some (congrArg (fun w => [fld w 0 16, fld w 16 16]) (by unfold enRR; omega))) rfl fun hw => by
    obtain ⟨hw, h2⟩ := wf2 hw
    obtain ⟨h0, h1⟩ := wf2 hw
    have D : ∀ w, F22 w 0x38 stl d a 2 (0) → decodeWord w = .ok (.fq d a stl) := fun w f => by
      refine (dec38 f.maj).trans ?_
      simp only [needZero, if_true, decMaj38, f.fn, f.rd, f.ra, f.stl, f.u6]
    have f : F22 (enRR 0x00800071 d a 0 stl + (0) * 2 ^ 26) 0x38 stl d a 2 (0) := f22 (maj := 0x38) (k := 2) (e := 0) rfl rfl (by decide) (by decide) (lt_reg h0) (lt_reg h1) (lt_stl h2) (by decide)
    exact ⟨f.toWord32, by decide, D _ f⟩

theorem cpy (d : Nat) (a : Nat) (b : Nat) (stl : Nat) : RoundTrip.Statement (.cpy d a b stl) :=
  trip32 (w := enRR 0x00000073 d a b stl) (maj := 0x39) (stl := stl) rfl rfl fun hw => by
    obtain ⟨hw, h3⟩ := wf2 hw
    obtain ⟨hw, h2⟩ := wf2 hw
    obtain ⟨h0, h1⟩ := wf2 hw
    have D : ∀ w, F28 w 0x39 stl d a b 0 → decodeWord w = .ok (.cpy d a b stl) := fun w f => by
      refine (dec39 f.maj).trans ?_
      simp only [decMaj39, f.fn, f.rd, f.ra, f.rb, f.stl]
    have f : F28 (enRR 0x00000073 d a b stl) 0x39 stl d a b 0 := f28 (maj := 0x39) (k := 0) rfl (by decide) (by decide) (lt_reg h0) (lt_reg h1) (lt_reg h2) (lt_stl h3)
    exact ⟨f.toWord32, by decide, D _ f⟩

theorem cpyFe (d : Nat) (a : Nat) (b : Nat) (stl : Nat) : RoundTrip.Statement (.cpyFe d a b stl) :=
  trip32 (w := enRR 0x10000073 d a b stl) (maj := 0x39) (stl := stl) rfl rfl fun hw => by
    obtain ⟨hw, h3⟩ := wf2 hw
    obtain ⟨hw, h2⟩ := wf2 hw
    obtain ⟨h0, h1⟩ := wf2 hw
    have D : ∀ w, F28 w 0x39 stl d a b 1 → decodeWord w = .ok (.cpyFe d a b stl) := fun w f => by
      refine (dec39 f.maj).trans ?_
      simp only [decMaj39, f.fn, f.rd, f.ra, f.rb, f.stl]
    have f : F28 (enRR 0x10000073 d a b stl) 0x39 stl d a b 1 := f28 (maj := 0x39) (k := 1) rfl (by decide) (by decide) (lt_reg h0) (lt_reg h1) (lt_reg h2) (lt_stl h3)
    exact ⟨f.toWord32, by decide, D _ f⟩

theorem mcast (d : Nat) (a : Nat) (b : Nat) (stl : Nat) : RoundTrip.Statement (.mcast d a b stl) :=
  trip32 (w := enRR 0x20000073 d a b stl) (maj := 0x39) (stl := stl) rfl rfl fun hw => by
    obtain ⟨hw, h3⟩ := wf2 hw
    obtain ⟨hw, h2⟩ := wf2 hw
    obtain ⟨h0, h1⟩ := wf2 hw
    have D : ∀ w, F28 w 0x39 stl d a b 2 → decodeWord w = .ok (.mcast d a b stl) := fun w f => by
      refine (dec39 f.maj).trans ?_
      simp only [decMaj39, f.fn, f.rd, f.ra, f.rb, f.stl]
    have f : F28 (enRR 0x20000073 d a b stl) 0x39 stl d a b 2 := f28 (maj := 0x39) (k := 2) rfl (by decide) (by decide) (lt_reg h0) (lt_reg h1) (lt_reg h2) (lt_stl h3)
    exact ⟨f.toWord32, by decide, D _ f⟩

theorem putsig (d : Nat) (a : Nat) (b : Nat) (stl : Nat) : RoundTrip.Statement (.putsig d a b stl) :=
  trip32 (w := enRR 0x30000073 d a b stl) (maj := 0x39) (stl := stl) rfl rfl fun hw => by
    obtain ⟨hw, h3⟩ := wf2 hw
    obtain ⟨hw, h2⟩ := wf2 hw
    obtain ⟨h0, h1⟩ := wf2 hw
    have D : ∀ w, F28 w 0x39 stl d a b 3 → decodeWord w = .ok (.putsig d a b stl) := fun w f => by
      refine (dec39 f.maj).trans ?_
      simp only [decMaj39, f.fn, f.rd, f.ra, f.rb, f.stl]
    have f : F28 (enRR 0x30000073 d a b stl) 0x39 stl d a b 3 := f28 (maj := 0x39) (k := 3) rfl (by decide) (by decide) (lt_reg h0) (lt_reg h1) (lt_reg h2) (lt_stl h3)
    exact ⟨f.toWord32, by decide, D _ f⟩

theorem cpyPh (d : Nat) (a : Nat) (b : Nat) (stl : Nat) : RoundTrip.Statement (.cpyPh d a b stl) :=
  trip32 (w := enRR 0x40000073 d a b stl) (maj := 0x39) (stl := stl) rfl rfl fun hw => by
    obtain ⟨hw, h3⟩ := wf2 hw
    obtain ⟨hw, h2⟩ := wf2 hw
    obtain ⟨h0, h1⟩ := wf2 hw
    have D : ∀ w, F28 w 0x39 stl d a b 4 → decodeWord w = .ok (.cpyPh d a b stl) := fun w f => by
      refine (dec39 f.maj).trans ?_
      simp only [decMaj39, f.fn, f.rd, f.ra, f.rb, f.stl]
    have f : F28 (enRR 0x40000073 d a b stl) 0x39 stl d a b 4 := f28 (maj := 0x39) (k := 4) rfl (by decide) (by decide) (lt_reg h0) (lt_reg h1) (lt_reg h2) (lt_stl h3)
    exact ⟨f.toWord32, by decide, D _ f⟩

theorem cpwait (d : Nat) (a : Nat) (stl : Nat) : RoundTrip.Statement (.cpwait d a stl) :=
  trip32 (w := enRR 0x50000073 d a 0 stl) (maj := 0x39) (stl := stl) rfl rfl fun hw => by
    obtain ⟨hw, h2⟩ := wf2 hw
    obtain ⟨h0, h1⟩ := wf2 hw
    have D : ∀ w, F28 w 0x39 stl d a 0 5 → decodeWord w = .ok (.cpwait d a stl) := fun w f => by
      refine (dec39 f.maj).trans ?_
      simp only [needZero, if_true, decMaj39, f.fn, f.rd, f.ra, f.rb, f.stl]
    have f : F28 (enRR 0x50000073 d a 0 stl) 0x39 stl d a 0 5 := f28 (maj := 0x39) (k := 5) rfl (by decide) (by decide) (lt_reg h0) (lt_reg h1) (by decide) (lt_stl h2)
    exact ⟨f.toWord32, by decide, D _ f⟩

theorem cpq (d : Nat) (a : Nat) (stl : Nat) : RoundTrip.Statement (.cpq d a stl) :=
  trip32 (w := enRR 0x60000073 d a 0 stl) (maj := 0x39) (stl := stl) rfl rfl fun hw => by
    obtain ⟨hw, h2⟩ := wf2 hw
    obtain ⟨h0, h1⟩ := wf2 hw
    have D : ∀ w, F28 w 0x39 stl d a 0 6 → decodeWord w = .ok (.cpq d a stl) := fun w f => by
      refine (dec39 f.maj).trans ?_
      simp only [needZero, if_true, decMaj39, f.fn, f.rd, f.ra, f.rb, f.stl]
    have f : F28 (enRR 0x60000073 d a 0 stl) 0x39 stl d a 0 6 := f28 (maj := 0x39) (k := 6) rfl (by decide) (by decide) (lt_reg h0) (lt_reg h1) (by decide) (lt_stl h2)
    exact ⟨f.toWord32, by decide, D _ f⟩

theorem cpcan (d : Nat) (a : Nat) (b : Nat) (stl : Nat) : RoundTrip.Statement (.cpcan d a b stl) :=
  trip32 (w := enRR 0x70000073 d a b stl) (maj := 0x39) (stl := stl) rfl rfl fun hw => by
    obtain ⟨hw, h3⟩ := wf2 hw
    obtain ⟨hw, h2⟩ := wf2 hw
    obtain ⟨h0, h1⟩ := wf2 hw
    have D : ∀ w, F28 w 0x39 stl d a b 7 → decodeWord w = .ok (.cpcan d a b stl) := fun w f => by
      refine (dec39 f.maj).trans ?_
      simp only [decMaj39, f.fn, f.rd, f.ra, f.rb, f.stl]
    have f : F28 (enRR 0x70000073 d a b stl) 0x39 stl d a b 7 := f28 (maj := 0x39) (k := 7) rfl (by decide) (by decide) (lt_reg h0) (lt_reg h1) (lt_reg h2) (lt_stl h3)
    exact ⟨f.toWord32, by decide, D _ f⟩

theorem mark (a : Nat) (off : BitVec 6) (stl : Nat) : RoundTrip.Statement (.mark a off stl) :=
  trip32 (w := enRR 0x00000075 0 a 0 stl + (off.toNat) * 2 ^ 26) (maj := 0x3A) (stl := stl) rfl rfl fun hw => by
    obtain ⟨h0, h1⟩ := wf2 hw
    have D : ∀ w, F22 w 0x3A stl 0 a 0 (off.toNat) → decodeWord w = .ok (.mark a off stl) := fun w f => by
      refine (dec3A f.maj).trans ?_
      simp only [needZero, if_true, decMaj3A, f.fn, f.rd, f.ra, f.stl, f.u6, BitVec.ofNat_toNat, BitVec.setWidth_eq]
    have f : F22 (enRR 0x00000075 0 a 0 stl + (off.toNat) * 2 ^ 26) 0x3A stl 0 a 0 (off.toNat) := f22 (maj := 0x3A) (k := 0) (e := off.toNat) rfl rfl (by decide) (by decide) (by decide) (lt_reg h0) (lt_stl h1) (by have := off.isLt; omega)
    exact ⟨f.toWord32, by decide, D _ f⟩

theorem ttarm (d : Nat) (a : Nat) (stl : Nat) : RoundTrip.Statement (.ttarm d a stl) :=
  trip32 (w := enRR 0x00400075 d a 0 stl + (0) * 2 ^ 26) (maj := 0x3A) (stl := stl) (congrArg some (congrArg (fun w => [fld w 0 16, fld w 16 16]) (by unfold enRR; omega))) rfl fun hw => by
    obtain ⟨hw, h2⟩ := wf2 hw
    obtain ⟨h0, h1⟩ := wf2 hw
    have D : ∀ w, F22 w 0x3A stl d a 1 (0) → decodeWord w = .ok (.ttarm d a stl) := fun w f => by
      refine (dec3A f.maj).trans ?_
      simp only [needZero, if_true, decMaj3A, f.fn, f.rd, f.ra, f.stl, f.u6]
    have f : F22 (enRR 0x00400075 d a 0 stl + (0) * 2 ^ 26) 0x3A stl d a 1 (0) := f22 (maj := 0x3A) (k := 1) (e := 0) rfl rfl (by decide) (by decide) (lt_reg h0) (lt_reg h1) (lt_stl h2) (by decide)
    exact ⟨f.toWord32, by decide, D _ f⟩

theorem ttq (d : Nat) (a : Nat) (stl : Nat) : RoundTrip.Statement (.ttq d a stl) :=
  trip32 (w := enRR 0x00800075 d a 0 stl + (0) * 2 ^ 26) (maj := 0x3A) (stl := stl) (congrArg some (congrArg (fun w => [fld w 0 16, fld w 16 16]) (by unfold enRR; omega))) rfl fun hw => by
    obtain ⟨hw, h2⟩ := wf2 hw
    obtain ⟨h0, h1⟩ := wf2 hw
    have D : ∀ w, F22 w 0x3A stl d a 2 (0) → decodeWord w = .ok (.ttq d a stl) := fun w f => by
      refine (dec3A f.maj).trans ?_
      simp only [needZero, if_true, decMaj3A, f.fn, f.rd, f.ra, f.stl, f.u6]
    have f : F22 (enRR 0x00800075 d a 0 stl + (0) * 2 ^ 26) 0x3A stl d a 2 (0) := f22 (maj := 0x3A) (k := 2) (e := 0) rfl rfl (by decide) (by decide) (lt_reg h0) (lt_reg h1) (lt_stl h2) (by decide)
    exact ⟨f.toWord32, by decide, D _ f⟩

theorem ttreplay (d : Nat) (a : Nat) (stl : Nat) : RoundTrip.Statement (.ttreplay d a stl) :=
  trip32 (w := enRR 0x00C00075 d a 0 stl + (0) * 2 ^ 26) (maj := 0x3A) (stl := stl) (congrArg some (congrArg (fun w => [fld w 0 16, fld w 16 16]) (by unfold enRR; omega))) rfl fun hw => by
    obtain ⟨hw, h2⟩ := wf2 hw
    obtain ⟨h0, h1⟩ := wf2 hw
    have D : ∀ w, F22 w 0x3A stl d a 3 (0) → decodeWord w = .ok (.ttreplay d a stl) := fun w f => by
      refine (dec3A f.maj).trans ?_
      simp only [needZero, if_true, decMaj3A, f.fn, f.rd, f.ra, f.stl, f.u6]
    have f : F22 (enRR 0x00C00075 d a 0 stl + (0) * 2 ^ 26) 0x3A stl d a 3 (0) := f22 (maj := 0x3A) (k := 3) (e := 0) rfl rfl (by decide) (by decide) (lt_reg h0) (lt_reg h1) (lt_stl h2) (by decide)
    exact ⟨f.toWord32, by decide, D _ f⟩

theorem ttoff (d : Nat) (stl : Nat) : RoundTrip.Statement (.ttoff d stl) :=
  trip32 (w := enRR 0x01000075 d 0 0 stl + (0) * 2 ^ 26) (maj := 0x3A) (stl := stl) (congrArg some (congrArg (fun w => [fld w 0 16, fld w 16 16]) (by unfold enRR; omega))) rfl fun hw => by
    obtain ⟨h0, h1⟩ := wf2 hw
    have D : ∀ w, F22 w 0x3A stl d 0 4 (0) → decodeWord w = .ok (.ttoff d stl) := fun w f => by
      refine (dec3A f.maj).trans ?_
      simp only [needZero, if_true, decMaj3A, f.fn, f.rd, f.ra, f.stl, f.u6]
    have f : F22 (enRR 0x01000075 d 0 0 stl + (0) * 2 ^ 26) 0x3A stl d 0 4 (0) := f22 (maj := 0x3A) (k := 4) (e := 0) rfl rfl (by decide) (by decide) (lt_reg h0) (by decide) (lt_stl h1) (by decide)
    exact ⟨f.toWord32, by decide, D _ f⟩

theorem tdef (d : Nat) (a : Nat) (stl : Nat) : RoundTrip.Statement (.tdef d a stl) :=
  trip32 (w := enRR 0x00000077 d a 0 stl + (0) * 2 ^ 26) (maj := 0x3B) (stl := stl) (congrArg some (congrArg (fun w => [fld w 0 16, fld w 16 16]) (by unfold enRR; omega))) rfl fun hw => by
    obtain ⟨hw, h2⟩ := wf2 hw
    obtain ⟨h0, h1⟩ := wf2 hw
    have D : ∀ w, F22 w 0x3B stl d a 0 (0) → decodeWord w = .ok (.tdef d a stl) := fun w f => by
      refine (dec3B f.maj).trans ?_
      simp only [needZero, if_true, decMaj3B, f.fn, f.rd, f.ra, f.stl, f.u6]
    have f : F22 (enRR 0x00000077 d a 0 stl + (0) * 2 ^ 26) 0x3B stl d a 0 (0) := f22 (maj := 0x3B) (k := 0) (e := 0) rfl rfl (by decide) (by decide) (lt_reg h0) (lt_reg h1) (lt_stl h2) (by decide)
    exact ⟨f.toWord32, by decide, D _ f⟩

theorem tspawn (d : Nat) (a : Nat) (stl : Nat) : RoundTrip.Statement (.tspawn d a stl) :=
  trip32 (w := enRR 0x00400077 d a 0 stl + (0) * 2 ^ 26) (maj := 0x3B) (stl := stl) (congrArg some (congrArg (fun w => [fld w 0 16, fld w 16 16]) (by unfold enRR; omega))) rfl fun hw => by
    obtain ⟨hw, h2⟩ := wf2 hw
    obtain ⟨h0, h1⟩ := wf2 hw
    have D : ∀ w, F22 w 0x3B stl d a 1 (0) → decodeWord w = .ok (.tspawn d a stl) := fun w f => by
      refine (dec3B f.maj).trans ?_
      simp only [needZero, if_true, decMaj3B, f.fn, f.rd, f.ra, f.stl, f.u6]
    have f : F22 (enRR 0x00400077 d a 0 stl + (0) * 2 ^ 26) 0x3B stl d a 1 (0) := f22 (maj := 0x3B) (k := 1) (e := 0) rfl rfl (by decide) (by decide) (lt_reg h0) (lt_reg h1) (lt_stl h2) (by decide)
    exact ⟨f.toWord32, by decide, D _ f⟩

theorem tnext (d : Nat) (a : Nat) (idx : Nat) (stl : Nat) : RoundTrip.Statement (.tnext d a idx stl) :=
  trip32 (w := enRR 0x00800077 d a 0 stl + (idx * 2) * 2 ^ 26) (maj := 0x3B) (stl := stl) (congrArg some (congrArg (fun w => [fld w 0 16, fld w 16 16]) (by unfold enRR; omega))) rfl fun hw => by
    obtain ⟨hw, h3⟩ := wf2 hw
    obtain ⟨hw, h2⟩ := wf2 hw
    obtain ⟨h0, h1⟩ := wf2 hw
    have D : ∀ w, F22 w 0x3B stl d a 2 (idx * 2) → decodeWord w = .ok (.tnext d a idx stl) := fun w f => by
      have ezz : fld w 26 1 = 0 := f.e1.trans (by have := (of_decide_eq_true h2); omega)
      have ex : fld w 27 5 = idx := f.u5.trans (by have := (of_decide_eq_true h2); omega)
      refine (dec3B f.maj).trans ?_
      simp only [needZero, guardOk, if_true, decMaj3B, f.fn, f.rd, f.ra, f.stl, ezz, ex, h2]
    have f : F22 (enRR 0x00800077 d a 0 stl + (idx * 2) * 2 ^ 26) 0x3B stl d a 2 (idx * 2) := f22 (maj := 0x3B) (k := 2) (e := idx * 2) rfl rfl (by decide) (by decide) (lt_reg h0) (lt_reg h1) (lt_stl h3) (by have := (of_decide_eq_true h2); omega)
    exact ⟨f.toWord32, by decide, D _ f⟩

theorem tdone (idx : Nat) (stl : Nat) : RoundTrip.Statement (.tdone idx stl) :=
  trip32 (w := enRR 0x00C00077 0 0 0 stl + (idx * 2) * 2 ^ 26) (maj := 0x3B) (stl := stl) (congrArg some (congrArg (fun w => [fld w 0 16, fld w 16 16]) (by unfold enRR; omega))) rfl fun hw => by
    obtain ⟨h0, h1⟩ := wf2 hw
    have D : ∀ w, F22 w 0x3B stl 0 0 3 (idx * 2) → decodeWord w = .ok (.tdone idx stl) := fun w f => by
      have ez : fld w 10 12 = 0 := f.rda
      have ezz : fld w 26 1 = 0 := f.e1.trans (by have := (of_decide_eq_true h0); omega)
      have ex : fld w 27 5 = idx := f.u5.trans (by have := (of_decide_eq_true h0); omega)
      refine (dec3B f.maj).trans ?_
      simp only [needZero, guardOk, if_true, decMaj3B, f.fn, f.stl, ez, ezz, ex, h0]
    have f : F22 (enRR 0x00C00077 0 0 0 stl + (idx * 2) * 2 ^ 26) 0x3B stl 0 0 3 (idx * 2) := f22 (maj := 0x3B) (k := 3) (e := idx * 2) rfl rfl (by decide) (by decide) (by decide) (by decide) (lt_stl h1) (by have := (of_decide_eq_true h0); omega)
    exact ⟨f.toWord32, by decide, D _ f⟩

theorem freeze (d : Nat) (idx : Nat) (stl : Nat) : RoundTrip.Statement (.freeze d idx stl) :=
  trip32 (w := enRR 0x01000077 d 0 0 stl + (idx * 2) * 2 ^ 26) (maj := 0x3B) (stl := stl) (congrArg some (congrArg (fun w => [fld w 0 16, fld w 16 16]) (by unfold enRR; omega))) rfl fun hw => by
    obtain ⟨hw, h2⟩ := wf2 hw
    obtain ⟨h0, h1⟩ := wf2 hw
    have D : ∀ w, F22 w 0x3B stl d 0 4 (idx * 2) → decodeWord w = .ok (.freeze d idx stl) := fun w f => by
      have ezz : fld w 26 1 = 0 := f.e1.trans (by have := (of_decide_eq_true h1); omega)
      have ex : fld w 27 5 = idx := f.u5.trans (by have := (of_decide_eq_true h1); omega)
      refine (dec3B f.maj).trans ?_
      simp only [needZero, guardOk, if_true, decMaj3B, f.fn, f.rd, f.ra, f.stl, ezz, ex, h1]
    have f : F22 (enRR 0x01000077 d 0 0 stl + (idx * 2) * 2 ^ 26) 0x3B stl d 0 4 (idx * 2) := f22 (maj := 0x3B) (k := 4) (e := idx * 2) rfl rfl (by decide) (by decide) (lt_reg h0) (by decide) (lt_stl h2) (by have := (of_decide_eq_true h1); omega)
    exact ⟨f.toWord32, by decide, D _ f⟩

theorem tquery (d : Nat) (a : Nat) (stl : Nat) : RoundTrip.Statement (.tquery d a stl) :=
  trip32 (w := enRR 0x01400077 d a 0 stl + (0) * 2 ^ 26) (maj := 0x3B) (stl := stl) (congrArg some (congrArg (fun w => [fld w 0 16, fld w 16 16]) (by unfold enRR; omega))) rfl fun hw => by
    obtain ⟨hw, h2⟩ := wf2 hw
    obtain ⟨h0, h1⟩ := wf2 hw
    have D : ∀ w, F22 w 0x3B stl d a 5 (0) → decodeWord w = .ok (.tquery d a stl) := fun w f => by
      refine (dec3B f.maj).trans ?_
      simp only [needZero, if_true, decMaj3B, f.fn, f.rd, f.ra, f.stl, f.u6]
    have f : F22 (enRR 0x01400077 d a 0 stl + (0) * 2 ^ 26) 0x3B stl d a 5 (0) := f22 (maj := 0x3B) (k := 5) (e := 0) rfl rfl (by decide) (by decide) (lt_reg h0) (lt_reg h1) (lt_stl h2) (by decide)
    exact ⟨f.toWord32, by decide, D _ f⟩

theorem tclaim (d : Nat) (a : Nat) (stl : Nat) : RoundTrip.Statement (.tclaim d a stl) :=
  trip32 (w := enRR 0x01800077 d a 0 stl + (0) * 2 ^ 26) (maj := 0x3B) (stl := stl) (congrArg some (congrArg (fun w => [fld w 0 16, fld w 16 16]) (by unfold enRR; omega))) rfl fun hw => by
    obtain ⟨hw, h2⟩ := wf2 hw
    obtain ⟨h0, h1⟩ := wf2 hw
    have D : ∀ w, F22 w 0x3B stl d a 6 (0) → decodeWord w = .ok (.tclaim d a stl) := fun w f => by
      refine (dec3B f.maj).trans ?_
      simp only [needZero, if_true, decMaj3B, f.fn, f.rd, f.ra, f.stl, f.u6]
    have f : F22 (enRR 0x01800077 d a 0 stl + (0) * 2 ^ 26) 0x3B stl d a 6 (0) := f22 (maj := 0x3B) (k := 6) (e := 0) rfl rfl (by decide) (by decide) (lt_reg h0) (lt_reg h1) (lt_stl h2) (by decide)
    exact ⟨f.toWord32, by decide, D _ f⟩

theorem tlaunch (d : Nat) (a : Nat) (stl : Nat) : RoundTrip.Statement (.tlaunch d a stl) :=
  trip32 (w := enRR 0x01C00077 d a 0 stl + (0) * 2 ^ 26) (maj := 0x3B) (stl := stl) (congrArg some (congrArg (fun w => [fld w 0 16, fld w 16 16]) (by unfold enRR; omega))) rfl fun hw => by
    obtain ⟨hw, h2⟩ := wf2 hw
    obtain ⟨h0, h1⟩ := wf2 hw
    have D : ∀ w, F22 w 0x3B stl d a 7 (0) → decodeWord w = .ok (.tlaunch d a stl) := fun w f => by
      refine (dec3B f.maj).trans ?_
      simp only [needZero, if_true, decMaj3B, f.fn, f.rd, f.ra, f.stl, f.u6]
    have f : F22 (enRR 0x01C00077 d a 0 stl + (0) * 2 ^ 26) 0x3B stl d a 7 (0) := f22 (maj := 0x3B) (k := 7) (e := 0) rfl rfl (by decide) (by decide) (lt_reg h0) (lt_reg h1) (lt_stl h2) (by decide)
    exact ⟨f.toWord32, by decide, D _ f⟩

theorem tyield (idx : Nat) (stl : Nat) : RoundTrip.Statement (.tyield idx stl) :=
  trip32 (w := enRR 0x02000077 0 0 0 stl + (idx * 2) * 2 ^ 26) (maj := 0x3B) (stl := stl) (congrArg some (congrArg (fun w => [fld w 0 16, fld w 16 16]) (by unfold enRR; omega))) rfl fun hw => by
    obtain ⟨h0, h1⟩ := wf2 hw
    have D : ∀ w, F22 w 0x3B stl 0 0 8 (idx * 2) → decodeWord w = .ok (.tyield idx stl) := fun w f => by
      have ez : fld w 10 12 = 0 := f.rda
      have ezz : fld w 26 1 = 0 := f.e1.trans (by have := (of_decide_eq_true h0); omega)
      have ex : fld w 27 5 = idx := f.u5.trans (by have := (of_decide_eq_true h0); omega)
      refine (dec3B f.maj).trans ?_
      simp only [needZero, guardOk, if_true, decMaj3B, f.fn, f.stl, ez, ezz, ex, h0]
    have f : F22 (enRR 0x02000077 0 0 0 stl + (idx * 2) * 2 ^ 26) 0x3B stl 0 0 8 (idx * 2) := f22 (maj := 0x3B) (k := 8) (e := idx * 2) rfl rfl (by decide) (by decide) (by decide) (by decide) (lt_stl h1) (by have := (of_decide_eq_true h0); omega)
    exact ⟨f.toWord32, by decide, D _ f⟩

theorem fence (sc : Scope) (stl : Nat) : RoundTrip.Statement (.fence sc stl) :=
  trip32 (w := enRR 0x00000079 0 0 0 stl + (sc.code) * 2 ^ 26) (maj := 0x3C) (stl := stl) rfl rfl fun hw => by
    have h0 := hw
    have D : ∀ w, F22 w 0x3C stl 0 0 0 (sc.code) → decodeWord w = .ok (.fence sc stl) := fun w f => by
      have ez : fld w 10 12 = 0 := f.rda
      have ezz : fld w 29 3 = 0 := f.u3.trans (by have := (ofCode_scope sc).2; omega)
      have ex : fld w 26 3 = sc.code := f.e3.trans (by have := (ofCode_scope sc).2; omega)
      refine (dec3C f.maj).trans ?_
      simp only [needZero, withOpt, if_true, decMaj3C, f.fn, f.stl, ez, ezz, ex, (ofCode_scope sc).1]
    have f : F22 (enRR 0x00000079 0 0 0 stl + (sc.code) * 2 ^ 26) 0x3C stl 0 0 0 (sc.code) := f22 (maj := 0x3C) (k := 0) (e := sc.code) rfl rfl (by decide) (by decide) (by decide) (by decide) (lt_stl h0) (by have := (ofCode_scope sc).2; omega)
    exact ⟨f.toWord32, by decide, D _ f⟩

theorem ldAcq (d : Nat) (a : Nat) (sc : Scope) (stl : Nat) : RoundTrip.Statement (.ldAcq d a sc stl) :=
  trip32 (w := enRR 0x00400079 d a 0 stl + (sc.code) * 2 ^ 26) (maj := 0x3C) (stl := stl) rfl rfl fun hw => by
    obtain ⟨hw, h2⟩ := wf2 hw
    obtain ⟨h0, h1⟩ := wf2 hw
    have D : ∀ w, F22 w 0x3C stl d a 1 (sc.code) → decodeWord w = .ok (.ldAcq d a sc stl) := fun w f => by
      have ezz : fld w 29 3 = 0 := f.u3.trans (by have := (ofCode_scope sc).2; omega)
      have ex : fld w 26 3 = sc.code := f.e3.trans (by have := (ofCode_scope sc).2; omega)
      refine (dec3C f.maj).trans ?_
      simp only [needZero, withOpt, if_true, decMaj3C, f.fn, f.rd, f.ra, f.stl, ezz, ex, (ofCode_scope sc).1]
    have f : F22 (enRR 0x00400079 d a 0 stl + (sc.code) * 2 ^ 26) 0x3C stl d a 1 (sc.code) := f22 (maj := 0x3C) (k := 1) (e := sc.code) rfl rfl (by decide) (by decide) (lt_reg h0) (lt_reg h1) (lt_stl h2) (by have := (ofCode_scope sc).2; omega)
    exact ⟨f.toWord32, by decide, D _ f⟩

theorem stRel (d : Nat) (a : Nat) (sc : Scope) (stl : Nat) : RoundTrip.Statement (.stRel d a sc stl) :=
  trip32 (w := enRR 0x00800079 d a 0 stl + (sc.code) * 2 ^ 26) (maj := 0x3C) (stl := stl) rfl rfl fun hw => by
    obtain ⟨hw, h2⟩ := wf2 hw
    obtain ⟨h0, h1⟩ := wf2 hw
    have D : ∀ w, F22 w 0x3C stl d a 2 (sc.code) → decodeWord w = .ok (.stRel d a sc stl) := fun w f => by
      have ezz : fld w 29 3 = 0 := f.u3.trans (by have := (ofCode_scope sc).2; omega)
      have ex : fld w 26 3 = sc.code := f.e3.trans (by have := (ofCode_scope sc).2; omega)
      refine (dec3C f.maj).trans ?_
      simp only [needZero, withOpt, if_true, decMaj3C, f.fn, f.rd, f.ra, f.stl, ezz, ex, (ofCode_scope sc).1]
    have f : F22 (enRR 0x00800079 d a 0 stl + (sc.code) * 2 ^ 26) 0x3C stl d a 2 (sc.code) := f22 (maj := 0x3C) (k := 2) (e := sc.code) rfl rfl (by decide) (by decide) (lt_reg h0) (lt_reg h1) (lt_stl h2) (by have := (ofCode_scope sc).2; omega)
    exact ⟨f.toWord32, by decide, D _ f⟩

theorem acqpDev (d : Nat) (a : Nat) (b : Nat) (stl : Nat) : RoundTrip.Statement (.acqpDev d a b stl) :=
  trip32 (w := enRR 0x0000007B d a b stl) (maj := 0x3D) (stl := stl) rfl rfl fun hw => by
    obtain ⟨hw, h3⟩ := wf2 hw
    obtain ⟨hw, h2⟩ := wf2 hw
    obtain ⟨h0, h1⟩ := wf2 hw
    have D : ∀ w, F28 w 0x3D stl d a b 0 → decodeWord w = .ok (.acqpDev d a b stl) := fun w f => by
      refine (dec3D f.maj).trans ?_
      simp only [decMaj3D, f.fn, f.rd, f.ra, f.rb, f.stl]
    have f : F28 (enRR 0x0000007B d a b stl) 0x3D stl d a b 0 := f28 (maj := 0x3D) (k := 0) rfl (by decide) (by decide) (lt_reg h0) (lt_reg h1) (lt_reg h2) (lt_stl h3)
    exact ⟨f.toWord32, by decide, D _ f⟩

theorem acqpSys (d : Nat) (a : Nat) (b : Nat) (stl : Nat) : RoundTrip.Statement (.acqpSys d a b stl) :=
  trip32 (w := enRR 0x1000007B d a b stl) (maj := 0x3D) (stl := stl) rfl rfl fun hw => by
    obtain ⟨hw, h3⟩ := wf2 hw
    obtain ⟨hw, h2⟩ := wf2 hw
    obtain ⟨h0, h1⟩ := wf2 hw
    have D : ∀ w, F28 w 0x3D stl d a b 1 → decodeWord w = .ok (.acqpSys d a b stl) := fun w f => by
      refine (dec3D f.maj).trans ?_
      simp only [decMaj3D, f.fn, f.rd, f.ra, f.rb, f.stl]
    have f : F28 (enRR 0x1000007B d a b stl) 0x3D stl d a b 1 := f28 (maj := 0x3D) (k := 1) rfl (by decide) (by decide) (lt_reg h0) (lt_reg h1) (lt_reg h2) (lt_stl h3)
    exact ⟨f.toWord32, by decide, D _ f⟩

theorem phnew (d : Nat) (a : Nat) (sc : Scope) (stl : Nat) : RoundTrip.Statement (.phnew d a sc stl) :=
  trip32 (w := enRR 0x0000001F d a 0 stl + (sc.code) * 2 ^ 26) (maj := 0x0F) (stl := stl) rfl rfl fun hw => by
    obtain ⟨hw, h3⟩ := wf2 hw
    obtain ⟨hw, h2⟩ := wf2 hw
    obtain ⟨h0, h1⟩ := wf2 hw
    have D : ∀ w, F22 w 0x0F stl d a 0 (sc.code) → decodeWord w = .ok (.phnew d a sc stl) := fun w f => by
      have ezz : fld w 29 3 = 0 := f.u3.trans (by have := (ofCode_scope sc).2; omega)
      have ex : fld w 26 3 = sc.code := f.e3.trans (by have := (ofCode_scope sc).2; omega)
      refine (dec0F f.maj).trans ?_
      simp only [needZero, withOpt, guardOk, if_true, decMaj0F, f.fn, f.rd, f.ra, f.stl, ezz, ex, (ofCode_scope sc).1, h2]
    have f : F22 (enRR 0x0000001F d a 0 stl + (sc.code) * 2 ^ 26) 0x0F stl d a 0 (sc.code) := f22 (maj := 0x0F) (k := 0) (e := sc.code) rfl rfl (by decide) (by decide) (lt_reg h0) (lt_reg h1) (lt_stl h3) (by have := (ofCode_scope sc).2; omega)
    exact ⟨f.toWord32, by decide, D _ f⟩

theorem phfree (d : Nat) (a : Nat) (stl : Nat) : RoundTrip.Statement (.phfree d a stl) :=
  trip32 (w := enRR 0x0040001F d a 0 stl + (0) * 2 ^ 26) (maj := 0x0F) (stl := stl) (congrArg some (congrArg (fun w => [fld w 0 16, fld w 16 16]) (by unfold enRR; omega))) rfl fun hw => by
    obtain ⟨hw, h2⟩ := wf2 hw
    obtain ⟨h0, h1⟩ := wf2 hw
    have D : ∀ w, F22 w 0x0F stl d a 1 (0) → decodeWord w = .ok (.phfree d a stl) := fun w f => by
      refine (dec0F f.maj).trans ?_
      simp only [needZero, if_true, decMaj0F, f.fn, f.rd, f.ra, f.stl, f.u6]
    have f : F22 (enRR 0x0040001F d a 0 stl + (0) * 2 ^ 26) 0x0F stl d a 1 (0) := f22 (maj := 0x0F) (k := 1) (e := 0) rfl rfl (by decide) (by decide) (lt_reg h0) (lt_reg h1) (lt_stl h2) (by decide)
    exact ⟨f.toWord32, by decide, D _ f⟩

theorem phreg (d : Nat) (a : Nat) (md : PhMode) (stl : Nat) : RoundTrip.Statement (.phreg d a md stl) :=
  trip32 (w := enRR 0x0080001F d a 0 stl + (md.code) * 2 ^ 26) (maj := 0x0F) (stl := stl) rfl rfl fun hw => by
    obtain ⟨hw, h2⟩ := wf2 hw
    obtain ⟨h0, h1⟩ := wf2 hw
    have D : ∀ w, F22 w 0x0F stl d a 2 (md.code) → decodeWord w = .ok (.phreg d a md stl) := fun w f => by
      have ezz : fld w 28 4 = 0 := f.u4.trans (by have := (ofCode_phMode md).2; omega)
      have ex : fld w 26 2 = md.code := f.e2.trans (by have := (ofCode_phMode md).2; omega)
      refine (dec0F f.maj).trans ?_
      simp only [needZero, withOpt, if_true, decMaj0F, f.fn, f.rd, f.ra, f.stl, ezz, ex, (ofCode_phMode md).1]
    have f : F22 (enRR 0x0080001F d a 0 stl + (md.code) * 2 ^ 26) 0x0F stl d a 2 (md.code) := f22 (maj := 0x0F) (k := 2) (e := md.code) rfl rfl (by decide) (by decide) (lt_reg h0) (lt_reg h1) (lt_stl h2) (by have := (ofCode_phMode md).2; omega)
    exact ⟨f.toWord32, by decide, D _ f⟩

theorem phdrop (d : Nat) (a : Nat) (stl : Nat) : RoundTrip.Statement (.phdrop d a stl) :=
  trip32 (w := enRR 0x00C0001F d a 0 stl + (0) * 2 ^ 26) (maj := 0x0F) (stl := stl) (congrArg some (congrArg (fun w => [fld w 0 16, fld w 16 16]) (by unfold enRR; omega))) rfl fun hw => by
    obtain ⟨hw, h2⟩ := wf2 hw
    obtain ⟨h0, h1⟩ := wf2 hw
    have D : ∀ w, F22 w 0x0F stl d a 3 (0) → decodeWord w = .ok (.phdrop d a stl) := fun w f => by
      refine (dec0F f.maj).trans ?_
      simp only [needZero, if_true, decMaj0F, f.fn, f.rd, f.ra, f.stl, f.u6]
    have f : F22 (enRR 0x00C0001F d a 0 stl + (0) * 2 ^ 26) 0x0F stl d a 3 (0) := f22 (maj := 0x0F) (k := 3) (e := 0) rfl rfl (by decide) (by decide) (lt_reg h0) (lt_reg h1) (lt_stl h2) (by decide)
    exact ⟨f.toWord32, by decide, D _ f⟩

theorem phsig (d : Nat) (a : Nat) (stl : Nat) : RoundTrip.Statement (.phsig d a stl) :=
  trip32 (w := enRR 0x0100001F d a 0 stl + (0) * 2 ^ 26) (maj := 0x0F) (stl := stl) (congrArg some (congrArg (fun w => [fld w 0 16, fld w 16 16]) (by unfold enRR; omega))) rfl fun hw => by
    obtain ⟨hw, h2⟩ := wf2 hw
    obtain ⟨h0, h1⟩ := wf2 hw
    have D : ∀ w, F22 w 0x0F stl d a 4 (0) → decodeWord w = .ok (.phsig d a stl) := fun w f => by
      refine (dec0F f.maj).trans ?_
      simp only [needZero, if_true, decMaj0F, f.fn, f.rd, f.ra, f.stl, f.u6]
    have f : F22 (enRR 0x0100001F d a 0 stl + (0) * 2 ^ 26) 0x0F stl d a 4 (0) := f22 (maj := 0x0F) (k := 4) (e := 0) rfl rfl (by decide) (by decide) (lt_reg h0) (lt_reg h1) (lt_stl h2) (by decide)
    exact ⟨f.toWord32, by decide, D _ f⟩

theorem phwait (d : Nat) (a : Nat) (stl : Nat) : RoundTrip.Statement (.phwait d a stl) :=
  trip32 (w := enRR 0x0140001F d a 0 stl + (0) * 2 ^ 26) (maj := 0x0F) (stl := stl) (congrArg some (congrArg (fun w => [fld w 0 16, fld w 16 16]) (by unfold enRR; omega))) rfl fun hw => by
    obtain ⟨hw, h2⟩ := wf2 hw
    obtain ⟨h0, h1⟩ := wf2 hw
    have D : ∀ w, F22 w 0x0F stl d a 5 (0) → decodeWord w = .ok (.phwait d a stl) := fun w f => by
      refine (dec0F f.maj).trans ?_
      simp only [needZero, if_true, decMaj0F, f.fn, f.rd, f.ra, f.stl, f.u6]
    have f : F22 (enRR 0x0140001F d a 0 stl + (0) * 2 ^ 26) 0x0F stl d a 5 (0) := f22 (maj := 0x0F) (k := 5) (e := 0) rfl rfl (by decide) (by decide) (lt_reg h0) (lt_reg h1) (lt_stl h2) (by decide)
    exact ⟨f.toWord32, by decide, D _ f⟩

theorem phnext (d : Nat) (a : Nat) (stl : Nat) : RoundTrip.Statement (.phnext d a stl) :=
  trip32 (w := enRR 0x0180001F d a 0 stl + (0) * 2 ^ 26) (maj := 0x0F) (stl := stl) (congrArg some (congrArg (fun w => [fld w 0 16, fld w 16 16]) (by unfold enRR; omega))) rfl fun hw => by
    obtain ⟨hw, h2⟩ := wf2 hw
    obtain ⟨h0, h1⟩ := wf2 hw
    have D : ∀ w, F22 w 0x0F stl d a 6 (0) → decodeWord w = .ok (.phnext d a stl) := fun w f => by
      refine (dec0F f.maj).trans ?_
      simp only [needZero, if_true, decMaj0F, f.fn, f.rd, f.ra, f.stl, f.u6]
    have f : F22 (enRR 0x0180001F d a 0 stl + (0) * 2 ^ 26) 0x0F stl d a 6 (0) := f22 (maj := 0x0F) (k := 6) (e := 0) rfl rfl (by decide) (by decide) (lt_reg h0) (lt_reg h1) (lt_stl h2) (by decide)
    exact ⟨f.toWord32, by decide, D _ f⟩

theorem phq (d : Nat) (a : Nat) (stl : Nat) : RoundTrip.Statement (.phq d a stl) :=
  trip32 (w := enRR 0x01C0001F d a 0 stl + (0) * 2 ^ 26) (maj := 0x0F) (stl := stl) (congrArg some (congrArg (fun w => [fld w 0 16, fld w 16 16]) (by unfold enRR; omega))) rfl fun hw => by
    obtain ⟨hw, h2⟩ := wf2 hw
    obtain ⟨h0, h1⟩ := wf2 hw
    have D : ∀ w, F22 w 0x0F stl d a 7 (0) → decodeWord w = .ok (.phq d a stl) := fun w f => by
      refine (dec0F f.maj).trans ?_
      simp only [needZero, if_true, decMaj0F, f.fn, f.rd, f.ra, f.stl, f.u6]
    have f : F22 (enRR 0x01C0001F d a 0 stl + (0) * 2 ^ 26) 0x0F stl d a 7 (0) := f22 (maj := 0x0F) (k := 7) (e := 0) rfl rfl (by decide) (by decide) (lt_reg h0) (lt_reg h1) (lt_stl h2) (by decide)
    exact ⟨f.toWord32, by decide, D _ f⟩

theorem illegalEncoding (ibits : Nat) (len : Nat) : RoundTrip.Statement (.illegalEncoding ibits len) := trip_none rfl (.inr ⟨_, _, rfl⟩)

theorem resultLands (core : Nat) (k : Nat) : RoundTrip.Statement (.resultLands core k) := trip_none rfl (.inl rfl)

theorem storeBufferEntryLeaves (core : Nat) : RoundTrip.Statement (.storeBufferEntryLeaves core) := trip_none rfl (.inl rfl)

theorem atomicPerformed (core : Nat) : RoundTrip.Statement (.atomicPerformed core) := trip_none rfl (.inl rfl)

theorem reductionApplied (k : Nat) : RoundTrip.Statement (.reductionApplied k) := trip_none rfl (.inl rfl)

theorem reductionAtPort (core : Nat) : RoundTrip.Statement (.reductionAtPort core) := trip_none rfl (.inl rfl)

theorem combiningEntryExpiry (port : Nat) (k : Nat) : RoundTrip.Statement (.combiningEntryExpiry port k) := trip_none rfl (.inl rfl)

theorem promotionRequest (core : Nat) : RoundTrip.Statement (.promotionRequest core) := trip_none rfl (.inl rfl)

theorem bankSwitchBegin (die : Nat) (cl : Nat) (bank : Nat) : RoundTrip.Statement (.bankSwitchBegin die cl bank) := trip_none rfl (.inl rfl)

theorem bankSwitchEnd (die : Nat) (cl : Nat) (bank : Nat) : RoundTrip.Statement (.bankSwitchEnd die cl bank) := trip_none rfl (.inl rfl)

theorem sectorDone (die : Nat) (slot : Nat) (entry : Nat) (sector : Nat) : RoundTrip.Statement (.sectorDone die slot entry sector) := trip_none rfl (.inl rfl)

theorem entryFault (die : Nat) (slot : Nat) (entry : Nat) : RoundTrip.Statement (.entryFault die slot entry) := trip_none rfl (.inl rfl)

theorem copyStart (core : Nat) : RoundTrip.Statement (.copyStart core) := trip_none rfl (.inl rfl)

theorem segmentDone (core : Nat) (ticket : Nat) (seg : Nat) : RoundTrip.Statement (.segmentDone core ticket seg) := trip_none rfl (.inl rfl)

theorem copyFault (core : Nat) (ticket : Nat) : RoundTrip.Statement (.copyFault core ticket) := trip_none rfl (.inl rfl)

theorem streamWordDelivery (core : Nat) (strm : Nat) : RoundTrip.Statement (.streamWordDelivery core strm) := trip_none rfl (.inl rfl)

theorem vectorBind (die : Nat) (cl : Nat) : RoundTrip.Statement (.vectorBind die cl) := trip_none rfl (.inl rfl)

theorem tripIssue (core : Nat) : RoundTrip.Statement (.tripIssue core) := trip_none rfl (.inl rfl)

theorem matrixCommandStart (die : Nat) (cl : Nat) : RoundTrip.Statement (.matrixCommandStart die cl) := trip_none rfl (.inl rfl)

theorem matrixCommandComplete (die : Nat) (cl : Nat) : RoundTrip.Statement (.matrixCommandComplete die cl) := trip_none rfl (.inl rfl)

theorem rotationTileArrival (die : Nat) (cl : Nat) : RoundTrip.Statement (.rotationTileArrival die cl) := trip_none rfl (.inl rfl)

theorem leaseIdleTimeout (die : Nat) (cl : Nat) : RoundTrip.Statement (.leaseIdleTimeout die cl) := trip_none rfl (.inl rfl)

theorem counterSatisfied (die : Nat) (k : Nat) : RoundTrip.Statement (.counterSatisfied die k) := trip_none rfl (.inl rfl)

theorem taskOffer (die : Nat) : RoundTrip.Statement (.taskOffer die) := trip_none rfl (.inl rfl)

theorem tnextTimeout (core : Nat) : RoundTrip.Statement (.tnextTimeout core) := trip_none rfl (.inl rfl)

theorem placementRank (die : Nat) : RoundTrip.Statement (.placementRank die) := trip_none rfl (.inl rfl)

theorem settle (die : Nat) : RoundTrip.Statement (.settle die) := trip_none rfl (.inl rfl)

theorem settleComplete (die : Nat) (k : Nat) : RoundTrip.Statement (.settleComplete die k) := trip_none rfl (.inl rfl)

theorem migrationDecision (lid : Nat) : RoundTrip.Statement (.migrationDecision lid) := trip_none rfl (.inl rfl)

theorem quenchTick (vf : Nat) : RoundTrip.Statement (.quenchTick vf) := trip_none rfl (.inl rfl)

theorem flushToken (die : Nat) (vf : Nat) : RoundTrip.Statement (.flushToken die vf) := trip_none rfl (.inl rfl)

theorem spillDone (core : Nat) : RoundTrip.Statement (.spillDone core) := trip_none rfl (.inl rfl)

theorem spillFault (core : Nat) : RoundTrip.Statement (.spillFault core) := trip_none rfl (.inl rfl)

theorem clusterSpill (die : Nat) (cl : Nat) : RoundTrip.Statement (.clusterSpill die cl) := trip_none rfl (.inl rfl)

theorem qctlGo (vf : Nat) (tick : Nat) : RoundTrip.Statement (.qctlGo vf tick) := trip_none rfl (.inl rfl)

theorem corecmdContinueSpill (core : Nat) : RoundTrip.Statement (.corecmdContinueSpill core) := trip_none rfl (.inl rfl)

theorem corecmdRestore (core : Nat) (vcore : Nat) : RoundTrip.Statement (.corecmdRestore core vcore) := trip_none rfl (.inl rfl)

theorem corecmdRunInPlace (core : Nat) (vcore : Nat) : RoundTrip.Statement (.corecmdRunInPlace core vcore) := trip_none rfl (.inl rfl)

theorem packetHoldExpiry (k : Nat) : RoundTrip.Statement (.packetHoldExpiry k) := trip_none rfl (.inl rfl)

theorem orphrel (die : Nat) (cl : Nat) (mask : BitVec 64) : RoundTrip.Statement (.orphrel die cl mask) := trip_none rfl (.inl rfl)

theorem haltQueueRemove (die : Nat) (vf : Nat) : RoundTrip.Statement (.haltQueueRemove die vf) := trip_none rfl (.inl rfl)

theorem faultQueueRemove (die : Nat) (vf : Nat) : RoundTrip.Statement (.faultQueueRemove die vf) := trip_none rfl (.inl rfl)

theorem errorLogRemove (die : Nat) (log : Nat) : RoundTrip.Statement (.errorLogRemove die log) := trip_none rfl (.inl rfl)

theorem invalidateCmd (die : Nat) (vf : Nat) (cmd : BitVec 64) : RoundTrip.Statement (.invalidateCmd die vf cmd) := trip_none rfl (.inl rfl)

theorem invalidateComplete (die : Nat) (vf : Nat) : RoundTrip.Statement (.invalidateComplete die vf) := trip_none rfl (.inl rfl)

theorem commit (die : Nat) : RoundTrip.Statement (.commit die) := trip_none rfl (.inl rfl)

theorem ownershipBitmapWrite (unit : Nat) (off : Nat) (val : BitVec 64) : RoundTrip.Statement (.ownershipBitmapWrite unit off val) := trip_none rfl (.inl rfl)

theorem corevfWrite (core : Nat) (vf : Nat) : RoundTrip.Statement (.corevfWrite core vf) := trip_none rfl (.inl rfl)

theorem remapWrite (v : Nat) (val : BitVec 64) : RoundTrip.Statement (.remapWrite v val) := trip_none rfl (.inl rfl)

theorem sparectl (die : Nat) (val : BitVec 64) : RoundTrip.Statement (.sparectl die val) := trip_none rfl (.inl rfl)

theorem packageBudgetWrite (val : BitVec 64) : RoundTrip.Statement (.packageBudgetWrite val) := trip_none rfl (.inl rfl)

theorem coreclkWrite (core : Nat) (val : BitVec 64) : RoundTrip.Statement (.coreclkWrite core val) := trip_none rfl (.inl rfl)

theorem rowvWrite (die : Nat) (row : Nat) (val : BitVec 64) : RoundTrip.Statement (.rowvWrite die row val) := trip_none rfl (.inl rfl)

theorem hopAbort (core : Nat) : RoundTrip.Statement (.hopAbort core) := trip_none rfl (.inl rfl)

theorem hopRetry (core : Nat) : RoundTrip.Statement (.hopRetry core) := trip_none rfl (.inl rfl)

theorem activityWindow (die : Nat) (cl : Nat) : RoundTrip.Statement (.activityWindow die cl) := trip_none rfl (.inl rfl)

theorem budgetInterval : RoundTrip.Statement .budgetInterval := trip_none rfl (.inl rfl)

theorem clockGate (core : Nat) : RoundTrip.Statement (.clockGate core) := trip_none rfl (.inl rfl)

theorem powerGate (core : Nat) : RoundTrip.Statement (.powerGate core) := trip_none rfl (.inl rfl)

theorem residencyTimer (core : Nat) : RoundTrip.Statement (.residencyTimer core) := trip_none rfl (.inl rfl)

theorem sleepDeadline (core : Nat) : RoundTrip.Statement (.sleepDeadline core) := trip_none rfl (.inl rfl)

theorem wakeDoorbell (core : Nat) : RoundTrip.Statement (.wakeDoorbell core) := trip_none rfl (.inl rfl)

theorem counterCredit (vcore : Nat) (vf : Nat) (ev : Nat) (n : Nat) : RoundTrip.Statement (.counterCredit vcore vf ev n) := trip_none rfl (.inl rfl)

theorem pcSample (core : Nat) (reason : Nat) : RoundTrip.Statement (.pcSample core reason) := trip_none rfl (.inl rfl)

theorem memorySample (core : Nat) (req : MemSample) : RoundTrip.Statement (.memorySample core req) := trip_none rfl (.inl rfl)

theorem hostRequestTail (q : Nat) (tail : BitVec 32) : RoundTrip.Statement (.hostRequestTail q tail) := trip_none rfl (.inl rfl)

theorem hostRequestTake (core : Nat) : RoundTrip.Statement (.hostRequestTake core) := trip_none rfl (.inl rfl)

theorem frouteWrite (ep : Nat) (val : BitVec 64) : RoundTrip.Statement (.frouteWrite ep val) := trip_none rfl (.inl rfl)

theorem fabricRequest (req : FabricReq) : RoundTrip.Statement (.fabricRequest req) := trip_none rfl (.inl rfl)

theorem flitCrcFailure (die : Nat) (fails : Nat) : RoundTrip.Statement (.flitCrcFailure die fails) := trip_none rfl (.inl rfl)

theorem powerUpReset : RoundTrip.Statement .powerUpReset := trip_none rfl (.inl rfl)

theorem bootgo : RoundTrip.Statement .bootgo := trip_none rfl (.inl rfl)

theorem attgo : RoundTrip.Statement .attgo := trip_none rfl (.inl rfl)

theorem attestationDone : RoundTrip.Statement .attestationDone := trip_none rfl (.inl rfl)

theorem hbm4Scrub (word : Nat) (uncorrectable : Bool) (spare : Bool) : RoundTrip.Statement (.hbm4Scrub word uncorrectable spare) := trip_none rfl (.inl rfl)

theorem registerWrite (unit : Nat) (off : Nat) (val : BitVec 64) : RoundTrip.Statement (.registerWrite unit off val) := trip_none rfl (.inl rfl)

theorem sleepEndWithoutCause (core : Nat) : RoundTrip.Statement (.sleepEndWithoutCause core) := trip_none rfl (.inl rfl)

theorem writeBackAcknowledged (die : Nat) (line : Nat) : RoundTrip.Statement (.writeBackAcknowledged die line) := trip_none rfl (.inl rfl)

theorem endpointStoreApplied (k : Nat) : RoundTrip.Statement (.endpointStoreApplied k) := trip_none rfl (.inl rfl)

theorem traceRecordPerformed (die : Nat) (vf : Nat) : RoundTrip.Statement (.traceRecordPerformed die vf) := trip_none rfl (.inl rfl)

end Sys2Proof.Laws.RoundTrip
end

