-- ==== Sys2Proof/Laws/Scalar.lean ====
section
/-! SUPPORT. The shapes of the scalar instructions: what each does where nothing stands in its way. -/
namespace Sys2Proof.Machine

/-- `binX` (R147): X(D) := f (X(A), X(B)). -/
theorem State.Clear.binX {s : State} {lat d a b stl : Nat} (f : Word → Word → Word) (v : Word)
    (h : s.Clear { xs := [a, b], xd := [d], gate := false }) (hv : f (s.core.x a) (s.core.x b) = v) :
    ∃ t, s.binX lat f d a b stl = .next t ∧ s.Completes t (s.core.pc + 4) stl ∧
      s.core.Receives t.core (some lat) d v := by
  unfold State.binX
  have := h.scalar (lat := some lat) (d := d) (v := v) (len := 4) (stl := stl) (k := fun s =>
    (s.updCore fun c => let v := f (c.x a) (c.x b); if lat = 1 then c.setX d v else c.setXIn lat d v).retire 4 stl) (by
      subst hv
      have ha := h.x_atIssue a
      have hb := h.x_atIssue b
      generalize s.atIssue = s' at ha hb
      exact congrArg (State.retire · 4 stl) (State.updCore_congr (by simp only [Core.result_fixed, ha, hb])))
  exact this

/-- `unX` (R147, R149, R150): X(D) := f (X(A)). -/
theorem State.Clear.unX {s : State} {d a stl : Nat} (f : Word → Word) (v : Word)
    (h : s.Clear { xs := [a], xd := [d], gate := false }) (hv : f (s.core.x a) = v) :
    ∃ t, s.unX f d a stl = .next t ∧ s.Completes t (s.core.pc + 4) stl ∧ s.core.Receives t.core (some 1) d v := by
  unfold State.unX
  have := h.scalar (lat := some 1) (d := d) (v := v) (len := 4) (stl := stl) (k := fun s =>
    (s.updCore fun c => c.setX d (f (c.x a))).retire 4 stl) (by
      subst hv
      have ha := h.x_atIssue a
      generalize s.atIssue = s' at ha
      exact congrArg (State.retire · 4 stl) (State.updCore_congr (by rw [ha]; rfl)))
  exact this

/-- `keepX` (R151): X(D) := f (X(D)). -/
theorem State.Clear.keepX {s : State} {d stl : Nat} (f : Word → Word) (v : Word)
    (h : s.Clear { xs := [d], xd := [d], gate := false }) (hv : f (s.core.x d) = v) :
    ∃ t, s.keepX f d stl = .next t ∧ s.Completes t (s.core.pc + 4) stl ∧ s.core.Receives t.core (some 1) d v := by
  unfold State.keepX
  have := h.scalar (lat := some 1) (d := d) (v := v) (len := 4) (stl := stl) (k := fun s =>
    (s.updCore fun c => c.setX d (f (c.x d))).retire 4 stl) (by
      subst hv
      have ha := h.x_atIssue d
      generalize s.atIssue = s' at ha
      exact congrArg (State.retire · 4 stl) (State.updCore_congr (by rw [ha]; rfl)))
  exact this

/-- `divX` (R148): X(D) := f (X(A), X(B)) in flight, or DIVZ. -/
theorem State.Clear.divX {s : State} {d a b stl : Nat} (f : Word → Word → Word) (v : Word)
    (h : s.Clear { xs := [a, b], xd := [d], gate := false }) (hv : f (s.core.x a) (s.core.x b) = v) :
    (s.core.x b ≠ 0 → ∃ t, s.divX f d a b stl = .next t ∧ s.Completes t (s.core.pc + 4) stl ∧
      s.core.Receives t.core none d v) ∧
    (s.core.x b = 0 → s.core.trapOk = true →
      ∃ t, s.divX f d a b stl = .next t ∧ s.TakesTrap t s.core.pc 0x07 0) := by
  have ha := h.x_atIssue a
  have hb := h.x_atIssue b
  refine ⟨fun hn => ?_, fun hz hk => ?_⟩
  · unfold State.divX
    have := h.scalar (lat := none) (d := d) (v := v) (len := 4) (stl := stl) (k := fun s =>
      if s.core.x b = 0 then s.trap 7 0
      else (s.updCore fun c => c.setXVar d (f (c.x a) (c.x b))).retire 4 stl) (by
        subst hv
        generalize s.atIssue = s' at ha hb
        rw [← hb] at hn
        simp only [if_neg hn]
        exact congrArg (State.retire · 4 stl) (State.updCore_congr (by rw [ha, hb]; rfl)))
    exact this
  · unfold State.divX
    rw [s.issue_clear h]
    have := h.traps hk (cause := 7) (by decide) 0
    generalize s.atIssue = s' at hb this
    rw [← hb] at hz
    simp only [if_pos hz]
    exact this

end Sys2Proof.Machine
end

