-- ==== Sys2Proof/Tests/Slice0.lean ====
section
/-! SUPPORT. The model's own tests: ill-formed terms that well-formedness refuses, words written from the spec's field
tables, states that meet the hypotheses of the obligations, and single steps with values worked out from the spec. -/
namespace Sys2Proof.Tests

open Sys2Proof.Machine

-- One theorem after the other: a thread that waits for the kernel holds its stack.
set_option Elab.async false

/-! Well-formedness: for each check a term it refuses, beside one of the same shape that passes. -/

theorem test_wf_reg_dest : (Instr.add 64 1 2 0).wf = false ∧ (Instr.add 63 1 2 0).wf = true := by decide
theorem test_wf_reg_src1 : (Instr.add 1 64 2 0).wf = false := by decide
theorem test_wf_reg_src2 : (Instr.add 1 2 64 0).wf = false := by decide
theorem test_wf_stl : (Instr.add 1 2 3 8).wf = false ∧ (Instr.add 1 2 3 7).wf = true := by decide
theorem test_wf_csr : (Instr.csrr 0x006 1 0).wf = false ∧ (Instr.csrw 0x088 1 0).wf = false ∧
    (Instr.csrr 0x087 1 0).wf = true := by decide
theorem test_wf_window : (Instr.wset 1 32 0).wf = false ∧ (Instr.wset 1 31 0).wf = true := by decide
theorem test_wf_task_window : (Instr.tnext 1 2 28 0).wf = false ∧ (Instr.tdone 28 0).wf = false ∧
    (Instr.freeze 0 28 0).wf = false ∧ (Instr.tyield 27 0).wf = true := by decide
theorem test_wf_vpred : (Instr.vpred .f32 55 1 0).wf = false ∧ (Instr.vpred .f32 63 1 0).wf = false ∧
    (Instr.vpred .f32 56 1 0).wf = true := by decide
theorem test_wf_vidx : (Instr.vidx .f32 1 2 0).wf = false ∧ (Instr.vidx .i32 1 2 0).wf = true := by decide
theorem test_wf_sixteen_names : (Instr.vldtW 49 1 2 0).wf = false ∧ (Instr.vswap 49 0).wf = false ∧
    (Instr.vswap 48 0).wf = true := by decide
theorem test_wf_lane_index : (Instr.vextW 1 2 16 0).wf = false ∧ (Instr.vextD 1 2 8 0).wf = false ∧
    (Instr.vinsW 1 2 15 0).wf = true := by decide
theorem test_wf_unary_type : (Instr.vrcp .i32 1 2 0).wf = false ∧ (Instr.vexp2 .f64 1 2 0).wf = false ∧
    (Instr.vclz .f32 1 2 0).wf = false ∧ (Instr.vmxs .f64 1 2 0).wf = false ∧ (Instr.vsqrt .f64 1 2 0).wf = true := by
  decide
theorem test_wf_cvt_pair : (Instr.vcvt .f64 0 .bf16 1 2 0).wf = false ∧ (Instr.vcvt .f32 0 .bf16 1 2 0).wf = true := by
  decide
theorem test_wf_cvt_mode : (Instr.vcvt .f32 2 .i32 1 2 0).wf = false ∧ (Instr.vcvt .f32 3 .bf16 1 2 0).wf = true := by
  decide
theorem test_wf_trip : (Instr.vtrip 1 16 0 0 0 0).wf = false ∧ (Instr.vtrip 1 15 3 0 0 0).wf = false ∧
    (Instr.vtrip 1 15 2 16 0 0).wf = false ∧ (Instr.vtrip 1 15 2 15 64 0).wf = false ∧
    (Instr.vtrip 1 15 2 15 63 0).wf = true := by decide
theorem test_wf_short : (Instr.vmul16 true 32 1).wf = false ∧ (Instr.vmul16 true 1 32).wf = false ∧
    (Instr.vmul16 true 31 31).wf = true := by decide
theorem test_wf_short_zero : (Instr.vadd16 false 0 0).wf = false ∧ (Instr.vadd16 true 0 0).wf = true := by decide
theorem test_wf_prefix_rm_reserved : (Instr.pfx { rm := 7 } (.lane .f32 .add 1 2 3)).wf = false := by decide
theorem test_wf_prefix_rm_unused : (Instr.pfx { rm := 1 } (.lane .i32 .add 1 2 3)).wf = false ∧
    (Instr.pfx { rm := 1 } (.lane .f32 .add 1 2 3)).wf = true := by decide
theorem test_wf_prefix_c : (Instr.pfx { c := 1 } (.lane .f32 .mac 1 2 3)).wf = false ∧
    (Instr.pfx { c := 1, cv := true } (.lane .f32 .add 1 2 3)).wf = false ∧
    (Instr.pfx { c := 1, cv := true } (.lane .f32 .mac 1 2 3)).wf = true := by decide
theorem test_wf_prefix_pm : (Instr.pfx { pm := 1 } (.swap 0)).wf = false := by decide
theorem test_wf_prefix_z : (Instr.pfx { pm := 1, z := true } (.st .w 1 2 3)).wf = false ∧
    (Instr.pfx { pm := 1, z := true } (.ld .w 1 2 3)).wf = true := by decide
theorem test_wf_prefix_range : (Instr.pfx { c := 64, cv := true } (.lane .f32 .mac 1 2 3)).wf = false ∧
    (Instr.pfx { stl := 8 } (.lane .f32 .add 1 2 3)).wf = false ∧
    (Instr.pfx { pm := 8 } (.lane .f32 .add 1 2 3)).wf = false := by decide
theorem test_wf_prefixed_word : (Instr.pfx {} (.lane .f32 .add 64 2 3)).wf = false ∧
    (Instr.pfx {} (.un .rcp .i8 1 2)).wf = false ∧ (Instr.pfx { cv := true } (.ldg 1 2 3)).wf = false := by decide
theorem test_wf_first_fault : (Instr.vldffW {} 1 2 3).wf = false ∧ (Instr.vldffW { pm := 1 } 1 2 3).wf = true := by
  decide
theorem test_wf_gather : (Instr.vldgW {} 1 2 3).wf = false ∧ (Instr.vstsW {} 1 2 3).wf = false ∧
    (Instr.vldgW { cv := true } 1 2 3).wf = true := by decide
theorem test_wf_phaser_scope : (Instr.phnew 1 2 .core 0).wf = false ∧ (Instr.phnew 1 2 .dev 0).wf = true := by decide
theorem test_wf_parcels : (Instr.illegalEncoding 0 5).wf = false ∧ (Instr.illegalEncoding 0 4).wf = true := by decide
theorem test_wf_core : (Instr.resultLands 272 0).wf = false ∧ (Instr.resultLands 4096 0).wf = false ∧
    (Instr.resultLands 783 0).wf = true := by decide
theorem test_wf_die : (Instr.taskOffer 8).wf = false ∧ (Instr.taskOffer 7).wf = true := by decide
theorem test_wf_cluster : (Instr.vectorBind 0 34).wf = false ∧ (Instr.vectorBind 0 33).wf = true := by decide
theorem test_wf_bank : (Instr.bankSwitchBegin 0 0 24).wf = false ∧ (Instr.bankSwitchBegin 0 0 23).wf = true := by decide
theorem test_wf_stream : (Instr.streamWordDelivery 0 4).wf = false ∧ (Instr.streamWordDelivery 0 3).wf = true := by decide
theorem test_wf_vf : (Instr.quenchTick 16).wf = false ∧ (Instr.quenchTick 15).wf = true := by decide
theorem test_wf_virtual_core : (Instr.remapWrite 2048 0).wf = false ∧ (Instr.counterCredit 0 16 18 1).wf = false ∧
    (Instr.corecmdRestore 0 2048).wf = false := by decide
theorem test_wf_log : (Instr.errorLogRemove 0 17).wf = false ∧ (Instr.errorLogRemove 0 16).wf = true := by decide
theorem test_wf_row : (Instr.rowvWrite 0 17 0).wf = false ∧ (Instr.rowvWrite 0 16 0).wf = true := by decide
theorem test_wf_reason : (Instr.pcSample 0 18).wf = false ∧ (Instr.pcSample 0 17).wf = true := by decide
theorem test_wf_host : (Instr.hostRequestTail 1024 0).wf = false ∧ (Instr.hostRequestTake 4).wf = false ∧
    (Instr.frouteWrite 256 0).wf = false ∧ (Instr.registerWrite 10 0 0).wf = false := by decide

/-! Decoding: words put together from the field tables (R18, R21, R22, R24 to R29), one or more for each major. -/

/-- "Worked encodings" of 02_encoding.md. -/
theorem test_decode_worked_encoding :
    decodeTableWord 32 0x01C61401 = some (.add 5 6 7 0) ∧
    decodeTableWord 32 0x02CA2503 = some (.mul 9 10 11 2) ∧
    decodeTableWord 32 0xFFD1101D = some (.bnez 4 (-6) 0) ∧
    decodeTableWord 64 0x30C20445_00014C7D = some (.pfx { pm := 3, rm := 2, z := true } (.lane .f32 .mac 1 2 3)) ∧
    decodeTableWord 16 0x0820 = some (.vadd16 false 1 2) ∧
    decodeTableWord 16 0x907E = some (.vpopc16 3 4) ∧
    decodeTableWord 32 0x0000007F = none ∧
    decodeTableWord 64 0x01C61401_0000007D = none :=
  ⟨rfl, rfl, rfl, rfl, rfl, rfl, rfl, rfl⟩

/-- "Worked encodings" of 08_scalar.md. -/
theorem test_decode_worked_scalar :
    decodeTableWord 32 0xFF461405 = some (.addi 5 6 (-3) 0) ∧
    decodeTableWord 32 0x21061411 = some (.srai 5 6 4 0) ∧
    decodeTableWord 32 0x12342413 = some (.lui 9 0x1234 0) ∧
    decodeTableWord 32 0x41C61403 = some (.div 5 6 7 0) ∧
    decodeTableWord 32 0x01C61599 = some (.faddF64 5 6 7 3) ∧
    decodeTableWord 32 0x51C6141B = some (.fminF32 5 6 7 0) ∧
    decodeTableWord 32 0xC0061419 = some (.fcvtI64F64 5 6 0) ∧
    decodeTableWord 32 0xFFE6501D = some (.dbnz 20 (-4) 0) ∧
    decodeTableWord 32 0x00020023 = some (.call 0x80 0) ∧
    decodeTableWord 32 0x003F0025 = some (.jr 63 0) ∧
    decodeTableWord 32 0x00CA2429 = some (.ldW 9 10 3 0) ∧
    decodeTableWord 32 0xFFC21C35 = some (.stD 7 2 (-1) 0) :=
  ⟨rfl, rfl, rfl, rfl, rfl, rfl, rfl, rfl, rfl, rfl, rfl, rfl⟩

/-- "Worked encodings" of 08_scalar.md and 09_two_windows.md. -/
theorem test_decode_worked_system :
    decodeTableWord 32 0x0050143D = some (.csrr 0x050 5 0) ∧
    decodeTableWord 32 0x0402183F = some (.csrs 0x002 6 0) ∧
    decodeTableWord 32 0x14000041 = some (.trap 5 0) ∧
    decodeTableWord 32 0x214A2C41 = some (.iinv 11 10 .cluster 0) ∧
    decodeTableWord 32 0x01861C43 = some (.warena 7 6 0) ∧
    decodeTableWord 32 0x08090043 = some (.wset 9 1 0) ∧
    decodeTableWord 32 0x08800043 = some (.wsw 1 0) ∧
    decodeTableWord 32 0x00400041 = some (.rett 0) ∧
    decodeTableWord 32 0x10C00043 = some (.wswj 2 0) ∧
    decodeTableWord 32 0x1040C843 = some (.wget 50 2 0) :=
  ⟨rfl, rfl, rfl, rfl, rfl, rfl, rfl, rfl, rfl, rfl⟩

/-- The words of 13_mxfp8_tiles.md. -/
theorem test_decode_worked_matrix :
    decodeTableWord 32 0x12CA5073 = some (.cpyFe 20 10 11 0) ∧
    decodeTableWord 32 0x50145C73 = some (.cpwait 23 20 0) ∧
    decodeTableWord 32 0x0020303F = some (.csrw 0x020 12 0) ∧
    decodeTableWord 32 0x0191386D = some (.feWait 17 14 0) ∧
    decodeTableWord 32 0x00910061 = some (.mbload 17 0) ∧
    decodeTableWord 32 0x01000061 = some (.mrot 0) ∧
    decodeTableWord 32 0x00CF0061 = some (.mmac 0 15 0) ∧
    decodeTableWord 32 0x01920061 = some (.mst 0 18 0) ∧
    decodeTableWord 32 0x02130061 = some (.macc 0 19 0) ∧
    decodeTableWord 32 0x02590061 = some (.mwait 0 25 0) :=
  ⟨rfl, rfl, rfl, rfl, rfl, rfl, rfl, rfl, rfl, rfl⟩

/-- "Encodings" of 14_atomics.md. -/
theorem test_decode_worked_atomics :
    decodeTableWord 32 0x81C61467 = some (.atomAddDev true 5 6 7 0) ∧
    decodeTableWord 32 0x72CA2463 = some (.atomCasBlk false 9 10 11 0) ∧
    decodeTableWord 32 0x41C61465 = some (.atomMinCls false 5 6 7 0) ∧
    decodeTableWord 32 0xE1C61469 = some (.atomSwapSys true 5 6 7 0) ∧
    decodeTableWord 32 0x01C6846B = some (.redAddD 6 7 .dev 0) ∧
    decodeTableWord 32 0x02CA286B = some (.redMaxW 10 11 .blk 0) ∧
    decodeTableWord 32 0x02CAF06B = some (.redFaddF32 10 11 .sys 0) ∧
    decodeTableWord 32 0x12CAF06B = none :=
  ⟨rfl, rfl, rfl, rfl, rfl, rfl, rfl, rfl⟩

/-- The words of 16_striking.md. -/
theorem test_decode_worked_tasks :
    decodeTableWord 32 0x0100A477 = some (.freeze 41 0 0) ∧
    decodeTableWord 32 0x10B0C477 = some (.tnext 49 48 2 0) ∧
    decodeTableWord 32 0x44B00059 = some (.vinsD 0 48 1 0) ∧
    decodeTableWord 32 0x7008005B = some (.vstD 0 8 0 0) ∧
    decodeTableWord 32 0x0077D877 = some (.tspawn 54 55 0) ∧
    decodeTableWord 32 0x0176DC77 = some (.tquery 55 54 0) ∧
    decodeTableWord 32 0x00C00077 = some (.tdone 0 0) :=
  ⟨rfl, rfl, rfl, rfl, rfl, rfl, rfl⟩

/-- The words of 18_promotion.md and 21_timetable_fault.md. -/
theorem test_decode_worked_ordering :
    decodeTableWord 32 0x0C14541F = some (.phnew 21 20 .dev 0) ∧
    decodeTableWord 32 0x0095581F = some (.phreg 22 21 .sw 0) ∧
    decodeTableWord 32 0x0C985479 = some (.stRel 21 24 .dev 0) ∧
    decodeTableWord 32 0x01D5641F = some (.phq 25 21 0) ∧
    decodeTableWord 32 0x0C585479 = some (.ldAcq 21 24 .dev 0) ∧
    decodeTableWord 32 0x05DC787B = some (.acqpDev 30 28 23 0) ∧
    decodeTableWord 32 0x01957C1F = some (.phnext 31 21 0) ∧
    decodeTableWord 32 0x004A2C75 = some (.ttarm 11 10 0) ∧
    decodeTableWord 32 0x08000075 = some (.mark 0 2 0) ∧
    decodeTableWord 32 0x00965C75 = some (.ttq 23 22 0) ∧
    decodeTableWord 32 0x00D68075 = some (.ttreplay 32 22 0) ∧
    decodeTableWord 32 0x01004075 = some (.ttoff 16 0) :=
  ⟨rfl, rfl, rfl, rfl, rfl, rfl, rfl, rfl, rfl, rfl, rfl, rfl⟩

/-- Words of the vector majors, bit by bit from R18, R27 to R29. -/
theorem test_decode_vector :
    decodeTableWord 32 0b1001_00_0011_000101_000100_000_101011_1 = none ∧
    decodeTableWord 32 0b0000_00_0011_000101_000100_000_101011_1 = some (.vcvt .f32 0 .bf16 4 5 0) ∧
    decodeTableWord 32 0b000111_0001_000101_000100_000_101100_1 = some (.vextW 4 5 7 0) ∧
    decodeTableWord 32 0b000001_0000_000101_000100_000_101100_1 = some (.vbcast .i32 4 5 0) ∧
    decodeTableWord 32 0b000000_0011_000101_111000_000_101100_1 = some (.vpred .f32 56 5 0) ∧
    decodeTableWord 32 0b0000_000110_000101_000100_000_101101_1 = some (.vldW 4 5 6 0) ∧
    decodeTableWord 32 0b1110_000000_000000_000100_000_101101_1 = some (.vswap 4 0) ∧
    decodeTableWord 32 0b1010_000110_000101_000100_000_101101_1 = none ∧
    decodeTableWord 64 0b1010_000110_000101_000100_000_101101_1_00000000_1_000111_0_000_000_000_111110_1 = some (.vldgW { c := 7, cv := true } 4 5 6) ∧
    decodeTableWord 32 0b000001_0010_000101_10_0011_000_101110_1 = some (.vtrip 5 3 2 2 1 0) :=
  ⟨rfl, rfl, rfl, rfl, rfl, rfl, rfl, rfl, rfl, rfl⟩

/-- Words of the stream, bank and FIFO majors, the first from R120 and the others bit by bit from R18, R26 and R86. -/
theorem test_decode_engines :
    decodeTableWord 32 0x500A245F = some (.vstrm 9 10 20 0) ∧
    decodeTableWord 32 0b000000_0010_000101_000100_000_101111_1 = some (.vsq 4 5 0) ∧
    decodeTableWord 32 0b000000_0001_000101_000100_000_110111_1 = some (.bcfgS 4 5 0) ∧
    decodeTableWord 32 0b000110_0000_000101_000100_000_111000_1 = some (.fpush 4 5 6 0) ∧
    decodeTableWord 32 0b000100_0000_000000_000000_000_111100_1 = some (.fence .sys 0) ∧
    decodeTableWord 16 0b0_00000_00000_0000_0 = some .brk16 :=
  ⟨rfl, rfl, rfl, rfl, rfl, rfl⟩

/-! A small machine: core 0 running in window 0 of 1,024 slots, its vectors from slot 64 on. Bank 0 of its cluster is
scratchpad, bank 1 a FIFO; the others are cache ways. -/

/-- The core: its mode and its first slots. -/
def core (sup : Bool) (xs : Sparse Word) : Core :=
  { Core.reset with
    cur := 0, sup, run := .running, pc := 0x1000, store := xs
    wins := [(0, { v := true, size := 1024, voff := 64 }), (28, { v := true, size := 64 })] }

/-- The machine with such a core. -/
def mach (sup : Bool) (xs : Sparse Word) : State :=
  { State.reset with
    core := core sup xs
    clusters := [(0, { banks := [(0, { role := .scratch }), (1, { role := .fifo })] })] }

/-- The least and the largest scratchpad address of bank 0 of the own cluster. -/
def lo : Word := 0x1000000000000000
def hi : Word := 0x1000000000040000

/-- A check of `State.Ready` on a state without pending results and uncorrectable slots. -/
def ready (s : State) (u : Use) : Bool :=
  (s.core.sup || (List.range 4).all fun k => decide ((sget 0 s.core.obs.wpc k).bits 0 3 = 0)) &&
    (!u.priv || s.core.sup) && (u.beyond s.core.curWin).isEmpty && s.core.pend.isEmpty && s.core.bad.isEmpty &&
    (u.writes s.core).all (fun n => !s.core.inBillet n) && s.core.m.atom.isNone && s.core.eng.trip.isNone &&
    s.core.tripStop.isNone && s.core.tripRaised.isNone && !u.blocked s.core

theorem ready_ok {s : State} {u : Use} (h : ready s u = true) : s.Ready u := by
  simp only [ready, Bool.and_eq_true, Bool.or_eq_true, List.all_eq_true, List.mem_range, decide_eq_true_eq,
    List.isEmpty_iff, Option.isNone_iff_eq_none, Bool.not_eq_true'] at h
  obtain ⟨⟨⟨⟨⟨⟨⟨⟨⟨⟨h1, h2⟩, h3⟩, h4⟩, h5⟩, h6⟩, h7⟩, h8⟩, h9⟩, h11⟩, h10⟩ := h
  exact ⟨⟨h1, fun hp => by simpa [hp] using h2, h3, by simp [h4], h6, by simp [h5], h7, h8, h9, h11⟩, h10⟩

/-- The same for `State.Clear`. -/
def clear (s : State) (u : Use) : Bool := ready s u && !s.core.curWin.s

theorem clear_ok {s : State} {u : Use} (h : clear s u = true) : s.Clear u := by
  simp only [clear, Bool.and_eq_true, Bool.not_eq_true'] at h
  exact ⟨ready_ok h.1, h.2⟩

/-! Witnesses: for each obligation with hypotheses, states and operands that meet them, clause by clause. -/

/-- x1 and x2 in use, x3 the largest word, x63 at the end of the names. -/
def s0 : State := mach false [(1, 1), (2, 2), (3, -1), (4, 0x8000000000000000), (63, 7)]

theorem witness_IntegerResults : s0.Clear (Claims.scalar [63, 0] 63) ∧ s0.Clear (Claims.scalar [1] 0) :=
  ⟨clear_ok (by decide), clear_ok (by decide)⟩

theorem witness_Divisions_quotient : s0.core.x 3 ≠ 0 ∧ s0.Clear (Claims.scalar [4, 3] 1) :=
  ⟨by decide, clear_ok (by decide)⟩
theorem witness_Divisions_zero : s0.core.x 5 = 0 ∧ s0.Clear (Claims.scalar [4, 5] 0) ∧ s0.core.trapOk = true :=
  ⟨by decide, clear_ok (by decide), by decide⟩

/-- No flag of a minimum of two numbers is enabled here; with NV enabled, a signalling NaN raises an enabled one. -/
theorem witness_ScalarFpResults : s0.Clear (Claims.scalar [1, 2] 3) ∧
    (Fmt.f64.minMax false false 1 2).2 &&& s0.core.fp.fenable = 0 := ⟨clear_ok (by decide), by decide⟩
theorem witness_ScalarFpResults_trap :
    let s : State := { s0 with core := { s0.core with fp := { fenable := fNV } } }
    s.Clear (Claims.scalar [1, 2] 3) ∧ s.core.trapOk = true ∧
      (Fmt.f64.minMax false false 0x7FF0000000000001 2).2 &&& s.core.fp.fenable ≠ 0 :=
  ⟨clear_ok (by decide), by decide, by decide⟩

theorem witness_MinimumAndMaximum_nans : (Fmt.f32.decode 0x7F800001).isSig = true ∧ Fmt.f32.decode 0x7FC00000 = .nan false ∧
    (Fmt.f32.decode 0x7F7FFFFF).isNan = false ∧ (Fmt.f64.decode 0xFFF0000000000001).isSig = true := by decide
theorem witness_MinimumAndMaximum_order : (Fmt.f32.decode 0x80000001).lt (Fmt.f32.decode 0) = true ∧
    (Fmt.f64.decode 0x7FEFFFFFFFFFFFFF).lt (Fmt.f64.decode 0x7FF0000000000000) = true ∧
    Fmt.f32.signBit < 2 ^ 32 ∧ Fmt.f64.signBit < 2 ^ 64 := by decide

theorem witness_BranchesAndJumps : s0.Clear { xs := [1], gate := false } ∧ s0.Clear { xs := [1], xd := [1], gate := false } ∧
    s0.Clear { gate := false } ∧ s0.Clear { xd := [63], gate := false } ∧ s0.Clear { xs := [63], xd := [63], gate := false } ∧
    (s0.core.x 2).getLsbD 0 = false ∧ (s0.core.x 63).getLsbD 0 = true ∧ s0.core.trapOk = true :=
  ⟨clear_ok (by decide), clear_ok (by decide), clear_ok (by decide), clear_ok (by decide), clear_ok (by decide),
    by decide, by decide, by decide⟩

/-- The last double of bank 0 by x1, its first by x2, and an address off by one in x3. -/
def s1 : State := mach false [(1, hi - 8), (2, lo), (3, lo + 1), (4, 8), (5, 16), (8, 0x0123456789ABCDEF)]

theorem witness_Loads : s1.Clear (Claims.access [1] [63]) ∧
    Claims.OwnScratch s1 (Claims.effective s1 1 0 8) 8 ∧ Claims.OwnScratch s1 (Claims.effective s1 1 7 1) 1 ∧
    Claims.OwnScratch s1 (Claims.effective s1 2 0 4) 4 ∧ s1.core.m.sbuf = [] ∧ s1.reds = [] ∧ s1.poison = [] :=
  ⟨clear_ok (by decide), by unfold Claims.OwnScratch; decide, by unfold Claims.OwnScratch; decide,
    by unfold Claims.OwnScratch; decide, rfl, rfl, rfl⟩
theorem witness_Loads_checks : (∃ k t, s1.atIssue.locate .load (hi - 8) 8 = (.ok k, t) ∧ (hi - 8).toNat / 2 ^ 60 ≠ 8) ∧
    (∃ t, s1.atIssue.locate .load (lo + 1) 2 = (.error 0x06, t)) := ⟨⟨_, _, rfl, by decide⟩, ⟨_, rfl⟩⟩
theorem witness_Loads_control : ((mach true []).atIssue.locate .load 0x800000000001FFF8 8).1 = .ok 0 ∧
    (((mach true []).atIssue.locate .load 0x800000000001FFF8 8).2.forCtl 0x800000000001FFF8).path8Ready
      0x800000000001FFF8 = true := ⟨rfl, by decide⟩

theorem witness_Stores : s1.Clear (Claims.access [1, 8] []) ∧ Claims.OwnScratch s1 (Claims.effective s1 1 0 8) 8 ∧
    s1.core.m.sbuf = [] ∧ s1.reds = [] ∧ s1.poison = [] :=
  ⟨clear_ok (by decide), by unfold Claims.OwnScratch; decide, rfl, rfl, rfl⟩
theorem witness_Stores_checks : (∃ k t, s1.atIssue.locate .store (hi - 8) 8 = (.ok k, t) ∧ (hi - 8).toNat / 2 ^ 60 < 8) ∧
    (∃ t, s1.atIssue.locate .store (lo + 1) 8 = (.error 0x06, t)) ∧
    (∃ t, (mach true []).atIssue.locate .store 0x9000000000010028 8 = (.ok 0, t)) :=
  ⟨⟨_, _, rfl, by decide⟩, ⟨_, rfl⟩, ⟨_, rfl⟩⟩

/-- A supervisor. -/
def s2 : State := mach true [(1, 1), (2, 2), (3, -1)]

theorem witness_ControlRegisters :
    s0.Clear { priv := csrSv 0x000, xd := [63], mem := false } ∧ s2.Clear { priv := csrSv 0x087, xd := [1], mem := false } ∧
    s2.Clear { priv := csrRs 0x084, xs := [3], mem := false } ∧ s0.Clear { priv := csrRs 0x000, xs := [3], mem := false } ∧
    ∀ p ∈ s2.core.pend, p.flags = 0 :=
  ⟨clear_ok (by decide), clear_ok (by decide), clear_ok (by decide), clear_ok (by decide), by decide⟩

theorem witness_Privileged : s0.core.sup = false ∧ s0.core.unwatched ∧ s0.core.trapOk = true ∧
    s0.core.cur ≠ 28 + s0.core.trap.twin ∧ (sget {} (s0.dieAt s0.die).haltQ s0.core.vf).entries.length < 64 ∧
    (s0.clAt s0.cl).lease.holder ≠ some (posOf s0.focus, s0.core.cur) :=
  ⟨rfl, Or.inr (by decide), by decide, by decide, by decide, by decide⟩
theorem witness_IllegalEncodings : (∀ p ∈ s2.core.pend, p.variable = true) ∧ s2.core.unwatched ∧ s2.core.trapOk = true ∧
    s2.core.cur ≠ 28 + s2.core.trap.twin ∧ (sget {} (s2.dieAt s2.die).haltQ s2.core.vf).entries.length < 64 ∧
    (s2.clAt s2.cl).lease.holder ≠ some (posOf s2.focus, s2.core.cur) :=
  ⟨by decide, Or.inl rfl, by decide, by decide, by decide, by decide⟩

theorem witness_TrapInstructions : s0.Clear { mem := false } ∧ s0.core.trapOk = true := ⟨clear_ok (by decide), by decide⟩

/-- Return to a valid window below 28 in user mode; without one, window 0 being gone. -/
theorem witness_TrapReturn : s2.Clear { priv := true, mem := false } ∧
    (s2.core.win s2.core.trap.tfrom).v = true ∧ (s2.core.win s2.core.trap.tfrom).h = false ∧ s2.core.trap.tfrom < 28 :=
  ⟨clear_ok (by decide), by decide, by decide, by decide⟩
theorem witness_TrapReturn_window : let s : State := { s2 with core := { s2.core with trap := { tfrom := 28 } } }
    s.Clear { priv := true, mem := false } ∧ s.core.trap.tstat = false ∧ ¬ s.core.trap.tfrom < 28 ∧ s.core.trapOk = true :=
  ⟨clear_ok (by decide), by decide, by decide, by decide⟩

/-- x1 describes a window of one slot at the end of the store, x2 an ill-formed one, x4 one with T; the user's arena is
empty. -/
def s3 : State := mach false [(1, 0x0400000000013FFF), (2, 0x0400000000023FFF), (4, 0x0500000000013FFF)]

theorem witness_WindowSetAndClear_wset : s3.Clear { mem := false, priv := decide (28 ≤ 27), xs := [1] } ∧
    Claims.WellFormedDescriptor (s3.core.x 1) ∧ ¬ Claims.WellFormedDescriptor (s3.core.x 2) ∧
    (s3.core.x 4).bits 56 2 ≠ 0 ∧ (s3.core.x 1).bits 56 2 = 0 ∧ (s3.core.win 27).v = false ∧ (27 ≠ s3.core.cur) ∧
    s3.core.sup = false ∧ ¬ ((s3.core.x 1).bits 0 14 + (s3.core.x 1).bits 16 14 ≤ s3.core.arena.hi) :=
  ⟨clear_ok (by decide), by unfold Claims.WellFormedDescriptor; decide, by unfold Claims.WellFormedDescriptor; decide,
    by decide, by decide, by decide, by decide, by decide, by decide⟩
theorem witness_WindowSetAndClear_supervisor : let s : State := mach true [(1, 0x0400000000013FFF)]
    s.Clear { mem := false, priv := decide (28 ≤ 31), xs := [1] } ∧ Claims.WellFormedDescriptor (s.core.x 1) ∧
    s.core.sup = true := ⟨clear_ok (by decide), by unfold Claims.WellFormedDescriptor; decide, rfl⟩
/-- Entry 1 is struck, entry 2 an ordinary window, entry 3 halted. -/
def s4 : State := { s0 with core := { s0.core with wins := [(0, { v := true, size := 1024, voff := 64 }),
  (1, { v := true, size := 64, base := 2048, s := true }), (2, { v := true, size := 64, base := 4096 }),
  (3, { v := true, size := 64, base := 5120, h := true }), (28, { v := true, size := 64 })] } }
theorem witness_WindowSetAndClear_wclr : s4.Clear { mem := false, priv := decide (28 ≤ 2) } ∧ s4.core.trapOk = true ∧
    s4.core.cur = 0 ∧ (s4.core.win 3).h = true ∧ ((s4.core.win 1).v = true ∧ (s4.core.win 1).s = true) ∧
    (s4.core.win 2).h = false ∧ (s4.core.win 2).s = false ∧ (s4.core.win 2).t = false :=
  ⟨clear_ok (by decide), by decide, by decide, by decide, by decide, by decide, by decide, by decide⟩

theorem witness_WindowReads : s4.Clear { mem := false, priv := decide (28 ≤ 1), xs := [1], xd := [63] } ∧
    s2.Clear { mem := false, priv := decide (28 ≤ 31), xd := [0] } ∧ (s4.core.win 1).s = true ∧ (s4.core.x 1).toNat = 1 :=
  ⟨clear_ok (by decide), clear_ok (by decide), by decide, by decide⟩

theorem witness_WindowSwitches : s4.Clear { mem := false, priv := decide (28 ≤ 2) } ∧
    ((s4.core.win 2).v = true ∧ (s4.core.win 2).h = false ∧ (s4.core.win 2).s = false) ∧
    ¬ ((s4.core.win 3).v = true ∧ (s4.core.win 3).h = false) ∧ (s4.core.win 0).s = false ∧ s4.core.trapOk = true ∧
    s4.core.pend = [] ∧ s4.core.bad = [] ∧ s4.core.inBillet s4.core.curWin.base = false :=
  ⟨clear_ok (by decide), by decide, by decide, by decide, by decide, by decide, by decide, by decide⟩

/-- The whole store as an exclusive arena, and its upper half as a sliced one; LO above HI. -/
theorem witness_Arenas : let s : State := mach true [(1, 0x40000000), (2, 0x340002000), (3, 0x00000001)]
    s.Clear { mem := false, priv := true, xs := [1], xd := [2] } ∧ s.core.dom.launch = 0 ∧ s.core.trapOk = true ∧
    ((s.core.x 1).bits 16 15 = 16384 ∧ (s.core.x 1).bits 0 15 = 0 ∧ (s.core.x 1).bits 34 30 = 0 ∧
      (s.core.x 1).bits 31 1 = 0 ∧ (s.core.x 1).bits 15 1 = 0 ∧ (s.core.x 1).bit 32 = false ∧ (s.core.x 1).bit 33 = false ∧
      s.core.curWin.base + s.core.curWin.size ≤ 16384) ∧
    ((s.core.x 2).bit 32 = true ∧ (s.core.x 2).bit 33 = true ∧ (s.core.x 2).bits 0 15 = 8192) ∧
    ¬ (s.core.x 3).bits 0 15 ≤ (s.core.x 3).bits 16 15 :=
  ⟨clear_ok (by decide), by decide, by decide, by decide, by decide, by decide⟩

theorem witness_Barriers : s2.Clear {} ∧ s2.Clear { priv := true } ∧ s2.core.m.sbuf = [] :=
  ⟨clear_ok (by decide), clear_ok (by decide), rfl⟩
theorem witness_Sleep : s0.Clear { xs := [3], mem := false } ∧ s0.core.x 5 = 0 ∧ s0.core.x 3 ≠ 0 :=
  ⟨clear_ok (by decide), by decide, by decide⟩
theorem witness_InstructionInvalidation : s0.Clear { xs := [0, 1], mem := false } ∧ (s0.core.x 0).toNat / 2 ^ 60 = 0 ∧
    (s0.core.x 4).toNat / 2 ^ 60 = 8 ∧ (s0.core.x 3).toNat / 2 ^ 60 = 15 ∧ s0.core.trapOk = true ∧ s0.core.x 1 ≠ 0 ∧
    s0.core.x 0 = 0 ∧ s0.core.m.sbuf = [] :=
  ⟨clear_ok (by decide), by decide, by decide, by decide, by decide, by decide, by decide, rfl⟩

/-- x1 names virtual core 1 and its window 28, x2 has a reserved bit, x3 names virtual core 2047 and x4 virtual core 2, of
another VF; core 1 stands stopped in window 28. -/
def s5 : State := { mach true [(1, 0x000010000001C), (2, 0x20), (3, 0x7FF0000001C), (4, 0x20000001C)] with
  others := [(2, { Core.reset with vf := 3 })] }
theorem witness_Resume : s5.Clear { priv := true, xs := [1], xd := [63], mem := false } ∧ s5.core.m.sbuf = [] ∧
    (s5.core.x 2).bits 5 27 ≠ 0 ∧ s5.locOf ((s5.core.x 1).bits 32 16) = some 1 ∧ (s5.coreAt 1).vf = s5.core.vf ∧
    1 ≠ s5.focus ∧ ((s5.coreAt 1).run = .stopped ∧ (s5.core.x 1).bits 0 5 = (s5.coreAt 1).cur) ∧
    s5.locOf ((s5.core.x 4).bits 32 16) = some 2 ∧ (s5.coreAt 2).vf ≠ s5.core.vf ∧
    (s5.locOf ((s5.core.x 3).bits 32 16)).isSome = true :=
  ⟨clear_ok (by decide), by decide, by decide, by decide, by decide, by decide, by decide, by decide, by decide, by decide⟩
theorem witness_Resume_halted :
    let s : State := { s5 with others := [(1, { s4.core with cur := 2, run := .running })] }
    ¬ ((s.coreAt 1).run = .stopped ∧ 3 = (s.coreAt 1).cur) ∧ ((s.coreAt 1).win 3).v = true ∧ ((s.coreAt 1).win 3).h = true ∧
    ¬ (((s.coreAt 1).win 2).v = true ∧ ((s.coreAt 1).win 2).h = true) := by decide

/-- x1 is the count and the offset 0, x2 the block address, x57 a predicate of 3 lanes; the largest names are used. -/
def v0 : State := mach false [(2, hi - 64), (57, 3)]

theorem witness_LaneAndUnaryOperations :
    v0.Clear ((VOp.lane .f32 .mac 63 62 61).uses { pm := 2, z := true, cv := true, c := 60 }) ∧
    v0.Clear ((VOp.lane .i8 .add 31 31 0).uses {}) ∧ v0.Clear ((VOp.un .tanh .bf16 63 0).uses {}) ∧
    (∀ n ∈ [62, 61, 60], v0.core.bound v0.core.cur n = none) :=
  ⟨clear_ok (by decide), clear_ok (by decide), clear_ok (by decide), by decide⟩
theorem witness_ReductionsAndConversions : v0.Clear ((VOp.un .sumr .f64 63 0).uses { pm := 2 }) ∧
    v0.Clear ((VOp.un .mxs .f32 0 62).uses {}) ∧ (∀ n ∈ [62, 63], v0.core.bound v0.core.cur n = none) ∧
    v0.Clear ((VOp.cvt .f32 3 .bf16 63 62).uses {}) ∧ (Ty.f32.width = 2 * Ty.bf16.width) ∧
    (Ty.bf16.width = Ty.f16.width ∧ 1 < 2) ∧ (Ty.i8.width = 2 * Ty.i4.width) :=
  ⟨clear_ok (by decide), clear_ok (by decide), by decide, clear_ok (by decide), by decide, by decide, by decide⟩
theorem witness_VectorAndScalar : v0.Clear ((VOp.idx .i8 63 57).uses { pm := 2 }) ∧ v0.Clear ((VOp.pred .i8 62 57).uses {}) ∧
    v0.Clear ((VOp.ext true 0 63 7).uses {}) ∧ v0.core.bound v0.core.cur 63 = none ∧
    v0.Clear ((VOp.ins false 63 57 15).uses {}) ∧ 15 < 512 / 32 :=
  ⟨clear_ok (by decide), clear_ok (by decide), clear_ok (by decide), by decide, clear_ok (by decide), by decide⟩

theorem witness_VectorAccesses : v0.Clear ((VOp.ld .w 63 2 0).uses { pm := 2 }) ∧ v0.Clear ((VOp.sts 63 2 0).uses { c := 1, cv := true }) ∧
    (∀ n ∈ vSrcs' { c := 1, cv := true } (.sts 63 2 0), v0.core.bound v0.core.cur n = none) ∧
    (v0.atIssue.vchecks .load (vAccesses { pm := 2 } (Claims.sources v0.atIssue.core) (.ld .w 63 2 0))).2.1 = none ∧
    (v0.atIssue.vchecks .store (vAccesses {} (Claims.sources v0.atIssue.core) (.st .w 63 57 0))).2.1 ≠ none :=
  ⟨clear_ok (by decide), clear_ok (by decide), by decide, by decide, by decide⟩
/-- A first-fault load over the end of bank 0 loads the lanes before it; one that starts there traps. -/
theorem witness_VectorAccesses_first_fault : v0.Clear ((VOp.ldff false 63 2 0).uses { pm := 2 }) ∧
    (let r := v0.atIssue.vchecks .load [(hi - 4, 4, 4), (hi, 4, 4)]; r.1 ≠ [] ∧ r.2.1 ≠ none) ∧
    (let r := v0.atIssue.vchecks .load [(hi, 4, 4)]; r.1 = [] ∧ r.2.1 ≠ none) :=
  ⟨clear_ok (by decide), by decide, by decide⟩

theorem witness_VectorScratch : Claims.Quiet v0 ∧ v0.Clear ((VOp.ld .d 63 2 0).uses { pm := 2 }) ∧
    Claims.OwnScratch v0 (v0.core.x 2 + v0.core.x 0) 64 ∧ v0.Clear ((VOp.st .b 63 2 0).uses {}) ∧
    v0.core.bound v0.core.cur 63 = none :=
  ⟨⟨rfl, rfl, rfl⟩, clear_ok (by decide), by unfold Claims.OwnScratch; decide, clear_ok (by decide), by decide⟩
/-- Two lanes gathered, from offsets 0 and −4. -/
theorem witness_VectorScratch_gather : let s : State := { v0 with core := { v0.core with store := [(2, hi - 4), (57, 2), (72, 0xFFFFFFFC00000000)] } }
    let p : Pfx := { pm := 2, c := 1, cv := true }
    s.Clear ((VOp.ldg 0 2 0).uses p) ∧ Claims.active s p 16 = 2 ∧
    ∀ k < Claims.active s p 16, Claims.OwnScratch s (s.core.x 2 + s.core.x 0 +
      (BitVec.ofNat 32 (Claims.lane 32 (s.core.vec p.c) k)).signExtend 64) 4 := by
  refine ⟨clear_ok (by decide), by decide, ?_⟩
  unfold Claims.OwnScratch; decide +kernel
/-- Sixteen rows of 64 bytes that end with bank 0. -/
theorem witness_VectorScratch_transpose : let s : State := mach false [(1, hi - 1024), (2, 64)]
    Claims.Quiet s ∧ s.Clear ((VOp.ldt false 48 1 2).uses {}) ∧
    ∀ r < 16, Claims.OwnScratch s (s.core.x 1 + word (r * (s.core.x 2).toNat)) 64 := by
  refine ⟨⟨rfl, rfl, rfl⟩, clear_ok (by decide), ?_⟩
  unfold Claims.OwnScratch; decide +kernel

theorem witness_VectorExchange_send : let s : State := { v0 with others := [(7, { Core.reset with run := .running })] }
    s.Clear ((VOp.swap 48).uses {}) ∧ (∀ n ∈ names16 48, s.core.bound s.core.cur n = none) ∧ s.core.eng.swapSent = false ∧
    (s.coreAt (s.partner s.focus)).vf = s.core.vf ∧ (s.coreAt (s.partner s.focus)).run ≠ .quenched ∧
    s.core.eng.swapIn = [] ∧ s.partner s.focus ≠ s.focus :=
  ⟨clear_ok (by decide), by decide, by decide, by decide, by decide, by decide, by decide⟩
/-- Sixteen vectors. -/
def sixteen : List (BitVec 512) := List.replicate 16 0

theorem witness_VectorExchange_receive :
    let s : State := { v0 with core := { v0.core with eng := { swapSent := true, swapIn := [sixteen, []] } } }
    s.Clear ((VOp.swap 0).uses {}) ∧ (∀ n ∈ names16 0, s.core.bound s.core.cur n = none) ∧ s.core.eng.swapSent = true ∧
    s.core.eng.swapIn = [sixteen, []] ∧ sixteen.length = 16 :=
  ⟨clear_ok (by decide), fun _ _ => rfl, rfl, rfl, List.length_replicate⟩

/-- A `vtrip` of one instruction (the body `vadd.f32 v1, v1, v2` as a parcel) at PC 0, for x1 iterations. -/
def trip (n : Word) (body : List Byte) : State := (mach false [(1, n)]).withCode ([0x5D, 0x00, 0x01, 0x00] ++ body)

/-- The body of the trip is captured, its names pass, and no slot it writes lies in a billet. -/
theorem witness_TripStart : ∃ b t, (trip 3 [0x20, 0x08]).capture {} 1 = (.ok (some b), t) ∧
    t.Clear { xs := 1 :: b.xs, xd := b.xd } ∧ t.core.x 1 ≠ 0 ∧ bodiesBad t.core.curWin 0 (((t.core.x 1).toNat - 1) * 0) b.ops = [] :=
  ⟨_, _, rfl, clear_ok (by decide), by decide, by decide⟩
theorem witness_TripStart_zero : ∃ b t, (trip 0 [0x20, 0x08]).capture {} 1 = (.ok (some b), t) ∧ t.Clear { xs := [1] } ∧
    t.core.x 1 = 0 := ⟨_, _, rfl, clear_ok (by decide), by decide⟩
/-- `brk16` is no instruction of a body. -/
theorem witness_TripStart_illegal : ∃ t, (trip 3 [0x00, 0x00]).capture {} 1 = (.ok none, t) ∧ t.core.unwatched ∧
    t.core.trapOk = true ∧ t.core.cur ≠ 28 + t.core.trap.twin ∧
    (sget {} (t.dieAt t.die).haltQ t.core.vf).entries.length < 64 ∧
    (t.clAt t.cl).lease.holder ≠ some (posOf t.focus, t.core.cur) :=
  ⟨_, rfl, Or.inr (by decide), by decide, by decide, by decide, by decide⟩

/-- The cells of bytes other than zero. -/
def place (k : Nat) (bs : List Byte) : List Host.Cell :=
  (((List.range bs.length).map (k + ·)).zip bs).filter fun c => decide (c.2 ≠ 0)

/-- A record of eight doubles from an address on (R101). -/
def doubles (base : Word) : BitVec 512 :=
  BitVec.ofNat 512 (base.toNat + 9 * 2 ^ 64 + 8 * 2 ^ 128 + 2 ^ 160 + 2 ^ 192 + 2 ^ 224 + 8 * 2 ^ 256)

/-- x1 and x2 are the addresses of two records in bank 0, for a copy of 64 bytes; x3 of one of zeros. -/
def r0 : State := { mach false [(1, lo + 64), (2, lo + 128), (3, lo + 192), (4, 0x5000000000000000), (5, 4)] with
  mem := place (2 ^ 52 + 64) (bytesOf (doubles (lo + 1024)).toNat 64) ++
    place (2 ^ 52 + 128) (bytesOf (doubles (lo + 2048)).toNat 64) }

/-- A core with such engines. -/
def withEng (s : State) (eng : Engines) : State := { s with core := { s.core with eng } }

/-- A stream of the record at x1, bound to v63. -/
def strm : Stream := { name := 63, win := 0, recAddr := lo + 64, src := doubles (lo + 1024), pc := 0, vf := 0, asid := 0, sup := false }

theorem witness_Streams_bind : r0.Clear { xs := [1], xd := [63], vn := [63] } ∧ (∃ k t, r0.atIssue.recLocate (lo + 64) = (.ok k, t) ∧
    (t.drained.recRead (lo + 64) k).2.strmCode 63 (t.drained.recRead (lo + 64) k).1 = 0 ∧
    (t.drained.recRead (lo + 64) k).2.core.stream 0 = none ∧ (t.drained.recRead (lo + 64) k).1 ≠ none) :=
  ⟨clear_ok (by decide), _, _, rfl, by decide +kernel, by decide +kernel, by decide +kernel⟩
theorem witness_Streams_refused : (∃ k t, r0.atIssue.recLocate (lo + 192) = (.ok k, t) ∧
    (t.drained.recRead (lo + 192) k).2.strmCode 0 (t.drained.recRead (lo + 192) k).1 ≠ 0) ∧
    (∃ t, r0.atIssue.recLocate 0x5000000000000000 = (.error 9, t)) :=
  ⟨⟨_, _, rfl, by decide +kernel⟩, _, rfl⟩
theorem witness_Streams_number : let s := withEng r0 { streams := [(0, some strm), (1, some { strm with given := 1, taken := 1 }), (2, some { strm with faulted := true })] }
    s.Clear { xs := [5], xd := [63] } ∧ s.Clear { xs := [0], xd := [1], own := true } ∧ 4 ≤ (s.core.x 5).toNat ∧
    s.core.stream 3 = none ∧ (∃ x, s.core.stream 0 = some x ∧ x.faulted = false ∧ x.given < x.words) ∧
    (∃ x, s.core.stream 1 = some x ∧ x.faulted = false ∧ x.words ≤ x.given) ∧
    (∃ x, s.core.stream 2 = some x ∧ x.faulted = true) ∧ s.core.trapOk = true :=
  ⟨clear_ok (by decide), clear_ok (by decide), by decide, by decide, ⟨_, rfl, rfl, by decide +kernel⟩,
    ⟨_, rfl, rfl, by decide +kernel⟩, ⟨_, rfl, rfl⟩, by decide⟩

/-- A live copy command. -/
def cmd (ticket : Nat) (state : CmdState) : Cmd :=
  { ticket, form := .cpy, pc := 0, win := 0, vf := 0, asid := 0, vcore := 0, die := 0, cl := 0, lid := 0, sup := false
    src := doubles (lo + 1024), dst := doubles (lo + 2048), state }

theorem witness_Copies_issue : r0.Clear { xs := [1, 2], xd := [63] } ∧ r0.core.eng.cmds.length < 32 ∧
    (∃ ka t, r0.atIssue.recLocate (lo + 64) = (.ok ka, t) ∧ ∃ kb u, t.recLocate (lo + 128) = (.ok kb, u) ∧
      (let a := u.drained.recRead (lo + 64) ka; let b := a.2.recRead (lo + 128) kb
        b.2.copyCode .cpy u.core.cur a.1 b.1 = 0 ∧ b.2.copyCode .putsig u.core.cur a.1 b.1 ≠ 0 ∧ a.1 ≠ none ∧ b.1 ≠ none)) :=
  ⟨clear_ok (by decide), by decide, _, _, rfl, _, _, rfl, by decide +kernel, by decide +kernel, by decide +kernel,
    by decide +kernel⟩
theorem witness_Copies_checks : (∃ t, r0.atIssue.recLocate 0x5000000000000000 = (.error 9, t)) ∧
    (∃ k t, r0.atIssue.recLocate (lo + 64) = (.ok k, t) ∧ ∃ u, t.recLocate (lo + 1) = (.error 6, u)) ∧
    (let s := withEng r0 { cmds := (List.range 32).map fun n => cmd (n + 1) .queued, nextTicket := 33 }
     s.Clear { xs := [1, 2], xd := [63] } ∧ 32 ≤ s.core.eng.cmds.length) :=
  ⟨⟨_, rfl⟩, ⟨_, _, rfl, _, rfl⟩, clear_ok (by decide), by decide⟩

/-- Tickets 1 faulted, 2 running, 3 done and 4 cancelled; 5 forgotten and 6 not issued; x1 and x2 are actions, too. -/
def e0 : State := withEng (mach false [(1, 1), (2, 2), (3, 3), (4, 4), (5, 5), (6, 6)])
  { cmds := [cmd 1 .faulted, cmd 2 .running], ended := [⟨3, .done, 64, 64⟩, ⟨4, .cancelled, 0, 64⟩], nextTicket := 6 }
theorem witness_Copies_tickets : e0.Clear { xs := [1], xd := [63], own := true } ∧ e0.Clear { xs := [1, 0], xd := [63] } ∧
    e0.core.trapOk = true ∧ e0.core.eng.cmds.find? (·.ticket = 1) = some (cmd 1 .faulted) ∧
    e0.core.eng.cmds.find? (·.ticket = 2) = some (cmd 2 .running) ∧ (cmd 2 .running).form ≠ .cpyPh ∧
    e0.core.eng.cmds.find? (·.ticket = 3) = none ∧ e0.core.eng.ended.find? (·.ticket = 3) = some ⟨3, .done, 64, 64⟩ ∧
    e0.core.eng.ended.find? (·.ticket = 4) = some ⟨4, .cancelled, 0, 64⟩ ∧
    e0.core.eng.cmds.find? (·.ticket = 6) = none ∧ e0.core.eng.ended.find? (·.ticket = 6) = none ∧ e0.core.eng.nextTicket ≤ 6 ∧
    (e0.core.eng.cmds.find? (·.ticket = 5) = none ∧ e0.core.eng.ended.find? (·.ticket = 5) = none ∧ 1 ≤ 5 ∧
      5 < e0.core.eng.nextTicket) ∧ 2 ≤ (e0.core.x 2).toNat ∧ (e0.core.x 1).toNat = 1 ∧ (e0.core.x 0).toNat = 0 :=
  ⟨clear_ok (by decide), clear_ok (by decide), by decide, by decide +kernel, by decide +kernel, by decide, by decide +kernel,
    by decide +kernel, by decide +kernel, by decide +kernel, by decide +kernel, by decide, by decide +kernel, by decide, by decide, rfl⟩

/-- An entry of a timetable for logical cluster 0, of 64 bytes, with TRIG 1 and DEAD 2, SMISS where `stalls` is false. -/
def entry (status : EntStatus) : TtEntry :=
  { raw := 0, status, src := doubles (lo + 1024), dst := doubles (lo + 2048), req := [1] ++ List.replicate 63 0 }
/-- A launch of cluster 0 alone, and a core of it bound to slot 0. -/
def bellows (es : List TtEntry) (xs : Sparse Word) : State :=
  { mach false xs with
    core := { (core false xs) with dom := { launch := 1, ncl := 1, vcl := 0 }, eng := { mark := { armed := true } } }
    launches := [{ lid := 1, vf := 0, roam := false, colLo := 0, colHi := 0, rowLo := 0, rowHi := 0, pkgs := [0] }]
    dies := [(0, { Die.reset with slots := [(0, some { header := 0x1000, asid := 0, vf := 0, sup := false, lid := 1, entries := es, bound := [0] })] })] }
theorem witness_TimetablesAndMarks_arm : let s := bellows [] [(1, 0x5000000000000000), (2, 0x1020), (3, 0x1000), (4, 0x2000)]
    s.Clear { xs := [1], xd := [63] } ∧ s.core.trapOk = true ∧ (s.core.x 1).bits 60 4 ≠ 0 ∧
    ((s.core.x 2).bits 60 4 = 0 ∧ (s.core.x 2).bits 57 3 = 0 ∧ (s.core.x 2).toNat % 64 ≠ 0) ∧
    (∃ t, s.boundSlot = some t ∧ t.header = s.core.x 3 ∧ t.asid = s.core.asid ∧ t.vf = s.core.vf) ∧
    (s.core.x 4).toNat % 64 = 0 :=
  ⟨clear_ok (by decide), by decide, by decide, by decide, ⟨_, rfl, by decide, rfl, rfl⟩, by decide⟩
/-- Sixteen slots, all of another timetable. -/
def slots16 : Sparse (Option TtSlot) := (List.range 16).map fun k =>
  (k, some { header := 0x2000, asid := 0, vf := 0, sup := false, lid := 0, entries := [], bound := [] })
theorem witness_TimetablesAndMarks_full :
    let s : State := { mach false [(1, 0x1000)] with dies := [(0, { Die.reset with slots := slots16 })] }
    s.boundSlot = none ∧ ∀ j < 16, (s.slotAt s.die j).isSome = true ∧ (s.slotAt s.die j).all (·.header ≠ s.core.x 1) := by
  decide
theorem witness_TimetablesAndMarks_entries :
    let s := bellows [entry .started, entry .faulted, entry .rejected, entry .complete] [(1, 1), (2, 2), (3, 3), (4, 4)]
    ∀ n < 4, (s.boundSlot.bind fun t => t.entries[n]?.map (s.entryOn s.die t.lid)) = some true ∧ (s.core.x n).toNat = n := by
  decide +kernel
theorem witness_TimetablesAndMarks_off : ∃ t, (bellows [entry .started] []).boundSlot = some t ∧
    t.bound.filter (· ≠ (bellows [entry .started] []).vcore) = [] := ⟨_, rfl, by decide⟩

/-- An entry with TRIG 1 and DEAD 2 (R59). -/
def due (status : EntStatus) (stalls : Bool) : TtEntry :=
  { entry status with raw := BitVec.ofNat 512 (1 + 2 * 2 ^ 32 + 2 ^ 272 + 64 * 2 ^ 384 + (if stalls then 2 ^ 456 else 0)) }
theorem witness_TimetablesAndMarks_mark : let s := bellows [due .complete true, due .started true] [(1, 1)]
    s.Clear { xs := [1], own := true } ∧ s.core.eng.mark.armed = true ∧ s.core.eng.mark.mark < 2 ∧ ¬ 2 ≤ s.core.eng.mark.mark ∧
    (∃ x y, (s.atIssue.drained.startTriggered 2).checkedEntries 2 = [x, y] ∧ x.2.status = .complete ∧ y.2.status = .started ∧
      y.2.stalls = true) :=
  ⟨clear_ok (by decide), rfl, by decide, by decide, (0, due .complete true), (1, due .started true), by decide +kernel, rfl,
    rfl, by decide +kernel⟩
theorem witness_TimetablesAndMarks_late :
    (((bellows [due .started false] []).atIssue.drained.startTriggered 2).checkedEntries 2).map
      (fun e => (e.2.status, e.2.stalls)) = [(.started, false)] ∧
    (((bellows [due .rejected true] []).atIssue.drained.startTriggered 2).checkedEntries 2).map
      (fun e => (e.2.status, e.2.stalls)) = [(.rejected, true)] ∧
    (((bellows [due .complete true] []).atIssue.drained.startTriggered 2).checkedEntries 2).map (·.2.status) = [.complete] := by
  decide +kernel

theorem witness_EngineEvents_copies : let s := withEng r0 { cmds := [cmd 1 .running, cmd 2 .queued] }
    let bad : State := { s with clusters := [] }
    (s.coreAt 0).eng.cmds = [cmd 1 .running] ++ cmd 2 .queued :: [] ∧ (∀ x ∈ [cmd 1 .running], x.state ≠ .queued) ∧
    (s.coreAt 0).eng.cmds.find? (·.ticket = 1) = some (cmd 1 .running) ∧ 0 < (recLen (cmd 1 .running).dst + 255) / 256 ∧
    0 ∉ (cmd 1 .running).segs ∧ (s.moveSegment (cmd 1 .running) 0).1.toOption = some false ∧
    (bad.moveSegment (cmd 1 .running) 0).1.toOption = none ∧ ∀ c ∈ [cmd 1 .running], c.state ≠ .queued :=
  ⟨rfl, by decide +kernel, by decide +kernel, by decide +kernel, by decide, by decide +kernel, by decide +kernel,
    by decide +kernel⟩
theorem witness_EngineEvents_streams : let s := withEng r0 { streams := [(3, some strm)] }
    ∃ x, (s.coreAt 0).stream 3 = some x ∧ x.faulted = false ∧ x.given < x.words ∧ x.buf.length < 16 ∧
      (s.streamBytes (s.streamView 0 x) x.src (splitRange (recE x.src) 0 (min 64 (recLen x.src)))).1.toOption.isSome = true ∧
      (({ s with clusters := [] } : State).streamBytes (s.streamView 0 x) x.src
        (splitRange (recE x.src) 0 (min 64 (recLen x.src)))).1.toOption = none :=
  ⟨_, rfl, rfl, by decide +kernel, by decide, by decide +kernel, by decide +kernel⟩
/-- The entry's one sector moves; where the banks are cache ways, it faults. -/
theorem witness_EngineEvents_timetables : let s := bellows [due .started true, due .complete true] []
    let e := due .started true
    ∃ t, s.slotAt 0 0 = some t ∧ t.entries[0]? = some e ∧ e.status = .started ∧ e.undone = [] ++ 0 :: [] ∧
      (s.moveSector t 0 e 0).1.toOption = some () ∧
      (({ s with clusters := [] } : State).moveSector t 0 e 0).1.toOption = none ∧
      t.entries[1]? = some (due .complete true) :=
  ⟨_, rfl, rfl, rfl, by decide +kernel, by decide +kernel, by decide +kernel, rfl⟩
theorem witness_EngineEvents_results :
    let s : State := { v0 with
      core := { v0.core with pend := [{ kind := .flight, writes := [(5, 7)] }, { kind := .queued 4, writes := [(64, 1)] }] }
      clusters := [(0, { vptr := 0, credit := [(0, 4)] })] }
    (∃ p, (s.coreAt 0).pend[0]? = some p ∧ p.kind = .flight) ∧ (s.coreAt (s.coreOf 0 (s.clAt 0).vptr)).headCost = some 4 ∧
    4 ≤ sget 0 (s.clAt 0).credit (s.clAt 0).vptr := ⟨⟨_, rfl, rfl⟩, by decide, by decide⟩
/-- A trip of one `vadd.f32 v3, v1, v2`, at its first instruction. -/
def trip1 : Trip := { pc := 0, widx := 0, win := { v := true, size := 1024, voff := 64 }, sup := false, shared := []
                      body := [.v {} (.lane .f32 .add 3 1 2)], raw := [], offs := [4], mode := 0, ns := 0, bs := 0, count := 2
                      scal := [] }
theorem witness_EngineEvents_trip : let s := withEng v0 { trip := some trip1 }
    isCore s.focus = true ∧ s.core.eng.trip = some trip1 ∧ trip1.stopped = false ∧ s.core.run ≠ .quenched ∧
    (s.core.win trip1.widx).s = false ∧
    (trip1.body[trip1.pos]?).map (BodyOp.stag trip1.mode (trip1.iter * trip1.ns)) = some (.v {} (.lane .f32 .add 3 1 2)) ∧
    (∀ n ∈ vSrcs' {} (.lane .f32 .add 3 1 2), s.core.bound trip1.widx n = none) ∧ s.core.pend = [] ∧ s.core.bad = [] ∧
    (calcV {} s.core.fp.frm (fmtCode s.core.mat.fmta)
      { widx := 0, win := trip1.win, x := fun n => sget 0 trip1.scal n, v := trip1.vec s.core, old := trip1.vec s.core
        off := word 0 } (.lane .f32 .add 3 1 2)).isSome = true :=
  ⟨rfl, rfl, rfl, by decide, by decide, by decide, by decide, rfl, rfl, rfl⟩

/-- The machine with such a cluster 0 (bank 0 scratchpad, bank 1 a FIFO). -/
def withCl (s : State) (f : Cluster → Cluster) : State :=
  { s with clusters := [(0, f { banks := [(0, { role := .scratch }), (1, { role := .fifo })] })] }
/-- The core 0, window 0, holds the lease for 2 commands; x1 is an address in bank 0. -/
def m0 : State := withCl (mach false [(1, lo), (2, lo + 1)]) fun c => { c with lease := { holder := some (0, 0), left := 2 } }

theorem witness_MatrixLeases : m0.core.feErr = none ∧ m0.Clear {} ∧ m0.Clear { xd := [63] } ∧ Claims.Leased m0 ∧
    s0.Clear {} ∧ s0.core.feErr = none ∧ (s0.clAt s0.cl).lease.holder = none ∧ (s0.clAt s0.cl).lease.reqs = [] ∧
    s0.coreOf s0.cl 0 = s0.focus ∧ s0.matPending = false ∧ ¬ Claims.Leased s0 ∧ (s0.acc s0.cl 63).orphan = false :=
  ⟨rfl, clear_ok (by decide), clear_ok (by decide), by unfold Claims.Leased; decide, clear_ok (by decide), rfl, by decide,
    by decide, by decide, by decide, by unfold Claims.Leased; decide, by decide⟩
theorem witness_MatrixLeases_other : let s := withCl (mach true []) fun c => { c with lease := { holder := some (0, 5) } }
    let t := withCl s0 fun c => { c with lease := { holder := some (7, 0) } }
    s.Clear {} ∧ (s.clAt s.cl).lease.holder = some (posOf s.focus, 5) ∧ s.core.sup = true ∧ (s.clAt s.cl).lease.reqs = [] ∧
    t.Clear {} ∧ (t.clAt t.cl).lease.holder = some (7, 0) ∧ (7, 0) ≠ (posOf t.focus, t.core.cur) ∧
    (∀ w, some (7, 0) = some (posOf t.focus, w) → w ≠ t.core.cur ∧ t.core.sup = false) :=
  ⟨clear_ok (by decide), by decide, rfl, by decide, clear_ok (by decide), by decide, by decide,
    fun w h => by simp [posOf] at h; exact absurd h.1 (by decide)⟩
/-- Slot 0 is the core's own orphan, slot 1 of another window, slot 63 of another VF; a command of the core is in the
array. -/
def m1 (sup : Bool) : State := withCl (mach sup [(1, lo), (2, lo + 1)]) fun c => { c with
  accs := [(0, { orphan := true }), (1, { orphan := true, win := 5 }), (63, { orphan := true, vf := 1 })] }
theorem witness_MatrixLeases_claims : (m1 true).Clear { xd := [1] } ∧ (m1 false).Clear { xd := [1] } ∧
    (∀ n ∈ [0, 1, 63], ((m1 true).acc 0 n).orphan = true) ∧
    (((m1 true).acc 0 0).vf = 0 ∧ ((m1 true).acc 0 0).vcore = (m1 true).vcore ∧ ((m1 true).acc 0 0).win = 0) ∧
    ((m1 true).acc 0 1).win ≠ 0 ∧ ((m1 true).acc 0 1).vf = 0 ∧ (m1 true).core.sup = true ∧ ((m1 true).acc 0 63).vf ≠ 0 :=
  ⟨clear_ok (by decide), clear_ok (by decide), by decide, by decide, by decide, by decide, rfl, by decide⟩
/-- A command in the array. -/
def mcmd (op : MatOp) (started : Bool) : MCmd :=
  { op, ea := lo, core := 0, vf := 0, vcore := 0, win := 0, lid := 0, fmta := 1, fmtb := 1, ofmt := 0, aty := 0, fe := false, started }
theorem witness_MatrixLeases_pending : (withCl s0 fun c => { c with array := [mcmd .rot false] }).matPending = true ∧
    (withCl s0 fun c => { c with array := [mcmd .rot false] }).Clear { xd := [1] } := ⟨by decide, clear_ok (by decide)⟩

theorem witness_MatrixCommands : m0.core.feErr = none ∧ Claims.Leased m0 ∧ 2 ≤ (m0.clAt m0.cl).lease.left ∧ m0.core.m.sbuf = [] ∧
    (∀ o ∈ [MatOp.bload 1, .mac 63 1, .rot, .zero 63, .st 63 1, .ld 63 1], m0.Clear { xs := o.xs, xd := o.xd }) ∧
    (m0.acc m0.cl 63).orphan = false ∧ (m0.atIssue.matAddr (.st 63 1) (m0.core.x 1)).1 = none ∧
    (m0.atIssue.matAddr (.st 63 2) (m0.core.x 2)).1.isSome = true :=
  ⟨rfl, by unfold Claims.Leased; decide, by decide, rfl, fun o h => by
    simp only [List.mem_cons, List.not_mem_nil, or_false] at h
    rcases h with rfl | rfl | rfl | rfl | rfl | rfl <;> exact clear_ok (by decide),
    by decide, by decide, by decide⟩
theorem witness_MatrixCommands_lease : ¬ Claims.Leased s0 ∧ s0.Clear { xs := [1], xd := [] } ∧ s0.core.trapOk = true ∧
    (let s := withCl m0 fun c => { c with lease := { holder := some (0, 0), left := 2 }, accs := [(63, { orphan := true })] }
     Claims.Leased s ∧ (s.acc s.cl 63).orphan = true ∧ s.core.trapOk = true) :=
  ⟨by unfold Claims.Leased; decide, clear_ok (by decide), by decide, by unfold Claims.Leased; decide, by decide, by decide⟩
/-- The tile of `macc` is 64 × 64 elements of the type of slot 0, ATY 0; none of its granules is full. -/
def m2 : State := { m0 with core := { m0.core with mat := { own := [(0, some 0)] } } }
theorem witness_MatrixCommands_macc : m2.Clear { xs := [1], own := true } ∧ m2.core.wait = none ∧ (m2.acc m2.cl 0).orphan = false ∧
    (∃ t, m2.atIssue.matAddr (.acc 0 1) (m2.core.x 1) = (none, t) ∧ t.matBytes (.acc 0 0) = some 16384 ∧
      t.core.m.sbuf = [] ∧ t.core.cur = m2.core.cur ∧ t.allFull t.cl ((m2.core.x 1).bits 0 23) 16384 = false ∧
      t.asyncFault t.cl ((m2.core.x 1).bits 0 23) 16384 = none) :=
  ⟨clear_ok (by decide), rfl, by decide, _, rfl, by decide, rfl, rfl, by decide +kernel, by decide +kernel⟩

theorem witness_MatrixEvents : let s := withCl s0 fun c => { c with array := [mcmd (.zero 63) true] }
    let t := withCl s0 fun c => { c with array := [mcmd (.mac 63 1) false] }
    (s.clAt 0).array.head? = some (mcmd (.zero 63) true) ∧ (s.clAt 0).spill = none ∧ (mcmd (.zero 63) true).op = .zero 63 ∧
    (t.clAt 0).array.head? = some (mcmd (.mac 63 1) false) ∧ (mcmd (.mac 63 1) false).started = false := by decide
theorem witness_MatrixEvents_rotation :
    let c := { mcmd .rot true with sent := true }
    let s := withCl s0 fun k => { k with array := [c], latchIn := some none }
    let l : Launch := { lid := 1, vf := 0, roam := false, colLo := 0, colHi := 1, rowLo := 0, rowHi := 0, pkgs := [0] }
    let t : State := { s0 with clusters := [(0, { lid := 1 }), (1, { lid := 1, array := [mcmd .rot true] })], launches := [l] }
    ((s.clAt 0).array.head? = some c ∧ c.sent = true ∧ (s.clAt 0).latchIn = some none) ∧ t.predecessor 0 = 1 ∧
      (t.clAt 1).array.head? = some (mcmd .rot true) ∧ (mcmd .rot true).sent = false ∧ (t.clAt 0).latchIn = none := by
  decide
theorem witness_MatrixEvents_lease : let s := withCl s0 fun c => { c with lease := { holder := some (0, 0), reqs := [(1, 0)] } }
    let t : State := { s with time := 4096 }
    (s.clAt 0).lease.holder = some (0, 0) ∧ (s.coreAt (s.coreOf 0 0)).wait = none ∧ (∃ r ∈ (t.clAt 0).lease.reqs, r.1 ≠ 0) ∧
    (t.clAt 0).lease.lastCmd + 4096 ≤ t.time ∧ s.time < (s.clAt 0).lease.lastCmd + 4096 := by decide
theorem witness_MatrixEvents_product : 0 < 1 ∧ 1 ≤ 32 ∧ 63 < 64 := by decide

theorem witness_AtomicOperations : s1.Clear (Claims.atomUse 7 63 1 8) ∧ Claims.Quiet s1 ∧ Claims.OwnScratch s1 (s1.core.x 1) 8 ∧
    scopeOk .blk ((s1.core.x 1).bits 60 4) = true ∧ scopeOk .dev ((s1.core.x 1).bits 60 4) = true ∧
    (∃ k t, s1.atIssue.locate .atomic (hi - 8) 8 = (.ok k, t) ∧ t.core.m.sbuf = []) ∧
    (∃ t, s1.atIssue.locate .atomic (lo + 1) 4 = (.error 0x06, t)) :=
  ⟨clear_ok (by decide), ⟨rfl, rfl, rfl⟩, by unfold Claims.OwnScratch; decide, by decide, by decide, ⟨_, _, rfl, rfl⟩, _, rfl⟩
theorem witness_AtomicOperations_scope : let s := mach false [(1, 0x5000000000000000)]
    s.Clear (Claims.atomUse 0 2 1 3) ∧ scopeOk .blk ((s.core.x 1).bits 60 4) = false ∧ s.core.trapOk = true :=
  ⟨clear_ok (by decide), by decide, by decide⟩
theorem witness_ReductionEntries : s1.Clear { xs := [1, 8] } ∧ Claims.Quiet s1 ∧ Claims.OwnScratch s1 (s1.core.x 1) 8 ∧
    scopeOk .cls ((s1.core.x 1).bits 60 4) = true ∧ scopeOk .sys ((s1.core.x 1).bits 60 4) = false ∧ s1.core.trapOk = true ∧
    (∃ t, s1.atIssue.locate .red (lo + 1) 4 = (.error 0x06, t)) :=
  ⟨clear_ok (by decide), ⟨rfl, rfl, rfl⟩, by unfold Claims.OwnScratch; decide, by decide, by decide, by decide, _, rfl⟩

/-- A reduction of HBM4's first double, one of path 5 behind another of the same bytes, and one of path 5 in the buffer. -/
def red (path key : Nat) : RedFlight := { core := 0, vf := 0, path, key, ea := 0, rop := 1, b := 5 }
theorem witness_MemoryEvents : let s : State := { s0 with reds := [red 0 0, red 5 64, red 5 68], fstores := [] }
    (s.coreAt 0).m.sbuf = [] ∧ (s.coreAt 0).m.atom = none ∧ s.reds[0]? = some (red 0 0) ∧ (red 0 0).path ≠ 5 ∧
    s.poison = [] ∧ s.regionOk (red 0 0).key = true ∧ (red 0 0).rop < 14 ∧ s.reds[2]? = some (red 5 68) ∧ (red 5 68).path = 5 ∧
    (∃ q ∈ s.reds.take 2, q.path = 5 ∧ meets q.key (ropSize q.rop) 68 (ropSize 1) = true) := by decide
theorem witness_MemoryEvents_ports : let e : SbEntry := { path := 5, key := 64, size := 8, vf := 0, ea := 0x5000000000000040, op := .red 1 .sys 5, sup := false, win := 0 }
    let c : Comb := { vf := 0, pa := 64, rop := 1, val := 5, opened := 0, core := 0, ea := 0x5000000000000040 }
    let s : State := { s0 with core := { s0.core with m := { sbuf := [e] } }, ports := [(3, [c])], time := 255 }
    let t : State := { s with time := 256 }
    (s.coreAt 0).m.sbuf = [e] ∧ e.op = .red 1 .sys 5 ∧ e.path = 5 ∧ s.fstores = [] ∧ (sget [] s.ports 3)[0]? = some c ∧
    scanon [] 0 s.ports = true ∧ s.time < c.opened + 256 ∧ c.opened + 256 ≤ t.time := by decide

/-- The granules of the first 64 bytes of bank 0 but the second are full; `take`s are deferred on the second. -/
def f0 (deferred : List Deferred) : State :=
  { mach false [(1, lo), (2, lo + 16), (3, 64), (4, lo + 4), (5, 0x5000000000000000), (6, 32)] with
    clusters := [(0, { banks := [(0, { role := .scratch, deferred }), (1, { role := .fifo })]
                       full := [(0, true), (2, true), (3, true)] })] }
theorem witness_FullEmptyOperations : Claims.Fresh (f0 []) ∧ (f0 []).Clear { xs := [1], xd := [63] } ∧
    (f0 []).Clear { xs := [1, 5], xd := [63] } ∧ (f0 []).core.trapOk = true ∧ (f0 []).fePath ((f0 []).core.x 5) = false ∧
    Claims.OwnScratch (f0 []) ((f0 []).core.x 1) 8 ∧ Claims.OwnScratch (f0 []) ((f0 []).core.x 2) 8 ∧
    Claims.OwnScratch (f0 []) ((f0 []).core.x 4) 1 ∧ ((f0 []).core.x 4).toNat % 8 ≠ 0 ∧
    (f0 []).isFull 0 (Claims.granule ((f0 []).core.x 1)) = true ∧ (f0 []).isFull 0 (Claims.granule ((f0 []).core.x 2)) = false :=
  ⟨⟨⟨rfl, rfl, rfl⟩, by decide, rfl, rfl⟩, clear_ok (by decide), clear_ok (by decide), by decide, by decide,
    by unfold Claims.OwnScratch; decide, by unfold Claims.OwnScratch; decide, by unfold Claims.OwnScratch; decide, by decide,
    by decide, by decide⟩
/-- A `take` of core 7 is deferred on the second granule. -/
theorem witness_FullEmptyOperations_deferred : let e : Deferred := { core := 7, win := 0, off := 16, slot := some 5 }
    let s := f0 [e]
    Claims.Fresh s ∧ s.Clear { xs := [2, 3], xd := [63] } ∧ Claims.OwnScratch s (s.core.x 2) 8 ∧ (s.bank 0 0).deferred = [] ++ e :: [] ∧
    e.off = (s.core.x 2).toNat % 2 ^ 23 ∧ e.slot = some 5 ∧ e.core ≠ s.focus :=
  ⟨⟨⟨rfl, rfl, rfl⟩, by decide, rfl, rfl⟩, clear_ok (by decide), by unfold Claims.OwnScratch; decide, rfl, by decide, rfl, by decide⟩
theorem witness_FullEmptyOperations_ranges : let s := f0 []
    s.Clear { xs := [1, 3] } ∧ s.Clear { xs := [1, 3], own := true } ∧ Claims.OwnRange s (s.core.x 1) (s.core.x 3).toNat ∧
    Claims.OwnRange s (s.core.x 1 + 32) (s.core.x 6).toNat ∧ (∀ k < 24, (s.bank 0 k).deferred = []) ∧
    (∀ g, 2 ≤ g ∧ g < 4 → s.isFull 0 g = true) ∧ s.isFull 0 1 = false ∧ s.asyncWork 0 0 64 = none ∧
    (s.core.x 0).toNat = 0 ∧ (s.core.x 1).bits 60 4 = 1 ∧ (s.core.x 1).toNat % 16 = 0 := by
  refine ⟨clear_ok (by decide), clear_ok (by decide), ?_, ?_, by decide, ?_, by decide, by decide, rfl, by decide, by decide⟩
  · unfold Claims.OwnRange; decide
  · unfold Claims.OwnRange; decide
  · intro g hg
    obtain rfl | rfl : g = 2 ∨ g = 3 := by omega
    · decide
    · decide

/-- x1 is the FIFO of bank 1. -/
def q0 (fifo : List Word) (deferred : List Deferred) : State :=
  { mach false [(1, lo + 0x40000), (2, 9)] with
    clusters := [(0, { banks := [(1, { role := .fifo, fifo, deferred })] })] }
theorem witness_Fifos : Claims.Fresh (q0 [1, 2] []) ∧ Claims.OwnFifo (q0 [1, 2] []) ((q0 [1, 2] []).core.x 1) ∧
    (q0 [1, 2] []).Clear { xs := [1, 2], xd := [63] } ∧ (q0 [1, 2] []).Clear { xs := [1], xd := [0] } ∧
    ((q0 [1, 2] []).bank 0 1).fifo.length < 16384 ∧ ((q0 [1, 2] []).bank 0 1).fifo = 1 :: [2] ∧
    ((q0 [] []).bank 0 1).fifo = [] ∧ ((q0 [] []).bank 0 1).deferred.length < 32 :=
  ⟨⟨⟨rfl, rfl, rfl⟩, by decide, rfl, rfl⟩, by unfold Claims.OwnFifo; decide, clear_ok (by decide), clear_ok (by decide),
    by decide, by decide, by decide, by decide⟩
theorem witness_Fifos_deferred : let e : Deferred := { core := 7, win := 0, off := 0x40000, slot := some 5 }
    let s := q0 [] [e]
    Claims.Fresh s ∧ Claims.OwnFifo s (s.core.x 1) ∧ s.Clear { xs := [1, 2], xd := [63] } ∧ (s.bank 0 1).deferred = e :: [] ∧
    e.slot = some 5 ∧ e.core ≠ s.focus :=
  ⟨⟨⟨rfl, rfl, rfl⟩, by decide, rfl, rfl⟩, by unfold Claims.OwnFifo; decide, clear_ok (by decide), rfl, rfl, by decide⟩
theorem witness_Fifos_full : ((q0 (List.replicate 16384 1) []).bank 0 1).fifo.length = 16384 :=
  (List.length_replicate : (List.replicate 16384 (1 : Word)).length = 16384)

theorem witness_BankRoles : s0.Clear { xs := [1], xd := [63] } ∧ (∀ b < 24, (s0.bank s0.cl b).switching = none ∧ (s0.bank s0.cl b).queue = []) ∧
    (let s : State := { s0 with clusters := [(0, { banks := [(0, { queue := [.fifo] }), (23, { switching := some .scratch })] })] }
     (s.bank 0 0).switching = none ∧ (s.bank 0 0).queue = .fifo :: [] ∧ (s.bank 0 23).switching = some .scratch ∧
      (s.bank 0 23).queue = [] ∧ (s.bank 0 1).queue = []) := ⟨clear_ok (by decide), by decide, by decide⟩

theorem witness_OrderAndPromotion : s1.Clear {} ∧ s1.Clear { xs := [1], xd := [63] } ∧ s1.Clear { xs := [8, 1] } ∧
    Claims.OwnScratch s1 (s1.core.x 1) 8 ∧ Claims.Quiet s1 ∧ s1.core.m.plog = [] ∧ (s1.core.x 1).bits 60 4 ≠ 8 ∧
    (s1.core.x 1).bits 60 4 ≠ 9 ∧ s1.core.pend = [] ∧ (s0.core.x 4).bits 60 4 = 8 ∧ s0.core.trapOk = true ∧
    s0.Clear { xs := [4], xd := [1] } ∧ s0.Clear { xs := [1, 4] } :=
  ⟨clear_ok (by decide), clear_ok (by decide), clear_ok (by decide), by unfold Claims.OwnScratch; decide, ⟨rfl, rfl, rfl⟩, rfl,
    by decide, by decide, rfl, by decide, by decide, clear_ok (by decide), clear_ok (by decide)⟩
theorem witness_OrderAndPromotion_acqp : s1.Clear { xs := [1, 2], xd := [63] } ∧ s0.Clear { xs := [4, 1], xd := [63] } ∧
    Claims.promoted s1 0 = some 0 ∧ Claims.promoted s1 0x800 = none := ⟨clear_ok (by decide), clear_ok (by decide), by decide, by decide⟩
theorem witness_OrderAndPromotion_endpoint :
    let s : State := { s0 with fstores := [⟨0, 0, 0, [(64, 1)]⟩, ⟨1, 0, 0, [(64, 2)]⟩, ⟨1, 0, 0, [(72, 2)]⟩] }
    s.fstores[3]? = none ∧ s.fstores[2]? = some ⟨1, 0, 0, [(72, 2)]⟩ ∧ s.fstores[1]? = some ⟨1, 0, 0, [(64, 2)]⟩ ∧ s.poison = [] ∧
    (∃ g ∈ s.fstores.take 1, ∃ x ∈ g.cells, ∃ y ∈ [((64 : Nat), (2 : Byte))], x.1 = y.1) ∧
    ¬ (∃ g ∈ s.fstores.take 2, ∃ x ∈ g.cells, ∃ y ∈ [((72 : Nat), (2 : Byte))], x.1 = y.1) := by decide

/-- The members 0, of this core's window 0, and 7, of core 7, of a phaser in phase 1. -/
def ph (mode : PhMode) (l : BitVec 32) (given : Bool) : Phaser :=
  { vf := 0, lid := 0, dev := false, p := 1, members := [{ vcore := 0, win := 0, mode, l, given }, { vcore := 7, win := 0, mode := .sw, l := 1 }] }
/-- Such a phaser, the last of die 0, whose id x1 holds. -/
def p0 (p : Phaser) : State :=
  { mach false [(1, 1023), (2, 8), (3, -1), (4, 8192)] with dies := [(0, { Die.reset with phasers := [(1023, some p)] })] }
theorem witness_Phasers : (p0 (ph .sw 1 false)).Clear { xs := [1], xd := [63] } ∧
    (p0 (ph .sw 1 false)).Clear { xs := [1], xd := [63], own := true } ∧
    Claims.phaser (p0 (ph .sw 1 false)) 1023 (ph .sw 1 false) ∧
    Claims.member (p0 (ph .sw 1 false)) (ph .sw 1 false) = some { vcore := 0, win := 0, mode := .sw, l := 1 } ∧
    (∀ p, ¬ Claims.phaser (p0 (ph .sw 1 false)) 8192 p) ∧ (p0 (ph .sw 1 false)).core.x 3 = -1 ∧
    ((p0 (ph .sw 1 false)).core.x 2).toNat = 8 ∧ (p0 (ph .sw 1 false)).core.m.sbuf = [] ∧
    (∃ n ∈ (ph .sw 1 false).members, n.signals = true ∧ n.gave 1 = false ∧ n.vcore ≠ 0) :=
  ⟨clear_ok (by decide), clear_ok (by decide), by unfold Claims.phaser; decide, by decide,
    fun p h => absurd h.1 (by decide), by decide, by decide, rfl, by decide⟩
/-- Signals given and owed, a phase ahead and one behind, and records without members, and without this one. -/
theorem witness_Phasers_modes : (∀ m ∈ [PhMode.sw, .so, .wo], Claims.member (p0 (ph m 0 true)) (ph m 0 true) = some { vcore := 0, win := 0, mode := m, l := 0, given := true }) ∧
    ((1 : BitVec 32) ≠ 0 ∧ ((1 : BitVec 32) - 0).toNat < 2 ^ 31) ∧ ((2 : BitVec 32) ≠ 1 ∧ ((2 : BitVec 32) - 1).toNat < 2 ^ 31) ∧
    Claims.phaser (p0 { vf := 0, lid := 0, dev := false }) 1023 { vf := 0, lid := 0, dev := false } ∧
    Claims.member (p0 { vf := 0, lid := 0, dev := false }) { vf := 0, lid := 0, dev := false } = none := by
  refine ⟨by decide, by decide, by decide, ?_, by decide⟩
  unfold Claims.phaser; decide
theorem witness_Phasers_owed : let m : Member := { vcore := 0, win := 0, mode := .sw, l := 1, owed := some 1 }
    let p : Phaser := { vf := 0, lid := 0, dev := false, p := 1, members := [m] }
    let s := withEng (p0 p) { cmds := [{ cmd 1 .faulted with form := .cpyPh }] }
    s.Clear { xs := [1], xd := [63], own := true } ∧ Claims.member s p = some m ∧ m.owed = some 1 ∧
    (s.core.eng.cmds.find? fun c => c.ticket = 1 ∧ c.state = .faulted ∧ c.win = s.core.cur).isSome = true ∧ s.core.trapOk = true :=
  ⟨clear_ok (by decide), by decide, rfl, by decide +kernel, by decide⟩
theorem witness_Phasers_free : let s : State := { mach false [(1, 0)] with dies := [(0, { Die.reset with phasers := [(0, some (ph .so 0 false))] })] }
    s.phaser (1024 * 0 + 1) = none ∧ (∀ j < 1, s.phaser (1024 * 0 + j) ≠ none) := by decide

/-- Window 1, of 64 slots, is struck on the billet that is window 2 and current; its group 1 is shared. -/
def k0 : State := { s0 with core := { s0.core with
  cur := 1, store := [(1, 5), (2, 6), (1032, 9)]
  wins := [(0, { v := true, size := 64, base := 4096 }),
    (1, { v := true, size := 64, s := true, parent := 2, share := 2, lid := 1, task := 1 }),
    (2, { v := true, size := 64, base := 1024, t := true, lid := 1 }), (28, { v := true, size := 64 })] } }
theorem witness_StruckWindows : k0.Ready { xs := [1, 2], xd := [8], gate := false } ∧ k0.core.curWin.s = true ∧
    k0.core.curWin.share.getLsbD (8 / 8) = true ∧ k0.core.pend = [] ∧
    (∀ m < k0.core.curWin.size, k0.core.curWin.share.getLsbD (m / 8) = true →
      k0.core.src k0.core.curWin m < k0.core.curWin.base ∨
        k0.core.curWin.base + k0.core.curWin.size ≤ k0.core.src k0.core.curWin m) :=
  ⟨ready_ok (by decide), by decide, by decide, rfl, by decide⟩

/-- A task type without bindings: 64 slots, billet 2 (R281). -/
def type0 : List (BitVec 512) := [BitVec.ofNat 512 (2 * 2 ^ 64 + 64 * 2 ^ 96), 0, 0, 0, 0]
/-- A task of it. -/
def task (seq : Nat) (state : TaskState) : Task :=
  { lid := 1, vf := 0, asid := 0, seq, typ := 0, team := 0, pri := 0, rcd := 7, homes := [], binds := [], deps := [], settles := []
    counter := none, satisfied := true, state }
/-- A launch of cluster 0 with that type, which owns the slots of windows 1 and 2. -/
def launch1 : Launch := { lid := 1, vf := 0, roam := false, colLo := 0, colHi := 0, rowLo := 0, rowHi := 0, pkgs := [0]
                          started := true, thi := 2048, quota := 100, types := [type0] }
/-- Core 0 in it, in user mode with the whole store as its arena, windows as `k0` but window 0 current, and such tasks. -/
def t0 (ts : List Task) (xs : Sparse Word) : State :=
  { mach false xs with
    core := { k0.core with cur := 0, store := xs, dom := { launch := 1, ncl := 1, vcl := 0 }, arena := { hi := 16384 } }
    launches := [launch1], dies := [(0, { Die.reset with tasks := ts, sched := [(1, { spawned := 3, teams := 1 })] })] }

theorem witness_TaskRecords_tdef : s1.Clear { xs := [2], xd := [63] } ∧
    (∃ t, s1.atIssue.locateBlocks lo 5 = (.error 9, t)) ∧ (∃ t, s1.atIssue.locateBlocks 1 5 = (.error 6, t)) ∧
    (let s := (t0 [] []).withCode (bytesOf ((type0.headD 0).toNat) 64)
     (s.locateBlocks 0 5).1.toOption.isSome = true ∧ s.tdefCode (type0.map some) = 0 ∧ s.tdefCode (List.replicate 5 none) ≠ 0) :=
  ⟨clear_ok (by decide), ⟨_, rfl⟩, ⟨_, rfl⟩, by decide +kernel, by decide +kernel, by decide +kernel⟩
theorem witness_TaskRecords_tspawn : (t0 [] [(4096, 0)]).Clear { xs := [1, 2], xd := [2] } ∧
    (t0 [] []).atIssue.taskRelease.spawnCode 0 0 = 0 ∧ (t0 [] []).atIssue.taskRelease.spawnCode 1 0 ≠ 0 :=
  ⟨clear_ok (by decide), by decide +kernel, by decide +kernel⟩
theorem witness_TaskRecords_tquery : (t0 [task 3 .running] []).Clear { xs := [1], xd := [0] } ∧
    ((3 : Word).toInt = 3 ∧ (1 : Int) ≤ 3) ∧ (-1 : Word) ≠ -2 ∧ ((0 : Word).toInt < 1 ∧ (0 : Word) ≠ -1 ∧ (0 : Word) ≠ -2) ∧
    ((t0 [task 3 .running] []).dieAt 0).tasks.find? (fun t => t.lid = 1 ∧ t.seq = 3) = some (task 3 .running) ∧
    ((t0 [task 3 .running] []).dieAt 0).tasks.find? (fun t => t.lid = 1 ∧ t.seq = 2) = none :=
  ⟨clear_ok (by decide), by decide, by decide, by decide, by decide, by decide⟩

/-- A task is ready, so `tnext` of a core of its launch is answered with it; without one, at its deadline, with −1. -/
theorem witness_TaskStartsAndEnds_start : let s := t0 [task 3 .ready] [(4097, 2048)]
    s.Clear { xs := [1], xd := [0] } ∧ (s.core.win 3).v = false ∧ (s.core.win 1).v = true ∧ s.core.trapOk = true ∧
    (∃ u, s.atIssue.waiting .tnext (s.time + 1024) = .next u ∧ (u.serve 0).myOffer = some (task 3 .ready) ∧
      (u.serve 0).strikeCheck ((u.serve 0).header (task 3 .ready))
        (strikeWin ((u.serve 0).header (task 3 .ready)) (task 3 .ready) ((u.serve 0).core.win 2) 2048) 2048 = none) :=
  ⟨clear_ok (by decide), by decide, by decide, by decide, _, rfl, by decide +kernel, by decide +kernel⟩
theorem witness_TaskStartsAndEnds_none : let s := t0 [] []
    ∃ u, s.atIssue.waiting .tnext (s.time + 1024) = .next u ∧ (u.serve 0).myOffer = none ∧ (u.serve 0).core.wait ≠ none ∧
      (u.serve 0).core.wait.all (fun w => decide (s.time < w.deadline)) = true := ⟨_, rfl, by decide, by decide, by decide⟩
/-- The waits of a `tnext` before and at its deadline. -/
def tnextWait : Wait := { kind := .tnext, pc := 0x1000, win := 0, since := 0, report := 0, deadline := 1024 }
theorem witness_TaskStartsAndEnds_deadline :
    let s : State := { t0 [] [] with core := { (t0 [] []).core with wait := some tnextWait }, time := 1024 }
    (s.coreAt 0).wait = some tnextWait ∧ tnextWait.kind = .tnext ∧ tnextWait.addr = 0 ∧ tnextWait.deadline ≤ s.time ∧
    (s.coreAt 0).curWin.s = false ∧ (∀ p ∈ (s.coreAt 0).pend, p.variable = true) ∧
    (∃ u, s.atIssue.waiting .tnext (s.time + 1024) = .next u ∧ (u.serve 0).myOffer = none ∧
      (u.serve 0).core.wait = some tnextWait) :=
  ⟨rfl, rfl, rfl, by decide, by decide, by decide, _, rfl, by decide, by decide⟩
/-- In the struck window 1 of a running task, back to window 0. -/
def t1 : State := { t0 [{ task 1 .running with win := 1 }] [] with core := { k0.core with dom := { launch := 1 } } }
theorem witness_TaskStartsAndEnds_end : s0.Clear {} ∧ s0.core.pend = [] ∧ s0.core.bad = [] ∧ s0.core.trapOk = true ∧
    t1.Ready {} ∧ t1.core.curWin.s = true ∧ t1.core.trapOk = true ∧ t1.core.pend = [] ∧ t1.core.bad = [] ∧
    ((t1.core.win 0).v = true ∧ (t1.core.win 0).h = false ∧ 0 ≠ t1.core.cur) ∧ (t1.core.win 27).v = false ∧
    t1.core.m.sbuf = [] ∧ t1.core.m.plog = [] ∧ t1.reds = [] ∧ t1.core.curWin.t = false ∧
    t1.core.inBillet t1.core.curWin.base = false ∧ t1.core.curWin.share.getLsbD 0 = false :=
  ⟨clear_ok (by decide), rfl, rfl, by decide, ready_ok (by decide), by decide, by decide, rfl, rfl, by decide, by decide, rfl,
    rfl, rfl, by decide, by decide, by decide⟩
theorem witness_TaskStartsAndEnds_billet : let s : State := { t1 with core := { t1.core with wins := [(0, { v := true, size := 64, base := 4096 }),
      (1, { v := true, size := 64, s := true, t := true }), (28, { v := true, size := 64 })] } }
    s.Ready {} ∧ s.core.curWin.s = true ∧ s.core.curWin.t = true ∧ (s.core.win 0).v = true ∧ s.core.trapOk = true :=
  ⟨ready_ok (by decide), by decide, by decide, by decide, by decide⟩
/-- Window 0, of 16 slots, may be frozen; core 1 of the launch stands in window 28. -/
def z0 : State := { t0 [] [] with
  core := { (t0 [] []).core with wins := [(0, { v := true, size := 16 }), (3, { v := true, size := 64, base := 4096 }), (28, { v := true, size := 64 })] } }
theorem witness_TaskStartsAndEnds_freeze : z0.Clear {} ∧ z0.core.pend = [] ∧ z0.launchOf z0.core.dom.launch = some launch1 ∧
    (z0.core.cur < 28 ∧ z0.core.curWin.t = false ∧ z0.core.curWin.size % 8 = 0 ∧ 16 ≤ z0.core.curWin.size ∧
      z0.core.curWin.size ≤ 1024 ∧ launch1.tlo ≤ z0.core.curWin.base ∧ z0.core.curWin.base + z0.core.curWin.size ≤ launch1.thi) ∧
    ((z0.core.win 3).v = true ∧ (z0.core.win 3).h = false ∧ 3 ≠ z0.core.cur) ∧ 7 ∈ z0.launchCores launch1 ∧
    (z0.coreAt 7).cur ≠ 0 ∧ ¬ ((z0.coreAt 7).win 0).v = true :=
  ⟨clear_ok (by decide), rfl, rfl, by decide, by decide, by decide, by decide, by decide⟩
theorem witness_TaskStartsAndEnds_freeze_checks : s4.Clear {} ∧ s4.core.pend = [] ∧ s4.freezeCheck 2 = some (11, 0) ∧
    s4.core.trapOk = true ∧ (z0.core.win 3).size ≤ 64 ∧ ((z0.core.win 3).v = true ∧ (z0.core.win 3).h = false) ∧
    z0.core.trapOk = true :=
  ⟨clear_ok (by decide), rfl, by decide, by decide, by decide, by decide, by decide⟩

/-- A claim record for cluster 0 of VF 0, on this package (R300), a release of launch 1, and a descriptor for it (R302). -/
def claimRec : BitVec 512 := BitVec.ofNat 512 (2 ^ 120)
def releaseRec : BitVec 512 := BitVec.ofNat 512 (2 ^ 120 + 2 ^ 112 + 2 ^ 96)
def launchRec : BitVec 512 := BitVec.ofNat 512
  (0x0400000000400000 * 2 ^ 128 + 0x0000000040000000 * 2 ^ 192 + 2 ^ 256 + 8 * 2 ^ 304)
theorem witness_Launches : let s := mach true []
    let t : State := { s with launches := [{ launch1 with started := false }], core := Core.reset }
    s.Clear { priv := true, xs := [1], xd := [63] } ∧ (∃ u, s.atIssue.locateBlocks lo 1 = (.error 9, u)) ∧
    s.claimCode (some claimRec) (some [0]) = 0 ∧ s.claimCode (some releaseRec) (some []) ≠ 0 ∧
    t.claimCode (some releaseRec) (some []) = 0 ∧ t.launchCode (some 0) (some launchRec) = 0 ∧
    s.launchCode (some 0) (some launchRec) ≠ 0 :=
  ⟨clear_ok (by decide), ⟨_, rfl⟩, by decide +kernel, by decide +kernel, by decide +kernel, by decide +kernel, by decide +kernel⟩

/-- A version of a tile. -/
def version (id : Nat) (settling settled : Bool) : Version :=
  { id, lid := 1, vf := 0, asid := 0, home := 0, size := 64, pool := 64, writer := 9, before := [], watch := 0, settling, settled }
theorem witness_SchedulerEvents : let s : State := { t0 [task 3 .ready, { task 4 .waiting with counter := some lo, satisfied := false }] [] with time := 10000 }
    let w := { s with core := { s.core with wait := some tnextWait } }
    ((s.dieAt 0).tasks[0]?).map (·.counter) = some none ∧ ((s.dieAt 0).tasks[1]?).map (·.satisfied) = some false ∧
    (s.dieAt 0).tasks[2]? = none ∧ s.placement 0 = [] ∧ w.placement 0 = [] ++ 0 :: [] ∧ w.chooseTask 0 = some (task 3 .ready) ∧
    s.time % 10000 = 0 ∧ (s.counterValue 0 (task 4 .waiting) lo).1 = 0 := by decide +kernel
theorem witness_SchedulerEvents_versions :
    let s : State := { s0 with dies := [(0, { Die.reset with versions := [version 0 true true, version 1 false false] })], time := 50000, launches := [{ launch1 with roam := true }] }
    (s.dieAt 0).versions = [version 0 true true] ++ version 1 false false :: [] ∧ (version 0 true true).settling = true ∧
    s.mayComplete 0 (version 1 false false) = true ∧ (s.dieAt 0).versions[2]? = none ∧
    s.launchOf 1 = some { launch1 with roam := true } ∧ s.launchOf 2 = none ∧ s.time % 50000 = 0 ∧ s.epoch ≠ s.time := by
  decide +kernel

theorem witness_ControlWrites : let s := State.reset
    (7 < 8 ∧ 15 < 16 ∧ 16 < 17 ∧ isCore 3839 = true ∧ 2047 < 2048 ∧ 255 < 256) ∧ regAt 0 0xFFFFF8 = none ∧
    (regAt 8 0x0C0000).isSome = true ∧ ((s.coreAt 3839).run = .stopped) ∧
    (2 ^ 63 + 7 * 2 ^ 16 + 255 : Word).getLsbD 63 = true ∧ (2 ^ 63 + 7 * 2 ^ 16 + 255 : Word).bits 0 9 < 256 ∧
    (∀ u < 2048, u ≠ 2047 → (s.remapAt u).valid = true → (s.remapAt u).loc ≠ 512 * 7 + 255) ∧
    (s.coreAt (s.remapAt 2047).loc).run = .stopped ∧ (s.coreAt 0).m.sbuf = [] ∧ (s.coreAt 0).m.plog = [] ∧
    (2 ^ 63 + 31 : Word).bits 0 6 < 32 ∧ (s.clAt 31).lid = 0 ∧ (∀ l ∈ s.coresOf 31, (s.coreAt l).run = .stopped) ∧
    sget none (s.dieAt 0).spares 0 = none ∧ (s.dieAt 7).commitOk = true ∧ (s.coreAt 0).clk.pend = none ∧
    (sget {} (s.dieAt 0).inv 15).run = none ∧ (s.coreAt 0).ctx.captures = [] := by decide +kernel
/-- Row 15's cores and their dividers; the ownership bitmaps of VF 15 take nothing where VF 0 gives up all but cluster 31. -/
theorem witness_ControlWrites_owners : let s : State := { State.reset with
      dies := [(0, { Die.reset with own := [(0, { clusters := 0x7FFFFFFF })] })] }
    ∀ u < 16, u ≠ 15 → (sget {} (s.dieAt 0).own u).clusters &&& 0x80000000 = 0 := by decide
/-- A divider of 16 is enough at every level. -/
theorem witness_ControlWrites_row : let s : State := { State.reset with
      core := { Core.reset with clk := { div := some 15 } }
      others := (List.range 16).map fun n => (n, { Core.reset with clk := { div := some 15 } }) }
    ∀ l ∈ s.coresOf 0 ++ s.coresOf 1, divFloor ((7 : Word).bits 0 3) ≤ s.divOf l ∧
      ∀ p, (s.coreAt l).clk.pend = some p → divFloor ((7 : Word).bits 0 3) ≤ p.1 := by
  intro s l hl
  have h : ∀ l ∈ s.coresOf 0 ++ s.coresOf 1, s.divOf l = 15 ∧ (s.coreAt l).clk.pend = none := by decide +kernel
  obtain ⟨h1, h2⟩ := h l hl
  exact ⟨h1 ▸ Nat.le_of_lt_succ (Nat.mod_lt _ (by decide)), fun p hp => by simp [h2] at hp⟩
/-- A busy invalidation of the whole VF 0; a core with a divider that waits; a row level that may be written. -/
theorem witness_ControlWrites_busy : let s : State := { State.reset with
      dies := [(0, { Die.reset with inv := [(0, { cmd := 0x10000, run := some (0, 0, 0x10000) })] })]
      others := [(1, { Core.reset with clk := { pend := some (3, 5) } })] }
    (sget {} (s.dieAt 0).inv 0).run = some (0, 0, 0x10000) ∧ (s.coreAt 1).clk.pend = some (3, 5) ∧
    (s.coreAt 1).run = .stopped := by decide

theorem witness_QuenchEvents : let s : State := { State.reset with quench := [(1, { status := 1, tick := 0 }), (2, { status := 2, dies := [0, 7] })] }
    (sget {} s.quench 0).status ≠ 2 ∧ (sget {} s.quench 0).status ≠ 1 ∧ (sget {} s.quench 1).status = 1 ∧
    (sget {} s.quench 1).tick.toNat ≤ s.time ∧ s.coresOfVf 1 = [] ∧ (sget {} s.quench 2).status = 2 ∧
    7 ∈ (sget {} s.quench 2).dies ∧ 1 ∉ (sget {} s.quench 2).dies ∧ isCore 272 = false ∧ isCore 271 = true := by decide +kernel
/-- A capture whose spill goes on, one that is unsaved, and a spill of the cluster. -/
theorem witness_QuenchEvents_captures : let c : Capture := { vf := 1, vcore := 5, half := 0, sliced := false, header := [1], spilling := true }
    let d := { c with spilling := false, unsaved := true }
    let s : State := { State.reset with
      others := [(1, { Core.reset with ctx := { captures := [c] } }), (2, { Core.reset with ctx := { captures := [d] } })]
      clusters := [(33, { spill := some { vf := 1, image := [(0, [1])] } })] }
    (s.coreAt 1).ctx.captures = [] ++ c :: [] ∧ c.spilling = true ∧ (s.spill 1 c).1 = true ∧
    ({ s with clusters := [(0, { spill := some { vf := 1, image := [] } })] } : State).readCluster 2 1 =
      (some (some ([], [], [])), { s with clusters := [(0, { spill := some { vf := 1, image := [] } })] }) ∧
    (s.coreAt 2).ctx.captures.find? (fun x => decide (x.vcore = 5)) = some d ∧
    (s.coreAt 2).ctx.captures = [d] ∧ d.unsaved = true ∧ (∀ x ∈ [d], x.vcore ≠ 6) ∧ (∀ x ∈ [d], x.half = 0) ∧
    (s.coreAt 2).arena.sliced = false ∧ (∀ x ∈ (s.coreAt 3).ctx.captures, x.unsaved = false) ∧
    ((s.clAt 33).spill.map (·.spilling)) = some true ∧ (s.clAt 32).spill.all (fun p => !p.spilling) = true := by decide +kernel
theorem witness_QuenchEvents_held : let p : Held := { vf := 1, vcore := 5, src := 0, addr := 0, data := [1], swap := false, since := 0 }
    let s : State := { State.reset with held := [p, { p with vf := 0 }, { p with vcore := 2048 }], time := 2000 }
    s.held[0]? = some p ∧ s.locOf 5 = some 5 ∧ (s.coreAt 5).vf ≠ p.vf ∧ p.since + 2000 ≤ s.time ∧ p.data ≠ [] ∧
    (s.coreAt 5).vf = 0 ∧ (s.coreAt 5).run ≠ .quenched ∧ s.locOf 2048 = none := by decide +kernel
/-- A restore that no check stops: core 1 has a saved image of VF 0 at address 0, the lines of which stand in their home
slices, and its cluster one that is held. -/
def saved : State :=
  let s := (s0.withFetchWord 32 0).updDie 0 fun x => { x with homeL2 := (List.range 128).map fun k => ⟨k, 0, 0⟩ }
  { s with mem := memPuts s.mem (cellsAt 64 [2]), clusters := [(0, { spill := some { vf := 0, image := [] } })], boot := { stat := 2 } }
theorem witness_QuenchEvents_restore :
    let v := saved.imageVf 1 1
    let b := v.2.readBlock (v.2.saveWho 0 v.1 1) (v.2.coreBlock v.1 1)
    let i := b.2.readImage (v.2.saveWho 0 v.1 1) ((b.1).getD 0)
    let g := i.2.readCluster 1 v.1
    b.1.isSome = true ∧ i.1.1.isSome = true ∧ i.1.2.isSome = true ∧ g.1.isSome = true ∧ saved.boot.stat = 2 ∧
      g.2.restoreCode 1 v.1 1 b.1 i.1.1 true = 0 := by decide +kernel

theorem witness_PowerEvents : let s : State := { s0 with time := 10000, others := [
      (1, { Core.reset with clk := { hop := some (2, 10000), pend := some (3, 9000), idleSince := 9000 } }),
      (2, { Core.reset with run := .asleep (some 10000) }), (3, { Core.reset with run := .asleep none }),
      (4, { Core.reset with run := .running, wait := some { tnextWait with since := 0, report := 0 } })] }
    s.time % 10000 = 0 ∧ s.epoch ≠ s.time ∧ (s.clAt 0).winAt + 128 ≤ s.time ∧ ({ s with time := 127 } : State).time < (s.clAt 0).winAt + 128 ∧
    10000 + 1 < ({ s with time := 10002 } : State).time ∧ (s.coreAt 1).clk.hop = some (2, s.time) ∧ (s.coreAt 1).clk.pend = some (3, 9000) ∧ 9000 ≤ s.time ∧
    ((s.coreAt 1).run = .stopped ∧ 9000 = (s.coreAt 1).clk.idleSince ∧ 9000 + 1000 ≤ s.time ∧ s.time < 9000 + 50000) ∧
    (s.coreAt 2).run = .asleep (some s.time) ∧ (s.coreAt 3).run = .asleep none ∧ (s.coreAt 0).clk.hop = none ∧
    ((s.coreAt 0).run = .running ∧ (s.coreAt 0).wait = none) ∧
    ((s.coreAt 4).wait.map (·.since)) = some 0 ∧ (s.coreAt 4).run = .running := by decide
theorem witness_PowerEvents_hang : let s : State := { s0 with time := 100000000, core := { s0.core with wait := some { tnextWait with report := 0 } } }
    (s.coreAt 0).wait = some { tnextWait with report := 0 } ∧ (s.coreAt 0).run = .running ∧ 0 + 100000000 ≤ s.time ∧
    (sget {} (s.dieAt 0).haltQ 0).entries.length < 64 ∧ ({ s with time := 99999999 } : State).time < 0 + 100000000 := by decide

theorem witness_ObservationEvents : let s : State := { s0 with
      core := { s0.core with clk := { samp := 3 }, vf := 1 }
      others := [(1, { Core.reset with ctx := { captures := [{ vf := 2, vcore := 1, half := 0, sliced := false, header := [] }] } }),
        (2, { Core.reset with run := .asleep none, clk := { samp := 1 } })]
      vfpol := [(3, { tenant := true })] }
    (18 ≤ 18 ∧ 18 ≤ 22) ∧ (sget {} s.vfpol 3).tenant = true ∧ (sget {} s.vfpol 2).tenant = false ∧ ¬ (18 ≤ 17) ∧
    s.locOf 2048 = none ∧ s.locOf 0 = some 0 ∧ ((s.coreAt 0).vf = 1 ∧ (s.coreAt 0).run ≠ .quenched) ∧ s.locOf 1 = some 1 ∧
    (s.coreAt 1).vf ≠ 2 ∧ (∃ k ∈ (s.coreAt 1).ctx.captures, k.vf = 2 ∧ k.vcore = 1) ∧
    ((s.coreAt 0).clk.samp.getLsbD 0 = true ∧ (s.coreAt 0).clk.samp.getLsbD 1 = true ∧ (s.coreAt 0).run = .running ∧
      (s.coreAt 0).wait = none) ∧ ((s.coreAt 2).clk.samp.getLsbD 0 = true ∧ (s.coreAt 2).run = .asleep none) ∧
    isHbm 0 = true ∧ isHbm (2 ^ 40 / 8 * 8) = false := by decide
theorem witness_ObservationEvents_trace : let s : State := { s0 with dies := [(0, { Die.reset with trace := [(0, { queue := [5, 6], ctl := 1 })] })] }
    (sget {} (s.dieAt 0).trace 0).queue = 5 :: [6] ∧ (sget {} (s.dieAt 0).trace 1).queue = [] := ⟨rfl, rfl⟩

theorem witness_HostEvents : let s := State.reset
    let t : State := { s with boot := { stat := 2, attBusy := true }, arrivals := [(1, 2), (0, 1)] }
    s.boot.stat = 0 ∧ ({ s with boot := { stat := 1 } } : State).bootCode ≠ 2 ∧ s.boot.attBusy = false ∧ t.boot.stat ≠ 0 ∧ t.boot.attBusy = true ∧ t.boot.stat = 2 ∧
    serverOf 1 ≠ serverOf 0 ∧ t.arrivals = [(1, 2)] ++ (0, 1) :: [] ∧ (∀ a ∈ [((1 : Nat), (2 : Nat))], serverOf a.1 ≠ serverOf 0) ∧
    (s.arrivals = [] ∧ isHbm 0x7BFFFFFFF8 = true ∧ s.poison = []) := by decide +kernel
theorem witness_HostEvents_fabric : (0x7FFFFFFFF8 < 0x8000000000 ∧ (0x7FFFFFFFF8 / 2 ^ 36 ≠ 0)) ∧ (0 / 2 ^ 36 = 0 ∧ isHbm 0 = true) ∧
    (0x40000000000 ≤ 0x400080C0000 ∧ 0x400080C0000 < 0x40010000000) ∧ 0x400080C0000 % 8 = 0 ∧
    (regAt ((0x400080C0000 - 0x40000000000) / 2 ^ 24) ((0x400080C0000 - 0x40000000000) % 2 ^ 24)).isSome = true ∧
    ¬ (0x8000000000 < 0x8000000000) ∧ ¬ (0x40000000000 ≤ 0x8000000000) := by decide

/-- The largest names, the last immediate, and an event. -/
theorem witness_RoundTrip : (Instr.add 63 63 63 7).wf = true ∧ (encode (.add 63 63 63 7)).isSome = true ∧
    (Instr.taskOffer 7).wf = true ∧ encode (.taskOffer 7) = none := ⟨by decide, rfl, by decide, rfl⟩

/-- The bytes of a word placed where the next step fetches: `add x5, x6, x7`. -/
def fetching : State := s0.withFetchWord 32 0x01C61401
theorem witness_StepRunsDecoded : Claims.Fetches fetching ∧
    (∃ t, Claims.Reads [0x1401, 0x01C6] fetching.tick.core.pc fetching.tick.periodic t) ∧
    decodeParcels [0x1401, 0x01C6] = .ok (.add 5 6 7 0, 2) :=
  ⟨⟨rfl, by decide +kernel, by decide +kernel⟩, ⟨_, _, rfl, _, rfl, rfl⟩, rfl⟩
/-- Parcels that are no instruction, and a fetch that fails. -/
theorem witness_StepRunsDecoded_illegal : (∃ t, Claims.Reads [0x007F, 0] (s0.withFetchWord 32 0x7F).tick.core.pc
      (s0.withFetchWord 32 0x7F).tick.periodic t) ∧ decodeParcels [0x007F, 0] = .error .reservedMajor ∧ parcelsNeeded [0x007F, 0] = 2 :=
  ⟨⟨_, _, rfl, _, rfl, rfl⟩, rfl, rfl⟩
theorem witness_StepRunsDecoded_fault : Claims.Fetches s0 ∧
    ∃ u, s0.tick.parcel (s0.tick.core.pc + 0) = (.error 8, u) := ⟨⟨rfl, by decide +kernel, by decide +kernel⟩, _, rfl⟩
theorem witness_StepRunsDecoded_waits : let s : State := { s0 with core := { s0.core with wait := some tnextWait, ibits := 0, ilen := 1 } }
    s.agenda = [] ∧ s.tick.core.idle = false ∧ s.tick.core.stuck = true ∧ s.tick.engines.core.idle = false ∧
    s.tick.engines.core.stuck = true := by decide +kernel
theorem witness_StepRunsDecoded_idle : State.reset.tick.core.idle = true ∧ State.reset.tick.engines.sleepEnds.core.idle = true ∧
    (Instr.taskOffer 0).isEvent = true ∧ (Instr.taskOffer 0).wf = true ∧ isCore 3839 = true := by decide +kernel

theorem witness_MemoryStaysCanonical : Claims.Canonical State.reset ∧ ∃ t, step State.reset = .next t := by
  have h : State.reset.tick.background.core.idle = true := by decide +kernel
  have hs : State.reset.agenda = [] := rfl
  exact ⟨rfl, State.reset.tick.background, by simp only [step, hs, coreTurn, h, if_true]⟩
theorem witness_ControlWrites_divider : divFloor ((State.reset).level8 0 0) ≤ (15 : Word).bits 0 4 :=
  Nat.le_of_lt_succ (Nat.mod_lt _ (by decide))
theorem witness_HostEvents_boot : State.reset.bootCode ≠ 2 := by decide +kernel
/-! Witnesses of the clauses about waits: for another core, a full queue, a stream, a record, a rotation, a request. -/

/-- Core 2 is of another VF and stands stopped; core 1 is of the issuing VF, and its slot 3 awaits the result of an atomic. -/
def far8 : State := { mach true [] with
  others := [(1, { Core.reset with m := { atom := some { sc := .blk, path := 0, key := 0, ea := 0, size := 8, op := 0, b := 0, e := 0
                                                         vf := 0, slot := some 3, sup := true, win := 0 } } }),
    (2, { Core.reset with vf := 3 })] }
/-- A path-8 store of the issuing core that is held, and one that has met its fate. -/
def heldStore8 (met : Bool) : Held :=
  { vf := 0, vcore := 2, src := 0, addr := 0x8000000200000000, data := [0], swap := false, since := 0, awaited := true, met }
theorem witness_Loads_waits : (far8.atIssue.locate .load 0x8000000100000018 8).1.toOption = some 0 ∧
    (far8.forCtl 0x8000000100000018).path8Ready 0x8000000100000018 = false ∧ far8.path8Direct 0x8000000100000018 = true ∧
    far8.path8Ready 0x8000000200000000 = false ∧ far8.path8Direct 0x8000000200000000 = false := by decide +kernel
theorem witness_Stores_waits : far8.held.find? far8.storeHeld = none ∧ far8.path8Direct 0x8000000000000000 = true ∧
    (far8.locOf 0 = some 0 ∧ far8.path8Free 0 0x8000000000000000 = true) ∧
    (far8.locOf 1 = some 1 ∧ far8.path8Free 1 0x8000000100000018 = false) ∧ far8.path8Direct 0x8000000200000000 = false ∧
    ∀ m, ({ far8 with held := [heldStore8 m] } : State).held.find? ({ far8 with held := [heldStore8 m] } : State).storeHeld =
      some (heldStore8 m) := by decide +kernel

/-- The machine with such commands in its array, and a lease of window 0. -/
def arrayed (cs : List MCmd) (paused : Option Nat) : State :=
  { s2 with clusters := [(0, { array := cs, lease := { holder := some (0, 0), left := 2, reqs := [(1, 0)], paused } })], time := 4096 }
theorem witness_ControlRegisters_format :
    (¬ ∀ m ∈ ((arrayed [mcmd .rot false] none).clAt 0).array, m.core = 0 → m.started = true) ∧
    (∀ m ∈ ((arrayed [mcmd .rot true] none).clAt 0).array, m.core = 0 → m.started = true) ∧
    (arrayed [] none).Clear { priv := csrRs 0x020, xs := [3], mem := false } :=
  ⟨by decide, by decide, clear_ok (by decide)⟩
theorem witness_Matrix_waits : (arrayed [mcmd .rot false] none).rotPending = true ∧ (arrayed [] none).rotPending = false ∧
    (arrayed [] none).leaseResume = arrayed [] none ∧ (arrayed [] none).matPending = false ∧
    (arrayed [] (some 5)).leaseResume ≠ arrayed [] (some 5) := by decide +kernel
theorem witness_MatrixEvents_idle : let l := ((arrayed [] none).clAt 0).lease
    l.holder = some (0, 0) ∧ l.paused = none ∧ (∃ r ∈ l.reqs, r.1 ≠ 0) ∧ l.lastCmd + 4096 ≤ (arrayed [] none).time ∧
    ((arrayed [] (some 5)).clAt 0).lease.paused ≠ none ∧
    (∀ p, ((arrayed [] none).clAt 0).spill = some p → p.vf = 0) := by decide +kernel

/-- A whole queue of vector words. -/
def queue16 : State := { v0 with core := { v0.core with pend := List.replicate 16 { kind := .queued 1, writes := [(600, 0)] } } }

theorem witness_Queue : queue16.Open { drain := true } ∧ queue16.core.queued ≠ 0 ∧ 16 ≤ queue16.core.queued ∧
    queue16.Open ((VOp.ext true 0 63 7).uses {}) ∧ queue16.core.headCost = some 1 ∧ queue16.core.headWaits = false ∧
    ∀ p ∈ queue16.core.pend, p.late = none :=
  ⟨⟨Or.inr (by decide), by decide, by decide +kernel, by decide +kernel, by decide +kernel, by decide +kernel, rfl, rfl, by decide +kernel, by decide +kernel⟩,
    by decide +kernel, by decide +kernel,
    ⟨Or.inr (by decide), by decide, by decide +kernel, by decide +kernel, by decide +kernel, by decide +kernel, rfl, rfl, by decide +kernel, by decide +kernel⟩,
    by decide +kernel, by decide +kernel, by decide +kernel⟩
/-- A result in flight for slots 1, a fixed one for slot 2; a queued word that has still to take a word of stream 0. -/
theorem witness_ResultLands : let ps : List Pend := [{ kind := .flight, writes := [(1, 7)] }, { kind := .fixed 9, writes := [(2, 8)] }]
    ps[0]? = some { kind := .flight, writes := [(1, 7)] } ∧
    ∀ q ∈ ps, q.variable = true ∨ q.writes ≠ [] ∧ q.touches ([((1 : Nat), (7 : Word))].map Prod.fst) = false := by decide
theorem witness_Streams_owed :
    let l : Late := { p := {}, op := .ext true 0 63 7, win := {}, streams := [(63, 0)], xs := [], vs := [], frm := 1, fmt := 0 }
    let c : Core := { (core false []) with pend := [{ kind := .queued 1, writes := [], late := some l }] }
    c.streamOwed 0 = true ∧ c.streamOwed 1 = false := by decide

/-- A command all of whose segments are done. -/
theorem witness_CopyEvents_moved : (withEng r0 { cmds := [{ cmd 1 .running with segs := [0] }] }).core.eng.cmds.find? (·.ticket = 1) =
      some { cmd 1 .running with segs := [0] } ∧ ({ cmd 1 .running with segs := [0] }).moved = true ∧ (cmd 1 .running).moved = false := by
  decide +kernel
/-- Once numbering has wrapped, every ticket has been issued. -/
theorem witness_Tickets_wrapped : 1 ≤ 7 ∧ ¬ 7 < 6 ∧ 7 ≤ 0x3FFFFFFF ∧ ({ e0.core.eng with wrapped := true } : Engines).wrapped = true := by
  decide
/-- A core of no launch, and a slot that holds the timetable it names. -/
theorem witness_TimetablesAndMarks_slot : let s : State := { bellows [] [(1, 0x1000)] with core := core false [(1, 0x1000)] }
    (∃ t, s.slotAt s.die 0 = some t ∧ t.header = 0x1000) ∧ s.launchOf s.core.dom.launch = none ∧ s.boundSlot = none := by
  refine ⟨⟨_, rfl, rfl⟩, by decide, by decide⟩

/-- An arena of a user half while the other half of another VF is unsaved. -/
theorem witness_Arenas_captured : let k : Capture := { vf := 5, vcore := 9, half := 0, sliced := true, header := [], unsaved := true }
    k.vf ≠ 0 ∧ k.sliced = true ∧ k.half ≠ (if true then 1 else 0) := by decide

/-- A request of core 0 to core 1, before, with and after its snapshot, and with its reply. -/
def asked (snap : Option (BitVec 32)) (replied : Bool) : Promo := { by_ := 0, target := 1, key := 0, ea := 0, snap, replied }
theorem witness_OrderAndPromotion_requests : let s := fun p => ({ s0 with promos := [p], others := [(1, { Core.reset with
      m := { plog := [(4, 1), (5, 3)], lsn := 3 } })] } : State)
    (∃ p ∈ (s (asked none false)).promos, decide (p.target = 1) = true ∧ p.snap = none) ∧
    (s (asked (some 2) false)).promos.find? (fun p => decide (p.target = 1) && !p.replied) = some (asked (some 2) false) ∧
    (((s (asked none false)).coreAt 1).m.plog.map (·.1)).Nodup ∧ 2 ^ 31 ≤ ((2 : BitVec 32) - 3).toNat ∧
    (∀ p ∈ (s (asked (some 2) true)).promos, decide (p.target = 1) = true → p.snap ≠ none ∧ p.replied = true) ∧
    (s (asked (some 2) true)).promos.find? (·.by_ = s0.focus) = some (asked (some 2) true) ∧
    Claims.promoted s0 1 = some 1 ∧ Claims.promoted s0 0xFFFF = none := by
  refine ⟨⟨_, List.mem_singleton.2 rfl, rfl, rfl⟩, rfl, by decide, by decide, by decide, rfl, ?_, ?_⟩ <;>
    simp only [Claims.promoted] <;> decide +kernel
/-- The issuing core waits for such a reply. -/
theorem witness_OrderAndPromotion_wait : let c : Core := { (core false []) with wait := some { tnextWait with kind := .acqp } }
    c.inWait .acqp = true ∧ (core false []).inWait .acqp = false := by decide

/-- A core whose `tnext` is at its deadline, which no task is ready for, and to which one that is ready is offered. -/
theorem witness_TaskStartsAndEnds_served :
    let s := fun ts => ({ t0 ts [] with core := { (t0 ts []).core with wait := some tnextWait }, time := 1024 } : State)
    (((s []).serve 0).coreAt 0).wait = some tnextWait ∧
    (((s [task 3 .ready]).serve 0).coreAt 0).wait = some { tnextWait with addr := 3 } := by decide +kernel
/-- The credit of a running core of VF 1, of one with a captured context, and of neither. -/
theorem witness_tenants : let s : State := { s0 with
      core := { s0.core with vf := 1 }
      others := [(1, { Core.reset with ctx := { captures := [{ vf := 0, vcore := 1, half := 0, sliced := false, header := [] }] } })] }
    Claims.tenant s 0 1 0 ∧ ¬ Claims.tenant s 1 0 1 ∧ ¬ Claims.tenant s 0 2 0 := by
  simp only [Claims.tenant]; decide +kernel
/-- A store to scratchpad in the buffer of core 0; a write-back of a line of die 0. -/
theorem witness_MemoryEvents_leaves :
    let e : SbEntry := { path := 1, key := 2 ^ 52, size := 1, vf := 0, ea := lo, op := .store [(2 ^ 52, 7)], sup := false, win := 0 }
    s1.scrOk e.key = true ∧ (s1.bank (scrCl e.key) (bankNo (scrOff e.key))).switching = none ∧
    (s1.bank (scrCl e.key) (bankNo (scrOff e.key))).queue = [] ∧ ([((2 ^ 52 : Nat), (7 : Byte))].map (·.1)).Nodup ∧
    (let w : WBack := { die := 0, line := 1, cells := [(64, 1)], clean := [(65, 0)] }
     ((w.cells ++ w.clean).map (·.1)).Nodup) ∧ s1.refuses 64 = false ∧ homeDie (s1.phys 64) = dieOf 0 := by decide +kernel

/-! Witnesses of the clauses about arenas and counters, images, misplaced addresses, refusals, settles, firmware before the
boot, exchanges and samples. -/

/-- A supervisor of no launch, its registers an arena of the whole store and one with LO above HI. -/
def a0 : State := mach true [(1, 0x40000000), (2, 0x00000001), (3, 9)]
theorem witness_ControlRegisters_arena : a0.Clear { priv := csrRs 0x005, xs := [1], mem := false } ∧ a0.core.dom.launch = 0 ∧
    Claims.ArenaOk a0 (a0.core.x 1) ∧ ¬ Claims.ArenaOk a0 (a0.core.x 2) ∧ a0.core.trapOk = true ∧
    (∀ i < 28, (a0.core.win i).v = true → (a0.core.win i).s = false) := by
  refine ⟨clear_ok (by decide), rfl, ?_, ?_, by decide, by decide⟩ <;> (unfold Claims.ArenaOk; decide)
theorem witness_ControlRegisters_counters :
    (∀ k < 8, a0.Clear { priv := csrRs (0x070 + k), xs := [3], mem := false } ∧
      a0.Clear { priv := csrSv (0x070 + k), xd := [63], mem := false }) ∧
    a0.Clear { priv := csrRs 0x050, xs := [3], mem := false } :=
  ⟨fun k hk => by
    have h : ∀ k < 8, clear a0 { priv := csrRs (0x070 + k), xs := [3], mem := false } = true ∧
      clear a0 { priv := csrSv (0x070 + k), xd := [63], mem := false } = true := by decide
    exact ⟨clear_ok (h k hk).1, clear_ok (h k hk).2⟩, clear_ok (by decide)⟩
/-- A vector instruction stands in the queue that sets NV. -/
theorem witness_ControlRegisters_flags :
    Claims.FlagsQueued { s0 with core := { s0.core with pend := [{ kind := .queued 1, writes := [(600, 0)], flags := fNV }] } } :=
  ⟨_, List.mem_singleton.2 rfl, rfl, Or.inl (by decide)⟩

/-- The head command's VF has an image that is to come back; a predecessor's tile meets no image. -/
theorem witness_MatrixEvents_images :
    let s := withCl s0 fun c => { c with array := [mcmd .rot false], staged := [(0, 0, [], [], [])] }
    (s.clAt 0).array.head? = some (mcmd .rot false) ∧ (∃ i ∈ (s.clAt 0).staged, i.1 = (mcmd .rot false).vf) ∧
      (mcmd .rot true).vf ∉ (s0.clAt 0).away ∧ (∀ i ∈ (s0.clAt 0).staged, i.1 ≠ 0) := by decide

/-- x1 and x2 lie in scratchpad, the second off by four; x3 and x4 on path 0, the second off by eight; x5 in bank 1, a FIFO;
x6 past the banks; x7 and x8 are lengths, x9 none. -/
def n0 : State := mach false [(1, lo), (2, lo + 4), (3, 0x1000), (4, lo + 8), (5, lo + 0x40000), (6, lo + 0x600000), (7, 32),
  (8, 8), (10, 0x40000), (11, lo + 0x3FFF0)]
theorem witness_FullEmptyOperations_places : Claims.NoPlace n0 (n0.core.x 3) ∧ Claims.NoPlace n0 (n0.core.x 5) ∧
    Claims.NoPlace n0 (n0.core.x 6) ∧ n0.core.trapOk = true ∧ n0.Clear { xs := [3, 7], xd := [63] } ∧
    Claims.OwnScratch n0 (n0.core.x 2) 1 ∧ (n0.core.x 2).toNat % 8 ≠ 0 := by
  refine ⟨Or.inl (by decide), Or.inr ?_, Or.inl (by decide), by decide, clear_ok (by decide), ?_, by decide⟩
  · decide
  · unfold Claims.OwnScratch; decide
/-- The deferred list of bank 0 is full. -/
theorem witness_FullEmptyOperations_many :
    let s := f0 (List.replicate 32 { core := 7, win := 0, off := 16, slot := some 5 })
    Claims.Fresh s ∧ s.Clear { xs := [2], xd := [63] } ∧ Claims.OwnScratch s (s.core.x 2) 8 ∧
      s.isFull 0 (Claims.granule (s.core.x 2)) = false ∧ 32 ≤ (s.bank 0 0).deferred.length :=
  ⟨⟨⟨rfl, rfl, rfl⟩, by decide, rfl, rfl⟩, clear_ok (by decide), by unfold Claims.OwnScratch; decide +kernel, by decide +kernel,
    by decide +kernel⟩
/-- Ranges: none of a path and none off by four; one that ends in bank 1; one off by eight, one of 8 bytes. -/
theorem witness_FullEmptyRanges_traps : n0.Clear { xs := [3, 9] } ∧ n0.Clear { xs := [11, 7], own := true } ∧
    (n0.core.x 9).toNat = 0 ∧ ¬ ((n0.core.x 3).bits 60 4 = 1 ∨ (n0.core.x 3).bits 60 4 = 2) ∧
    ((n0.core.x 2).bits 60 4 = 1 ∧ (n0.core.x 2).toNat % 16 ≠ 0) ∧ n0.fePath (n0.core.x 3) = false ∧
    Claims.OwnBanks n0 (n0.core.x 11) ∧ Claims.Offends n0 0x40000 ∧ (∀ y, 0x3FFF0 ≤ y → y < 0x40000 → ¬ Claims.Offends n0 y) ∧
    0x40000 < 0x3FFF0 + (n0.core.x 7).toNat ∧ Claims.OwnBanks n0 (n0.core.x 4) ∧ (n0.core.x 4).toNat % 16 ≠ 0 ∧
    Claims.OwnBanks n0 (n0.core.x 1) ∧ (n0.core.x 1).toNat % 16 = 0 ∧ (n0.core.x 8).toNat % 16 ≠ 0 ∧
    (∀ y, 0 ≤ y → y < 0 + (n0.core.x 8).toNat → ¬ Claims.Offends n0 y) := by
  have hb : Claims.OwnBanks n0 (n0.core.x 11) ∧ Claims.OwnBanks n0 (n0.core.x 4) ∧ Claims.OwnBanks n0 (n0.core.x 1) := by
    unfold Claims.OwnBanks; decide
  have hk : ∀ y < 0x40000, ¬ Claims.Offends n0 y := fun y hy => by
    have h0 : y / 0x40000 = 0 := Nat.div_eq_of_lt hy
    have hr : (n0.bank n0.cl 0).role = .scratch := by decide
    simp only [Claims.Offends, h0, hr, ne_eq, not_true, or_false]; omega
  have h8 : (n0.core.x 8).toNat = 8 := by decide
  refine ⟨clear_ok (by decide), clear_ok (by decide), by decide, by decide, by decide, by decide, hb.1, ?_,
    fun y _ hy => hk y hy, by decide, hb.2.1, by decide, hb.2.2, by decide, by decide,
    fun y _ hy => hk y (by omega)⟩
  exact Or.inr (by decide)

/-- In window 1, which is struck on window 2, vectors begin at offset 8, and that group is shared. -/
def k1 : State := { k0 with core := { k0.core with
  wins := [(0, { v := true, size := 64, base := 4096 }),
    (1, { v := true, size := 64, s := true, parent := 2, share := 2, lid := 1, task := 1, voff := 8 }),
    (2, { v := true, size := 64, base := 1024, t := true, lid := 1 }), (28, { v := true, size := 64 })] } }
theorem witness_StruckWindows_vector : k1.Ready ((VOp.lane .i32 .add 0 1 1).uses {}) ∧ k1.Ready ((VOp.lane .i32 .add 0 1 1).uses { pm := 1 }) ∧
    (∀ n ∈ [1], k1.core.bound k1.core.cur n = none) ∧
    k1.core.curWin.s = true ∧ k1.core.curWin.voff % 8 = 0 ∧ k1.core.curWin.share.getLsbD (k1.core.curWin.voff / 8 + 0) = true ∧
    k1.core.pend = [] ∧ Claims.Quiet k1 :=
  ⟨ready_ok (by decide), ready_ok (by decide), by decide, by decide, by decide, by decide, rfl, rfl, rfl, rfl⟩
/-- A quotient, a sum without an enabled flag, and a load from scratchpad may stand for the scalar result. -/
theorem witness_StruckWindows_results : let s : State := { k1 with
      core := { k1.core with store := [(1, lo), (2, 2)] }
      clusters := [(0, { banks := [(0, { role := .scratch })] })] }
    s.core.x 2 ≠ 0 ∧ (Fmt.f64.minMax false false 1 2).2 &&& s.core.fp.fenable = 0 ∧ Claims.OwnScratch s (Claims.effective s 1 0 8) 8 ∧
    s.Ready (Claims.access [1] [8]) ∧ s.Ready (Claims.scalar [1, 2] 8) ∧ Claims.Quiet s :=
  ⟨by decide, by decide, by unfold Claims.OwnScratch; decide, ready_ok (by decide), ready_ok (by decide), rfl, rfl, rfl⟩

/-- Core 7 of the launch has entry 0 halted, which refuses a billet; core 6 a plain window in it, which does not. -/
def z1 : State := { z0 with others := [
  (6, { Core.reset with run := .running, cur := 3, wins := [(0, { v := true, size := 16 }), (3, { v := true, size := 16, base := 16 })] }),
  (7, { Core.reset with run := .running, cur := 3, wins := [(0, { v := true, size := 16, h := true }), (3, { v := true, size := 16, base := 16 })] })] }
theorem witness_TaskStartsAndEnds_refusals : z1.Clear {} ∧ z1.core.pend = [] ∧ z1.launchOf z1.core.dom.launch = some launch1 ∧
    z1.freezeCheck 3 = none ∧ (5 < (z1.core.win 3).size ∧ (z1.core.win 3).s = false ∧ z1.core.inBillet ((z1.core.win 3).base + 5) = false) ∧
    ¬ (z1.core.curWin.base ≤ (z1.core.win 3).base + 5 ∧ (z1.core.win 3).base + 5 < z1.core.curWin.base + z1.core.curWin.size) ∧
    z1.core.bad = [] ∧ (z1.launchCores launch1).Nodup ∧ 6 ∈ z1.launchCores launch1 ∧ Claims.refuses z1 6 0 = false ∧
    ((z1.coreAt 6).win 0).v = true ∧ 7 ∈ z1.launchCores launch1 ∧ Claims.refuses z1 7 0 = true ∧
    (∀ l ∈ z1.launchCores launch1, (z1.coreAt l).owed = []) :=
  ⟨clear_ok (by decide), rfl, rfl, by decide, by decide, by decide, rfl, by decide, by decide, by decide, by decide, by decide,
    by decide, by decide⟩
/-- The destination's window lies in the frozen one. -/
theorem witness_TaskStartsAndEnds_within : let s : State := { z0 with core := { z0.core with
      wins := [(0, { v := true, size := 16 }), (3, { v := true, size := 8, base := 8 }), (28, { v := true, size := 64 })] } }
    s.Clear {} ∧ s.freezeCheck 3 = none ∧ s.core.trapOk = true ∧ (5 < (s.core.win 3).size ∧ (s.core.win 3).s = false) ∧
    s.core.inBillet 13 = false ∧ s.core.curWin.base ≤ (s.core.win 3).base + 5 ∧
    (s.core.win 3).base + 5 < s.core.curWin.base + s.core.curWin.size :=
  ⟨clear_ok (by decide), by decide, by decide, by decide, by decide, by decide, by decide⟩

/-- A task that is ready, fits and is offered to no one; one that asks for more than the quota is no choice. -/
theorem witness_SchedulerEvents_choice : let s : State := t0 [task 3 .ready] []
    Claims.Choice s 0 (task 3 .ready) ∧ s.placement 0 = [] ∧ ¬ Claims.Overdue s (task 3 .ready) ∧
    Claims.Overdue { s with time := 400000 } (task 3 .ready) := by
  refine ⟨⟨launch1, rfl, ⟨List.mem_singleton.2 rfl, rfl, rfl, ?_⟩, ?_, ?_⟩, by decide +kernel, ?_, ?_⟩
  · intro c w hc hl hw
    have h : ∀ c, (t0 [task 3 .ready] []).coreAt c = (t0 [task 3 .ready] []).core ∨ (t0 [task 3 .ready] []).coreAt c = Core.reset := by
      intro c
      by_cases h : c = 0
      · exact .inl (by subst h; rfl)
      · exact .inr (by simp [State.coreAt, t0, mach, State.reset, h])
    rcases h c with h | h <;> rw [h] at hw <;> simp [t0, mach, k0, core, Core.reset, s0] at hw
  · unfold Claims.Fits; decide +kernel
  · intro u hu ho
    have : u = task 3 .ready := List.mem_singleton.1 hu.1
    subst this
    exact absurd ho (by unfold Claims.Overdue; decide)
  · unfold Claims.Overdue; decide
  · unfold Claims.Overdue; decide

/-- The tile at 64, of 64 bytes, is to settle to the start of scratchpad of cluster 0, the least of its launch. -/
def v1 (home : Word) : Version := { version 0 true false with home }
def settling (home : Word) : State :=
  let s := (t0 [] []).withCode []
  { s with
    clusters := [(0, { banks := (List.range 24).map fun b => (b, { role := .scratch }) })]
    dies := s.dies.map fun d => (d.1, { d.2 with versions := [v1 home] }) }
theorem witness_SchedulerEvents_settles : let s := settling 0x2000000000000000
    (s.dieAt 0).versions[0]? = some (v1 0x2000000000000000) ∧ Claims.Settles s (v1 0x2000000000000000) 64 0 0 := by
  refine ⟨by decide +kernel, ?_, ?_, ?_, ?_, ?_, ?_, ?_⟩
  · decide +kernel
  · have h : (settling 0x2000000000000000).walk { die := 0, vf := 0, asid := 0, sup := false, vcore := 0xFFFF } 64 =
        .ok (0x3F, 1) := by
      have e : ((settling 0x2000000000000000).walk { die := 0, vf := 0, asid := 0, sup := false, vcore := 0xFFFF } 64).toOption =
        some (0x3F, 1) := by decide +kernel
      revert e
      generalize State.walk _ _ _ = r
      cases r <;> simp [Except.toOption]
    exact ⟨0x3F, 1, h, by decide +kernel, by decide +kernel, by decide +kernel, by decide +kernel⟩
  · decide +kernel
  · exact ⟨0, by decide, by decide +kernel, by decide +kernel⟩
  · decide +kernel
  · decide +kernel
  · decide +kernel
/-- A settle to an address that is not mapped faults; one to scratchpad does not. -/
theorem witness_SchedulerEvents_copies :
    ((settling 0x2000000000000000).settleCopy (Claims.settleCmd (settling 0x2000000000000000) (v1 0x2000000000000000)) [0]).2.1 = none ∧
    ((settling 0x80000000).settleCopy (Claims.settleCmd (settling 0x80000000) (v1 0x80000000)) [0]).2.1.isSome = true := by
  decide +kernel

theorem witness_firmware : State.reset.boot.stat ≠ 2 ∧ ({ State.reset with boot := { stat := 2 } } : State).boot.stat = 2 ∧
    ¬ (0 = 8 ∧ 0x120000 ≤ 0 ∧ 0 < 0x120400) := by decide
/-- A translation of one page of VF 0 and an invalidation of another page. -/
theorem witness_ControlWrites_range : let e : TlbEntry := { vf := 0, asid := 0, vpn := 3, pte := 0x3003F, level := 3 }
    leafSize e.pte e.level = 4096 ∧ ¬ (e.vpn * 4096 < 2 * 4096 ∧ 1 * 4096 < e.vpn * 4096 + 4096) ∧
    (e.vpn * 4096 < 4 * 4096 ∧ 3 * 4096 < e.vpn * 4096 + 4096) := by decide

/-- Core 0 of VF 0 runs alone, core 1 of VF 5 in a half, nothing staged beside it. -/
theorem witness_QuenchEvents_tick : let s : State := { s0 with
      others := [(1, { Core.reset with vf := 5, run := .running, arena := { hi := 8192, sliced := true } })]
      quench := [(0, { status := 1, tick := 0 }), (5, { status := 1, tick := 0 })] }
    (isCore 0 = true ∧ (s.coreAt 0).vf = 0 ∧ (s.coreAt 0).run ≠ .quenched ∧ (s.coreAt 0).arena.sliced = false) ∧
    (isCore 1 = true ∧ (s.coreAt 1).vf = 5 ∧ (s.coreAt 1).run ≠ .quenched ∧ (s.coreAt 1).arena.sliced = true ∧
      (s.coreAt 1).ctx.staged = none) ∧ (sget {} s.quench 5).status = 1 ∧ (sget {} s.quench 5).tick.toNat ≤ s.time := by
  decide +kernel
/-- Cluster images: one that may be put back, as core 0 runs a context of its VF, one that may not, and a saved spill. -/
theorem witness_QuenchEvents_images : let i : Nat × Nat × List Byte × List Byte × List Byte := (0, 0, [], [], [])
    let s := withCl s0 fun c => { c with staged := [i] }
    let t := withCl s0 fun c => { c with staged := [(4, i.2)] }
    let u := withCl s0 fun c => { c with spill := some { vf := 0, image := [], spilling := false } }
    ((s.clAt 0).toSave = [] ∧ (s.clAt 0).spill = none ∧ (s.clAt 0).staged.find? (fun i => s.entered 0 i.1) = some i) ∧
    (∀ i ∈ (t.clAt 0).staged, t.entered 0 i.1 = false) ∧ ((u.clAt 0).spill.map (·.spilling)) = some false := by decide +kernel

/-- A core gated since a reset at tick 500: its wait counts from then on. -/
theorem witness_PowerEvents_reset : let s : State := { State.reset with time := 1500, resetAt := 500 }
    (s.coreAt 1).run = .stopped ∧ 500 = max (s.coreAt 1).clk.idleSince s.resetAt ∧ 500 + 1000 ≤ s.time := by decide

/-- A request marked for a sample; a full queue behind a held core, and 48 requests. -/
theorem witness_ObservationEvents_reasons :
    let s : State := { s0 with core := { s0.core with obs := { sampled := [(0x1000, lo, 0)] } } }
    let q : State := { queue16 with core := { queue16.core with held := true } }
    let r : State := { s0 with core := { s0.core with held := true, pend := [{ kind := .flight, writes := [(5, 0)], reqs := 48 }] } }
    s.core.obs.sampled = (0x1000, lo, 0) :: [] ∧ s0.core.obs.sampled = [] ∧
    (q.core.run = .running ∧ q.core.wait = none ∧ q.core.held = true ∧ 16 ≤ (q.coreAt 0).queued) ∧
    ((r.coreAt 0).held = true ∧ (r.coreAt 0).queued < 16 ∧ (r.coreAt 0).eng.trip = none ∧ 48 ≤ r.requests 0) := by decide +kernel

/-- A queue whose HEAD is 2, its TAIL to become 5, one record having been taken on. -/
theorem witness_HostEvents_tail : let s : State := { State.reset with boot := { stat := 2 }, queues := [(3, { head := 2, tail := 3 })], arrivals := [(3, 1)] }
    s.boot.stat = 2 ∧ ((5 : BitVec 32) - (sget {} s.queues 3).head).toNat = 3 ∧
    ((s.arrivals.filter fun a => a.1 = 3).map (·.2)).sum < 3 := by decide

/-- The partner's vectors have come first; this core has sent and still waits. -/
theorem witness_VectorExchange_first :
    let s : State := { withEng v0 { swapIn := [sixteen] } with others := [(7, { Core.reset with run := .running })] }
    let t : State := withEng v0 { swapSent := true }
    s.core.eng.swapSent = false ∧ s.core.eng.swapIn = sixteen :: [] ∧ s.partner s.focus ≠ s.focus ∧
    (s.coreAt (s.partner s.focus)).run ≠ .quenched ∧ (s.coreAt (s.partner s.focus)).vf = s.core.vf ∧
    t.core.eng.swapSent = true ∧ t.core.eng.swapIn = [] :=
  ⟨rfl, rfl, by decide, by decide, by decide, rfl, rfl⟩

/-- Lines of the range and beside it, of the core, and a core of the same cluster that has fetched an instruction of it. -/
theorem witness_InstructionInvalidation_lines :
    let l : ILine := { va := 64, asid := 0, global := false, bytes := [] }
    let s : State := { s0 with others := [(1, { Core.reset with pc := 66, ilen := 2, held := true })] }
    s.clOf 1 = s.cl ∧ 1 ≠ s.focus ∧ (s.coreAt 1).held = true ∧ (l.va < 0 + 65 ∧ 0 < l.va + 64) ∧
    ¬ (l.va < 0 + 64 ∧ 0 < l.va + 64) ∧ ((s.coreAt 1).pc.toNat < 0 + 67 ∧ 0 < (s.coreAt 1).pc.toNat + 2 * (s.coreAt 1).ilen) := by
  decide

/-! Single steps, with values worked out from the spec. -/

/-- The state after an instruction that goes on. -/
noncomputable def after (i : Instr) (s : State) : State :=
  match exec i s with
  | .next t => t
  | _ => State.reset

/-- The value of the last result in flight. -/
def flying (s : State) : List (Nat × Word) := (s.core.pend.getLast?.map (·.writes)).getD []

/-- Arithmetic wraps modulo 2^64 (R147). -/
theorem test_add_wraps : (after (.add 5 1 3 0) s0).core.x 5 = 0 := by decide +kernel
/-- The second operand is taken away from the first, also where it is the destination (R147). -/
theorem test_sub_order : (after (.sub 2 1 2 0) s0).core.x 2 = -1 := by decide +kernel
/-- −1 is below 1 signed and above it unsigned (R147). -/
theorem test_slt : (after (.slt 5 3 1 0) s0).core.x 5 = 1 ∧ (after (.sltu 5 3 1 0) s0).core.x 5 = 0 := by decide +kernel
/-- A shift takes its amount modulo 64 (R147): −1 >> (2^63 + 7 mod 64). -/
theorem test_sra : (after (.sra 5 4 63 0) s0).core.x 5 = 0xFF00000000000000 := by decide +kernel
/-- x0 discards a write (R127). -/
theorem test_x0 : (after (.add 0 1 2 0) s0).core.x 0 = 0 := by decide +kernel
/-- The high half of −2^63 · −1 is 0, and unsigned 2^63 − 1 (R147). -/
theorem test_mulh : ((after (.mulh 5 4 3 2) s0).core.pend.map (·.writes)) = [[(5, 0)]] ∧
    ((after (.mulhn 5 4 3 2) s0).core.pend.map (·.writes)) = [[(5, 0x7FFFFFFFFFFFFFFF)]] := by decide +kernel
/-- −2^63 / −1 is −2^63, with remainder 0 (R148). -/
theorem test_div_corner : flying (after (.div 5 4 3 0) s0) = [(5, 0x8000000000000000)] ∧
    flying (after (.rem 5 4 3 0) s0) = [(5, 0)] := by decide +kernel
/-- A zero divisor traps, also into x0 (R148). -/
theorem test_div_zero : (after (.div 0 1 9 0) s0).core.trap.tcause = 7 ∧ (after (.div 0 1 9 0) s0).core.cur = 28 := by
  decide +kernel
/-- `lui` sign-extends, `lmid` keeps the other bits (R26, R151). -/
theorem test_lui : (after (.lui 9 0x8000 0) s0).core.x 9 = 0xFFFFFFFF80000000 ∧
    (after (.lmid 3 0 0) s0).core.x 3 = 0xFFFF0000FFFFFFFF := by decide +kernel
/-- 1.0 + 2.0 = 3.0 in f64 and f32, exactly, after 3 cycles; an f32 result is zero-extended (R134, R153, R154). -/
theorem test_fadd :
    (after (.faddF64 5 1 2 3) (mach false [(1, 0x3FF0000000000000), (2, 0x4000000000000000)])).core.pend.map (·.writes) =
      [[(5, 0x4008000000000000)]] ∧
    (after (.faddF32 5 1 2 3) (mach false [(1, 0xAAAAAAAA3F800000), (2, 0x40000000)])).core.pend.map (·.writes) =
      [[(5, 0x40400000)]] := by decide +kernel
/-- 1.0 / 0.0 is +∞ with DZ (R154). -/
theorem test_fdiv_zero : let t := after (.fdivF64 5 1 0 0) (mach false [(1, 0x3FF0000000000000)])
    flying t = [(5, 0x7FF0000000000000)] ∧ t.core.fp.fflags ||| (t.core.pend.map (·.flags)).foldl (· ||| ·) 0 = fDZ := by
  decide +kernel
/-- A taken branch counts parcels from its own PC; one not taken goes on at PC + 4 (R19, R159). -/
theorem test_bnez : (after (.bnez 1 (-6) 0) s0).core.pc = 0x1000 - 12 ∧ (after (.bnez 9 (-6) 0) s0).core.pc = 0x1004 := by
  decide +kernel
/-- `dbnz` of 1 gives 0 and goes on; of x0 it branches (R159). -/
theorem test_dbnz : (after (.dbnz 1 (-4) 0) s0).core.pc = 0x1004 ∧ (after (.dbnz 0 (-4) 0) s0).core.pc = 0xFF8 := by
  decide +kernel
/-- `call` writes PC + 4 to x63 (R159). -/
theorem test_call : (after (.call 0x80 0) s0).core.pc = 0x1100 ∧ (after (.call 0x80 0) s0).core.x 63 = 0x1004 := by
  decide +kernel
/-- Bytes are loaded least significant first; `ld.h` sign-extends and `ld.hn` does not (R1, R161). -/
theorem test_loads : let s : State := { s1 with mem := [(2 ^ 52, 0x34), (2 ^ 52 + 1, 0x92)] }
    flying (after (.ldH 5 2 0 0) s) = [(5, 0xFFFFFFFFFFFF9234)] ∧ flying (after (.ldHn 5 2 0 0) s) = [(5, 0x9234)] := by
  decide +kernel
/-- A misaligned load traps with its address (R38, R161). -/
theorem test_load_misaligned : (after (.ldW 5 3 0 0) s1).core.trap.tcause = 6 ∧ (after (.ldW 5 3 0 0) s1).core.trap.tval = lo + 1 := by
  decide +kernel
/-- A store waits in the buffer, and leaves its bytes least significant first (R163). -/
theorem test_store : (after (.stH 8 2 0 0) s1).mem = [] ∧
    (after (.storeBufferEntryLeaves 0) (after (.stH 8 2 0 0) s1)).mem = [(2 ^ 52, 0xEF), (2 ^ 52 + 1, 0xCD)] := by decide +kernel
/-- `cr.frm` keeps its value on a write of 7 (R152, R164); `csrs` sets bits of `cr.fenable`. -/
theorem test_csr : (after (.csrw 0x000 63 0) s0).core.fp.frm = 1 ∧ (after (.csrs 0x002 2 0) s0).core.fp.fenable = 2 := by
  decide +kernel
/-- `trap 5` saves PC + 4, the window and the mode (R136, R169). -/
theorem test_trap : let t := (after (.trap 5 0) s0).core
    t.trap.tpc = 0x1004 ∧ t.trap.tval = 5 ∧ t.trap.tcause = 0x15 ∧ t.trap.tfrom = 0 ∧ t.trap.tstat = false ∧ t.sup = true ∧
      t.cur = 28 := by decide +kernel
/-- A user's `rett` is privileged: the context halts (R32, R33). -/
theorem test_rett_user : ((after (.rett 0) s0).core.win 0).h = true ∧ (after (.rett 0) s0).core.trap.tcause = 2 := by
  decide +kernel
/-- `wget` of an entry that is not valid reads zero (R141). -/
theorem test_wget : flying (after (.wget 5 9 0) s0) = [(5, 0)] ∧ flying (after (.wget 5 2 0) s4) = [(5, 0x0400000000401000)] := by
  decide +kernel
/-- `wsw` to a halted window traps with its index (R142). -/
theorem test_wsw_halted : (after (.wsw 3 0) s4).core.trap.tval = 3 ∧ (after (.wsw 2 0) s4).core.cur = 2 := by decide +kernel
/-- Lanes wrap each for itself, and an inactive lane is zero under Z (R203, R205): two lanes of i32 of v1 + v1. -/
theorem test_vadd : flying (after (.pfx { pm := 1, z := true } (.lane .i32 .add 0 1 1)) (mach false [(56, 1), (64, -1), (72, 0x8000000180000001)])) =
    (64, 2) :: (List.range 7).map fun k => (65 + k, 0) := by decide +kernel
/-- `vext.w` sign-extends its lane (R215). -/
theorem test_vext : flying (after (.vextW 5 0 1 0) (mach false [(64, 0x8000000000000000)])) = [(5, 0xFFFFFFFF80000000)] := by
  decide +kernel
/-- `atom.add.w` returns the old word, sign-extended, and wraps (R260). -/
theorem test_atom_add : let t := after (.atomicPerformed 0) (after (.atomAddBlk false 5 2 4 0) { s1 with mem := place (2 ^ 52) [0xFF, 0xFF, 0xFF, 0xFF, 1] })
    t.mem = [(2 ^ 52, 7), (2 ^ 52 + 4, 1)] ∧ t.core.x 5 = -1 := by decide +kernel
/-- `put` fills an empty granule and gives 0, and gives 1 of a full one (R89 to R91). -/
theorem test_put : flying (after (.put 7 2 3 0) (f0 [])) = [(7, 0)] ∧ (after (.put 7 2 3 0) (f0 [])).isFull 0 1 = true ∧
    flying (after (.put 7 1 3 0) (f0 [])) = [(7, 1)] := by decide +kernel
/-- `fpop` takes the oldest entry, and `fpush` appends (R99, R100). -/
theorem test_fifo : flying (after (.fpop 5 1 0) (q0 [7, 8] [])) = [(5, 7)] ∧
    ((after (.fpush 5 1 2 0) (q0 [7, 8] [])).bank 0 1).fifo = [7, 8, 9] := by decide +kernel
/-- The first ticket of a core is 1 (R106); a record of zeros is malformed, −1 (R103, R105). -/
theorem test_cpy : flying (after (.cpy 9 1 2 0) r0) = [(9, 1)] ∧ flying (after (.cpy 9 3 2 0) r0) = [(9, -1)] := by
  decide +kernel
/-- The copy's one segment moves its 64 bytes (R107): the records lie where they lay. -/
theorem test_segment : let s : State := { r0 with mem := place (2 ^ 52 + 1024) [9, 8] }
    (after (.segmentDone 0 1 0) (withEng s { cmds := [cmd 1 .running] })).mem =
      [(2 ^ 52 + 1024, 9), (2 ^ 52 + 1025, 8), (2 ^ 52 + 2048, 9), (2 ^ 52 + 2049, 8)] := by decide +kernel
/-- The first phaser of die 3 has id 3 · 1024 (R325). -/
theorem test_phnew : flying (after (.phnew 21 20 .dev 0) (mach false [(20, 3)])) = [(21, 0xC00)] := by decide +kernel
/-- A fresh die has 4,096 free task slots (R296). -/
theorem test_tquery : flying (after (.tquery 5 3 0) s0) = [(5, 4096)] := by decide +kernel
/-- `sleep` of 5 ticks ends at the latest 5 ticks after the time at issue (R172). -/
theorem test_sleep : (after (.sleep 6 0) { e0 with time := 100 }).core.run = .asleep (some 106) := by decide +kernel
/-- Copy faults of a struck window copy the group (R128). -/
theorem test_copy_fault : let t := (after (.add 8 1 2 0) k0).core
    t.x 8 = t.x 1 + t.x 2 ∧ t.x 9 = k0.core.x 9 ∧ t.slot 9 = k0.core.slot 1033 ∧ (t.win 1).share = 0 := by decide +kernel
/-- The step after `withFetchWord` runs the word placed: `add x5, x1, x2` (log 9). -/
theorem test_step_runs : (match step (s0.withFetchWord 32 0x00811401) with
    | .next t => decide (t.core.x 5 = 3 ∧ t.core.pc = 4)
    | _ => false) = true := by decide +kernel

end Sys2Proof.Tests
end

section
/-! SUPPORT. The window instructions (R139 to R145) that read, write and clear entries of the window table: what each does
where nothing stands in its way, and what the statements' descriptors and checks are in the model's terms. -/
namespace Sys2Proof.Machine

/-! Bits of a word. -/

theorem Word.bits_one (v : Word) (k : Nat) : v.bits k 1 = b2n (v.bit k) := by
  unfold Word.bits fld b2n Word.bit BitVec.getLsbD
  rw [Nat.testBit_eq_decide_div_mod_eq]
  simp only [decide_eq_true_eq]
  split <;> omega

theorem Word.bits_two (v : Word) (k : Nat) : v.bits k 2 = v.bits k 1 + 2 * v.bits (k + 1) 1 := by
  unfold Word.bits fld
  rw [Nat.pow_succ 2 k, ← Nat.div_div_eq_div_mul]
  omega

theorem Word.bits_one_eq_one {v : Word} {k : Nat} : v.bits k 1 = 1 ↔ v.bit k = true := by
  rw [Word.bits_one]; cases v.bit k <;> decide

theorem Word.bits_one_eq_zero {v : Word} {k : Nat} : v.bits k 1 = 0 ↔ v.bit k = false := by
  rw [Word.bits_one]; cases v.bit k <;> decide

/-- A field of a share mask, as the word `wshr` gives (R143). -/
theorem word_fld_eq_extractLsb' {w : Nat} (m : BitVec w) (lo : Nat) : word (fld m.toNat lo 64) = m.extractLsb' lo 64 := by
  apply BitVec.eq_of_toNat_eq
  simp only [word, fld, BitVec.toNat_ofNat, BitVec.extractLsb'_toNat, Nat.shiftRight_eq_div_pow, Nat.mod_mod]

/-! Descriptors. -/

/-- The descriptor word of an entry is the one the statements write out (R125). -/
theorem Win.desc_eq_descriptor (w : Win) : w.desc = Claims.descriptor w := by
  have hbase : put w.base 0 14 = w.base % 2 ^ 14 := Nat.mul_one _
  have hbit : ∀ b lo, put (b2n b) lo 1 = (Claims.truth b).toNat * 2 ^ lo := fun b lo => by cases b <;> rfl
  have hparent : put w.parent 48 5 = w.parent % 32 * 2 ^ 48 := rfl
  have hvalid : put 1 58 1 = 2 ^ 58 := by decide
  unfold Win.desc Claims.descriptor
  rw [hbase, hparent, hbit, hbit, hbit, hvalid, put, put]

theorem descOk_iff {v : Word} : descOk v = true ↔ Claims.WellFormedDescriptor v := by
  have h58 : v.bits 58 2 = v.bits 58 1 + 2 * v.bits 59 1 := Word.bits_two v 58
  have hlt : v.bits 58 1 < 2 := Nat.mod_lt _ (by decide)
  unfold descOk Claims.WellFormedDescriptor
  rw [decide_eq_true_eq]
  omega

theorem not_descOk_iff {v : Word} : (!descOk v) = true ↔ ¬ Claims.WellFormedDescriptor v := by
  rw [← descOk_iff, Bool.not_eq_true, Bool.not_eq_true']

theorem ofDesc_not_within_iff {v : Word} {a : Arena} : (!(Win.ofDesc v).within a) = true ↔
    ¬ (a.lo ≤ v.bits 0 14 ∧ v.bits 0 14 + v.bits 16 14 ≤ a.hi) := by
  rw [Win.within, Bool.not_eq_true', decide_eq_false_iff_not]; rfl

/-- T, S and PARENT of a descriptor are zero where the two fields that hold them are (R125, R140). -/
theorem ofDesc_template_iff {v : Word} {p : Prop} :
    ((Win.ofDesc v).t = true ∨ (Win.ofDesc v).s = true ∨ (Win.ofDesc v).parent ≠ 0 ∨ p) ↔
      (v.bits 48 5 ≠ 0 ∨ v.bits 56 2 ≠ 0 ∨ p) := by
  have ht : (Win.ofDesc v).t = true ↔ v.bits 56 1 = 1 := Word.bits_one_eq_one.symm
  have hs : (Win.ofDesc v).s = true ↔ v.bits 57 1 = 1 := Word.bits_one_eq_one.symm
  have hp : (Win.ofDesc v).parent = v.bits 48 5 := rfl
  have h56 : v.bits 56 2 = v.bits 56 1 + 2 * v.bits 57 1 := Word.bits_two v 56
  have ht2 : v.bits 56 1 < 2 := Nat.mod_lt _ (by decide)
  have hs2 : v.bits 57 1 < 2 := Nat.mod_lt _ (by decide)
  have hts : v.bits 56 2 ≠ 0 ↔ v.bits 56 1 = 1 ∨ v.bits 57 1 = 1 := by omega
  rw [ht, hs, hp, hts]
  exact or_assoc.symm.trans or_left_comm

/-- The window of a well-formed descriptor without T, S and PARENT is an ordinary valid one. -/
theorem ofDesc_eq_of_wellFormed {v : Word} (hv : Claims.WellFormedDescriptor v) (hp : v.bits 48 5 = 0)
    (hts : v.bits 56 2 = 0) :
    Win.ofDesc v = { base := v.bits 0 14, size := v.bits 16 14, voff := v.bits 32 14, v := true } := by
  obtain ⟨-, -, -, -, -, hvh, -, -, -⟩ := hv
  have h56 : v.bits 56 2 = v.bits 56 1 + 2 * v.bits 57 1 := Word.bits_two v 56
  have h58 : v.bits 58 2 = v.bits 58 1 + 2 * v.bits 59 1 := Word.bits_two v 58
  have ht : v.bit 56 = false := Word.bits_one_eq_zero.1 (by omega)
  have hs : v.bit 57 = false := Word.bits_one_eq_zero.1 (by omega)
  have hV : v.bit 58 = true := Word.bits_one_eq_one.1 (by omega)
  have hH : v.bit 59 = false := Word.bits_one_eq_zero.1 (by omega)
  unfold Win.ofDesc
  rw [ht, hs, hV, hH, hp]

/-! The state at issue. -/

/-- The window table at issue is as before. -/
theorem State.Clear.win_atIssue {s : State} {u : Use} (h : s.Clear u) (i : Nat) : s.atIssue.core.win i = s.core.win i := by
  obtain ⟨-, hw, -⟩ := h.atIssue_core
  unfold Core.win; rw [hw]

theorem State.Clear.strikesOf_atIssue {s : State} {u : Use} (h : s.Clear u) (i : Nat) :
    s.atIssue.core.strikesOf i = s.core.strikesOf i := by
  unfold Core.strikesOf; simp only [h.win_atIssue]

/-- Where no trip stands in the trip buffer, giving up that of a window drops its stop record alone. -/
theorem Core.dropTrip_eq {c : Core} (h : c.eng.trip = none) (i : Nat) :
    c.dropTrip i = { c with eng := { c.eng with stops := c.eng.stops.filter (·.1 ≠ i) } } := by
  unfold Core.dropTrip; simp only [h]

/-! `Core.issuedAny`: the fields a window instruction's issue sets, and those it leaves. -/

theorem Core.issuedAny_eq (c : Core) (stl : Nat) : c.issuedAny stl = { c.issued 0 with ready := c.cycle + stl } := rfl

@[simp] theorem Core.issuedAny_cur (c : Core) (stl : Nat) : (c.issuedAny stl).cur = c.cur := by
  rw [Core.issuedAny_eq, Core.issued_cur]
@[simp] theorem Core.issuedAny_store (c : Core) (stl : Nat) : (c.issuedAny stl).store = c.store := by
  rw [Core.issuedAny_eq, Core.issued_store]
@[simp] theorem Core.issuedAny_pend (c : Core) (stl : Nat) : (c.issuedAny stl).pend = c.pend := by
  rw [Core.issuedAny_eq, Core.issued_pend]
@[simp] theorem Core.issuedAny_eng (c : Core) (stl : Nat) : (c.issuedAny stl).eng = c.eng := by
  rw [Core.issuedAny_eq, Core.issued_eng]
@[simp] theorem Core.issuedAny_cycle (c : Core) (stl : Nat) : (c.issuedAny stl).cycle = c.cycle + 1 := by
  rw [Core.issuedAny_eq, Core.issued_cycle]
@[simp] theorem Core.issuedAny_ready (c : Core) (stl : Nat) : (c.issuedAny stl).ready = c.cycle + stl := by
  rw [Core.issuedAny_eq]

theorem Core.win_issuedAny (c : Core) (stl j : Nat) :
    (c.issuedAny stl).win j = if j = c.cur then { c.curWin with ready := c.cycle } else c.win j :=
  Core.win_setWin c c.cur j _

/-- A window instruction ends as one without a stall count does, but for the cycle before which the core issues nothing
(R139). -/
theorem State.retireWin_of_retireTo {s t : State} {pc : Word} {n : Nat} (stl : Nat) (h : s.retireTo pc 0 = .next t)
    (hn : t.core.cycle = n + 1) : s.retireWin pc stl = .next (t.updCore fun c => { c with ready := n + stl }) := by
  cases h
  cases Nat.succ.inj (hn : s.core.cycle + 1 = n + 1)
  rfl

/-- A window instruction with a scalar result is complete, and its name receives the value in flight. -/
theorem State.Clear.doneWin {s : State} {u : Use} (h : s.Clear u) (d : Nat) (v : Word) (stl : Nat) :
    ∃ t, s.atIssue.doneWin d v stl = .next t ∧ s.Completes t (s.core.pc + 4) 0 ∧
      t.core.ready = s.core.issueCycle + stl ∧ s.core.Receives t.core none d v := by
  obtain ⟨hpc, -⟩ := h.atIssue_core
  obtain ⟨t, ht, ⟨hthe, hsame, hpc', hcy, hrdy, hwait⟩, hr⟩ := h.result none d v (s.core.pc + 4) 0
  have hdone : s.atIssue.doneWin d v stl = .next (t.updCore fun c => { c with ready := s.core.issueCycle + stl }) := by
    rw [← State.retireWin_of_retireTo stl ht hcy, ← hpc]; rfl
  refine ⟨_, hdone, ⟨?_, ?_, hpc', hcy, hrdy, hwait⟩, rfl, hr⟩
  · rw [State.OnlyCore, hthe]; rfl
  · exact hsame.trans (Core.same_with t.core _ _ _ _ _ _ _ _ _ _)

/-- Cores that are the same stay so where both take the same window table, current window and stop records. -/
theorem Core.Same.withTable {c d : Core} (h : c.Same d) (wins : Sparse Win) (cur : Nat) (stops : List (Nat × Nat)) :
    ({ c with wins, cur, eng := { c.eng with stops } } : Core).Same { d with wins, cur, eng := { d.eng with stops } } := by
  obtain ⟨-, hsup, hrun, harena, hfeErr, htrap, hfp, hsbchk, hmat, hvf, hasid, hdom, hm, heng, hclk, hctx, hpme, hwpa, hwpc,
    -⟩ := h
  exact ⟨rfl, hsup, hrun, harena, hfeErr, htrap, hfp, hsbchk, hmat, hvf, hasid, hdom, hm,
    congrArg (fun e => { e with stops }) heng, hclk, hctx, hpme, hwpa, hwpc, fun _ => rfl⟩

/-- A window instruction that ends in a core that differs from the issuing one in its window table and its stop records, the
cycle and the counts: what it leaves, and its window table. -/
theorem State.retireWin_windowStep {s : State} {e : Core} {stops : List (Nat × Nat)}
    (hsame : s.core.Same { e with wins := s.core.wins, cur := s.core.cur, eng := { e.eng with stops := s.core.eng.stops } })
    (hstops : e.eng.stops = stops) (hstore : e.store = s.core.store) (hpend : e.pend = s.core.pend)
    (hcycle : e.cycle = s.core.issueCycle) (pc : Word) (stl : Nat) :
    ∃ t, ({ s with core := e } : State).retireWin pc stl = .next t ∧ Claims.WindowStep s t pc stl stops ∧
      t.core.cur = e.cur ∧ ∀ j, t.core.win j = if j = e.cur then { e.curWin with ready := e.cycle } else e.win j := by
  have hissued : e.Same { e.issuedAny stl with pc } :=
    (Core.same_issued e 0).trans (Core.same_with _ _ _ _ _ _ _ _ _ _ _)
  have hwin : ∀ j, ({ e.issuedAny stl with pc } : Core).win j =
      if j = e.cur then { e.curWin with ready := e.cycle } else e.win j := Core.win_issuedAny e stl
  refine ⟨{ s with core := { e.issuedAny stl with pc } }, rfl, ?_, Core.issuedAny_cur e stl, hwin⟩
  constructor
  case only => rfl
  case same => exact hsame.trans (hissued.withTable s.core.wins s.core.cur s.core.eng.stops)
  case stops => simpa only [Core.issuedAny_eng]
  case slots => exact ⟨fun n => by simp only [Core.slot, Core.issuedAny_store, hstore], by simpa only [Core.issuedAny_pend]⟩
  case pc => rfl
  case cycle => simp only [Core.issuedAny_cycle, hcycle]
  case ready => simp only [Core.issuedAny_ready, hcycle]

/-- What an entry's replacement makes of a core at issue: its window table and its stop records differ, and nothing else. -/
theorem Core.Issuing.replaced {c d : Core} (h : c.Issuing d) (hnt : c.eng.trip = none) (i : Nat) (w : Win) :
    let e := (d.setWin i w).dropTrip i
    c.Same { e with wins := c.wins, cur := c.cur, eng := { e.eng with stops := c.eng.stops } } ∧
      e.eng.stops = c.eng.stops.filter (·.1 ≠ i) ∧ e.store = c.store ∧ e.pend = c.pend ∧ e.cycle = c.issueCycle ∧
      e.cur = c.cur ∧ ∀ j, e.win j = if j = i then w else c.win j := by
  have hwin : ∀ j, (d.setWin i w).win j = if j = i then w else c.win j := fun j => by
    rw [Core.win_setWin]; unfold Core.win; rw [h.wins]
  dsimp only
  rw [Core.dropTrip_eq (c := d.setWin i w) (h.same.eng ▸ hnt : d.eng.trip = none)]
  refine ⟨?_, ?_, h.store, h.pend, h.cycle, h.cur, hwin⟩
  · rw [← h.wins, ← h.cur, ← h.same.eng]; exact h.same
  · rw [← h.same.eng]; rfl

/-- A window instruction that replaces an entry other than the current one changes that entry and its stop record, and no
other register. -/
theorem State.Clear.replacesWin {s : State} {u : Use} (h : s.Clear u) {i : Nat} (hne : i ≠ s.core.cur) (w : Win)
    (stl : Nat) :
    ∃ t, (s.atIssue.updCore fun c => (c.setWin i w).dropTrip i).retireWin (s.core.pc + 4) stl = .next t ∧
      Claims.WindowStep s t (s.core.pc + 4) stl (s.core.eng.stops.filter (·.1 ≠ i)) ∧ t.core.cur = s.core.cur ∧
      t.core.win i = w ∧ Claims.OtherWindows s t i := by
  obtain ⟨c, he, hi⟩ := h.issuing
  obtain ⟨hsame, hstops, hstore, hpend, hcycle, hcur, hwin⟩ := hi.replaced h.noTrip i w
  obtain ⟨t, ht, hstep, hcur', hwin'⟩ :=
    State.retireWin_windowStep hsame hstops hstore hpend hcycle (s.core.pc + 4) stl
  rw [hcur] at hcur' hwin'
  rw [he]
  refine ⟨t, ht, hstep, hcur', ?_, fun j hj => ?_⟩
  · rw [hwin', if_neg hne, hwin, if_pos rfl]
  · rw [hwin']
    split
    · subst j
      rw [Core.curWin, hcur, hwin, if_neg hj]
    · rw [hwin, if_neg hj]

/-! What each instruction does. -/

/-- The outcomes of `wset` in the order of its checks (R140). -/
theorem State.Clear.execWset_eq {s : State} {a i : Nat}
    (h : s.Clear { mem := false, priv := decide (28 ≤ i), xs := [a] }) (stl : Nat) :
    execWset a i stl s =
      let v := s.core.x a
      let e := s.core.win i
      let w := Win.ofDesc v
      if w.t ∨ w.s ∨ w.parent ≠ 0 ∨ e.v ∧ (e.t ∨ e.s) then s.atIssue.trap 11 v
      else if !descOk v ∨ i = s.core.cur ∨ e.h then s.atIssue.trap 4 v
      else if !s.core.sup ∧ !w.within s.core.arena then s.atIssue.trap 5 v
      else (s.atIssue.updCore fun c => (c.setWin i { w with ready := e.ready }).dropTrip i).retireWin
        (s.core.pc + 4) stl := by
  obtain ⟨hpc, -⟩ := h.atIssue_core
  rw [execWset, supIdx, State.issue_clear h]
  simp only [h.x_atIssue, h.win_atIssue, h.same_atIssue.cur, h.same_atIssue.sup, h.same_atIssue.arena, hpc]

/-- The outcomes of `wclr` in the order of its checks (R144). -/
theorem State.Clear.execWclr_eq {s : State} {i : Nat} (h : s.Clear { mem := false, priv := decide (28 ≤ i) }) (stl : Nat) :
    execWclr i stl s =
      let w := s.core.win i
      if i = s.core.cur ∨ w.h then s.atIssue.trap 4 (word i)
      else if w.v ∧ (w.s ∨ w.t ∧ s.core.strikesOf i) then s.atIssue.trap 11 (word i)
      else (s.atIssue.updCore fun c => (c.setWin i { w with v := false }).dropTrip i).retireWin (s.core.pc + 4) stl := by
  obtain ⟨hpc, -⟩ := h.atIssue_core
  rw [execWclr, supIdx, State.issue_clear h]
  simp only [h.win_atIssue, h.same_atIssue.cur, h.strikesOf_atIssue, hpc]

/-- The value of `wshr` by its word number (R143). -/
theorem wshr_value (w : Win) (n : Nat) :
    (if w.v ∧ w.s ∧ n ≤ 1 then word (fld w.share.toNat (64 * n) 64) else 0) =
      if w.v = true ∧ w.s = true ∧ n = 0 then w.share.extractLsb' 0 64
      else if w.v = true ∧ w.s = true ∧ n = 1 then w.share.extractLsb' 64 64 else 0 := by
  match n with
  | 0 => simp [word_fld_eq_extractLsb']
  | 1 => simp [word_fld_eq_extractLsb']
  | n + 2 => simp

/-! The obligations. -/

/-- Settles O13: each read is a window instruction with a scalar result (`State.Clear.doneWin`), of the value of R141 or
R143. -/
theorem windowReads : Obligations.WindowReads := by
  intro s d a i stl
  refine ⟨fun h => ?_, fun h => ?_⟩
  · rw [exec_wget, execWget, supIdx, State.issue_clear h, h.win_atIssue, Win.desc_eq_descriptor]
    exact h.doneWin d _ stl
  · dsimp only
    rw [exec_wshr, execWshr, supIdx, State.issue_clear h, h.win_atIssue, h.x_atIssue, ← wshr_value]
    exact h.doneWin d _ stl

/-- The first half of O15: `wset` traps at the first check that fails, and otherwise replaces the entry (R140). -/
theorem windowSet : Claims.WindowSet := by
  intro s a i stl h
  dsimp only
  rw [exec_wset, h.execWset_eq]
  have hT := ofDesc_template_iff (v := s.core.x a)
    (p := (s.core.win i).v = true ∧ ((s.core.win i).t = true ∨ (s.core.win i).s = true))
  have hW := or_congr_left (c := i = s.core.cur ∨ (s.core.win i).h = true) (not_descOk_iff (v := s.core.x a))
  have hA := and_congr (iff_of_eq (Bool.not_eq_true' s.core.sup))
    (ofDesc_not_within_iff (v := s.core.x a) (a := s.core.arena))
  refine ⟨fun ht hk => ?_, fun ht hw hk => ?_, fun ht hw ha hk => ?_, fun ht hw ha => ?_⟩
  · rw [if_pos (hT.2 ht)]
    exact h.traps hk (by decide) _
  · rw [if_neg (mt hT.1 ht), if_pos (hW.2 hw)]
    exact h.traps hk (by decide) _
  · rw [if_neg (mt hT.1 ht), if_neg (mt hW.1 hw), if_pos (hA.2 ha)]
    exact h.traps hk (by decide) _
  · rw [if_neg (mt hT.1 ht), if_neg (mt hW.1 hw), if_neg (mt hA.1 ha)]
    obtain ⟨hp, hts, -⟩ := by simpa only [not_or, Classical.not_not] using ht
    obtain ⟨hwf, hne, -⟩ := by simpa only [not_or, Classical.not_not] using hw
    rw [ofDesc_eq_of_wellFormed hwf hp hts]
    exact h.replacesWin hne _ stl

/-- The second half of O15: `wclr` traps at the first check that fails, and otherwise clears the entry (R144). -/
theorem windowClear : Claims.WindowClear := by
  intro s i stl h
  dsimp only
  rw [exec_wclr, h.execWclr_eq]
  refine ⟨fun hw hk => ?_, fun hw ht hk => ?_, fun hw ht => ?_⟩
  · rw [if_pos hw]; exact h.traps hk (by decide) _
  · rw [if_neg hw, if_pos ht]; exact h.traps hk (by decide) _
  · rw [if_neg hw, if_neg ht]; exact h.replacesWin (fun hc => hw (.inl hc)) _ stl

/-- Settles O15: the checks of each instruction in order, the trap of the first that fails, and otherwise the replacement of
the entry alone (`State.Clear.replacesWin`). -/
theorem windowSetAndClear : Obligations.WindowSetAndClear := ⟨windowSet, windowClear⟩

end Sys2Proof.Machine
end

section
/-! SUPPORT. The divisions (R148), `trap` and the breakpoints (R169), and the order of two elements by `Fmt.key` against that
of their values, by which `fmin` and `fmax` choose (R155). -/
namespace Sys2Proof.Machine

/-! Divisions. -/

/-- The outcomes of a division are those of `State.Clear.divX`, whichever function of its operands it delivers (R148). -/
theorem divides {s : State} {i : Instr} {d a b stl : Nat} {f : Word → Word → Word}
    (hi : exec i s = s.divX f d a b stl) :
    (s.core.x b ≠ 0 → Claims.Gives s i [a, b] none d (f (s.core.x a) (s.core.x b)) stl) ∧
    (s.core.x b = 0 → s.Clear (Claims.scalar [a, b] d) → s.core.trapOk = true →
      ∃ t, exec i s = .next t ∧ s.TakesTrap t s.core.pc 0x07 0) := by
  unfold Claims.Gives
  rw [hi]
  exact ⟨fun hb h => (h.divX f _ rfl).1 hb, fun hb h hk => (h.divX f _ rfl).2 hb hk⟩

/-- Settles O2: each of the four divisions is a `State.divX` of its own function (`divides`). -/
theorem divisions : Obligations.Divisions := by
  intro s d a b stl o ho
  simp only [Claims.divisions, List.mem_cons, List.not_mem_nil, or_false] at ho
  obtain rfl | rfl | rfl | rfl := ho
  · exact divides (exec_div s d a b stl)
  · exact divides (exec_divn s d a b stl)
  · exact divides (exec_rem s d a b stl)
  · exact divides (exec_remn s d a b stl)

/-! Trap instructions. -/

/-- An instruction in whose way nothing stands enters the trap window as one that has issued, with a saved PC of its own
(R169). -/
theorem State.Clear.entersTrap {s : State} {u : Use} (h : s.Clear u) (hk : s.core.trapOk = true) (stl : Nat) (tpc : Word)
    {cause : Nat} (hc : cause < 256) (val : Word) :
    s.TakesTrap ((s.atIssue.updCore fun c => c.issued stl).enterTrap tpc cause val) tpc cause val := by
  obtain ⟨c, he, hi⟩ := h.issuing
  rw [he]
  exact State.takesTrap_of (hi.same.trans (Core.same_issued c stl)) hi.store hi.pend hk tpc hc val

/-- Settles O11: `trap` saves the PC of its successor (`State.Clear.entersTrap`), and the breakpoints trap at their own
(`State.Clear.traps`). -/
theorem trapInstructions : Obligations.TrapInstructions := by
  intro s code stl h hk
  obtain ⟨hpc, -⟩ := h.atIssue_core
  refine ⟨?_, ?_, ?_⟩
  · rw [exec_trap, execTrap, State.issue_clear h, hpc]
    exact ⟨_, rfl, h.entersTrap hk stl _ (by decide) _⟩
  · rw [exec_brk, execBrk, State.issue_clear h]
    exact h.traps hk (by decide) _
  · rw [exec_brk16, execBrk16, State.issue_clear h]
    exact h.traps hk (by decide) _

/-! Magnitudes of the elements of a format. -/

/-- The sign of an element. -/
def Fmt.negative (f : Fmt) (a : Nat) : Bool := decide (a / f.signBit % 2 = 1)

/-- The exponent of the least positive value of a format, of which every finite value is a multiple (R178). -/
def Fmt.leastExp (f : Fmt) : Int := 1 - (f.bias : Int) - f.fw

/-- The finite value with the magnitude bits `mag`, as a multiple of the least positive value. -/
def Fmt.units (f : Fmt) (mag : Nat) : Nat :=
  if mag / 2 ^ f.fw = 0 then mag else (2 ^ f.fw + mag % 2 ^ f.fw) * 2 ^ (mag / 2 ^ f.fw - 1)

theorem Fmt.key_of_negative {f : Fmt} {a : Nat} (h : f.negative a = true) : f.key a = -((a % f.signBit : Nat) : Int) - 1 :=
  if_pos (of_decide_eq_true h)

theorem Fmt.key_of_positive {f : Fmt} {a : Nat} (h : f.negative a = false) : f.key a = (a % f.signBit : Nat) :=
  if_neg (of_decide_eq_false h)

/-- With its exponent field a magnitude outgrows every smaller one: at an equal field the fraction decides, and from one
field to the next the significand has doubled. -/
theorem Fmt.units_mono (f : Fmt) {m n : Nat} (h : m ≤ n) : f.units m ≤ f.units n := by
  have hP : 0 < 2 ^ f.fw := Nat.two_pow_pos _
  have hm := Nat.div_add_mod m (2 ^ f.fw)
  have hn := Nat.div_add_mod n (2 ^ f.fw)
  have hmr := Nat.mod_lt m hP
  have hq : m / 2 ^ f.fw ≤ n / 2 ^ f.fw := Nat.div_le_div_right h
  unfold Fmt.units
  generalize 2 ^ f.fw = P at *
  generalize m / P = q at *
  generalize n / P = q' at *
  obtain rfl | hlt := Nat.eq_or_lt_of_le hq
  · split
    · exact h
    · exact Nat.mul_le_mul_right _ (by omega)
  · rw [if_neg (Nat.ne_of_gt (Nat.zero_lt_of_lt hlt))]
    have hge : P ≤ (P + n % P) * 2 ^ (q' - 1) :=
      Nat.le_trans (Nat.le_add_right P _) (Nat.le_mul_of_pos_right _ (Nat.two_pow_pos _))
    split
    case isTrue h0 =>
      subst h0
      omega
    case isFalse h0 =>
      calc (P + m % P) * 2 ^ (q - 1) ≤ (P * 2) * 2 ^ (q - 1) := Nat.mul_le_mul_right _ (by omega)
        _ = P * 2 ^ q := by rw [Nat.mul_assoc, ← Nat.pow_succ', Nat.succ_eq_add_one, Nat.sub_add_cancel (by omega)]
        _ ≤ P * 2 ^ (q' - 1) := Nat.mul_le_mul_left _ (Nat.pow_le_pow_right (by decide) (by omega))
        _ ≤ (P + n % P) * 2 ^ (q' - 1) := Nat.mul_le_mul_right _ (Nat.le_add_right _ _)

theorem Fmt.lt_of_units_lt {f : Fmt} {m n : Nat} (h : f.units m < f.units n) : m < n :=
  Nat.lt_of_not_le fun hle => Nat.not_le_of_lt h (f.units_mono hle)

/-! What an element that is not a NaN decodes to. -/

/-- The exponent and fraction fields are those of the magnitude. -/
theorem Fmt.exponentField_eq (f : Fmt) (a : Nat) : a / 2 ^ f.fw % 2 ^ f.ew = a % f.signBit / 2 ^ f.fw := by
  rw [Fmt.signBit, Nat.add_comm, Nat.pow_add, Nat.mod_mul_right_div_self]

theorem Fmt.fractionField_eq (f : Fmt) (a : Nat) : a % 2 ^ f.fw = a % f.signBit % 2 ^ f.fw := by
  rw [Fmt.signBit, Nat.mod_mod_of_dvd _ (Nat.pow_dvd_pow 2 (Nat.le_add_left _ _))]

/-- An infinity is an element of its sign with the largest magnitude of a value; a number stands at an exponent no less than
the least, its magnitude below that of an infinity (R178). -/
theorem Fmt.decode_of_not_nan {f : Fmt} (hf : f.nan = .ieee) {a : Nat} (h : (f.decode a).isNan = false) :
    (f.decode a = .inf (f.negative a) ∧ a % f.signBit = f.infMag) ∨
    ∃ m e, f.decode a = .num (f.negative a) m e ∧ f.leastExp ≤ e ∧
      m * 2 ^ (e - f.leastExp).toNat = f.units (a % f.signBit) ∧ a % f.signBit < f.infMag := by
  have hmag : a % f.signBit < 2 ^ f.ew * 2 ^ f.fw := by
    rw [← Nat.pow_add]; exact Nat.mod_lt _ (Nat.two_pow_pos _)
  unfold Fmt.decode at h ⊢
  simp only [hf, f.exponentField_eq, f.fractionField_eq a] at h ⊢
  unfold Fmt.units Fmt.infMag
  generalize a % f.signBit = mag at *
  have hP : 0 < 2 ^ f.fw := Nat.two_pow_pos _
  have hdm := Nat.div_add_mod' mag (2 ^ f.fw)
  have hq : mag / 2 ^ f.fw < 2 ^ f.ew := (Nat.div_lt_iff_lt_mul hP).2 hmag
  by_cases htop : mag / 2 ^ f.fw = 2 ^ f.ew - 1
  case pos =>
    rw [if_pos htop] at h ⊢
    by_cases hfr : mag % 2 ^ f.fw = 0
    · rw [if_pos hfr]
      exact .inl ⟨rfl, by rw [← htop, ← hdm, hfr, Nat.add_zero, Nat.mul_div_cancel _ hP]⟩
    · rw [if_neg hfr] at h
      exact absurd h Bool.noConfusion
  case neg =>
    rw [if_neg htop]
    have hlt : mag < (2 ^ f.ew - 1) * 2 ^ f.fw := (Nat.div_lt_iff_lt_mul hP).1 (by omega)
    right
    by_cases h0 : mag / 2 ^ f.fw = 0
    · rw [if_pos h0, if_pos h0]
      refine ⟨_, _, rfl, Int.le_refl _, ?_, hlt⟩
      rw [Fmt.leastExp, Int.sub_self, Int.toNat_zero, Nat.pow_zero, Nat.mul_one,
        Nat.mod_eq_of_lt ((Nat.div_eq_zero_iff_lt hP).1 h0)]
    · rw [if_neg h0, if_neg h0]
      have he : ((mag / 2 ^ f.fw : Nat) : Int) - f.bias - f.fw = f.leastExp + (mag / 2 ^ f.fw - 1 : Nat) := by
        rw [Int.ofNat_sub (Nat.pos_of_ne_zero h0), Fmt.leastExp]
        omega
      refine ⟨_, _, rfl, ?_, ?_, hlt⟩
      · rw [he]; exact Int.le_add_of_nonneg_right (Int.natCast_nonneg _)
      · rw [he, Int.add_comm, Int.add_sub_cancel, Int.toNat_natCast]

/-! The order of values and that of keys. -/

/-- A dyadic number as a multiple of a smaller power. -/
theorem scaled_rebase (neg : Bool) (m : Nat) {x e e0 : Int} (h0 : e0 ≤ e) (hx : e ≤ x) :
    scaled neg m x e0 = scaled neg m x e * 2 ^ (e - e0).toNat := by
  have hsum : (x - e0).toNat = (x - e).toNat + (e - e0).toNat := by omega
  unfold scaled
  rw [hsum, Int.pow_add, ← Int.mul_assoc]
  cases neg
  · rfl
  · exact (Int.neg_mul _ _).symm

/-- Two numbers are ordered as their multiples of any power no greater than either's. -/
theorem FVal.num_lt_num_iff {n1 n2 : Bool} {m1 m2 : Nat} {e1 e2 e0 : Int} (h1 : e0 ≤ e1) (h2 : e0 ≤ e2) :
    (FVal.num n1 m1 e1).lt (.num n2 m2 e2) = true ↔ scaled n1 m1 e1 e0 < scaled n2 m2 e2 e0 := by
  have h0 : e0 ≤ min e1 e2 := Int.le_min.2 ⟨h1, h2⟩
  rw [scaled_rebase n1 m1 h0 (Int.min_le_left e1 e2), scaled_rebase n2 m2 h0 (Int.min_le_right e1 e2),
    Int.mul_lt_mul_right (Int.pow_pos (by decide))]
  exact decide_eq_true_iff

/-- The finite value of an element, as a multiple of the least positive value. -/
def Fmt.signedUnits (f : Fmt) (a : Nat) : Int :=
  if f.negative a then -(f.units (a % f.signBit) : Int) else f.units (a % f.signBit)

/-- A significand and exponent that make up the magnitude of an element, with its sign, are its value. -/
theorem Fmt.scaled_leastExp {f : Fmt} {a m : Nat} {e : Int}
    (h : m * 2 ^ (e - f.leastExp).toNat = f.units (a % f.signBit)) :
    scaled (f.negative a) m e f.leastExp = f.signedUnits a := by
  unfold scaled Fmt.signedUnits
  rw [← h]
  push_cast
  rfl

/-- Elements whose values are ordered have keys in that order. -/
theorem Fmt.key_lt_key_of_signedUnits_lt {f : Fmt} {a b : Nat} (h : f.signedUnits a < f.signedUnits b) :
    f.key a < f.key b := by
  unfold Fmt.signedUnits at h
  cases hna : f.negative a <;> cases hnb : f.negative b <;>
    simp only [hna, hnb, Bool.false_eq_true, if_true, if_false] at h
  · rw [Fmt.key_of_positive hna, Fmt.key_of_positive hnb]
    exact Int.ofNat_lt.2 (Fmt.lt_of_units_lt (Int.ofNat_lt.1 h))
  · omega
  · rw [Fmt.key_of_negative hna, Fmt.key_of_positive hnb]
    omega
  · rw [Fmt.key_of_negative hna, Fmt.key_of_negative hnb]
    have hlt : b % f.signBit < a % f.signBit := Fmt.lt_of_units_lt (Int.ofNat_lt.1 (Int.neg_lt_neg_iff.1 h))
    omega

/-- Of two elements that are not NaNs, the smaller has the smaller key (R155). -/
theorem Fmt.key_lt_key_of_lt {f : Fmt} (hf : f.nan = .ieee) {a b : Nat} (ha : (f.decode a).isNan = false)
    (hb : (f.decode b).isNan = false) (h : (f.decode a).lt (f.decode b) = true) : f.key a < f.key b := by
  obtain ⟨hx, hma⟩ | ⟨m, e, hx, he, hu, hma⟩ := Fmt.decode_of_not_nan hf ha
  · obtain ⟨hy, hmb⟩ | ⟨n, k, hy, -, -, hmb⟩ := Fmt.decode_of_not_nan hf hb
    · rw [hx, hy] at h
      obtain ⟨hna, hnb⟩ : f.negative a = true ∧ f.negative b = false := by
        simpa only [FVal.lt, Bool.and_eq_true, Bool.not_eq_true'] using h
      rw [Fmt.key_of_negative hna, Fmt.key_of_positive hnb]
      omega
    · rw [hx, hy] at h
      have hna : f.negative a = true := h
      rw [Fmt.key_of_negative hna]
      cases hnb : f.negative b
      · rw [Fmt.key_of_positive hnb]; omega
      · rw [Fmt.key_of_negative hnb]; omega
  · obtain ⟨hy, hmb⟩ | ⟨n, k, hy, hk, hv, hmb⟩ := Fmt.decode_of_not_nan hf hb
    · rw [hx, hy] at h
      have hnb : f.negative b = false := by simpa only [FVal.lt, Bool.not_eq_true'] using h
      rw [Fmt.key_of_positive hnb]
      cases hna : f.negative a
      · rw [Fmt.key_of_positive hna]; omega
      · rw [Fmt.key_of_negative hna]; omega
    · rw [hx, hy, FVal.num_lt_num_iff he hk, Fmt.scaled_leastExp hu, Fmt.scaled_leastExp hv] at h
      exact Fmt.key_lt_key_of_signedUnits_lt h

/-! Minimum and maximum. -/

@[simp] theorem FVal.isNan_nan (q : Bool) : (FVal.nan q).isNan = true := rfl
@[simp] theorem FVal.isSig_nan (q : Bool) : (FVal.nan q).isSig = q := rfl

theorem FVal.isSig_of_not_nan {v : FVal} (h : v.isNan = false) : v.isSig = false := by
  cases v with
  | nan q => exact absurd h Bool.noConfusion
  | inf n => rfl
  | num n m e => rfl

section
variable {f : Fmt} {a b : Nat} (mx p : Bool)

theorem Fmt.minMax_of_isSig (h : (f.decode a).isSig = true ∨ (f.decode b).isSig = true) :
    f.minMax mx p a b = (f.dnan, fNV) :=
  if_pos (Bool.or_eq_true_iff.2 h)

theorem Fmt.minMax_of_quiet (ha : f.decode a = .nan false) (hb : f.decode b = .nan false) :
    f.minMax mx p a b = (f.dnan, 0) := by
  unfold Fmt.minMax; rw [ha, hb]; rfl

theorem Fmt.minMax_of_quiet_left (ha : f.decode a = .nan false) (hb : (f.decode b).isNan = false) :
    f.minMax mx p a b = (if p then f.dnan else b, 0) := by
  unfold Fmt.minMax
  simp only [ha, hb, FVal.isSig_of_not_nan, FVal.isSig_nan, FVal.isNan_nan, Bool.or_false, Bool.and_false,
    Bool.false_eq_true, if_false, if_true]

theorem Fmt.minMax_of_quiet_right (ha : (f.decode a).isNan = false) (hb : f.decode b = .nan false) :
    f.minMax mx p a b = (if p then f.dnan else a, 0) := by
  unfold Fmt.minMax
  simp only [ha, hb, FVal.isSig_of_not_nan, FVal.isSig_nan, FVal.isNan_nan, Bool.or_false, Bool.and_true,
    Bool.false_eq_true, if_false, if_true]

/-- Of two elements that are not NaNs the key alone chooses. -/
theorem Fmt.minMax_of_not_nan (ha : (f.decode a).isNan = false) (hb : (f.decode b).isNan = false) :
    f.minMax mx p a b = (if decide (f.key a ≤ f.key b) != mx then a else b, 0) := by
  unfold Fmt.minMax
  simp only [ha, hb, FVal.isSig_of_not_nan, Bool.or_false, Bool.and_false, Bool.false_eq_true, if_false]

/-- Where the first has the smaller key, it is the minimum, and the second the maximum. -/
theorem Fmt.minMax_of_key_lt (ha : (f.decode a).isNan = false) (hb : (f.decode b).isNan = false)
    (h : f.key a < f.key b) : f.minMax false p a b = (a, 0) ∧ f.minMax true p a b = (b, 0) := by
  rw [Fmt.minMax_of_not_nan _ _ ha hb, Fmt.minMax_of_not_nan _ _ ha hb, decide_eq_true (Int.le_of_lt h)]
  exact ⟨rfl, rfl⟩

/-- Where the second has the smaller key, it is the minimum, and the first the maximum. -/
theorem Fmt.minMax_of_key_gt (ha : (f.decode a).isNan = false) (hb : (f.decode b).isNan = false)
    (h : f.key b < f.key a) : f.minMax false p a b = (b, 0) ∧ f.minMax true p a b = (a, 0) := by
  rw [Fmt.minMax_of_not_nan _ _ ha hb, Fmt.minMax_of_not_nan _ _ ha hb, decide_eq_false (Int.not_le.2 h)]
  exact ⟨rfl, rfl⟩

theorem Fmt.minMax_self (ha : (f.decode a).isNan = false) : f.minMax mx p a a = (a, 0) := by
  rw [Fmt.minMax_of_not_nan _ _ ha ha, ite_self]

end

/-- The key of −0 is below that of +0 (R155). -/
theorem Fmt.key_signBit_lt_key_zero (f : Fmt) : f.key f.signBit < f.key 0 := by
  have hdiv : f.signBit / f.signBit = 1 := Nat.div_self (Nat.two_pow_pos _)
  have hneg : f.negative f.signBit = true := by rw [Fmt.negative, hdiv]; rfl
  have hpos : f.negative 0 = false := by rw [Fmt.negative, Nat.zero_div]; rfl
  rw [Fmt.key_of_negative hneg, Fmt.key_of_positive hpos, Nat.mod_self, Nat.zero_mod]
  decide

/-- Settles O4: with a NaN among the operands the clauses are the branches of `Fmt.minMax`; without one it chooses by
`Fmt.key`, whose order is that of the values (`Fmt.key_lt_key_of_lt`), with −0 below +0. -/
theorem minimumAndMaximum : Obligations.MinimumAndMaximum := by
  intro f hf a b p _ _ x y
  have hieee : f.nan = .ieee := by
    obtain rfl | rfl := by simpa only [List.mem_cons, List.not_mem_nil, or_false] using hf
    · rfl
    · rfl
  refine ⟨fun h => ⟨Fmt.minMax_of_isSig false p h, Fmt.minMax_of_isSig true p h⟩,
    fun ha hb => ⟨Fmt.minMax_of_quiet false p ha hb, Fmt.minMax_of_quiet true p ha hb⟩,
    fun ha hb mx => ⟨Fmt.minMax_of_quiet_left mx false ha hb, Fmt.minMax_of_quiet_left mx true ha hb⟩,
    fun ha hb mx => ⟨Fmt.minMax_of_quiet_right mx false ha hb, Fmt.minMax_of_quiet_right mx true ha hb⟩,
    fun ha hb => ⟨fun h => ?_, fun h => ?_, ?_, ?_, ?_⟩⟩
  · exact Fmt.minMax_of_key_lt p ha hb (Fmt.key_lt_key_of_lt hieee ha hb h)
  · exact Fmt.minMax_of_key_gt p ha hb (Fmt.key_lt_key_of_lt hieee hb ha h)
  · rintro rfl rfl
    exact Fmt.minMax_of_key_lt p ha hb f.key_signBit_lt_key_zero
  · rintro rfl rfl
    exact Fmt.minMax_of_key_gt p ha hb f.key_signBit_lt_key_zero
  · rintro rfl
    exact ⟨Fmt.minMax_self false p ha, Fmt.minMax_self true p ha⟩

end Sys2Proof.Machine
end
